-- ==== Sys2Proof/Word.lean ====
section
/-! DEFINITION. The word types of the N8 and the sorted table that holds its sparse storage.
Bit 0 is the least significant bit (00 R9) and byte 0 of a multi-byte value holds bits [7:0] (00 R10). -/

namespace Sys2Proof

abbrev Byte := BitVec 8
abbrev W16 := BitVec 16
abbrev W32 := BitVec 32
abbrev W48 := BitVec 48
abbrev W64 := BitVec 64

/-- Sparse storage: pairs of an index and a value, indices strictly rising, none equal to what an
unlisted index reads as. -/
abbrev Tab (α : Type) := List (Nat × α)

namespace Tab

variable {α : Type}

/-- What index `k` holds, `d` where the table lists nothing. -/
def get (d : α) : Tab α → Nat → α
  | [], _ => d
  | (i, v) :: t, k => if i = k then v else if k < i then d else get d t k

/-- A table without its first entry, index `k`; where the next index is no higher, an entry of `d` takes its place, so that reading
after a write holds of every table, sorted or not. -/
def drop (d : α) (k : Nat) : Tab α → Tab α
  | [] => []
  | (j, w) :: t => if k < j then (j, w) :: t else (k, d) :: (j, w) :: t

/-- The table with `k` holding `v`: an entry equal to `d` is left out. -/
def put [DecidableEq α] (d : α) : Tab α → Nat → α → Tab α
  | [], k, v => if v = d then [] else [(k, v)]
  | (i, w) :: t, k, v =>
    if k < i then (if v = d then (i, w) :: t else (k, v) :: (i, w) :: t)
    else if i = k then (if v = d then drop d k t else (k, v) :: t)
    else (i, w) :: put d t k v

/-- Every index of the table is above `n`. -/
def above (n : Nat) : Tab α → Bool
  | [] => true
  | (i, _) :: t => decide (n < i) && above n t

/-- The canonical form: indices strictly rising, no entry equal to `d`. -/
def wf [DecidableEq α] (d : α) : Tab α → Bool
  | [] => true
  | (i, v) :: t => above i t && decide (v ≠ d) && wf d t

end Tab

end Sys2Proof
end

