-- ==== Sys2Proof/Syntax.lean ====
section
/-! DEFINITION. The commands: one constructor of `Instr` for each row of spec/opcode_table.json.

Cores are numbered 0 to 25,599 (6,400 d + 16 n + k for core k of cluster n on C-die d, 01 R19), clusters 0 to 1,599
(400 d + n), C-dies 0 to 3, M-dies and E-dies 0 and 1. A cue operation names the core and the thread that issues it: the
operation's own fields are those of the word at the thread's cue pointer (07 R197). An event of the part names the
element at which it happens, and carries what only the world outside can supply (a measured value, a received flit,
the outcome of a check on a wire). -/

namespace Sys2Proof

/-- Who makes a register access: a host port through BAR0, or house firmware (16 R489). -/
inductive Agent where
  | host (port : Nat)
  | house
  deriving DecidableEq, Repr

/-- The name of a task: id, gen and child index, 0xFFFF for a task that is no child (10 R294 R305). -/
structure TaskKey where
  id    : W32
  gen   : W16
  child : W16
  deriving DecidableEq, Repr

/-- The node whose release happens (11 R341): a cluster's curtain, a replica's (named by its anchor), a package curtain. -/
inductive CurtNode where
  | cluster (cl c : Nat)
  | scene   (anchor c : Nat)
  | package (p : Nat)
  deriving DecidableEq, Repr

/-- What a scrub finds in the word it reads (18 R533 R534). -/
inductive Scrub where
  | clean
  | single (addr : Nat)
  | double (addr : Nat)
  deriving DecidableEq, Repr

/-- One detected hardware error as the detecting unit reports it (18 R550 R551). -/
structure Report where
  source : Nat
  domain : Nat
  die    : Nat
  place  : Nat
  core   : Nat
  unit   : Nat
  task   : Option TaskKey
  addr   : Nat
  detail : W64
  deriving DecidableEq, Repr

/-- One transaction of an AVSBus link (12 R369 R370): rail 0 or 1 of the link. -/
inductive Avs where
  | write
  | current (rail milliamp : Nat)
  | temp    (rail celsius : Nat)
  deriving DecidableEq, Repr

/-- A BAR2 access (16 R485): a read of `len` bytes, or a write. -/
inductive Bar2 where
  | read  (len : Nat)
  | write (data : List Byte)
  deriving DecidableEq, Repr

/-- How an LPDDR5X channel answers a row read (13 R395 R398): clean, with a first read that fails on the link, with both reads
failing on the link, or not at all. -/
inductive Link where
  | clean | once | twice | silent
  deriving DecidableEq, Repr

/-- The FEC decoder's answer for a received flit is an operand of its command: the codewords corrected, none when correction failed
(14 R410 R447). Temperatures of monitors are given as °C + 40, as 12 R359 shows them; those of `Avs` and `thermalTrip` in °C. -/
inductive Instr where
  -- cue operations, 07
  | endOp (c t : Nat)
  | nop (c t : Nat)
  | fence (c t : Nat)
  | intv (c t : Nat)
  | loop (c t : Nat)
  | shop (c t : Nat)
  | adda (c t : Nat)
  | ldr (c t : Nat)
  | str (c t : Nat)
  | mov (c t : Nat)
  | trd (c t : Nat)
  | srd (c t : Nat)
  | gath (c t : Nat)
  | xfer (c t : Nat)
  | cinv (c t : Nat)
  | mat (c t : Nat)
  | maux (c t : Nat)
  | run (c t : Nat)
  | send (c t : Nat)
  | post (c t : Nat)
  | recv (c t : Nat)
  | wait (c t : Nat)
  | cue (c t : Nat)
  | curt (c t : Nat)
  -- engines and memory, 03 04 05 06 13
  | matrixStepStart (c : Nat)
  | matrixStepRetire (c : Nat)
  | epilogueStart (c : Nat)
  | epilogueEnd (c : Nat)
  | elementRunStart (c : Nat)
  | elementRunEnd (c : Nat)
  | rowMoveStart (c : Nat)
  | rowMoveComplete (c uid : Nat)
  | cacheFillLands (c line : Nat)
  | transferComplete (c uid : Nat)
  | rowRead (addr : Nat) (link : Link) (ecc : Nat)
  | rowWrite (addr : Nat)
  | partialWrite (addr : Nat)
  | refresh (ch rate : Nat) (hot : Bool) (waited : Nat)
  | retrain (ch : Nat) (ok : Bool) (waited : Nat)
  -- tasks, 10
  | taskSubmit (house : Option (List Byte))
  | predecessorResolve (k : TaskKey)
  | predicateRead (k : TaskKey)
  | taskStart (anchor : Nat)
  | handlerDispatch (c : Nat)
  | taskComplete (anchor : Nat)
  | fanListRead (k : TaskKey)
  | fanChildCreate (k : TaskKey)
  | shareTick
  | preemptLapse (anchor : Nat)
  | saveBegin (anchor : Nat)
  | saveComplete (anchor : Nat)
  | restoreBegin (anchor : Nat)
  | restoreComplete (anchor : Nat)
  | stgPreemptReq (by_ : Agent) (d : Nat) (v : W32)
  | seatEnable (by_ : Agent) (seat : Nat) (v : W32)
  | seatDisable (by_ : Agent) (seat : Nat) (v : W32)
  | stgShareCfg (by_ : Agent) (v : W32)
  -- cue wires, curtains, channels, 09 11
  | cueRemoteAdd (c : Nat)
  | wireForward (cl : Nat)
  | cueInEdge (i : Nat)
  | curtainRelease (node : CurtNode)
  | packageCurtainTimeout (p : Nat)
  | messageArrive (c q : Nat)
  | creditReturn (c r : Nat)
  | channelWatchdog (c t : Nat)
  | cueSheetSlot (d : Nat)
  | houseSlot (d : Nat) (scrub : Scrub) (golden : Nat)
  | prompterRepair (d : Nat)
  -- pace and time, 12
  | beatMonitorWindow (d : Nat) (loops temps : List Nat)
  | monitorCalibration (d : Nat) (loops : List Nat)
  | demandSnapshot (d : Nat)
  | controlPeriod
  | rateTableRefresh (d j : Nat)
  | avsTransactionComplete (link : Nat) (kind : Avs) (ok : Bool)
  | pceStatAvsClear (by_ : Agent) (v : W32)
  | trvBmonClr (by_ : Agent) (d : Nat) (v : W64)
  | timebaseAlign
  | ppsEdge
  | holdover
  | timSet (by_ : Agent) (v : W64)
  -- fabric, 14
  | portTraining (n : Nat) (ok : Bool)
  | portDown (n cause : Nat)
  | dataFlit (n : Nat) (flit : List Byte) (fec : Option Nat)
  | idleFlit (n : Nat) (flit : List Byte) (fec : Option Nat)
  | nak (n : Nat) (flit : List Byte) (fec : Option Nat)
  | timeFlit (n : Nat) (flit : List Byte) (fec : Option Nat)
  | timeFlitSend (n : Nat)
  | packetForward (e : Nat)
  | escapeTimeout (e i : Nat)
  | fabricDoorbell (q : Nat)
  | fabricDescriptorStart (q : Nat)
  | put (e : Nat)
  | getReq (e : Nat)
  | getResp (e : Nat)
  | signal (e : Nat)
  | signalAdd (e : Nat)
  | red (e : Nat)
  | ack (e : Nat)
  | curtArrive (n : Nat)
  | curtRelease (n : Nat)
  | brk (e : Nat)
  | ackTimeout (e i : Nat)
  | fabSwap (by_ : Agent) (v : W32)
  | injectStop (by_ : Agent) (v : W32)
  | fabCfgWrite (by_ : Agent) (v : W32)
  | circuitTableWrite (by_ : Agent) (c half : Nat) (v : W64)
  | retrainPort (by_ : Agent) (n : Nat)
  | clearHighWater (by_ : Agent) (n : Nat)
  -- scripts and the chain, 15
  | cfgLoad (by_ : Agent) (v : W64)
  | cfgLoadDoorbell
  | scriptCheck
  | scriptCommit (mismatched : List Nat)
  | sceneQuietTimeout
  | chainData (block : List Byte)
  | chainEnd (block : List Byte)
  | abort (block : List Byte)
  | chainIdle (block : List Byte)
  | chainIdleSend
  | chainPositionTimeout
  | upstreamTimeout
  -- host, 16
  | submissionDoorbell (port ring : Nat) (v : W32)
  | ringEntryRead (ring : Nat) (entries : Option (List (List Byte)))
  | completionHeadDoorbell (port ring : Nat) (v : W32)
  | completionTimeThreshold (ring : Nat)
  | functionLevelReset (port : Nat)
  | hstWin (by_ : Agent) (port : Nat) (v : W64)
  | bar2Access (port off : Nat) (acc : Bar2)
  | registerWrite (by_ : Agent) (off width : Nat) (v : W64)
  | cluChHsel (by_ : Agent) (cl k : Nat) (v : W32)
  | memChWaitMax (by_ : Agent) (ch : Nat) (v : W32)
  | errLogRd (by_ : Agent) (v : W64)
  | pwrLimit (by_ : Agent) (v : W32)
  | stuckRelease (by_ : Agent) (v : W32)
  -- boot and security, 17
  | pwrGoodAssert
  | pwrGoodLoss
  | auxGoodLoss
  | resetNAssert
  | resetNRelease
  | bootAreaRead (flash : Option (List Byte)) (puf : List (List Byte))
  | firmwareVerify (image : List Byte)
  | rehearsal (passed : List (BitVec 400)) (trained : List Bool) (rates : List (List Nat)) (temps : List Nat)
  | baseScriptLoad (stream : Option (List Byte)) (mismatched : List Nat)
  | bootPortTraining (host : List (Option (Nat × Nat × Bool))) (fabric : List Bool)
  | secProvCtl (by_ : Agent) (v : W32)
  | ownerRecordBuilt (iv : List Byte)
  | secExtend (by_ : Agent) (v : W32)
  | secQctl (by_ : Agent) (v : W32)
  | quoteSign
  | quoteComplete
  -- errors, 18
  | errorLogEntry (r : Report)
  | recoveryWindowExpiry
  | sceneRecovery (anchor cluster : Nat) (mismatched : Bool)
  | refclkLoss
  -- power and pins, 19
  | thermalTrip (die sensor celsius : Nat)
  | bandGateOff (d b : Nat)
  | bandPowerUp (d b : Nat)
  | filteredEdge (i : Nat) (level : Bool) (start : W64) (held : Bool)
  | stuckInput (i : Nat)
  -- I3C, 19 R575 to R577
  | enec
  | disec
  | rstdaa
  | entdaa (addr : BitVec 7)
  | setdasa (addr : BitVec 7)
  | setnewda (addr : BitVec 7)
  | setmwl (n : W16)
  | setmrl (n : W16)
  | getmwl
  | getmrl
  | getpid
  | getbcr
  | getdcr
  | getstatus
  | i3cRead (off : W32) (wide : Bool)
  | i3cWrite (off : W32) (wide : Bool) (v : W64)
  | i3cPrivateRead
  -- JTAG, 19 R578
  | extest (cells : List Bool)
  | idcode
  | samplePreload (cells : List Bool)
  | extestPulse (cells : List Bool)
  | extestTrain (cells : List Bool)
  | jtagClamp
  | highz
  | bypass (code : Byte)
  | testLogicReset
  | regacc (dr : BitVec 104)
  -- rows the table lists last
  | auxGoodAssert (random : W32)
  | ibiTaken
  | unlistedCcc (code : Byte)
  | msixTableWrite (port off : Nat) (v : W32)
  | bar0RefusedRead (by_ : Agent) (off width : Nat)
  | fabPortCfg (by_ : Agent) (n : Nat) (v : W32)
  deriving DecidableEq, Repr

end Sys2Proof
end

