-- ==== Sys2Proof/Config.lean ====
section
/-! DEFINITION. What the manual leaves to the part or leaves open: constants without a body, of which nothing can be proved
but what holds for every value. -/

namespace Sys2Proof.Config

open Sys2Proof

/-- The result bits of fgelu32 and of fsilu32, which the library words fix within the bounds of 04 R124 (04 R582, log 8).
The model keeps them only where they lie within the bound. -/
opaque gelu32 : W32 → W32
opaque silu32 : W32 → W32

/-- The C40 approximants of GELU, SiLU and exp2 in a FINAL chain (05 R155, 04 R582, log 8). -/
opaque geluC40 : BitVec 40 → BitVec 40
opaque siluC40 : BitVec 40 → BitVec 40
opaque exp2C40 : BitVec 40 → BitVec 40

/-- The root secret that error correction gives for a PUF reading and the syndrome of the helper data (17 R512 R513, log 9):
the manual does not give the code. -/
opaque pufCorrect : List Byte → List Byte → List Byte

/-- SHA-256 of the mask ROM's contents and the vendor key hash it holds (17 R515 R520): the manual gives no contents. -/
opaque romHash : List Byte
opaque vendorHash : List Byte

/-- The MIPI manufacturer identifier (15 bits, 19 R575) and the JEDEC manufacturer code (11 bits, 19 R578). -/
opaque mipiId : BitVec 15
opaque jedecId : BitVec 11

/-- The PCI vendor and device identifiers of the N8 (16 R482): the manual gives no numbers. -/
opaque pciVendor : W16
opaque pciDevice : W16

/-- The number of cells of the boundary scan register (19 R578): the manual gives none. -/
opaque boundaryCells : Nat

/-- The levels that the boundary cells capture (19 R578, log 41): capture, cell. -/
opaque pinLevels : Nat → Nat → Bool

/-- The data that a board management path shows where the manual gives it none (19 R576 R578, log 41): 0 in an I3C read that is refused,
1 in a JTAG capture of a write or of a refused read. -/
opaque noData : Nat → W64

/-- The positions that COMPRESS names for a group with spare slots (04 R135, 03 R89, log 14): nonzero positions, slots kept, group
size. The model keeps them only where R89 permits them. -/
opaque spareSlots : List Nat → Nat → Nat → List Nat

/-- What CLAMP gives under a bound that is NaN or negative (04 R132, log 14): bound and element codes. -/
opaque clampOdd : Nat → Nat → Nat

/-- The bytes of a save area's state blocks, which are for the N8's own use (10 R323, log 22): save, byte of the area. -/
opaque stateBlock : Nat → Nat → Byte

/-- The rate in Mbeat/s of a beat monitor that has not been calibrated, from its loop count (12 R357, log 27): the manual gives
no calibration ratio at reset. -/
opaque rawRate : Nat → W16

/-- The status that a fabric descriptor fails with when no answer gives one: its packets timed out or its circuit is lost (14 R430
R440, log 29). -/
opaque noStatus : Byte

/-- The voltage in mV that house firmware sets on VCORE_M0 and VCORE_M1 at boot (19 R556, log 38). The model keeps it in the range of
19 R555. -/
opaque mRail : Nat → Nat

end Sys2Proof.Config
end

