-- ==== Sys2Proof/Machine/State.lean ====
section
/-! DEFINITION. The state of the N8 as plain data: the part and the queue of commands. A register that has an address is held in `regs` under its register
offset (00 R11), unless its value is composed from other state; everything else the manual gives the part has a field here. -/

namespace Sys2Proof.Machine

open Sys2Proof (Byte W16 W32 W48 W64 Tab TaskKey Bar2)

/-- No command of the N8 stops the machine with a fault: every error of the manual is an effect on the state
(18 R536). The type has no constructor, so none is raised. -/
inductive Fault where
  deriving DecidableEq, Repr

/-- A command without a meaning in the model. -/
inductive Refusal where
  /-- Raised by an arm of `exec` whose meaning is not written. Safe: the machine stops where the part would go on. -/
  | notModelled (mnemonic : String)
  deriving DecidableEq, Repr

/-! ### Cores -/

/-- A thread's state (06 R168). -/
inductive ThState where
  | idle | ready | wait | stall
  deriving DecidableEq, Repr

/-- One loop level of a thread (07 R203). -/
structure LoopLevel where
  lc     : W32
  count  : W32
  start  : Nat
  stop   : Nat
  active : Bool
  deriving DecidableEq, Repr

/-- What a waiting or stalled thread waits for (06 R168 R170, 07 R211 R212 R231 to R235). A `mark` is the uid at the thread's
issue: operations below it were issued earlier. A thread whose SEND is blocked is held by that operation (`Core.sendHeld`). -/
inductive Waiting where
  | nothing
  | stall (mark : Nat)
  | wire (sel : Nat)
  | counter (i : Nat) (value : W16) (consume : Bool)
  | queue (q : Nat)
  | oper (uid : Nat)
  | fence (mask : BitVec 7) (scope : Bool) (mark : Nat)
  | parking (mark : Nat)
  | parked
  | fill (lines : List Nat) (sync : Option Nat)
  | curtain (c : Nat)
  | rearrive (c : Nat) (wait : Bool)
  | recv (uid q place slot done : Nat)
  deriving DecidableEq, Repr

/-- One cue thread context (06 R167). -/
structure Thread where
  ptr     : Nat
  st      : ThState
  why     : Nat
  handler : Bool
  queue   : Nat
  took    : Bool
  loops   : List LoopLevel
  on      : Waiting
  deriving DecidableEq, Repr

/-- The fields of a MAUX word (07 R227). -/
structure Maux where
  mrow : Nat
  pat : Nat
  amap : Nat
  bmap : Nat
  amrow : Nat
  bmrow : Nat
  asrow : Nat
  bsrow : Nat
  count : Nat
  deriving DecidableEq, Repr

/-- A matrix step with every value taken at issue (07 R204 R223 R224). -/
structure MatStep where
  uid : Nat
  thread : Nat
  m : Nat
  n : Nat
  k : Nat
  arow : Nat
  brow : Nat
  atag : Nat
  btag : Nat
  shape : Nat
  acc : Bool
  scan : Bool
  tile : Nat
  chain : Nat
  close : Bool
  done : Nat
  slices : Nat
  tri : Bool
  aux : Option Maux
  deriving DecidableEq, Repr

/-- An element program run (07 R229). -/
structure VecRun where
  uid : Nat
  thread : Nat
  prog : Nat
  order : Bool
  done : Nat
  deriving DecidableEq, Repr

/-- What a row-move operation does, its values taken at issue (07 R204 R213 to R222 R230 R232). -/
inductive Move where
  | ldr (place addr n : Nat) (cached : Bool)
  | str (place addr n : Nat) (cached : Bool)
  | mov (dst src n : Nat)
  | trd (dst row j w : Nat)
  | srd (dst row d s : Nat)
  | gath (dst list e0 base n sh : Nat)
  | cinv (all : Bool) (line : Nat)
  | send (place slot route : Nat) (wait : Bool)
  | recv (q place slot : Nat)
  deriving DecidableEq, Repr

/-- A row-move operation, queued or started. `looked` says that the lines of a cached load have been looked up, `data` holds
what a started operation has read and will write: places and bytes, or the message of a SEND or POST; `since` is the interval count at which a SEND
of an ordinary thread was found blocked (07 R231, 12 R355). -/
structure MoveOp where
  uid : Nat
  thread : Nat
  what : Move
  done : Nat
  sync : Bool
  looked : Bool
  data : List (Nat × List Byte)
  since : Option W64
  deriving DecidableEq, Repr

/-- The side record of an accumulator tile (02 R45, 05 R145, 08 R255). `atag` to `fed` belong to the accumulation as issued, which the
check of 02 R581 looks at; `pair`, `pairS`, `pairTri` and `pairOsr` are the operand pair of the X that the tile now holds and what its
opening step fixed with it (02 R52). Anchors are scale bytes for a block-scaled pair and exponents for a wide one. `resid` holds each
element's residue ρ as its difference from X mod 3, so that the empty table is a tile whose checks pass (03 R98). -/
structure Side where
  atag : Nat
  btag : Nat
  slices : Nat
  tri : Bool
  isOpen : Bool
  fed : Bool
  pair : Nat × Nat
  pairS : Nat
  pairTri : Bool
  pairOsr : Bool
  rows : List (Option Int)
  cols : List (Option Int)
  flags : Tab (BitVec 2)
  resid : Tab (BitVec 2)
  extM : Nat
  extN : Nat
  factors : Option (List (BitVec 40))
  deriving DecidableEq, Repr

/-- A channel message with its sideband (09 R278). -/
structure Msg where
  data : List Byte
  epoch : BitVec 4
  core : Nat
  route : Nat
  task : Option TaskKey
  deriving DecidableEq, Repr

/-- An inbound queue (09 R279 R286). Its state UNUSED, ACTIVE, DARK or RETIRED follows from the routes and replicas
(`Part.queueState`). -/
structure ChQueue where
  msgs : List Msg
  epoch : BitVec 4
  running : Bool
  deriving DecidableEq, Repr

/-- The state of a route (09 R278 R281 R289). The ring's messages lie in scratchpad rows from position `head` on; `ring` keeps
what is route state: their epochs and senders. -/
structure Route where
  credits : Nat
  ring : List Msg
  head : Nat
  epoch : BitVec 4
  ringFull : Bool
  wdog : Bool
  darkFault : Bool
  deriving DecidableEq, Repr

/-- One way of a cache set (06 R184). `age` 0 is the least recently used. -/
structure Way where
  line : Nat
  valid : Bool
  filling : Bool
  age : Nat
  deriving DecidableEq, Repr

/-- A core's unreleased arrival on a curtain (11 R342): the thread that waits for it, if one does. -/
structure Arrival where
  pending : Bool
  waits : Bool
  deriving DecidableEq, Repr

/-- A core. `due` lists the threads that were READY as the present beat began and have still to issue in it; `sh0` and `ptrs0` are the
shape and pointer registers as they stood then (06 R170, 07 R204). -/
structure Core where
  threads : List Thread
  sh : List W32
  ptrs : List W48
  due : List Nat
  sh0 : List W32
  ptrs0 : List W48
  cnt : List W32
  wire : W64
  xcue : Byte
  matq : List MatStep
  matRun : List MatStep
  epiq : List MatStep
  epiRun : Option MatStep
  epiOut : List (Nat × List Byte)
  sides : List Side
  vecq : List VecRun
  vecRun : Option VecRun
  lanes : List (List W32)
  moveq : List MoveOp
  moving : List MoveOp
  cache : Tab Way
  queues : List ChQueue
  routes : List Route
  arrivals : Tab Arrival
  pads : List W32
  deriving DecidableEq, Repr

/-- The node of a cluster for one curtain (11 R341 R349). -/
structure CurtState where
  gen : Byte
  arrived : List Nat
  deriving DecidableEq, Repr

structure Cluster where
  curts : Tab CurtState
  board : List TaskKey
  deriving DecidableEq, Repr

/-! ### Rows on their way -/

/-- One row request of a transfer engine (13 R384): the row at `src` goes to `dst`, both package addresses. `moved` counts
the half-rows that have left for the present leg (09 R265), `stage` the stages that the next one has crossed in house slots (09 R583); `fill` is the way of a cache fill and `thread` the thread that asked for it; `got` says that the row has been read, `landed` that it is written. -/
structure Req where
  uid : Nat
  core : Nat
  idx : Nat
  src : Option Nat
  dst : Option Nat
  row : List Byte
  got : Bool
  moved : Nat
  stage : Nat
  landed : Bool
  fill : Option Nat
  thread : Nat
  task : Option TaskKey
  deriving DecidableEq, Repr

/-- What a movement on the traverse network does next (09 R260): the serving slice reads, the half-row is written to the requester's place,
the half-row is written to its slice, the acknowledgement reaches the writing unit. -/
inductive NetStep where
  | serve | land | write | ack
  deriving DecidableEq, Repr

/-- A half-row or read request on the traverse network of die `die`, whose step falls in beat `due`: the request it belongs to, the cluster at
the other end, the row's address and bytes. A row is read, and written, with its upper half (13 R391); `counts` marks the movement that the
serving port counts, one for a merge set (09 R268). -/
structure NetMove where
  die : Nat
  due : Nat
  step : NetStep
  uid : Nat
  idx : Nat
  peer : Nat
  far : Bool
  addr : Nat
  upper : Bool
  counts : Bool
  row : List Byte
  deriving DecidableEq, Repr

/-- A transfer descriptor in flight (13 R387), with the pit word's bits and whether its rows are being written. -/
structure Xfer where
  uid : Nat
  core : Nat
  thread : Nat
  done : Nat
  sync : Bool
  desc : List Byte
  writing : Bool
  submits : Nat
  task : Option TaskKey
  deriving DecidableEq, Repr

/-- A write of fewer than 512 B that waits at its controller (13 R394). -/
structure Partial where
  addr : Nat
  data : List Byte
  port : Nat
  deriving DecidableEq, Repr

/-- An access through BAR2 to core memory views that has reached the core and waits for operations issued before it (06 R194): its place in
the order of issue, the host port it came from. -/
structure ViewWait where
  uid : Nat
  port : Nat
  addr : Nat
  acc : Bar2
  deriving DecidableEq, Repr

/-- A message, credit, counter addition or firing between its sender and its target. `due` is the beat at which a message that has left its
cluster port enters its queue (09 R260 R278); one that crosses dies has no such beat and may arrive from 0 on. -/
inductive Flight where
  | msg (core q : Nat) (m : Msg) (due : Option Nat)
  | credit (core route : Nat)
  | add (core counter : Nat) (value : W16)
  | fire (cluster wire : Nat)
  deriving DecidableEq, Repr

/-! ### Tasks, scenes, replicas -/

/-- 10 R300. -/
inductive TaskState where
  | waiting | ready | placed | running | switchedOut | expanding | holding
  deriving DecidableEq, Repr

/-- Where a descriptor came from: a host ring, a task's transfer, or house firmware (10 R297). -/
inductive Source where
  | ring (i : Nat)
  | xfer (uid : Nat)
  | house
  deriving DecidableEq, Repr

structure Submission where
  src : Source
  desc : List Byte
  deriving DecidableEq, Repr

/-- A task in flight (10 R294 to R324). -/
structure Task where
  key : TaskKey
  scene : Nat
  seat : Nat
  group : Nat
  kind : Nat
  cost : Nat
  flags : W16
  shape : Nat
  fanMax : Nat
  pred : W64
  preds : List (W32 × W16)
  predFailed : Bool
  predSkipped : Bool
  ptrs : List Nat
  src : Source
  home : Nat
  slot : Nat
  st : TaskState
  askPred : Bool
  stamp : W64
  aborts : Nat
  anchor : Option Nat
  claimed : Option Nat
  save : Option (Nat × Nat × Nat)
  list : List (Nat × Nat)
  nextChild : Nat
  children : Nat
  childFailed : Bool
  listRead : Bool
  beat0 : W64
  overrun : Bool
  charged : W64
  deriving DecidableEq, Repr

inductive RunState where
  | free | running | saving | restoring
  deriving DecidableEq, Repr

/-- A pre-emption request on a replica (10 R320): when it was made, and whether its save waits its turn. -/
structure Preempt where
  beat : W64
  parked : Bool
  claim : Option TaskKey
  deriving DecidableEq, Repr

/-- A replica of a scene (10 R292): a rectangle of clusters with its lowest cluster as anchor. `clamp` is the clamp record of its scene
(15 R463). -/
structure Replica where
  scene : Nat
  j : Nat
  die : Nat
  origin : Nat
  w : Nat
  h : Nat
  fenced : Bool
  clamp : W32
  dark : Bool
  st : RunState
  task : Option TaskKey
  preempt : Option Preempt
  curts : Tab CurtState
  deriving DecidableEq, Repr

/-- A scene of the repertoire (15 R463). `decl` holds (scope, notify, package curtain) for curtains 0 to 15;
`retiring` says that the scene refuses new tasks, since it leaves the repertoire or its regions are still to be released (15 R473). -/
structure Scene where
  num : Nat
  fenced : Bool
  w : Nat
  h : Nat
  r : Nat
  cost : Nat
  interval : Nat
  quiet : Nat
  limits : List Nat
  clamp : W32
  decl : List (Nat × Nat × Nat)
  shape : List Byte
  script : Nat
  retiring : Bool
  deriving DecidableEq, Repr

/-- A package curtain (11 R344 R350). -/
structure PCurt where
  gen : Byte
  tasks : List TaskKey
  kids : W16
  sentUp : Bool
  first : Option W64
  deriving DecidableEq, Repr

/-- What the state blocks of a save area hold (10 R323, 11 R347): the cores of a switched-out task in the order of the area, the
curtain nodes of its clusters and of its replica. `uid` names the save. -/
structure Saved where
  key : TaskKey
  uid : Nat
  cores : List Core
  curts : List (Tab CurtState)
  scene : Tab CurtState
  deriving DecidableEq, Repr

structure Stage where
  tasks : List Task
  replicas : List Replica
  scenes : List Scene
  inbox : List Submission
  charge : Tab Nat
  seatOff : List Nat
  saveq : List Nat
  areas : List (Nat × Nat × Nat)
  saved : List Saved
  pcurts : Tab PCurt
  tickAt : W64
  deriving DecidableEq, Repr

/-! ### Time and pace -/

/-- The timebase (12 R352 to R356). `slew` is the offset still to be absorbed, in units of 2^-32 ns; `copies` are those of the four
C-dies, the two M-dies and E1. -/
structure Time where
  now : W64
  frac : W32
  interval : W64
  slew : Int
  ppsLast : W64
  parentLast : W64
  copies : List W64
  deriving DecidableEq, Repr

/-- What the pace controller keeps for a C-rail beside its registers (12 R358 R363 R364 R366 R367 R370 R371). `demand` is the largest
demand of the period as a fraction, `took` the beat at which a voltage command last took effect, `held` the time since which the
code has stood near one point of the rate table, `energy` is in fJ, `beatRate` the TRV_BEAT rate of the last period; `meas` sums and counts
the measured rates of the period, `bad` says that the last voltage write of the period failed, `rise` is a code that a snapshot called for
and that is still to be commanded, `fresh` that a rate was measured since the last step down. For the C-die of the rail: the start of its
last scrub sweep, the house slots that the sweep still needs, and the end of its last calibration window (12 R375). -/
structure Rail where
  therm : Nat
  power : Nat
  fails : Nat
  lastCmd : Option W64
  sending : Option Nat
  tries : Nat
  held : W64
  demand : Nat × Nat
  late : Bool
  took : Option W64
  energy : Nat
  beatAt : W64
  beatRate : Nat
  meas : Nat × Nat
  bad : Bool
  rise : Option Nat
  fresh : Bool
  sweepAt : W64
  sweepLeft : Nat
  calAt : W64
  deriving DecidableEq, Repr

/-- Currents of the six steered rails in mA, the voltages of the M-rails in mV, retries of the period's reads, the end of the last
period, and the power limit in effect (12 R369 R370, 19 R569). -/
structure Pace where
  rails : List Rail
  amps : List Nat
  mvolts : List Nat
  reads : Tab Nat
  lastPeriod : W64
  limit : Nat
  deriving DecidableEq, Repr

/-! ### Fabric -/

/-- A packet with its 32-B header and payload (14 R421), and the flit buffers it takes up at the receiver: port, channel, how many
(14 R411). -/
structure Packet where
  head : List Byte
  body : List Byte
  held : Option (Nat × Nat × Nat)
  deriving DecidableEq, Repr

/-- A DATA flit not yet acknowledged: its sequence number, channel and payload, how often it has been replayed, and the packets whose last
bytes it carries (14 R407 R410). -/
structure SentFlit where
  seq : Nat
  vc : Nat
  payload : List Byte
  tries : Nat
  ends : List Packet
  deriving DecidableEq, Repr

/-- A fabric port's link layer (14 R407 to R412 R438): `part` holds how many bytes of the first packet of each output queue have gone,
`rxFlits` the flit buffers that a packet still incomplete takes up, `slot` the present flit slot. -/
structure Port where
  st : Nat
  locked : Bool
  cause : Nat
  txSeq : Nat
  replay : List SentFlit
  credits : List Nat
  owe : List Nat
  rxSeq : Nat
  rx : List (List Byte)
  outq : List (List Packet)
  part : List Nat
  rxFlits : List Nat
  slot : Nat
  curtIn : List Packet
  peerSent : W64
  peerAt : W64
  ackAt : W64
  deriving DecidableEq, Repr

/-- A packet held by the router of an E-die: the virtual channel it is on, since when it waits, whether this part's own NI sent it. -/
structure Transit where
  pkt : Packet
  e : Nat
  vc : Nat
  since : W64
  own : Bool
  deriving DecidableEq, Repr

/-- A packet the NI has sent and that is not yet acknowledged (14 R429 R430). -/
structure Unacked where
  e : Nat
  xid : W32
  desc : Nat
  pkt : Packet
  at_ : W64
  circuit : Option Nat
  local_ : Nat
  deriving DecidableEq, Repr

/-- An active fabric descriptor (14 R425 to R428): `todo` lists the packets still to form, first row and row count; `begun` once one has
been formed. -/
structure FabDesc where
  num : Nat
  q : Nat
  index : Nat
  bytes : List Byte
  owner : Option TaskKey
  todo : List (Nat × Nat)
  begun : Bool
  deriving DecidableEq, Repr

/-- A doorbell write not yet taken: the queue, its new tail, the task that rang and whether that task has been aborted since
(14 R425 R426). -/
structure Bell where
  q : Nat
  tail : Nat
  owner : Option TaskKey
  dead : Bool
  deriving DecidableEq, Repr

/-- `bells` are doorbell writes not yet taken, `owners` the owner of each ring entry revealed (queue × 2^16 + index), `dropped`
those discarded by an abort, `switched` the circuit in use for a circuit that has changed to its understudy. -/
structure Fabric where
  ports : List Port
  transit : List Transit
  inbox : List (Nat × Packet)
  descs : List FabDesc
  unacked : List Unacked
  rt0 : Tab W32
  rt1 : Tab W32
  active : Bool
  tails : Tab Nat
  bells : List Bell
  owners : Tab (Option TaskKey)
  dropped : Tab Bool
  nextXid : W32
  circSent : Tab Nat
  circSeen : Tab (Option Nat)
  switched : Tab (Option Nat)
  nextDesc : Nat
  deriving DecidableEq, Repr

/-! ### Scripts and the chain -/

/-- A pending load request: the script's address, and the doorbell word to answer into (15 R471). -/
structure LoadReq where
  addr : Nat
  bell : Option Nat
  deriving DecidableEq, Repr

/-- How far a script has come (15 R473). -/
inductive ScriptStage where
  | checked | draining | darkened
  deriving DecidableEq, Repr

/-- The script under load: its pool place and number, its clear frames (kind, scene, target, body), its scene records. `old` holds the
replicas that it retires or moves, whose regions stay dark until it is done (15 R472 R473). -/
structure Staged where
  num : Nat
  req : Option LoadReq
  base : Nat
  mib : Nat
  version : W32
  last : List Byte
  frames : List (Nat × Nat × Nat × List Byte)
  records : List (List Byte)
  stage : ScriptStage
  at_ : W64
  old : List Replica
  deriving DecidableEq, Repr

/-- A script kept in the retained pool with its epoch-0 key (15 R456 R458 R459). -/
structure Kept where
  num : Nat
  base : Nat
  mib : Nat
  scenes : List Nat
  key0 : List Byte
  deriving DecidableEq, Repr

/-- A golden entry of a prompter (15 R476). -/
structure Golden where
  die : Nat
  addr : Nat
  len : Nat
  crc : W32
  script : Nat
  frame : Nat
  deriving DecidableEq, Repr

/-- `rung` holds doorbell words that have been written and not yet read, `sweep` the time at which each prompter began its sweep. -/
structure Script where
  st : Nat
  busyRefused : Bool
  reqs : List LoadReq
  staged : Option Staged
  rung : List Nat
  kept : List Kept
  golden : List Golden
  mismatch : List Golden
  sweep : Tab W64
  nextNum : Nat
  deriving DecidableEq, Repr

/-- The chain link (15 R467 to R469, 17 R507). `stream` is the part's own script as far as it has come, `left` counts the blocks of the
script under way, `mode` says whether it is kept (0), forwarded (1) or discarded (2). -/
structure Chain where
  pos : Nat
  fixed : Bool
  seen : Bool
  fixedAt : W64
  lastBlock : W64
  lastIdle : W64
  sentOther : Bool
  gotBoot : Bool
  gotScript : Bool
  ended : Bool
  boot : List Byte
  stream : List Byte
  left : Nat
  mode : Nat
  deriving DecidableEq, Repr

/-! ### Host, security, errors, power -/

/-- What a ring keeps beside its registers (16 R491 R497 to R499). -/
structure Ring where
  tail : Nat
  cqHead : Nat
  held : List (List Byte)
  fresh : Nat
  oldest : Option W64
  deriving DecidableEq, Repr

/-- `turn` is the ring that is served next (16 R491). -/
structure HostPorts where
  rings : Tab Ring
  msix : Tab W32
  pba : Tab Bool
  turn : Nat
  deriving DecidableEq, Repr

/-- A quote request (17 R523), and the quote being signed (17 R525). -/
structure QuoteReq where
  nonce : List Byte
  addr : Nat
  body : Option (List Byte)
  deriving DecidableEq, Repr

/-- What the security engine keeps beside its registers (17 R512 to R525). `hidden` holds write-only registers. -/
structure Security where
  rpuf : Option (List Byte)
  kown : Option (List Byte)
  kwrap : Option (List Byte)
  idSeeds : Option (List Byte)
  idPk : List Byte
  ownerHash : List Byte
  owner : List Byte
  memRec : List Byte
  identity : List Byte
  stepping : Byte
  quotes : List QuoteReq
  hidden : Tab W32
  building : Bool
  deriving DecidableEq, Repr

/-- A recovery in progress (18 R545). -/
structure Recovery where
  seq : W64
  cls : Nat
  depth : Nat
  domain : Nat
  die : Nat
  place : Nat
  task : Option TaskKey
  start : W64
  anchor : Option Nat
  deriving DecidableEq, Repr

structure Errors where
  recs : List Recovery
  scenes : List (Nat × Nat × W64)
  deriving DecidableEq, Repr

/-- A filtered input (19 R570 R571): its recognised level, since when it has held it, and a counted edge not yet taken. -/
structure Input where
  level : Bool
  since : W64
  edge : Option W64
  deriving DecidableEq, Repr

structure Power where
  ins : List Input
  faultN : Bool
  cfgFailN : Bool
  tripN : Bool
  resetN : Bool
  pwrGood : Bool
  auxGood : Bool
  bandFree : Tab W64
  hot : Tab Nat
  tripped : Bool
  deriving DecidableEq, Repr

/-- The I3C target (19 R575 to R577). -/
structure I3c where
  addr : Option (BitVec 7)
  ibi : Bool
  mwl : W16
  mrl : W16
  pid : W32
  read : Option (W32 × Bool)
  status : Option Byte
  raised : List (Byte × Byte)
  waiting : List (Byte × Byte)
  deriving DecidableEq, Repr

/-- The JTAG port (19 R578). `drive` says whether the boundary register drives the pins, `float` whether they are released. -/
structure Jtag where
  ir : Byte
  bsr : List Bool
  drive : Bool
  float : Bool
  capture : BitVec 104
  deriving DecidableEq, Repr

/-- Where the part stands between power-on and READY, in PROVISION (17 R508 R519), in blackout (15 R470) or after a thermal trip (19 R568). -/
inductive Phase where
  | off | aux | held | rom | area | firmware | rehearsed | based | ready | provision | blackout | tripped
  deriving DecidableEq, Repr

/-- What the part puts on its boundary. An AVSBus transaction is a voltage write in mV to rail 0 (kind 0) or rail 1 (kind 3) of the link, or a
current read (1) or a temperature read (2) of rail `value`. -/
inductive Output where
  | hostWrite (port addr : Nat) (data : List Byte)
  | hostRead (port addr len : Nat)
  | msix (port vector : Nat)
  | readData (port : Nat) (data : List Byte) (poisoned : Bool)
  | unsupported (port : Nat)
  | flit (port : Nat) (data : List Byte)
  | chain (block : List Byte)
  | avs (link kind value : Nat)
  | i3c (data : List Byte)
  | i3cNack
  | tdo (bits : List Bool)
  | busError
  deriving DecidableEq, Repr

/-- Everything the manual gives the part. -/
structure Part where
  mem : List Host.Cell
  tagErr : Tab W32
  poison : Tab Bool
  regs : Tab W64
  cores : Tab Core
  clusters : Tab Cluster
  reqs : List Req
  xfers : List Xfer
  partials : List Partial
  views : List ViewWait
  flight : List Flight
  net : List NetMove
  retrainFails : Tab Nat
  stg : Stage
  tim : Time
  pce : Pace
  fab : Fabric
  cfg : Script
  chain : Chain
  hst : HostPorts
  sec : Security
  err : Errors
  pwr : Power
  i3c : I3c
  jtag : Jtag
  phase : Phase
  out : List Output
  uid : Nat
  deriving DecidableEq, Repr

/-- The part and the commands that wait for it, first in, first out. -/
structure State where
  part : Part
  pending : List Instr
  deriving DecidableEq, Repr

/-! ### Reset -/

/-- 07 R203, log 5. -/
def LoopLevel.reset : LoopLevel := { lc := 0, count := 0, start := 0, stop := 0, active := false }

/-- 06 R196: IDLE, every field 0. -/
def Thread.reset : Thread :=
  { ptr := 0, st := .idle, why := 0, handler := false, queue := 0, took := false,
    loops := List.replicate 4 LoopLevel.reset, on := .nothing }

/-- 02 R45, log 5: closed, every anchor absent, every flag finite. -/
def Side.reset : Side :=
  { atag := 0, btag := 0, slices := 0, tri := false, isOpen := false, fed := false, pair := (0, 0), pairS := 0, pairTri := false,
    pairOsr := false,
    rows := List.replicate 16 none, cols := List.replicate 16 none, flags := [], resid := [], extM := 0, extN := 0,
    factors := none }

/-- 09 R289: UNUSED, empty. -/
def ChQueue.reset : ChQueue := { msgs := [], epoch := 0, running := false }

/-- 09 R289. -/
def Route.reset : Route :=
  { credits := 0, ring := [], head := 0, epoch := 0, ringFull := false, wdog := false, darkFault := false }

def Core.reset : Core :=
  { threads := List.replicate 8 Thread.reset, sh := List.replicate 16 0, ptrs := List.replicate 8 0,
    due := [], sh0 := List.replicate 16 0, ptrs0 := List.replicate 8 0, cnt := List.replicate 16 0, wire := 0, xcue := 0, matq := [], matRun := [], epiq := [], epiRun := none, epiOut := [],
    sides := List.replicate 4 Side.reset, vecq := [], vecRun := none, lanes := List.replicate 16 (List.replicate 32 0),
    moveq := [], moving := [], cache := [], queues := List.replicate 16 ChQueue.reset,
    routes := List.replicate 16 Route.reset, arrivals := [], pads := List.replicate 4 0 }

def CurtState.reset : CurtState := { gen := 0, arrived := [] }

def Cluster.reset : Cluster := { curts := [], board := [] }

def PCurt.reset : PCurt := { gen := 0, tasks := [], kids := 0, sentUp := false, first := none }

/-- 14 R447: DISABLED. -/
def Port.reset : Port :=
  { st := 0, locked := false, cause := 0, txSeq := 0, replay := [], credits := List.replicate 8 0,
    owe := List.replicate 8 0, rxSeq := 0, rx := List.replicate 8 [], outq := List.replicate 8 [], part := List.replicate 8 0,
    rxFlits := List.replicate 8 0, slot := 0, curtIn := [], peerSent := 0, peerAt := 0, ackAt := 0 }

/-- 12 R364, log 5: no ceiling lowered. -/
def Rail.reset : Rail :=
  { therm := 140, power := 140, fails := 0, lastCmd := none, sending := none, tries := 0, held := 0, demand := (0, 1),
    late := false, took := none, energy := 0, beatAt := 0, beatRate := 0, meas := (0, 0), bad := false, rise := none,
    fresh := true, sweepAt := 0, sweepLeft := 0, calAt := 0 }

def Ring.reset : Ring := { tail := 0, cqHead := 0, held := [], fresh := 0, oldest := none }

/-- 19 R570: a low level recognised, log 5. -/
def Input.reset : Input := { level := false, since := 0, edge := none }

def Stage.reset : Stage :=
  { tasks := [], replicas := [], scenes := [], inbox := [], charge := [], seatOff := [], saveq := [], areas := [], saved := [],
    pcurts := [], tickAt := 0 }

def Time.reset : Time :=
  { now := 0, frac := 0, interval := 0, slew := 0, ppsLast := 0, parentLast := 0, copies := List.replicate 7 0 }

/-- 19 R556: the M-rails start at 0.75 V; 19 R580: the limit of 1,500 W. -/
def Pace.reset : Pace :=
  { rails := List.replicate 4 Rail.reset, amps := List.replicate 6 0, mvolts := [750, 750], reads := [], lastPeriod := 0, limit := 1500 }

def Fabric.reset : Fabric :=
  { ports := List.replicate 16 Port.reset, transit := [], inbox := [], descs := [], unacked := [], rt0 := [], rt1 := [],
    active := false, tails := [], bells := [], owners := [], dropped := [], nextXid := 0, circSent := [], circSeen := [],
    switched := [], nextDesc := 0 }

def Script.reset : Script :=
  { st := 0, busyRefused := false, reqs := [], staged := none, rung := [], kept := [], golden := [], mismatch := [], sweep := [], nextNum := 0 }

def Chain.reset : Chain :=
  { pos := 0, fixed := false, seen := false, fixedAt := 0, lastBlock := 0, lastIdle := 0, sentOther := false,
    gotBoot := false, gotScript := false, ended := false, boot := [], stream := [], left := 0, mode := 0 }

def HostPorts.reset : HostPorts := { rings := [], msix := [], pba := [], turn := 0 }

def Security.reset : Security :=
  { rpuf := none, kown := none, kwrap := none, idSeeds := none, idPk := [], ownerHash := [], owner := [], memRec := [], identity := [],
    stepping := 0, quotes := [], hidden := [], building := false }

def Errors.reset : Errors := { recs := [], scenes := [] }

def Power.reset : Power :=
  { ins := List.replicate 9 Input.reset, faultN := true, cfgFailN := true, tripN := true, resetN := false,
    pwrGood := true, auxGood := true, bandFree := [], hot := [], tripped := false }

/-- 19 R575: the largest private write and read are 16 and 9 bytes; no dynamic address, events disabled (log 5). -/
def I3c.reset : I3c :=
  { addr := none, ibi := false, mwl := 16, mrl := 9, pid := 0, read := none, status := none, raised := [], waiting := [] }

/-- 19 R578: IDCODE is selected in Test-Logic-Reset; no access has been made. -/
def Jtag.reset : Jtag := { ir := 0x01, bsr := [], drive := false, float := false, capture := 3#104 <<< 100 }

/-- The part held by RESET_N with AUX_GOOD and PWR_GOOD high: every register at its Reset column (00 R15). A register whose
column is not 0 is stored as its difference from that value (`Regs.lean`), so the empty table is the reset table. -/
def Part.reset : Part :=
  { mem := [], tagErr := [], poison := [], regs := [], cores := [], clusters := [], reqs := [], xfers := [],
    partials := [], views := [], flight := [], net := [], retrainFails := [], stg := Stage.reset, tim := Time.reset, pce := Pace.reset,
    fab := Fabric.reset, cfg := Script.reset, chain := Chain.reset, hst := HostPorts.reset, sec := Security.reset,
    err := Errors.reset, pwr := Power.reset, i3c := I3c.reset, jtag := Jtag.reset, phase := .held, out := [], uid := 0 }

/-- No command waits. -/
def State.reset : State := { part := Part.reset, pending := [] }

end Sys2Proof.Machine
end

