-- ==== Sys2Proof/Machine/Bits.lean ====
section
/-! DEFINITION. Bit fields, byte order and small list operations that every family uses (00 R9 R10). -/

namespace Sys2Proof.Machine

open Sys2Proof

/-- Bits [lo + len - 1 : lo] of `w` (00 R9). -/
def fld (w lo len : Nat) : Nat := (w >>> lo) % 2 ^ len

/-- Bit `i` of `w`. -/
def bitOf (w i : Nat) : Bool := fld w i 1 == 1

/-- The value of a byte list, byte 0 lowest (00 R10). -/
def leNat : List Byte → Nat
  | [] => 0
  | b :: bs => b.toNat + 256 * leNat bs

/-- `n` bytes of `w`, byte 0 lowest (00 R10). -/
def leBytes : Nat → Nat → List Byte
  | 0, _ => []
  | n + 1, w => BitVec.ofNat 8 w :: leBytes n (w / 256)

/-- The `len` low bits of `w` read as two's complement. -/
def sext (len w : Nat) : Int :=
  let v := w % 2 ^ len
  if 2 ^ (len - 1) ≤ v then (v : Int) - 2 ^ len else v

/-- The `len`-bit two's complement code of `x`. -/
def wrapInt (len : Nat) (x : Int) : Nat := (x % (2 ^ len : Int)).toNat

/-- `x` clamped to [lo, hi]. -/
def clampInt (lo hi x : Int) : Int := if x < lo then lo else if hi < x then hi else x

/-- Bytes `lo` to `lo + n - 1` of a list, 0 past its end. -/
def sliceB (l : List Byte) (lo n : Nat) : List Byte := ((l.drop lo).take n) ++ List.replicate (n - (l.drop lo).length) 0

/-- The little-endian number in bytes `lo` to `lo + n - 1`. -/
def leAt (l : List Byte) (lo n : Nat) : Nat := leNat ((l.drop lo).take n)

/-- `l` with bytes from `lo` on replaced by `d`. -/
def patch (l : List Byte) (lo : Nat) (d : List Byte) : List Byte := l.take lo ++ d ++ l.drop (lo + d.length)

/-- `l` cut or filled with 0 to `n` bytes. -/
def padTo (n : Nat) (l : List Byte) : List Byte := (l ++ List.replicate (n - l.length) 0).take n

/-- A list in pieces of `n` (of what is left at the end), at most `fuel` of them. -/
def chunksF {α : Type} (n : Nat) : Nat → List α → List (List α)
  | 0, _ => []
  | _, [] => []
  | f + 1, l => l.take n :: chunksF n f (l.drop n)

/-- A list in pieces of `n`. -/
def chunks {α : Type} (n : Nat) (l : List α) : List (List α) := chunksF n l.length l

def ceilDiv (a b : Nat) : Nat := (a + b - 1) / b

/-- A 32-bit counter that stops at 0xFFFF_FFFF, raised by `n`. -/
def satAdd32 (w : W64) (n : Nat) : W64 := BitVec.ofNat 64 (min (w.toNat + n) 0xFFFFFFFF)

def inList (l : List Nat) (n : Nat) : Bool := l.elem n

/-- The element of `l` at `i` replaced by its image under `f`. -/
def modAt {α : Type} (l : List α) (i : Nat) (f : α → α) : List α := l.modify i f

/-- All elements but the first that satisfies `p`. -/
def dropFirst {α : Type} (p : α → Bool) : List α → List α
  | [] => []
  | x :: xs => if p x then xs else x :: dropFirst p xs

/-- The first element that satisfies `p` replaced by its image under `f`. -/
def modFirst {α : Type} (p : α → Bool) (f : α → α) : List α → List α
  | [] => []
  | x :: xs => if p x then f x :: xs else x :: modFirst p f xs

/-- The element least under a strict order, the earlier one of equals. -/
def pickMin {α : Type} (lt : α → α → Bool) : List α → Option α
  | [] => none
  | x :: xs => match pickMin lt xs with
    | none => some x
    | some y => if lt y x then some y else some x

/-- `x` put into a list sorted by `lt`, behind its equals. -/
def insertBy {α : Type} (lt : α → α → Bool) (x : α) : List α → List α
  | [] => [x]
  | y :: ys => if lt x y then x :: y :: ys else y :: insertBy lt x ys

/-- The list in the order of `lt`; equals keep their order. -/
def sortBy {α : Type} (lt : α → α → Bool) (l : List α) : List α := l.foldl (fun acc x => insertBy lt x acc) []

/-- `f` applied for each element in turn. -/
def forEach {α β : Type} (l : List α) (f : α → β → β) (b : β) : β := l.foldl (fun b a => f a b) b

/-- The exponent of the highest set bit, 0 for 0. -/
def log2n (n : Nat) : Nat := Nat.log2 n

end Sys2Proof.Machine
end

