-- ==== Sys2Proof/Machine/Num.lean ====
section
/-! DEFINITION. Number formats and rounding (02 R37 to R66, R581; 05 R154).
A finite value is the pair (m, e) of integers that stands for m × 2^e, with the sign of a zero kept beside it. -/

namespace Sys2Proof.Machine

open Sys2Proof

/-- A number of any format: NaN, an infinity with its sign (true: negative), or the finite value (−1)^neg × m × 2^e. -/
inductive Num where
  | nan
  | inf (neg : Bool)
  | fin (neg : Bool) (m : Nat) (e : Int)
  deriving DecidableEq, Repr

namespace Num

def zero : Num := .fin false 0 0
def ofInt (x : Int) : Num := .fin (decide (x < 0)) x.natAbs 0

/-- The integer of a finite value at weight 2^e, its exponent. -/
def mant : Num → Int
  | .fin n m _ => if n then -(m : Int) else m
  | _ => 0

def exp : Num → Int
  | .fin _ _ e => e
  | _ => 0

def isZero : Num → Bool
  | .fin _ 0 _ => true
  | _ => false

/-- A nonzero finite value: what the prescan counts (02 R48). -/
def counts : Num → Bool
  | .fin _ m _ => m != 0
  | _ => false

def neg : Num → Bool
  | .nan => false
  | .inf n => n
  | .fin n _ _ => n

/-- A finite value from an exact integer and weight; a zero result has the sign `z`. -/
def ofScaled (z : Bool) (x : Int) (e : Int) : Num :=
  if x = 0 then .fin z 0 0 else .fin (decide (x < 0)) x.natAbs e

/-- The value times 2^k. -/
def scale (k : Int) : Num → Num
  | .fin n m e => .fin n m (e + k)
  | x => x

/-- IEEE 754 multiplication, exact (05 R147). -/
def mul : Num → Num → Num
  | .nan, _ => .nan
  | _, .nan => .nan
  | .inf a, .inf b => .inf (a != b)
  | .inf a, .fin b m _ => if m = 0 then .nan else .inf (a != b)
  | .fin a m _, .inf b => if m = 0 then .nan else .inf (a != b)
  | .fin a m e, .fin b k f => .fin (a != b) (m * k) (e + f)

/-- IEEE 754 addition, exact; `down` is roundTowardNegative, in which an exact zero sum of unlike signs is −0 (05 R147). -/
def add (down : Bool) : Num → Num → Num
  | .nan, _ => .nan
  | _, .nan => .nan
  | .inf a, .inf b => if a = b then .inf a else .nan
  | .inf a, .fin _ _ _ => .inf a
  | .fin _ _ _, .inf b => .inf b
  | .fin a m e, .fin b k f =>
    let g := min e f
    let x : Int := (if a then -(m : Int) else m) * 2 ^ (e - g).toNat + (if b then -(k : Int) else k) * 2 ^ (f - g).toNat
    if x = 0 then (if m = 0 ∧ k = 0 ∧ a = b then .fin a 0 0 else .fin down 0 0)
    else .fin (decide (x < 0)) x.natAbs g

/-- The order of two values that are no NaN, −0 equal to +0: `lt x y`. -/
def lt : Num → Num → Bool
  | .nan, _ => false
  | _, .nan => false
  | .inf a, .inf b => a && !b
  | .inf a, .fin _ _ _ => a
  | .fin _ _ _, .inf b => !b
  | .fin a m e, .fin b k f =>
    let g := min e f
    decide ((if a then -(m : Int) else m) * 2 ^ (e - g).toNat < (if b then -(k : Int) else k) * 2 ^ (f - g).toNat)

/-- The exponent of the leading bit of a nonzero finite value: floor(log2 |x|). -/
def top (m : Nat) (e : Int) : Int := (Nat.log2 m : Int) + e

end Num

/-! ### Formats -/

/-- A binary floating-point layout: exponent and fraction widths, bias, and which special encodings it has. -/
structure Fmt where
  ew : Nat
  fw : Nat
  bias : Int
  ieee : Bool
  nanTop : Bool
  deriving DecidableEq, Repr

/-- 02 R38 R42: FP4, FP6, FP8, BF16, FP16, FP32, FP64, by tag. -/
def fmtOf : Nat → Option Fmt
  | 0x02 => some ⟨2, 1, 1, false, false⟩
  | 0x03 => some ⟨2, 3, 1, false, false⟩
  | 0x04 => some ⟨3, 2, 3, false, false⟩
  | 0x05 => some ⟨4, 3, 7, false, true⟩
  | 0x06 => some ⟨5, 2, 15, true, false⟩
  | 0x07 => some ⟨8, 7, 127, true, false⟩
  | 0x08 => some ⟨5, 10, 15, true, false⟩
  | 0x09 => some ⟨8, 23, 127, true, false⟩
  | 0x0A => some ⟨11, 52, 1023, true, false⟩
  | _ => none

/-- The element type of a tag: an MX tag's element type (02 R37). MXINT8 is kept apart. -/
def elemTag (tag : Nat) : Nat := match tag with
  | 0x12 => 0x02 | 0x13 => 0x03 | 0x14 => 0x04 | 0x15 => 0x05 | 0x16 => 0x06 | t => t

/-- Tags that R37 does not reserve. -/
def tagKnown (t : Nat) : Bool := decide (t ≤ 0x0D) || (decide (0x11 ≤ t) && decide (t ≤ 0x16))
def isMx (t : Nat) : Bool := decide (0x11 ≤ t) && decide (t ≤ 0x16)
/-- A narrow format: 8 bits or fewer, with or without a block scale (02 R38). -/
def isNarrow (t : Nat) : Bool := decide (t ≤ 6) || isMx t
def isWide (t : Nat) : Bool := decide (7 ≤ t) && decide (t ≤ 0x0A)
def isInt (t : Nat) : Bool := decide (t ≤ 1)

/-- Element width in bits (02 R37). -/
def elemBits : Nat → Nat
  | 0x00 => 4 | 0x01 => 8 | 0x02 => 4 | 0x03 => 6 | 0x04 => 6 | 0x05 => 8 | 0x06 => 8 | 0x07 => 16 | 0x08 => 16
  | 0x09 => 32 | 0x0A => 64 | 0x0B => 32 | 0x0C => 8 | 0x0D => 40 | 0x11 => 8 | 0x12 => 4 | 0x13 => 6 | 0x14 => 6
  | 0x15 => 8 | 0x16 => 8 | _ => 8

/-- Elements of a format in one 512-B row (02 R39). -/
def perRow (tag : Nat) : Nat := if elemBits tag = 6 then 672 else 4096 / elemBits tag

/-- log2 of the unit u and the width q of R38, by element. -/
def unitExp : Nat → Int
  | 0x00 => 0 | 0x01 => 0 | 0x02 => -1 | 0x03 => -3 | 0x04 => -4 | 0x05 => -9 | 0x06 => -16 | 0x11 => -6 | 0x12 => -1
  | 0x13 => -3 | 0x14 => -4 | 0x15 => -9 | 0x16 => -16 | _ => 0
def qBits : Nat → Nat
  | 0x00 => 4 | 0x01 => 8 | 0x02 => 4 | 0x03 => 6 | 0x04 => 9 | 0x05 => 18 | 0x06 => 32 | 0x11 => 8 | 0x12 => 4
  | 0x13 => 6 | 0x14 => 9 | 0x15 => 18 | 0x16 => 32 | _ => 0

/-- The significand width p and emin of a wide format (02 R42). -/
def sigBits : Nat → Nat
  | 0x07 => 8 | 0x08 => 11 | 0x09 => 24 | 0x0A => 53 | _ => 0
def eMin : Nat → Int
  | 0x07 => -126 | 0x08 => -14 | 0x09 => -126 | 0x0A => -1022 | _ => 0

/-- The value of a code in a floating-point layout (02 R38 R42). -/
def decodeFmt (f : Fmt) (c : Nat) : Num :=
  let neg := bitOf c (f.ew + f.fw)
  let x := fld c f.fw f.ew
  let m := fld c 0 f.fw
  if f.ieee && decide (x = 2 ^ f.ew - 1) then (if m = 0 then .inf neg else .nan)
  else if f.nanTop && decide (x = 2 ^ f.ew - 1) && decide (m = 2 ^ f.fw - 1) then .nan
  else if x = 0 then .fin neg m (1 - f.bias - f.fw)
  else .fin neg (2 ^ f.fw + m) ((x : Int) - f.bias - f.fw)

/-- A C40 value (02 R64). -/
def decodeC40 (c : Nat) : Num :=
  let neg := bitOf c 39
  let x := fld c 29 10
  let m := fld c 0 29
  if x = 0x3FF then (if m = 0 then .inf neg else .nan)
  else if x = 0 then .fin neg 0 0
  else .fin neg (2 ^ 29 + m) ((x : Int) - 511 - 29)

/-- The value of an element code under a tag, without its block scale (02 R38 R42). -/
def decode (tag c : Nat) : Num :=
  match tag with
  | 0x00 => Num.ofInt (sext 4 c)
  | 0x01 => Num.ofInt (sext 8 c)
  | 0x0B => Num.ofInt (sext 32 c)
  | 0x0C => if c % 256 = 255 then .nan else .fin false 1 ((c % 256 : Nat) - 127)
  | 0x0D => decodeC40 c
  | 0x11 => (Num.ofInt (sext 8 c)).scale (-6)
  | t => match fmtOf (elemTag t) with
    | some f => decodeFmt f c
    | none => Num.zero

/-! ### Rounding -/

/-- The rounding modes of 02 R59. -/
inductive Rnd where
  | even | zero | down | up | away
  deriving DecidableEq, Repr

def rndOf : Nat → Rnd
  | 0 => .even | 1 => .zero | 2 => .down | 3 => .up | _ => .away

/-- m ÷ 2^k to an integer, for a magnitude with sign `neg` (02 R59). -/
def roundShift (r : Rnd) (neg : Bool) (m k : Nat) : Nat :=
  let q := m >>> k
  let rest := m % 2 ^ k
  if rest = 0 then q
  else
    let half := 2 ^ (k - 1)
    let up := match r with
      | .zero => false
      | .down => neg
      | .up => !neg
      | .even => decide (half < rest) || (decide (rest = half) && q % 2 == 1)
      | .away => decide (half ≤ rest)
    if up then q + 1 else q

/-- m × 2^e to a multiple of 2^g, as the multiple. -/
def roundAt (r : Rnd) (neg : Bool) (m : Nat) (e g : Int) : Nat :=
  if g ≤ e then m * 2 ^ (e - g).toNat else roundShift r neg m (g - e).toNat

/-- Whether an overflow gives the largest finite value instead of an infinity (02 R60). -/
def overflowFinite (r : Rnd) (neg : Bool) : Bool := match r with
  | .even => false
  | .away => false
  | .zero => true
  | .down => !neg
  | .up => neg

/-- The code of the largest finite magnitude of a layout. -/
def maxCode (f : Fmt) : Nat :=
  if f.ieee then (2 ^ f.ew - 1) * 2 ^ f.fw - 1
  else if f.nanTop then 2 ^ (f.ew + f.fw) - 2
  else 2 ^ (f.ew + f.fw) - 1

/-- What an overflow gives in a layout (02 R60, 05 R158): `sat` forces the largest finite magnitude; E4M3 has its NaN where R60 gives an
infinity. -/
def overflowCode (f : Fmt) (r : Rnd) (sat neg : Bool) : Nat :=
  if sat then maxCode f
  else if overflowFinite r neg then maxCode f
  else if f.ieee then (2 ^ f.ew - 1) * 2 ^ f.fw
  else if f.nanTop then 2 ^ (f.ew + f.fw) - 1
  else maxCode f

/-- The code, without sign, of the finite m × 2^e rounded once (02 R60 R61), and whether it overflowed. -/
def encodeMag (f : Fmt) (r : Rnd) (ftz sat neg : Bool) (m : Nat) (e : Int) : Nat × Bool :=
  if m = 0 then (0, false)
  else
    let lowest : Int := 1 - f.bias - f.fw
    let g := max lowest (Num.top m e - f.fw)
    let q := roundAt r neg m e g
    -- q has at most fw + 2 bits; a carry past fw + 1 bits moves to the next binade
    let (q, g) := if 2 ^ (f.fw + 1) ≤ q then (q / 2, g + 1) else (q, g)
    if q < 2 ^ f.fw then (if ftz then (0, false) else (q, false))
    else
      let x := g - lowest + 1
      let code := x.toNat * 2 ^ f.fw + (q - 2 ^ f.fw)
      if maxCode f < code then (overflowCode f r sat neg, true) else (code, false)

/-- The canonical quiet NaN (02 R66), or the NaN of an 8-bit format (04 R133). -/
def nanCode : Nat → Nat
  | 0x05 => 0x7F | 0x06 => 0x7F | 0x15 => 0x7F | 0x16 => 0x7F
  | 0x07 => 0x7FC0 | 0x08 => 0x7E00 | 0x09 => 0x7FC00000 | 0x0A => 0x7FF8000000000000
  | 0x0D => 0x7FF0000000 | _ => 0

/-- A C40 code: nearest-even, no subnormals (02 R64, 05 R154). -/
def encodeC40 (x : Num) : Nat := match x with
  | .nan => 0x7FF0000000
  | .inf n => (if n then 2 ^ 39 else 0) + 0x3FF * 2 ^ 29
  | .fin n m e =>
    let s := if n then 2 ^ 39 else 0
    if m = 0 then s
    else
      let g := Num.top m e - 29
      let q := roundAt .even n m e g
      let (q, g) := if 2 ^ 30 ≤ q then (q / 2, g + 1) else (q, g)
      let x := g + 29 + 511
      if x < 1 then s else if 0x3FF ≤ x then s + 0x3FF * 2 ^ 29 else s + x.toNat * 2 ^ 29 + (q - 2 ^ 29)

/-- A value rounded to C40. -/
def toC40 (x : Num) : Num := decodeC40 (encodeC40 x)

/-- The largest and the lowest integer of an integer format. -/
def intRange : Nat → Int × Int
  | 0x00 => (-8, 7)
  | 0x0B => (-2147483648, 2147483647)
  | _ => (-128, 127)

/-- The integer nearest to m × 2^e in a mode. -/
def roundInt (r : Rnd) (neg : Bool) (m : Nat) (e : Int) : Int :=
  let q : Int := roundAt r neg m e 0
  if neg then -q else q

/-- A value brought into the format of a tag (02 R60 to R63 R66, 04 R133), and whether saturation or overflow changed it.
A NaN into a format without NaN has no code: callers test for it first. -/
def encode (tag : Nat) (r : Rnd) (ftz sat : Bool) (x : Num) : Nat × Bool :=
  let bits := elemBits tag
  match fmtOf (elemTag tag) with
  | some f =>
    let s := 2 ^ (bits - 1)
    match x with
    | .nan => (nanCode (elemTag tag), false)
    | .inf n =>
      let body := if f.ieee then (2 ^ f.ew - 1) * 2 ^ f.fw
        else if f.nanTop then 2 ^ (f.ew + f.fw) - 1 else maxCode f
      ((if n then s else 0) + body, !f.ieee)
    | .fin n m e => let (c, o) := encodeMag f r ftz sat n m e; ((if n then s else 0) + c, o)
  | none =>
    if tag = 0x0D then (encodeC40 x, false)
    else if tag = 0x0C then (match x with | .fin _ _ e => ((clampInt 0 254 (e + 127)).toNat, false) | _ => (255, false))
    else
      let (lo, hi) := intRange tag
      let sc : Int := if tag = 0x11 then 6 else 0
      match x with
      | .nan => (0, false)
      | .inf n => (wrapInt bits (if n then lo else hi), true)
      | .fin n m e =>
        let v := roundInt r n m (e + sc)
        let c := clampInt lo hi v
        (wrapInt bits c, c != v)

/-- The exact X × 2^L of an accumulator element with its flag, in the format of a tag (02 R60 to R66): X = 0 gives +0, or
−0 under roundTowardNegative. -/
def roundAcc (tag : Nat) (r : Rnd) (ftz : Bool) (x : Int) (l : Int) : Num :=
  let v := Num.ofScaled (r == .down) x l
  decode tag (encode tag r ftz false v).1

end Sys2Proof.Machine
end

