-- ==== Sys2Proof/Machine/Approx.lean ====
section
/-! DEFINITION. Approximated functions: a free value where it lies within the bound that the manual states, else the exact value
rounded to nearest (04 R124 R125 R582, 05 R155, log 8). The exact value is computed with more than 70 bits. -/

namespace Sys2Proof.Machine

open Sys2Proof

/-- ln 2 and 2√(2/π) in units of 2^−160. -/
def ln2Fix : Int := 1013035739299659071135698605846798551586536899366
def geluFix : Int := 2332219184028872162936766921774799528781383630017

/-- m × 2^s, truncated toward zero. -/
def shiftTrunc (x s : Int) : Int :=
  if 0 ≤ s then x * 2 ^ s.toNat else if x < 0 then -((x.natAbs >>> (-s).toNat : Nat) : Int) else ((x.natAbs >>> (-s).toNat : Nat) : Int)

/-- A value in units of 2^−160. -/
def Num.fix (x : Num) : Int := shiftTrunc x.mant (x.exp + 160)

/-- The terms r^n ÷ n! of a series, from the n-th on. -/
def expTerms (r : Int) : Nat → Nat → Int → Int
  | 0, _, t => t
  | f + 1, n, t => t + expTerms r f (n + 1) (t * r / 2 ^ 160 / ((n : Int) + 1))

/-- e^w for w in units of 2^−160. -/
def expNum (w : Int) : Num :=
  let k := w / ln2Fix
  .fin false (expTerms (w - k * ln2Fix) 50 0 (2 ^ 160)).toNat (k - 160)

def Num.negate : Num → Num
  | .nan => .nan
  | .inf n => .inf !n
  | .fin n m e => .fin (!n) m e

/-- x ÷ (1 + e^(−w)). -/
def logistic (x : Num) (w : Int) : Num :=
  if 512 * 2 ^ 160 < w then x
  else if w < -512 * 2 ^ 160 then (match x with | .fin n m _ => if m = 0 then x else .fin n 1 (-4000) | y => y)
  else
    let d := Num.add false (Num.ofInt 1) (expNum (-w))
    let k : Nat := Nat.log2 d.mant.natAbs + 90
    match x with
    | .fin n m e => .fin n (m * (2 ^ k / d.mant.natAbs)) (e - d.exp - k)
    | y => y

/-- GELU in its tanh form, 0.5x(1 + tanh u) = x ÷ (1 + e^(−2u)), and SiLU (04 R124). -/
def geluExact (x : Num) : Num :=
  let f := x.fix
  let cube := f * f / 2 ^ 160 * f / 2 ^ 160
  logistic x (geluFix * (f + cube * 44715 / 1000000) / 2 ^ 160)
def siluExact (x : Num) : Num := logistic x x.fix

/-- |y − g| ≤ max(n × 2^u, 2^a). -/
def closeTo (y g : Num) (n : Nat) (u a : Int) : Bool :=
  match Num.add false y g.negate with
  | .fin _ m e =>
    let d : Num := .fin false m e
    !Num.lt (.fin false n u) d || !Num.lt (.fin false 1 a) d
  | _ => false

/-- The exponent of the leading bit of a value, the lowest exponent `lo` for a zero. -/
def Num.topOr (lo : Int) : Num → Int
  | .fin _ m e => if m = 0 then lo else max lo (Num.top m e)
  | _ => lo

/-- GELU or SiLU: limits at the infinities, and a zero takes the sign of x (04 R125, 05 R147). -/
def activation (fmtTag ulps : Nat) (bits lo absExp : Int) (free : Num → Num) (exact : Num → Num) (x : Num) : Num := match x with
  | .nan => .nan
  | .inf false => .inf false
  | .inf true => .fin true 0 0
  | .fin neg _ _ =>
    let g := exact x
    let y := free x
    let ok := (match y with | .fin n m _ => m != 0 || n == neg | _ => false) && closeTo y g ulps (y.topOr lo - bits) absExp
    if ok then y else decode fmtTag (encode fmtTag .even false false g).1

def gelu32 (x : Num) : Num := activation 0x09 4 23 (-126) (-24)
  (fun x => decode 0x09 (Config.gelu32 (BitVec.ofNat 32 (encode 0x09 .even false false x).1)).toNat) geluExact x
def silu32 (x : Num) : Num := activation 0x09 3 23 (-126) (-24)
  (fun x => decode 0x09 (Config.silu32 (BitVec.ofNat 32 (encode 0x09 .even false false x).1)).toNat) siluExact x
def geluC40 (x : Num) : Num := activation 0x0D 4 29 (-510) (-40)
  (fun x => decodeC40 (Config.geluC40 (BitVec.ofNat 40 (encodeC40 x))).toNat) geluExact x
def siluC40 (x : Num) : Num := activation 0x0D 4 29 (-510) (-40)
  (fun x => decodeC40 (Config.siluC40 (BitVec.ofNat 40 (encodeC40 x))).toNat) siluExact x

/-- 2^y for stage X, in C40 (05 R155 R158). -/
def exp2C40 (y : Num) : Num := match y with
  | .nan => .nan
  | .inf n => if n then Num.zero else .inf false
  | .fin _ _ _ =>
    if Num.lt (Num.ofInt 600) y then .inf false
    else if Num.lt y (Num.ofInt (-600)) then Num.zero
    else
      let g := expNum (y.fix * ln2Fix / 2 ^ 160)
      let c := decodeC40 (Config.exp2C40 (BitVec.ofNat 40 (encodeC40 y))).toNat
      let ok := (match c with | .fin n _ _ => !n | _ => false) && closeTo c g 2 (c.topOr (-510) - 29) (-100000)
      if ok then c else toC40 g

end Sys2Proof.Machine
end

