-- ==== Sys2Proof/Machine/Mem.lean ====
section
/-! DEFINITION. The package's byte memory and its row tags (13 R380 to R383, 09 R270, 06 R193, 15 R461, 18 R528 to R534).
A byte that nothing has written reads 0 (19 R564 for SRAM after power-up; for LPDDR5X DESIGN CHOICE, log 4: unsafe). -/

namespace Sys2Proof.Machine

open Sys2Proof

/-- What an unlisted address reads as. -/
def Memory.blank : Byte := 0

/-- The canonical form of the memory list. -/
def Memory.wf (m : List Host.Cell) : Bool := Tab.wf Memory.blank m

def Memory.read (m : List Host.Cell) (a : Nat) : Byte := Tab.get Memory.blank m a

def Memory.write (m : List Host.Cell) (a : Nat) (b : Byte) : List Host.Cell := Tab.put Memory.blank m a b

/-- `n` bytes from `a` on. -/
def Memory.readN (m : List Host.Cell) (a : Nat) : Nat → List Byte
  | 0 => []
  | n + 1 => Memory.read m a :: Memory.readN m (a + 1) n

/-- The bytes of `l` written from `a` on. -/
def Memory.writeN (m : List Host.Cell) (a : Nat) : List Byte → List Host.Cell
  | [] => m
  | b :: bs => Memory.writeN (Memory.write m a b) (a + 1) bs

def Part.byteAt (s : Part) (a : Nat) : Byte := Memory.read s.mem a
def Part.bytesAt (s : Part) (a n : Nat) : List Byte := Memory.readN s.mem a n
def Part.natAt (s : Part) (a n : Nat) : Nat := leNat (s.bytesAt a n)
def Part.setBytes (s : Part) (a : Nat) (l : List Byte) : Part := { s with mem := Memory.writeN s.mem a l }

/-! ### Address map -/

def stagingBase : Nat := 0x010000000000
def storeBase : Nat := 0x020000000000
def viewBase : Nat := 0x030000000000
def configBase : Nat := 0x040000000000
def pcurtCfgBase : Nat := 0x0400F0000000
def regSpace : Nat := 0x0F0000000000

/-- Where a package address lies (00 R11, 13 R381 R383, 09 R270, 06 R193, 15 R461). -/
inductive Home where
  | lpddr
  | staging (m : Nat)
  | store (cl off : Nat)
  | view (core off : Nat)
  | config
  | regs
  | hole
  deriving DecidableEq, Repr

/-- The home of address `a` when LPDDR5X holds `cap` bytes. -/
def homeOf (cap a : Nat) : Home :=
  if a < 0x010000000000 then (if a < cap then .lpddr else .hole)
  else if a < 0x010040000000 then .staging ((a - stagingBase) / 0x20000000)
  else if storeBase ≤ a && decide (a < storeBase + 0x400000000) then
    let r := a - storeBase
    let n := (r % 0x100000000) / 0x100000
    if n < 400 then .store (400 * (r / 0x100000000) + n) (r % 0x100000) else .hole
  else if viewBase ≤ a && decide (a < viewBase + 0x400000000) then
    let r := a - viewBase
    let n := (r % 0x100000000) / 0x10000
    if n < 6400 then .view (6400 * (r / 0x100000000) + n) (r % 0x10000) else .hole
  else if configBase ≤ a && decide (a < 0x0F0000000000) then .config
  else if regSpace ≤ a && decide (a < regSpace + 0x4000000) then .regs
  else .hole

/-- The base of a cluster's store (09 R270). -/
def storeAddr (cl off : Nat) : Nat := storeBase + (cl / 400) * 0x100000000 + (cl % 400) * 0x100000 + off

/-- An address in a core's memory view (06 R193). -/
def viewAddr (c off : Nat) : Nat := viewBase + (c / 6400) * 0x100000000 + (c % 6400) * 0x10000 + off

/-- The core whose memory view holds an address (06 R193). -/
def viewCore (a : Nat) : Nat := 6400 * ((a - viewBase) / 0x100000000) + ((a - viewBase) % 0x100000000) / 0x10000

/-- Bytes `a` to `a + n - 1` cut at row boundaries, at most `f` pieces. -/
def rowPieces : Nat → Nat → Nat → List (Nat × Nat)
  | 0, _, _ => []
  | f + 1, a, n =>
    if n = 0 then []
    else
      let k := min n (512 - a % 512)
      (a, k) :: rowPieces f (a + k) (n - k)

/-- The pieces of an access. -/
def piecesOf (a n : Nat) : List (Nat × Nat) := rowPieces (n / 512 + 2) a n

/-- The bytes that a BAR2 access names. -/
def accLength : Bar2 → Nat
  | .read n => n
  | .write l => l.length

/-- An address in a cluster's part of the configuration view (15 R461). -/
def cfgAddr (cl off : Nat) : Nat := configBase + (cl / 400) * 0x100000000 + (cl % 400) * 0x80000 + off

/-- An address in a core's part of the configuration view (15 R461). -/
def coreCfg (c off : Nat) : Nat := cfgAddr (c / 16) ((c % 16) * 0x4000 + off)

/-- The channel of an LPDDR5X address (13 R382). -/
def channelOf (a : Nat) : Nat :=
  let n := a / 512
  fld n 0 7 ^^^ fld n 7 7 ^^^ fld n 14 7 ^^^ fld n 21 7 ^^^ fld n 28 3

/-- The device address of an LPDDR5X row and of its tag (13 R382). -/
def deviceRow (a : Nat) : Nat × Nat :=
  let j := (a / 512) / 128
  (65536 * (j / 127) + 512 * (j % 127), 65536 * (j / 127) + 0xFE00 + 4 * (j % 127))

/-- Rank and offset in it of a device address, for dies of `die` bytes (13 R380). -/
def rankOf (die d : Nat) : Nat × Nat := (d / die, d % die)

/-- The package address of data row `s` in block `b` of channel `c`: 13 R382 read backwards, since each XOR is its own inverse. -/
def rowInBlock (c b s : Nat) : Nat :=
  let j := 127 * b + s
  512 * (128 * j + (c ^^^ fld j 0 7 ^^^ fld j 7 7 ^^^ fld j 14 7 ^^^ fld j 21 3))

/-! ### Row tags -/

/-- One bit of the reflected CRC-32C division (18 R528). -/
def crcStep (r : Nat) : Nat := if r % 2 = 1 then (r / 2) ^^^ 0x82F63B78 else r / 2

/-- The remainder after one more byte. -/
def crcByte (r : Nat) (b : Byte) : Nat :=
  crcStep (crcStep (crcStep (crcStep (crcStep (crcStep (crcStep (crcStep (r ^^^ b.toNat))))))))

/-- CRC-32C: initial value and final XOR 0xFFFF_FFFF, reflected (18 R528). -/
def crc32c (l : List Byte) : W32 := BitVec.ofNat 32 ((l.foldl crcByte 0xFFFFFFFF) ^^^ 0xFFFFFFFF)

/-- The tag stored for the row of `a`: the right tag of its bytes with the held difference. -/
def Part.storedTag (s : Part) (a : Nat) : W32 :=
  crc32c (s.bytesAt (512 * (a / 512)) 512) ^^^ Tab.get 0 s.tagErr (a / 512)

/-- The tag row of block `b` of channel `c`: the stored tag of each data row, 127 of them, then a CRC-32C of those bytes (13 R380). -/
def Part.tagRow (p : Part) (c b : Nat) : List Byte :=
  let l := (List.range 127).flatMap (fun s => leBytes 4 (p.storedTag (rowInBlock c b s)).toNat)
  l ++ leBytes 4 (crc32c l).toNat

/-- The word that a double-bit error has marked (18 R533). -/
def Part.poisoned (s : Part) (a : Nat) : Bool := Tab.get false s.poison (a / 8)

/-- A row passes its tag check when its stored tag is the right one and no word of it is poisoned (18 R528 R532 R533). -/
def Part.rowGood (s : Part) (a : Nat) : Bool :=
  decide (Tab.get 0 s.tagErr (a / 512) = 0) &&
    (List.range 64).all (fun i => !Tab.get false s.poison (64 * (a / 512) + i))

/-- The row of `a` with its poison marks and tag difference set: a whole-row write replaces both (18 R532). -/
def Part.setTag (s : Part) (a : Nat) (diff : W32) : Part :=
  { s with
    tagErr := Tab.put 0 s.tagErr (a / 512) diff
    poison := s.poison.filter (fun p => decide (p.1 / 64 ≠ a / 512)) }

/-- A whole row written with a tag that differs from the right one by `diff` (0: a good row, 18 R528 R529). -/
def Part.setRow (s : Part) (a : Nat) (row : List Byte) (diff : W32) : Part :=
  (s.setBytes (512 * (a / 512)) (padTo 512 row)).setTag a diff

/-- The bytes of the row that holds `a`. -/
def Part.rowAt (s : Part) (a : Nat) : List Byte := s.bytesAt (512 * (a / 512)) 512

/-- The bytes of `l` merged from address `a` on, row by row: each row takes a fresh tag, or stays poisoned when its old tag
failed (13 R394, 18 R529 R532). -/
def Part.mergeRow (s : Part) (a : Nat) (l : List Byte) : Part :=
  if s.rowGood a then (s.setBytes a l).setTag a 0 else (s.setBytes a l).setTag a 0xFFFFFFFF

/-- Whether bytes `a` to `a + n - 1` touch `b` to `b + k - 1`. -/
def overlaps (a n b k : Nat) : Bool := decide (a < b + k) && decide (b < a + n)

end Sys2Proof.Machine
end

