-- ==== Sys2Proof/Machine/Regs.lean ====
section
/-! DEFINITION. The register map (00 R12 R13 and the register tables of every chapter) and the register file. -/

namespace Sys2Proof.Machine

open Sys2Proof

/-- One line of a register map: `base` and the strides and counts of its indices, its width, its RW bits, its W1C bits,
and its Reset value. A bit that is neither is RO, WO or RSV. -/
structure RegRow where
  base  : Nat
  dims  : List (Nat × Nat)
  wide  : Bool
  rw    : Nat
  w1c   : Nat
  reset : Nat
  deriving DecidableEq, Repr

namespace Reg

/-- 16 R502. -/
def FDR_ROOT : RegRow := ⟨0x100, [], false, 0, 0, 0x1000⟩
/-- 16 R501. -/
def HST_PORT_STAT : RegRow := ⟨0x100000, [(4, 2)], false, 0, 0, 0⟩
def HST_WIN : RegRow := ⟨0x100010, [(8, 2)], true, 0xFFFFC0000000, 0, 0⟩
def HST_REFUSE : RegRow := ⟨0x100020, [], false, 0, 0x1F, 0⟩
def HST_REFUSE_ADDR : RegRow := ⟨0x100028, [], true, 0, 0, 0⟩
def HST_EVT_CFG : RegRow := ⟨0x100030, [], false, 0x7FF, 0, 0⟩
def HST_SQ_BASE : RegRow := ⟨0x110000, [(0x40, 1024)], true, 0xFFFFFFFFFF80, 0, 0⟩
def HST_SQ_CFG : RegRow := ⟨0x110008, [(0x40, 1024)], false, 0xFFFF, 0, 0⟩
def HST_SQ_HEAD : RegRow := ⟨0x11000C, [(0x40, 1024)], false, 0, 0, 0⟩
def HST_CQ_BASE : RegRow := ⟨0x110010, [(0x40, 1024)], true, 0xFFFFFFFFFFE0, 0, 0⟩
def HST_CQ_CFG : RegRow := ⟨0x110018, [(0x40, 1024)], false, 0xFFFFFFFF, 0, 0⟩
def HST_CQ_TAIL : RegRow := ⟨0x11001C, [(0x40, 1024)], false, 0, 0, 0x10000⟩
def HST_CQ_LOST : RegRow := ⟨0x110020, [(0x40, 1024)], false, 0, 0, 0⟩
def HST_RING_STAT : RegRow := ⟨0x110024, [(0x40, 1024)], false, 0, 7, 0⟩
/-- 15 R479. -/
def CFG_STAT : RegRow := ⟨0x200000, [], false, 0, 0, 0⟩
def CFG_CAUSE : RegRow := ⟨0x200004, [], false, 0, 0, 0⟩
def CFG_CAUSE_FRAME : RegRow := ⟨0x200008, [], false, 0, 0, 0⟩
def CFG_LOAD : RegRow := ⟨0x200010, [], true, 0, 0, 0⟩
def CFG_LOAD_DB : RegRow := ⟨0x200018, [], true, 0x8000FFFFFFFFFFF8, 0, 0⟩
def CFG_RETAIN_BASE : RegRow := ⟨0x200020, [], true, 0, 0, 0⟩
def CFG_RETAIN_SIZE : RegRow := ⟨0x200028, [], false, 0, 0, 0⟩
def CFG_RETAIN_FREE : RegRow := ⟨0x20002C, [], false, 0, 0, 0⟩
def CFG_LOADS : RegRow := ⟨0x200030, [], true, 0, 0, 0⟩
def CFG_REFUSED : RegRow := ⟨0x200038, [], true, 0, 0, 0⟩
/-- 15 R480. -/
def PRM_STAT : RegRow := ⟨0x201000, [(0x40, 4)], false, 0, 0, 0⟩
def PRM_SWEEPS : RegRow := ⟨0x201008, [(0x40, 4)], true, 0, 0, 0⟩
def PRM_REPAIRS : RegRow := ⟨0x201010, [(0x40, 4)], true, 0, 0, 0⟩
def PRM_LAST : RegRow := ⟨0x201018, [(0x40, 4)], true, 0, 0, 0⟩
def PRM_SWEEP_US : RegRow := ⟨0x201020, [(0x40, 4)], false, 0, 0, 0⟩
def PRM_ESCALATED : RegRow := ⟨0x201024, [(0x40, 4)], false, 0, 0, 0⟩
/-- 17 R527. -/
def SEC_BOOT_STAT : RegRow := ⟨0x300000, [], false, 0, 0, 0⟩
def SEC_SERIAL : RegRow := ⟨0x300010, [(4, 4)], false, 0, 0, 0⟩
def SEC_IDHASH : RegRow := ⟨0x300020, [(4, 8)], false, 0, 0, 0⟩
def SEC_STEP_US : RegRow := ⟨0x30004C, [(4, 8)], false, 0, 0, 0⟩
def SEC_MEAS : RegRow := ⟨0x300100, [(0x20, 16), (4, 8)], false, 0, 0, 0⟩
def SEC_EXTEND_DIGEST : RegRow := ⟨0x300300, [(4, 8)], false, 0, 0, 0⟩
def SEC_EXTEND : RegRow := ⟨0x300320, [], false, 0, 0, 0⟩
def SEC_LOG_COUNT : RegRow := ⟨0x300340, [], false, 0, 0, 0⟩
def SEC_QNONCE : RegRow := ⟨0x300400, [(4, 8)], false, 0xFFFFFFFF, 0, 0⟩
def SEC_QADDR : RegRow := ⟨0x300420, [], true, 0xFFFFFFFFFE00, 0, 0⟩
def SEC_QCTL : RegRow := ⟨0x300428, [], false, 0, 0, 0⟩
def SEC_QSTAT : RegRow := ⟨0x30042C, [], false, 0, 0x38, 0⟩
def SEC_QDONE : RegRow := ⟨0x300430, [], true, 0, 0, 0⟩
def SEC_PROV_KEY : RegRow := ⟨0x300500, [(4, 8)], false, 0, 0, 0⟩
def SEC_PROV_OWNER : RegRow := ⟨0x300520, [(4, 8)], false, 0, 0, 0⟩
def SEC_PROV_CTL : RegRow := ⟨0x300540, [], false, 0, 0, 0⟩
def SEC_PROV_STAT : RegRow := ⟨0x300544, [], false, 0, 0, 0⟩
def SEC_PROV_REC : RegRow := ⟨0x300600, [(4, 64)], false, 0, 0, 0⟩
def SEC_LOG : RegRow := ⟨0x301000, [(0x40, 1024), (8, 8)], true, 0, 0, 0⟩
def SEC_QWIN : RegRow := ⟨0x320000, [(4, 4432)], false, 0, 0, 0⟩
/-- 12 R373. -/
def TIM_NOW : RegRow := ⟨0x400000, [], true, 0, 0, 0⟩
def TIM_CFG : RegRow := ⟨0x400008, [], false, 0x7F, 0, 0⟩
def TIM_STAT : RegRow := ⟨0x40000C, [], false, 0, 0xF, 0⟩
def TIM_SET : RegRow := ⟨0x400010, [], true, 0, 0, 0⟩
def TIM_OFFSET : RegRow := ⟨0x400018, [], false, 0, 0, 0⟩
def TIM_STEP_MAX : RegRow := ⟨0x40001C, [], false, 0xFFFFFFFF, 0, 0x3E8⟩
def TIM_PPS_STAMP : RegRow := ⟨0x400020, [], true, 0, 0, 0⟩
def TIM_RATE : RegRow := ⟨0x400028, [], false, 0, 0, 0⟩
/-- 11 R351. -/
def TIM_CUE_STAMP : RegRow := ⟨0x400800, [(8, 8)], true, 0, 0, 0⟩
def TIM_CUE_COUNT : RegRow := ⟨0x400840, [(8, 8)], true, 0, 0, 0⟩
/-- 12 R372. -/
def PCE_CFG : RegRow := ⟨0x401000, [], false, 0x3FFFF3, 0, 0x60320⟩
def PCE_GUARD : RegRow := ⟨0x401004, [], false, 0xFFFF, 0, 0x14⟩
def PCE_THERM : RegRow := ⟨0x401008, [], false, 0xFFFF, 0, 0x5F64⟩
def PCE_STAT : RegRow := ⟨0x40100C, [], false, 0, 0x3F, 0⟩
def PCE_PACKAGE_W : RegRow := ⟨0x401010, [], false, 0, 0, 0⟩
def PCE_HOUSE : RegRow := ⟨0x401014, [], false, 0xFF00FF, 0, 0xA0064⟩
def PCE_SHORT_COUNT : RegRow := ⟨0x401018, [], true, 0, 0, 0⟩
def PCE_OVERRUN : RegRow := ⟨0x401020, [], true, 0, 0, 0⟩
def PCE_RAIL_CFG : RegRow := ⟨0x401100, [(0x20, 4)], false, 0xFFFFFF, 0, 0x8C00⟩
def PCE_RAIL_STAT : RegRow := ⟨0x401104, [(0x20, 4)], false, 0, 0, 0⟩
def PCE_DEMAND : RegRow := ⟨0x401108, [(0x20, 4)], false, 0, 0, 0⟩
def PCE_TEMP : RegRow := ⟨0x40110C, [(0x20, 4)], false, 0, 0, 0⟩
def PCE_ENERGY : RegRow := ⟨0x401110, [(0x20, 4)], true, 0, 0, 0⟩
def PCE_CMDS : RegRow := ⟨0x401118, [(0x20, 4)], true, 0, 0, 0⟩
def PCE_TABLE : RegRow := ⟨0x401200, [(0x40, 4), (4, 15)], false, 0, 0, 0⟩
/-- 18 R552. -/
def ERR_STAT : RegRow := ⟨0x500000, [], false, 0, 0x3F, 0⟩
def ERR_CFG : RegRow := ⟨0x500004, [], false, 0xFF, 0, 0xA⟩
def ERR_SEQ : RegRow := ⟨0x500008, [], true, 0, 0, 0⟩
def ERR_LOG_RD : RegRow := ⟨0x500010, [], true, 0xFFFFFFFFFFFFFFFF, 0, 0⟩
def ERR_LOST : RegRow := ⟨0x500018, [], false, 0, 0, 0⟩
def ERR_COUNT : RegRow := ⟨0x500020, [(8, 4)], true, 0, 0, 0⟩
def ERR_FATAL : RegRow := ⟨0x500040, [], true, 0, 0, 0xFFFFFFFFFFFFFFFF⟩
def ERR_LOG : RegRow := ⟨0x501000, [(0x40, 4096), (8, 8)], true, 0, 0, 0⟩
/-- 19 R580. -/
def PWR_LIMIT : RegRow := ⟨0x600000, [], false, 0x7FF, 0, 0x5DC⟩
def PWR_CFG : RegRow := ⟨0x600004, [], false, 1, 0, 1⟩
def PWR_STAT : RegRow := ⟨0x600008, [], false, 0, 0, 0⟩
def PWR_DOM_C : RegRow := ⟨0x600010, [(8, 4)], true, 0, 0, 0⟩
def PWR_DOM_M : RegRow := ⟨0x600030, [(4, 2)], false, 0, 0, 0⟩
def PWR_DOM_E : RegRow := ⟨0x600038, [(4, 2)], false, 0, 0, 0⟩
def PWR_TRIP : RegRow := ⟨0x600040, [], false, 0, 0x100000, 0⟩
def PWR_IN_STAT : RegRow := ⟨0x600044, [], false, 0, 0x1FF, 0⟩
def PWR_IN_CFG : RegRow := ⟨0x600100, [(4, 8)], false, 0xFFFFFF, 0, 0x3E8⟩
def PWR_IN_CFG_8 : RegRow := ⟨0x600120, [], false, 0xFFFFFF, 0, 0xDBBA0⟩
def PWR_IN_COAL : RegRow := ⟨0x600140, [(8, 9)], true, 0, 0, 0⟩
def PWR_IN_STUCK_AT : RegRow := ⟨0x600190, [(8, 9)], true, 0, 0, 0⟩
/-- 14 R446. -/
def FAB_CFG : RegRow := ⟨0x700000, [], false, 0xFF7FFF, 0, 0x400000⟩
def FAB_CTL : RegRow := ⟨0x700004, [], false, 1, 0, 0⟩
def FAB_SWAP : RegRow := ⟨0x700008, [], false, 0, 0, 0⟩
def FAB_STAT : RegRow := ⟨0x70000C, [], false, 0, 0, 0⟩
def FAB_EVT : RegRow := ⟨0x700010, [], false, 0, 0x1F, 0⟩
def FAB_ACK_TMO : RegRow := ⟨0x700014, [], false, 0xFFFF, 0, 0x64⟩
def FAB_DROP_ROUTE : RegRow := ⟨0x700018, [], false, 0, 0, 0⟩
def FAB_DROP_BAD : RegRow := ⟨0x70001C, [], false, 0, 0, 0⟩
def FAB_NI_ACTIVE : RegRow := ⟨0x700020, [], false, 0, 0, 0⟩
/-- 14 R447. -/
def FAB_PORT_CFG : RegRow := ⟨0x701000, [(0x100, 16)], false, 7, 0, 0⟩
def FAB_PORT_STAT : RegRow := ⟨0x701004, [(0x100, 16)], false, 0, 0, 0⟩
def FAB_PORT_CTL : RegRow := ⟨0x701008, [(0x100, 16)], false, 0, 0, 0⟩
def FAB_PORT_PKT_TX : RegRow := ⟨0x701010, [(0x100, 16)], true, 0, 0, 0⟩
def FAB_PORT_PKT_RX : RegRow := ⟨0x701018, [(0x100, 16)], true, 0, 0, 0⟩
def FAB_PORT_BYTE_TX : RegRow := ⟨0x701020, [(0x100, 16)], true, 0, 0, 0⟩
def FAB_PORT_BYTE_RX : RegRow := ⟨0x701028, [(0x100, 16)], true, 0, 0, 0⟩
def FAB_PORT_FEC_CORR : RegRow := ⟨0x701030, [(0x100, 16)], true, 0, 0, 0⟩
def FAB_PORT_FEC_UNCORR : RegRow := ⟨0x701038, [(0x100, 16)], true, 0, 0, 0⟩
def FAB_PORT_REPLAY : RegRow := ⟨0x701040, [(0x100, 16)], true, 0, 0, 0⟩
def FAB_PORT_STALL : RegRow := ⟨0x701048, [(0x100, 16)], true, 0, 0, 0⟩
def FAB_PORT_VCQ_0 : RegRow := ⟨0x701050, [(0x100, 16)], true, 0, 0, 0⟩
def FAB_PORT_VCQ_1 : RegRow := ⟨0x701058, [(0x100, 16)], true, 0, 0, 0⟩
/-- 14 R448. -/
def FAB_Q_BASE : RegRow := ⟨0x702000, [(0x40, 64)], true, 0xFFFFFFFFFFC0, 0, 0⟩
def FAB_Q_DB : RegRow := ⟨0x702008, [(0x40, 64)], true, 0xFFFFFFFFFFF8, 0, 0⟩
def FAB_Q_CFG : RegRow := ⟨0x702010, [(0x40, 64)], false, 0x1FFF, 0, 0⟩
def FAB_Q_HEAD : RegRow := ⟨0x702014, [(0x40, 64)], false, 0, 0, 0⟩
def FAB_Q_STAT : RegRow := ⟨0x702018, [(0x40, 64)], false, 0, 3, 0⟩
def FAB_Q_LAST : RegRow := ⟨0x70201C, [(0x40, 64)], false, 0, 0, 0⟩
def FAB_Q_DONE : RegRow := ⟨0x702020, [(0x40, 64)], true, 0, 0, 0⟩
def FAB_CURT : RegRow := ⟨0x703000, [(4, 64)], false, 0x1FFFFF, 0, 0⟩
def FAB_RT : RegRow := ⟨0x710000, [(4, 16384)], false, 0x3FFFFF, 0, 0⟩
def FAB_CIRC : RegRow := ⟨0x720000, [(0x10, 4096)], true, 0xFFFFFFFFFFFF, 0, 0⟩
def FAB_CIRC_SLOTS : RegRow := ⟨0x720008, [(0x10, 4096)], true, 0xFFFFFFFFFFFFFFFF, 0, 0⟩
def FAB_RTA : RegRow := ⟨0x730000, [(4, 16384)], false, 0, 0, 0⟩
def CST_ENTRY : RegRow := ⟨0x740000, [(4, 16384)], false, 0x7FFF, 0, 0⟩
def CST_JOB : RegRow := ⟨0x750000, [(8, 256)], true, 0x3FFFFFFF, 0, 0⟩
/-- 13 R403. -/
def MEM_CFG : RegRow := ⟨0x800000, [(0x400000, 2)], false, 0, 0, 0⟩
def MEM_CAPACITY : RegRow := ⟨0x800008, [(0x400000, 2)], true, 0, 0, 0⟩
def MEM_HUB_OUT : RegRow := ⟨0x800010, [(0x400000, 2)], false, 0, 0, 0⟩
def MEM_RETRAIN_CFG : RegRow := ⟨0x800014, [(0x400000, 2)], false, 0xFF, 0, 0x32⟩
def MEM_FAULT : RegRow := ⟨0x800018, [(0x400000, 2)], false, 0, 0xF, 0⟩
def MEM_FAULT_ADDR : RegRow := ⟨0x800020, [(0x400000, 2)], true, 0, 0, 0⟩
def MEM_MIRROR_PRI : RegRow := ⟨0x800040, [(0x20, 4)], true, 0xFFFFFFF00000, 0, 0⟩
def MEM_MIRROR_SEC : RegRow := ⟨0x800048, [(0x20, 4)], true, 0xFFFFFFF00000, 0, 0⟩
def MEM_MIRROR_SIZE : RegRow := ⟨0x800050, [(0x20, 4)], false, 0xFFFFF, 0, 0⟩
def MEM_MIRROR_M1 : RegRow := ⟨0xC00040, [(0x20, 4)], true, 0, 0, 0⟩
def MEM_MIRROR_M1b : RegRow := ⟨0xC00048, [(0x20, 4)], true, 0, 0, 0⟩
def MEM_MIRROR_M1c : RegRow := ⟨0xC00050, [(0x20, 4)], false, 0, 0, 0⟩
/-- 13 R404. -/
def MEM_CH_STAT : RegRow := ⟨0x810000, [(0x400000, 2), (0x40, 64)], false, 0, 0, 0⟩
def MEM_CH_RD : RegRow := ⟨0x810008, [(0x400000, 2), (0x40, 64)], true, 0, 0, 0⟩
def MEM_CH_WR : RegRow := ⟨0x810010, [(0x400000, 2), (0x40, 64)], true, 0, 0, 0⟩
def MEM_CH_LECC : RegRow := ⟨0x810018, [(0x400000, 2), (0x40, 64)], false, 0, 0, 0⟩
def MEM_CH_RETRY : RegRow := ⟨0x81001C, [(0x400000, 2), (0x40, 64)], false, 0, 0, 0⟩
def MEM_CH_DAMAGED : RegRow := ⟨0x810020, [(0x400000, 2), (0x40, 64)], false, 0, 0, 0⟩
def MEM_CH_RETRAINS : RegRow := ⟨0x810024, [(0x400000, 2), (0x40, 64)], false, 0, 0, 0⟩
def MEM_CH_WAIT_MAX : RegRow := ⟨0x810028, [(0x400000, 2), (0x40, 64)], false, 0xFFFFFFFF, 0, 0⟩
/-- 04 R138. -/
def PIT_ROWS_IN : RegRow := ⟨0x880000, [(0x400000, 2), (0x40, 64)], true, 0, 0, 0⟩
def PIT_ROWS_OUT : RegRow := ⟨0x880008, [(0x400000, 2), (0x40, 64)], true, 0, 0, 0⟩
def PIT_CLAMPED : RegRow := ⟨0x880010, [(0x400000, 2), (0x40, 64)], true, 0, 0, 0⟩
def PIT_TAG_ERR : RegRow := ⟨0x880018, [(0x400000, 2), (0x40, 64)], false, 0, 0, 0⟩
def PIT_FAULT : RegRow := ⟨0x88001C, [(0x400000, 2), (0x40, 64)], false, 0, 7, 0⟩
def PIT_LAST_WORD : RegRow := ⟨0x880020, [(0x400000, 2), (0x40, 64)], true, 0, 0, 0⟩
/-- 10 R326. -/
def STG_CFG : RegRow := ⟨0x1000000, [(0x400000, 4)], false, 3, 0, 2⟩
def STG_SHARE_CFG : RegRow := ⟨0x1000004, [], false, 0x7F, 0, 0xA⟩
def STG_SHARE_CFG_x : RegRow := ⟨0x1400004, [(0x400000, 3)], false, 0, 0, 0⟩
def STG_STATUS : RegRow := ⟨0x1000008, [(0x400000, 4)], true, 0, 0, 0⟩
def STG_DONE : RegRow := ⟨0x1000010, [(0x400000, 4)], true, 0, 0, 0⟩
def STG_SKIPPED : RegRow := ⟨0x1000018, [(0x400000, 4)], true, 0, 0, 0⟩
def STG_FAILED : RegRow := ⟨0x1000020, [(0x400000, 4)], true, 0, 0, 0⟩
def STG_ABORTS : RegRow := ⟨0x1000028, [(0x400000, 4)], true, 0, 0, 0⟩
def STG_STEAL_LOCAL : RegRow := ⟨0x1000030, [(0x400000, 4)], true, 0, 0, 0⟩
def STG_STEAL_REMOTE : RegRow := ⟨0x1000038, [(0x400000, 4)], true, 0, 0, 0⟩
def STG_PREEMPTS : RegRow := ⟨0x1000040, [(0x400000, 4)], true, 0, 0, 0⟩
def STG_PREEMPT_LAPSED : RegRow := ⟨0x1000048, [(0x400000, 4)], true, 0, 0, 0⟩
def STG_PREEMPT_NOSPACE : RegRow := ⟨0x1000050, [(0x400000, 4)], true, 0, 0, 0⟩
def STG_SAVE_BASE : RegRow := ⟨0x1000058, [(0x400000, 4)], true, 0xFFFFFFF00000, 0, 0⟩
def STG_SAVE_SIZE : RegRow := ⟨0x1000060, [(0x400000, 4)], false, 0xFFFF, 0, 0⟩
def STG_PREEMPT_REQ : RegRow := ⟨0x1000064, [(0x400000, 4)], false, 0, 0, 0⟩
def STG_PREEMPT_CFG : RegRow := ⟨0x1000068, [(0x400000, 4)], false, 0xFFFFFF, 0, 0⟩
def STG_LAST_FAIL : RegRow := ⟨0x1000070, [(0x400000, 4)], true, 0, 0, 0⟩
def STG_LAST_REFUSE : RegRow := ⟨0x1000078, [(0x400000, 4)], true, 0, 0, 0⟩
def STG_SEAT_BLOCK_BASE : RegRow := ⟨0x1000080, [], true, 0xFFFFFFFFF000, 0, 0⟩
def STG_SEAT_BLOCK_BASE_x : RegRow := ⟨0x1400080, [(0x400000, 3)], true, 0, 0, 0⟩
/-- 01 R30. -/
def STG_ROSTER : RegRow := ⟨0x1000400, [(0x400000, 4), (8, 7)], true, 0, 0, 0⟩
def STG_ROSTER_COUNT : RegRow := ⟨0x1000438, [(0x400000, 4)], true, 0, 0, 0⟩
def STG_SHARE_W : RegRow := ⟨0x1000800, [(4, 64)], false, 0xFFFF, 0, 1⟩
def STG_SHARE_W_x : RegRow := ⟨0x1400800, [(0x400000, 3), (4, 64)], false, 0, 0, 0⟩
def STG_SHARE_USED : RegRow := ⟨0x1000900, [(0x400000, 4), (8, 64)], true, 0, 0, 0⟩
def STG_SHARE_BAL : RegRow := ⟨0x1000B00, [(0x400000, 4), (8, 64)], true, 0, 0, 0⟩
/-- 09 R291. -/
def TRV_BEAT : RegRow := ⟨0x1002000, [(0x400000, 4)], true, 0, 0, 0⟩
/-- 12 R359. -/
def TRV_BMON : RegRow := ⟨0x1002100, [(0x400000, 4), (8, 16)], true, 0, 0, 0⟩
def TRV_BMON_CLR : RegRow := ⟨0x1002180, [(0x400000, 4)], true, 0, 0, 0⟩
/-- 11 R350. -/
def STG_PCURT_CFG : RegRow := ⟨0x1003000, [(0x400000, 4), (0x10, 64)], false, 0, 0, 0⟩
/-- 11 R350. -/
def STG_PCURT_STAT : RegRow := ⟨0x1003004, [(0x400000, 4), (0x10, 64)], false, 0, 0, 0⟩
/-- 11 R350. -/
def STG_PCURT_TIMEOUTS : RegRow := ⟨0x1003008, [(0x400000, 4), (0x10, 64)], false, 0, 0, 0⟩
/-- 11 R350. -/
def STG_PCURT_MISMATCH : RegRow := ⟨0x100300C, [(0x400000, 4), (0x10, 64)], false, 0, 0, 0⟩
/-- 10 R327. -/
def STG_SEAT_CFG : RegRow := ⟨0x1100000, [(0x40, 4096)], false, 0x7F, 0, 0⟩
def STG_SEAT_CADENCE : RegRow := ⟨0x1100004, [(0x40, 4096)], false, 0xFFFFFFFF, 0, 0⟩
def STG_SEAT_DEADLINE : RegRow := ⟨0x1100008, [(0x40, 4096)], true, 0xFFFFFFFFFFFFFFFF, 0, 0⟩
def STG_SEAT_DONE : RegRow := ⟨0x1100010, [(0x40, 4096)], true, 0, 0, 0⟩
def STG_SEAT_MISS : RegRow := ⟨0x1100018, [(0x40, 4096)], false, 0, 0, 0⟩
def STG_SEAT_STAT : RegRow := ⟨0x110001C, [(0x40, 4096)], false, 0, 1, 0⟩
def STG_SEAT_SLACK : RegRow := ⟨0x1100020, [(0x40, 4096)], false, 0, 0, 0⟩
def STG_SEAT_INFLIGHT : RegRow := ⟨0x1100024, [(0x40, 4096)], false, 0, 0, 0⟩
def STG_SEAT_WORST : RegRow := ⟨0x1100028, [(0x40, 4096)], false, 0, 0, 0⟩
/-- 11 R349. -/
def CLU_CUE_CNT : RegRow := ⟨0x2000000, [(0x800000, 4), (0x4000, 400), (0x40, 16), (4, 16)], false, 0, 0, 0⟩
def CLU_WIRE_PEND : RegRow := ⟨0x2000400, [(0x800000, 4), (0x4000, 400), (8, 16)], true, 0, 0, 0⟩
def CLU_XCUE_PEND : RegRow := ⟨0x2000480, [(0x800000, 4), (0x4000, 400), (8, 16)], true, 0, 0, 0⟩
def CLU_WIRE_CFG : RegRow := ⟨0x2000500, [(0x800000, 4), (0x4000, 400), (4, 64)], false, 0, 0, 0⟩
/-- 10 R328. -/
def CLU_CB_STATUS : RegRow := ⟨0x2000600, [(0x800000, 4), (0x4000, 400)], false, 0, 0, 0⟩
def CLU_CB_RUN : RegRow := ⟨0x2000608, [(0x800000, 4), (0x4000, 400)], true, 0, 0, 0⟩
def CLU_CB_STOLEN : RegRow := ⟨0x2000610, [(0x800000, 4), (0x4000, 400)], true, 0, 0, 0⟩
/-- 09 R290. -/
def CLU_TRV_SHEET : RegRow := ⟨0x2000700, [(0x800000, 4), (0x4000, 400)], false, 0, 0, 0⟩
def CLU_TRV_SENT : RegRow := ⟨0x2000708, [(0x800000, 4), (0x4000, 400)], true, 0, 0, 0⟩
def CLU_TRV_MERGED : RegRow := ⟨0x2000710, [(0x800000, 4), (0x4000, 400)], true, 0, 0, 0⟩
def CLU_TRV_MERGE_MISS : RegRow := ⟨0x2000718, [(0x800000, 4), (0x4000, 400)], true, 0, 0, 0⟩
def CLU_TRV_ERR : RegRow := ⟨0x2000720, [(0x800000, 4), (0x4000, 400)], false, 0, 1, 0⟩
def CLU_CURT : RegRow := ⟨0x2000780, [(0x800000, 4), (0x4000, 400), (4, 16)], false, 0, 0, 0⟩
def CLU_CUE_STAT : RegRow := ⟨0x20007C0, [(0x800000, 4), (0x4000, 400)], false, 0, 1, 0⟩
def CLU_CH_RX : RegRow := ⟨0x2000800, [(0x800000, 4), (0x4000, 400), (4, 256)], false, 0, 0, 0⟩
def CLU_CH_DROP : RegRow := ⟨0x2000C00, [(0x800000, 4), (0x4000, 400), (4, 256)], false, 0, 0, 0⟩
def CLU_CH_TX : RegRow := ⟨0x2001000, [(0x800000, 4), (0x4000, 400), (4, 256)], false, 0, 0, 0⟩
def CLU_CH_DARK : RegRow := ⟨0x2001400, [(0x800000, 4), (0x4000, 400), (4, 256)], false, 0, 0, 0⟩
def CLU_CH_HEAD : RegRow := ⟨0x2001800, [(0x800000, 4), (0x4000, 400), (0x40, 16), (8, 8)], true, 0, 0, 0⟩
def CLU_CH_HSEL : RegRow := ⟨0x2001C00, [(0x800000, 4), (0x4000, 400), (4, 16)], false, 0x1F, 0, 0⟩
/-- 06 R196. -/
def CORE_ID : RegRow := ⟨0x2002000, [(0x800000, 4), (0x4000, 400), (0x200, 16)], false, 0, 0, 0⟩
def CORE_CFG : RegRow := ⟨0x2002004, [(0x800000, 4), (0x4000, 400), (0x200, 16)], false, 0, 0, 0⟩
def CORE_STATUS : RegRow := ⟨0x2002008, [(0x800000, 4), (0x4000, 400), (0x200, 16)], false, 0, 0, 0⟩
def CORE_SP_ERR : RegRow := ⟨0x200200C, [(0x800000, 4), (0x4000, 400), (0x200, 16)], false, 0, 7, 0⟩
def CORE_SP_ERR_ROW : RegRow := ⟨0x2002010, [(0x800000, 4), (0x4000, 400), (0x200, 16)], false, 0, 0, 0⟩
def CORE_THR : RegRow := ⟨0x2002040, [(0x800000, 4), (0x4000, 400), (0x200, 16), (8, 8)], true, 0, 0, 0⟩
def CORE_ISSUED : RegRow := ⟨0x2002080, [(0x800000, 4), (0x4000, 400), (0x200, 16)], true, 0, 0, 0⟩
def CORE_SLEEPS : RegRow := ⟨0x2002088, [(0x800000, 4), (0x4000, 400), (0x200, 16)], true, 0, 0, 0⟩
def CORE_CACHE_HIT : RegRow := ⟨0x2002090, [(0x800000, 4), (0x4000, 400), (0x200, 16)], true, 0, 0, 0⟩
def CORE_CACHE_MISS : RegRow := ⟨0x2002098, [(0x800000, 4), (0x4000, 400), (0x200, 16)], true, 0, 0, 0⟩
def CORE_SHAPE : RegRow := ⟨0x20020C0, [(0x800000, 4), (0x4000, 400), (0x200, 16), (4, 16)], false, 0, 0, 0⟩
/-- 09 R289. -/
def CORE_CHQ : RegRow := ⟨0x2002100, [(0x800000, 4), (0x4000, 400), (0x200, 16), (4, 16)], false, 0, 0, 0⟩
def CORE_CHR : RegRow := ⟨0x2002140, [(0x800000, 4), (0x4000, 400), (0x200, 16), (4, 16)], false, 0, 0x70000, 0⟩
/-- 04 R128. -/
def CORE_VCONST : RegRow := ⟨0x2002180, [(0x800000, 4), (0x4000, 400), (0x200, 16), (4, 16)], false, 0xFFFFFFFF, 0, 0⟩
def CORE_VEC_STATUS : RegRow := ⟨0x20021C0, [(0x800000, 4), (0x4000, 400), (0x200, 16)], false, 0, 0, 0⟩
def CORE_VEC_RUNS : RegRow := ⟨0x20021C4, [(0x800000, 4), (0x4000, 400), (0x200, 16)], false, 0, 0, 0⟩
def CORE_VEC_ERR : RegRow := ⟨0x20021C8, [(0x800000, 4), (0x4000, 400), (0x200, 16)], false, 0, 3, 0⟩

/-- Part 0 of the register map. -/
def part0 : List RegRow :=
  [FDR_ROOT, HST_PORT_STAT, HST_WIN, HST_REFUSE, HST_REFUSE_ADDR, HST_EVT_CFG, HST_SQ_BASE, HST_SQ_CFG, HST_SQ_HEAD, HST_CQ_BASE, HST_CQ_CFG, HST_CQ_TAIL, HST_CQ_LOST, HST_RING_STAT, CFG_STAT, CFG_CAUSE, CFG_CAUSE_FRAME, CFG_LOAD, CFG_LOAD_DB, CFG_RETAIN_BASE, CFG_RETAIN_SIZE, CFG_RETAIN_FREE, CFG_LOADS, CFG_REFUSED, PRM_STAT, PRM_SWEEPS, PRM_REPAIRS, PRM_LAST, PRM_SWEEP_US, PRM_ESCALATED]
/-- Part 1 of the register map. -/
def part1 : List RegRow :=
  [SEC_BOOT_STAT, SEC_SERIAL, SEC_IDHASH, SEC_STEP_US, SEC_MEAS, SEC_EXTEND_DIGEST, SEC_EXTEND, SEC_LOG_COUNT, SEC_QNONCE, SEC_QADDR, SEC_QCTL, SEC_QSTAT, SEC_QDONE, SEC_PROV_KEY, SEC_PROV_OWNER, SEC_PROV_CTL, SEC_PROV_STAT, SEC_PROV_REC, SEC_LOG, SEC_QWIN, TIM_NOW, TIM_CFG, TIM_STAT, TIM_SET, TIM_OFFSET, TIM_STEP_MAX, TIM_PPS_STAMP, TIM_RATE, TIM_CUE_STAMP, TIM_CUE_COUNT]
/-- Part 2 of the register map. -/
def part2 : List RegRow :=
  [PCE_CFG, PCE_GUARD, PCE_THERM, PCE_STAT, PCE_PACKAGE_W, PCE_HOUSE, PCE_SHORT_COUNT, PCE_OVERRUN, PCE_RAIL_CFG, PCE_RAIL_STAT, PCE_DEMAND, PCE_TEMP, PCE_ENERGY, PCE_CMDS, PCE_TABLE, ERR_STAT, ERR_CFG, ERR_SEQ, ERR_LOG_RD, ERR_LOST, ERR_COUNT, ERR_FATAL, ERR_LOG, PWR_LIMIT, PWR_CFG, PWR_STAT, PWR_DOM_C, PWR_DOM_M, PWR_DOM_E, PWR_TRIP]
/-- Part 3 of the register map. -/
def part3 : List RegRow :=
  [PWR_IN_STAT, PWR_IN_CFG, PWR_IN_CFG_8, PWR_IN_COAL, PWR_IN_STUCK_AT, FAB_CFG, FAB_CTL, FAB_SWAP, FAB_STAT, FAB_EVT, FAB_ACK_TMO, FAB_DROP_ROUTE, FAB_DROP_BAD, FAB_NI_ACTIVE, FAB_PORT_CFG, FAB_PORT_STAT, FAB_PORT_CTL, FAB_PORT_PKT_TX, FAB_PORT_PKT_RX, FAB_PORT_BYTE_TX, FAB_PORT_BYTE_RX, FAB_PORT_FEC_CORR, FAB_PORT_FEC_UNCORR, FAB_PORT_REPLAY, FAB_PORT_STALL, FAB_PORT_VCQ_0, FAB_PORT_VCQ_1, FAB_Q_BASE, FAB_Q_DB, FAB_Q_CFG]
/-- Part 4 of the register map. -/
def part4 : List RegRow :=
  [FAB_Q_HEAD, FAB_Q_STAT, FAB_Q_LAST, FAB_Q_DONE, FAB_CURT, FAB_RT, FAB_CIRC, FAB_CIRC_SLOTS, FAB_RTA, CST_ENTRY, CST_JOB, MEM_CFG, MEM_CAPACITY, MEM_HUB_OUT, MEM_RETRAIN_CFG, MEM_FAULT, MEM_FAULT_ADDR, MEM_MIRROR_PRI, MEM_MIRROR_SEC, MEM_MIRROR_SIZE, MEM_MIRROR_M1, MEM_MIRROR_M1b, MEM_MIRROR_M1c, MEM_CH_STAT, MEM_CH_RD, MEM_CH_WR, MEM_CH_LECC, MEM_CH_RETRY, MEM_CH_DAMAGED, MEM_CH_RETRAINS]
/-- Part 5 of the register map. -/
def part5 : List RegRow :=
  [MEM_CH_WAIT_MAX, PIT_ROWS_IN, PIT_ROWS_OUT, PIT_CLAMPED, PIT_TAG_ERR, PIT_FAULT, PIT_LAST_WORD, STG_CFG, STG_SHARE_CFG, STG_SHARE_CFG_x, STG_STATUS, STG_DONE, STG_SKIPPED, STG_FAILED, STG_ABORTS, STG_STEAL_LOCAL, STG_STEAL_REMOTE, STG_PREEMPTS, STG_PREEMPT_LAPSED, STG_PREEMPT_NOSPACE, STG_SAVE_BASE, STG_SAVE_SIZE, STG_PREEMPT_REQ, STG_PREEMPT_CFG, STG_LAST_FAIL, STG_LAST_REFUSE, STG_SEAT_BLOCK_BASE, STG_SEAT_BLOCK_BASE_x, STG_ROSTER, STG_ROSTER_COUNT]
/-- Part 6 of the register map. -/
def part6 : List RegRow :=
  [STG_SHARE_W, STG_SHARE_W_x, STG_SHARE_USED, STG_SHARE_BAL, TRV_BEAT, TRV_BMON, TRV_BMON_CLR, STG_PCURT_CFG, STG_PCURT_STAT, STG_PCURT_TIMEOUTS, STG_PCURT_MISMATCH, STG_SEAT_CFG, STG_SEAT_CADENCE, STG_SEAT_DEADLINE, STG_SEAT_DONE, STG_SEAT_MISS, STG_SEAT_STAT, STG_SEAT_SLACK, STG_SEAT_INFLIGHT, STG_SEAT_WORST, CLU_CUE_CNT, CLU_WIRE_PEND, CLU_XCUE_PEND, CLU_WIRE_CFG, CLU_CB_STATUS, CLU_CB_RUN, CLU_CB_STOLEN, CLU_TRV_SHEET, CLU_TRV_SENT, CLU_TRV_MERGED]
/-- Part 7 of the register map. -/
def part7 : List RegRow :=
  [CLU_TRV_MERGE_MISS, CLU_TRV_ERR, CLU_CURT, CLU_CUE_STAT, CLU_CH_RX, CLU_CH_DROP, CLU_CH_TX, CLU_CH_DARK, CLU_CH_HEAD, CLU_CH_HSEL, CORE_ID, CORE_CFG, CORE_STATUS, CORE_SP_ERR, CORE_SP_ERR_ROW, CORE_THR, CORE_ISSUED, CORE_SLEEPS, CORE_CACHE_HIT, CORE_CACHE_MISS, CORE_SHAPE, CORE_CHQ, CORE_CHR, CORE_VCONST, CORE_VEC_STATUS, CORE_VEC_RUNS, CORE_VEC_ERR]

/-- The whole register map. -/
def map : List RegRow := part0 ++ part1 ++ part2 ++ part3 ++ part4 ++ part5 ++ part6 ++ part7

end Reg
/-- The offset of the register of row `r` at the indices `is`. -/
def RegRow.at (r : RegRow) (is : List Nat) : Nat :=
  r.base + ((List.zipWith (fun d i => d.1 * i) r.dims is).foldl (· + ·) 0)

/-- The indices that `off` names in the dimensions `ds`, if it names any. -/
def dimIndex : List (Nat × Nat) → Nat → Option (List Nat)
  | [], o => if o = 0 then some [] else none
  | (st, n) :: ds, o =>
    if o / st < n then (dimIndex ds (o % st)).map ((o / st) :: ·)
    else none

/-- The indices at which row `r` has the offset `off`. -/
def RegRow.index (r : RegRow) (off : Nat) : Option (List Nat) :=
  if off < r.base then none else dimIndex r.dims (off - r.base)

/-- The row of the register map at `off`, with its indices. -/
def findReg (off : Nat) : List RegRow → Option (RegRow × List Nat)
  | [] => none
  | r :: rs => match r.index off with
    | some is => some (r, is)
    | none => findReg off rs

/-- The Reset value of the register at `off` (00 R15); "boot" entries count as 0 (log 5). -/
def resetOf (off : Nat) : W64 := match findReg off Reg.map with
  | some (r, _) => BitVec.ofNat 64 r.reset
  | none => 0

/-- The value held by the register at `off`. -/
def Part.reg (s : Part) (off : Nat) : W64 := Tab.get 0 s.regs off ^^^ resetOf off

/-- The register at `off` holding `v`. -/
def Part.setReg (s : Part) (off : Nat) (v : W64) : Part :=
  { s with regs := Tab.put 0 s.regs off (v ^^^ resetOf off) }

def Part.regN (s : Part) (off : Nat) : Nat := (s.reg off).toNat
def Part.setRegN (s : Part) (off v : Nat) : Part := s.setReg off (BitVec.ofNat 64 v)

/-- Bits [lo + len - 1 : lo] of a register. -/
def Part.regFld (s : Part) (off lo len : Nat) : Nat := fld (s.regN off) lo len

/-- The register with bits [lo + len - 1 : lo] holding `v`. -/
def Part.setFld (s : Part) (off lo len v : Nat) : Part :=
  let w := s.regN off
  s.setRegN off (w - (fld w lo len) * 2 ^ lo + (v % 2 ^ len) * 2 ^ lo)

/-- The register with the bits of `m` set (an event bit, 00 R13 R16). -/
def Part.orReg (s : Part) (off m : Nat) : Part := s.setReg off (s.reg off ||| BitVec.ofNat 64 m)

/-- The register with the bits of `m` cleared. -/
def Part.andNotReg (s : Part) (off m : Nat) : Part := s.setReg off (s.reg off &&& ~~~ BitVec.ofNat 64 m)

/-- A 64-bit counter raised by `n`. -/
def Part.bump (s : Part) (off n : Nat) : Part := s.setReg off (s.reg off + BitVec.ofNat 64 n)

/-- A 32-bit counter raised by `n`, wrapping (18 R553). -/
def Part.bump32 (s : Part) (off n : Nat) : Part := s.setRegN off ((s.regN off + n) % 2 ^ 32)

/-- A 48-bit counter raised by `n`, wrapping (18 R553). -/
def Part.bump48 (s : Part) (off n : Nat) : Part := s.setRegN off ((s.regN off + n) % 2 ^ 48)

/-- A 32-bit counter raised by `n`, stopping at 0xFFFF_FFFF (18 R553). -/
def Part.bumpSat (s : Part) (off n : Nat) : Part := s.setReg off (satAdd32 (s.reg off) n)

/-- Whether an offset lies in a register block. A block is taken to fill the aligned range that holds its register map
(DEDUCED, log 10: 16 R489 speaks of blocks, the maps give their offsets). -/
def inBlock (off : Nat) : Bool :=
  decide (off < 0x100000) || (decide (0x100000 ≤ off) && decide (off < 0x120000)) ||
  (decide (0x200000 ≤ off) && decide (off < 0x202000)) || (decide (0x300000 ≤ off) && decide (off < 0x325000)) ||
  (decide (0x400000 ≤ off) && decide (off < 0x402000)) || (decide (0x500000 ≤ off) && decide (off < 0x541000)) ||
  (decide (0x600000 ≤ off) && decide (off < 0x601000)) || (decide (0x700000 ≤ off) && decide (off < 0x751000)) ||
  (decide (0x800000 ≤ off) && decide (off < 0x1000000) && decide (off % 0x400000 < 0x90000)) ||
  (decide (0x1000000 ≤ off) && decide (off < 0x2000000) &&
    (decide (off % 0x400000 < 0x4000) || (decide (0x1100000 ≤ off) && decide (off < 0x1140000)))) ||
  (decide (0x2000000 ≤ off) && decide (off < 0x4000000) && decide (off % 0x800000 < 0x640000))

/-- 00 R13: what a write of `v` leaves in a register of row `r` that holds `old`: RW bits take `v`, W1C bits written 1 are
cleared, every other bit stands. -/
def RegRow.written (r : RegRow) (old v : W64) : W64 :=
  let rw := BitVec.ofNat 64 r.rw
  ((old &&& ~~~ rw) ||| (v &&& rw)) &&& ~~~ (v &&& BitVec.ofNat 64 r.w1c)

end Sys2Proof.Machine
end

