-- ==== Sys2Proof/Machine/Ops.lean ====
section
/-! DEFINITION. Named operations that every family uses: cores, clusters, configuration memory, geometry, tasks, the boundary
outputs, in-band interrupts, host rings and MSI-X. -/

namespace Sys2Proof.Machine

open Sys2Proof

/-! ### The queue stays apart from the part -/

/-- A command's effect: `f` on the part, the queue untouched. -/
def State.act (s : State) (f : Part → Part) : State := { s with part := f s.part }

/-- An event of the running part: before READY, in PROVISION, in blackout and after a thermal trip it is not due (17 R508, 15 R470, 19 R568). -/
def State.live (s : State) (f : Part → Part) : Host.Outcome State Fault Refusal :=
  .next (s.act (fun p => if p.phase = .ready then f p else p))

/-! ### Cores and clusters -/

def Part.core (p : Part) (c : Nat) : Core := Tab.get Core.reset p.cores c
def Part.setCore (p : Part) (c : Nat) (k : Core) : Part := { p with cores := Tab.put Core.reset p.cores c k }
def Part.onCore (p : Part) (c : Nat) (f : Core → Core) : Part := p.setCore c (f (p.core c))

def Part.cluster (p : Part) (cl : Nat) : Cluster := Tab.get Cluster.reset p.clusters cl
def Part.setCluster (p : Part) (cl : Nat) (k : Cluster) : Part := { p with clusters := Tab.put Cluster.reset p.clusters cl k }
def Part.onCluster (p : Part) (cl : Nat) (f : Cluster → Cluster) : Part := p.setCluster cl (f (p.cluster cl))

/-- The beat count of C-die `d` (09 R258). -/
def Part.beatOf (p : Part) (d : Nat) : Nat := p.regN (Reg.TRV_BEAT.at [d])

def Core.th (k : Core) (t : Nat) : Thread := k.threads.getD t Thread.reset
def Core.onTh (k : Core) (t : Nat) (f : Thread → Thread) : Core := { k with threads := modAt k.threads t f }
def Part.th (p : Part) (c t : Nat) : Thread := (p.core c).th t
def Part.onTh (p : Part) (c t : Nat) (f : Thread → Thread) : Part := p.onCore c (fun k => k.onTh t f)

def Core.side (k : Core) (t : Nat) : Side := k.sides.getD t Side.reset
def Core.onSide (k : Core) (t : Nat) (f : Side → Side) : Core := { k with sides := modAt k.sides t f }
def Core.queue (k : Core) (q : Nat) : ChQueue := k.queues.getD q ChQueue.reset
def Core.route (k : Core) (r : Nat) : Route := k.routes.getD r Route.reset
def Core.onQueue (k : Core) (q : Nat) (f : ChQueue → ChQueue) : Core := { k with queues := modAt k.queues q f }
def Core.onRoute (k : Core) (r : Nat) (f : Route → Route) : Core := { k with routes := modAt k.routes r f }

/-- The C-die, the cluster on its die and the core in its cluster of core `c` (01 R19 R24). -/
def dieOf (c : Nat) : Nat := c / 6400
def clusterOf (c : Nat) : Nat := c / 16

/-- The register offset of a register of cluster `cl` (09 R290). -/
def cluReg (r : RegRow) (cl : Nat) (is : List Nat) : Nat := r.at (cl / 400 :: cl % 400 :: is)

/-- The register offset of a register of core `c` (04 R128). -/
def coreReg (r : RegRow) (c : Nat) (is : List Nat) : Nat := r.at (c / 6400 :: (c / 16) % 400 :: c % 16 :: is)

/-- A name for the next operation. -/
def Part.fresh (p : Part) : Nat × Part := (p.uid, { p with uid := p.uid + 1 })

/-! ### Configuration memory (15 R461) -/

def Part.coreCfgWord (p : Part) (c : Nat) : Nat := p.natAt (coreCfg c 0x2B00) 4
/-- 06 R183. -/
def Part.partition (p : Part) (c : Nat) : Nat := fld (p.coreCfgWord c) 0 2
/-- 06 R189. -/
def Part.paired (p : Part) (c : Nat) : Bool := bitOf (p.coreCfgWord c) 2
def Part.startMask (p : Part) (c : Nat) : Nat := fld (p.coreCfgWord c) 4 8
def Part.entry (p : Part) (c t : Nat) : Nat := p.natAt (coreCfg c (0x2B04 + 2 * t)) 2 % 1024
def Part.cueWord (p : Part) (c a : Nat) : Nat := p.natAt (coreCfg c (8 * (a % 1024))) 8
def Part.elemWord (p : Part) (c pr st : Nat) : Nat := p.natAt (coreCfg c (0x2000 + 128 * pr + 4 * st)) 4
def Part.chainBytes (p : Part) (c e : Nat) : List Byte := p.bytesAt (coreCfg c (0x2800 + 32 * e)) 32
def Part.routeWord (p : Part) (c r : Nat) : Nat := p.natAt (coreCfg c (0x2A00 + 8 * r)) 8
def Part.queueWord (p : Part) (c q : Nat) : Nat := p.natAt (coreCfg c (0x2A80 + 4 * q)) 4
def Part.vconst (p : Part) (c i : Nat) : Nat := p.natAt (coreCfg c (0x2AC0 + 4 * i)) 4
def Part.wireCfg (p : Part) (cl w : Nat) : Nat := p.natAt (cfgAddr cl (0x44000 + 4 * w)) 4
def Part.curtMask (p : Part) (cl c : Nat) : Nat := p.natAt (cfgAddr cl (0x44100 + 2 * c)) 2
def Part.pcurtCfg (p : Part) (k : Nat) : Nat := p.natAt (pcurtCfgBase + 4 * k) 4

/-- The core that issues for core `c`: the even core of a two-hander (06 R191). -/
def Part.issuer (p : Part) (c : Nat) : Nat := if p.paired c && c % 2 == 1 then c - 1 else c

/-- The cores on which the units of core `c` work (04 R107, 06 R191). -/
def Part.pairOf (p : Part) (c : Nat) : List Nat := if p.paired c then [c, c + 1] else [c]

/-- Scratch rows S (06 R183). -/
def scratchRows (part : Nat) : Nat := match part with | 0 => 96 | 1 => 64 | 2 => 32 | _ => 0
/-- Sets of the cache (06 R183). -/
def cacheSets (part : Nat) : Nat := match part with | 1 => 8 | 2 => 16 | _ => 0

/-- The core and queue that a route leads to (09 R275); queue 16 + q of a two-hander is queue q of its odd core (06 R191). -/
def Part.routeTarget (p : Part) (c r : Nat) : Option (Nat × Nat) :=
  let w := p.routeWord c r
  if fld w 0 2 = 0 then none
  else
    let k := 6400 * fld w 2 2 + 16 * fld w 4 9 + fld w 13 4
    let q := fld w 17 5
    some (if q < 16 then (k, q) else (k + 1, q - 16))

/-! ### Geometry (01 R24, 10 R292) -/

/-- The bay of a cluster. -/
def bayOf (cl : Nat) : Nat := 4 * ((cl % 400 / 20) / 5) + (cl % 400 % 20) / 5
/-- The cluster band of a cluster (19 R562). -/
def bandOf (cl : Nat) : Nat := cl % 400 / 10

/-- The clusters of a rectangle, ascending. -/
def rectClusters (die origin w h : Nat) : List Nat :=
  (List.range h).flatMap (fun r => (List.range w).map (fun c => 400 * die + origin + 20 * r + c))

def Replica.anchor (r : Replica) : Nat := 400 * r.die + r.origin
def Replica.clusters (r : Replica) : List Nat := rectClusters r.die r.origin r.w r.h
def Replica.cores (r : Replica) : List Nat := r.clusters.flatMap (fun cl => (List.range 16).map (fun k => 16 * cl + k))
def Replica.holds (r : Replica) (cl : Nat) : Bool := r.clusters.elem cl

/-- The clusters of the region of a rectangle: itself, or the bays it touches (15 R464). -/
def regionClusters (fenced : Bool) (die origin w h : Nat) : List Nat :=
  let rc := rectClusters die origin w h
  if fenced then
    let bays := rc.map bayOf
    (List.range 400).filterMap (fun n => if bays.elem (bayOf n) then some (400 * die + n) else none)
  else rc

def Replica.region (r : Replica) : List Nat := regionClusters r.fenced r.die r.origin r.w r.h

def Part.replicaAt (p : Part) (cl : Nat) : Option Replica := p.stg.replicas.find? (fun r => r.holds cl)
def Part.replicaOf (p : Part) (anchor : Nat) : Option Replica := p.stg.replicas.find? (fun r => r.anchor == anchor)

def Part.onReplica (p : Part) (anchor : Nat) (f : Replica → Replica) : Part :=
  { p with stg := { p.stg with replicas := modFirst (fun r => r.anchor == anchor) f p.stg.replicas } }

/-- The replicas whose regions are dark: those so marked, and those that the script under change has taken out (15 R472 R473). -/
def Part.darkOnes (p : Part) : List Replica :=
  p.stg.replicas.filter (·.dark) ++ (match p.cfg.staged with | some s => s.old | none => [])

/-- The cluster lies in a dark region (15 R472). -/
def Part.darkCluster (p : Part) (cl : Nat) : Bool := p.darkOnes.any (fun r => r.region.elem cl)

/-- The cluster is held in reset: it lies in a dark region in HELD mode (15 R472). -/
def Part.heldDark (p : Part) (cl : Nat) : Bool := p.darkOnes.any (fun r => !r.fenced && r.region.elem cl)

/-- The state in which a queue of core `c` shows to a route that targets it (09 R279, 15 R472): 1 ACTIVE, 2 DARK, 3 RETIRED. -/
def Part.readerState (p : Part) (c : Nat) : Nat :=
  match p.darkOnes.find? (fun r => r.region.elem (clusterOf c)) with
  | some r => if r.fenced then r.clamp.toNat % 4 else 2
  | none => if (p.replicaAt (clusterOf c)).isSome then 1 else 3

/-- The state of the queue that route `r` of core `c` leads to, 0 for an unused route. -/
def Part.peerState (p : Part) (c r : Nat) : Nat := match p.routeTarget c r with
  | some (k, _) => p.readerState k
  | none => 0

/-- The task that runs on core `c`. -/
def Part.taskOf (p : Part) (c : Nat) : Option TaskKey := (p.replicaAt (clusterOf c)).bind (·.task)

/-- A task runs (or is saved or restored) on the replica that holds core `c`. -/
def Part.running (p : Part) (c : Nat) : Bool := match p.replicaAt (clusterOf c) with
  | some r => r.task.isSome && decide (r.st = .running)
  | none => false

def Part.sceneOf (p : Part) (n : Nat) : Option Scene := p.stg.scenes.find? (fun s => s.num == n)

/-! ### Tasks -/

def Part.task (p : Part) (k : TaskKey) : Option Task := p.stg.tasks.find? (fun t => decide (t.key = k))
def Part.onTask (p : Part) (k : TaskKey) (f : Task → Task) : Part :=
  { p with stg := { p.stg with tasks := modFirst (fun t => decide (t.key = k)) f p.stg.tasks } }
def Part.dropTask (p : Part) (k : TaskKey) : Part :=
  { p with stg := { p.stg with tasks := dropFirst (fun t => decide (t.key = k)) p.stg.tasks } }

/-- The flags of 10 R295. -/
def Task.flag (t : Task) (i : Nat) : Bool := bitOf t.flags.toNat i
def Task.psingo (t : Task) : Bool := t.flag 0
def Task.notify (t : Task) : Bool := t.flag 2
def Task.seatEn (t : Task) : Bool := t.flag 5
def Task.deadline (t : Task) : Bool := t.flag 6
def Task.noSteal (t : Task) : Bool := t.flag 8
def Task.dieLocal (t : Task) : Bool := t.flag 9
def Task.noPreempt (t : Task) : Bool := t.flag 10

/-- Slots of a die in use (10 R298). -/
def Part.slotsUsed (p : Part) (d : Nat) : Nat := (p.stg.tasks.filter (fun t => t.home == d)).length
def Part.slotsFree (p : Part) (d : Nat) : Nat := 16384 - p.slotsUsed d

/-- The lowest free slot of a die. -/
def Part.freeSlot (p : Part) (d : Nat) : Nat :=
  let used := (p.stg.tasks.filter (fun t => t.home == d)).map (·.slot)
  ((List.range (used.length + 1)).find? (fun n => !used.elem n)).getD 0

/-! ### The boundary -/

def Part.emit (p : Part) (o : Output) : Part := { p with out := p.out ++ [o] }

/-- 18 R540: the domain bit of a die's status register (19 R562). -/
def Part.domainC (p : Part) (d i : Nat) : Bool := bitOf (p.regN (Reg.PWR_DOM_C.at [d])) i
def Part.domainM (p : Part) (m i : Nat) : Bool := bitOf (p.regN (Reg.PWR_DOM_M.at [m])) i
def Part.domainE (p : Part) (e i : Nat) : Bool := bitOf (p.regN (Reg.PWR_DOM_E.at [e])) i

/-! ### In-band interrupts (19 R577) -/

/-- Events that may be raised now: with IBIs enabled, a waiting event whose kind is not raised yet. -/
def raiseWaiting : List (Byte × Byte) → List (Byte × Byte) → List (Byte × Byte) × List (Byte × Byte)
  | raised, [] => (raised, [])
  | raised, w :: ws =>
    if raised.any (fun r => decide (r.1 = w.1)) then
      let (r, rest) := raiseWaiting raised ws; (r, w :: rest)
    else raiseWaiting (raised ++ [w]) ws

/-- An interrupt needs a dynamic address to be raised with. -/
def Part.pumpIbi (p : Part) : Part :=
  if p.i3c.ibi && p.i3c.addr.isSome then
    let (r, w) := raiseWaiting p.i3c.raised p.i3c.waiting
    { p with i3c := { p.i3c with raised := r, waiting := w } }
  else p

/-- An event of 19 R577: raised once; a second of the same kind waits. -/
def Part.ibi (p : Part) (kind further : Nat) : Part :=
  Part.pumpIbi { p with i3c := { p.i3c with waiting := p.i3c.waiting ++ [(BitVec.ofNat 8 kind, BitVec.ofNat 8 further)] } }

/-! ### Host ports: MSI-X, events, refusals, completion rings (16) -/

def Part.portUp (p : Part) (port : Nat) : Bool := bitOf (p.regN (Reg.HST_PORT_STAT.at [port])) 8

/-- A dword of a port's MSI-X table; the vector control of an untouched entry is masked (PCI Express base, log 5). -/
def Part.msixDword (p : Part) (port i : Nat) : W32 :=
  Tab.get 0 p.hst.msix (4096 * port + i) ^^^ (if i % 4 = 3 then 1 else 0)

def Part.setMsixDword (p : Part) (port i : Nat) (v : W32) : Part :=
  { p with hst := { p.hst with msix := Tab.put 0 p.hst.msix (4096 * port + i) (v ^^^ (if i % 4 = 3 then 1 else 0)) } }

/-- 16 R499: a signal of a vector is sent, or held in the pending-bit array while masked. -/
def Part.signal (p : Part) (port v : Nat) : Part :=
  if (p.msixDword port (4 * v + 3)).toNat % 2 = 1 then
    { p with hst := { p.hst with pba := Tab.put false p.hst.pba (1024 * port + v) true } }
  else if p.portUp port then p.emit (.msix port v) else p

/-- 16 R499: vector 0 of each port. -/
def Part.signalBoth (p : Part) : Part := (p.signal 0 0).signal 1 0

/-- An event bit of HST_REFUSE, HST_RING_STAT or ERR_STAT is set (00 R13, 16 R499). -/
def Part.event (p : Part) (off m : Nat) : Part := (p.orReg off m).signalBoth

/-- 16 R489: bit of HST_REFUSE and the address of a refused access. -/
def Part.refuse (p : Part) (bit addr port : Nat) : Part :=
  (p.setRegN (Reg.HST_REFUSE_ADDR.at []) (addr % 2 ^ 48 + (port % 2) * 2 ^ 48)).event (Reg.HST_REFUSE.at []) (2 ^ bit)

/-- The size of a ring whose configuration names `z` (16 R490: z from 0 to 10; a larger code acts as 10, log 12). -/
def ringSize (z : Nat) : Nat := 64 * 2 ^ (min z 10)

def Part.ring (p : Part) (i : Nat) : Ring := Tab.get Ring.reset p.hst.rings i
def Part.onRing (p : Part) (i : Nat) (f : Ring → Ring) : Part :=
  { p with hst := { p.hst with rings := Tab.put Ring.reset p.hst.rings i (f (p.ring i)) } }

def Part.cqCfg (p : Part) (i : Nat) : Nat := p.regN (Reg.HST_CQ_CFG.at [i])
def Part.cqEnabled (p : Part) (i : Nat) : Bool := bitOf (p.cqCfg i) 4
def Part.cqSize (p : Part) (i : Nat) : Nat := ringSize (fld (p.cqCfg i) 0 4)
def Part.cqPort (p : Part) (i : Nat) : Nat := fld (p.cqCfg i) 15 1
def Part.cqTail (p : Part) (i : Nat) : Nat := fld (p.regN (Reg.HST_CQ_TAIL.at [i])) 0 16

/-- 16 R498: the tail is one entry behind the head. -/
def Part.cqFull (p : Part) (i : Nat) : Bool := decide ((p.cqTail i + 1) % p.cqSize i = (p.ring i).cqHead % p.cqSize i)

/-- 16 R499: the ring's vector, its count and its age start again. -/
def Part.signalRing (p : Part) (i : Nat) : Part :=
  (p.onRing i (fun r => { r with fresh := 0, oldest := none })).signal (p.cqPort i) (fld (p.cqCfg i) 5 10)

/-- 16 R496 R497: one record written at the tail with the ring's phase; the tail advances and its phase toggles on a wrap. -/
def Part.writeRecord (p : Part) (i : Nat) (rec : List Byte) : Part :=
  let tail := p.cqTail i
  let phase := fld (p.regN (Reg.HST_CQ_TAIL.at [i])) 16 1
  let addr := p.regN (Reg.HST_CQ_BASE.at [i]) + 32 * tail
  let p1 := p.emit (.hostWrite (p.cqPort i) addr (patch rec 11 [BitVec.ofNat 8 phase]))
  let next := tail + 1
  let wrap := decide (next ≥ p.cqSize i)
  let p2 := p1.setRegN (Reg.HST_CQ_TAIL.at [i])
    ((if wrap then 0 else next) + (if wrap then 1 - phase else phase) * 2 ^ 16)
  let p3 := p2.onRing i (fun r => { r with fresh := r.fresh + 1, oldest := r.oldest.orElse (fun _ => some p.tim.interval) })
  let thr := max 1 (fld (p.cqCfg i) 16 8)
  if thr ≤ (p3.ring i).fresh then p3.signalRing i else p3

/-- 16 R498 R500: a record for a disabled ring, or past the 256 held ones, is discarded and counted. -/
def Part.loseRecord (p : Part) (i : Nat) : Part :=
  (p.bumpSat (Reg.HST_CQ_LOST.at [i]) 1).event (Reg.HST_RING_STAT.at [i]) 2

/-- 16 R497 R498: a record for completion ring `i`. -/
def Part.putRecord (p : Part) (i : Nat) (rec : List Byte) : Part :=
  if !p.cqEnabled i then p.loseRecord i
  else if (p.ring i).held.isEmpty && !p.cqFull i then p.writeRecord i rec
  else if (p.ring i).held.length < 256 then p.onRing i (fun r => { r with held := r.held ++ [rec] })
  else p.loseRecord i

/-- Held records are written while the ring has room (16 R498). -/
def Part.flushHeld (i : Nat) : Nat → Part → Part
  | 0, p => p
  | n + 1, p => match (p.ring i).held with
    | [] => p
    | r :: rs =>
      if p.cqFull i then p
      else Part.flushHeld i n ((p.onRing i (fun g => { g with held := rs })).writeRecord i r)

/-- A completion record (16 R496), its phase still 0. -/
def recordBytes (k : Option TaskKey) (type code cause seat ring : Nat) (stamp extra : W64) : List Byte :=
  leBytes 4 (match k with | some x => x.id.toNat | none => 0) ++
  leBytes 2 (match k with | some x => x.gen.toNat | none => 0) ++
  leBytes 2 (match k with | some x => x.child.toNat | none => 0xFFFF) ++
  leBytes 1 type ++ leBytes 1 code ++ leBytes 1 cause ++ leBytes 1 0 ++ leBytes 2 seat ++ leBytes 2 ring ++
  leBytes 8 stamp.toNat ++ leBytes 8 extra.toNat

/-- A record for the event ring of HST_EVT_CFG (16 R497). -/
def Part.putEvent (p : Part) (rec : List Byte) : Part :=
  let cfg := p.regN (Reg.HST_EVT_CFG.at [])
  if bitOf cfg 10 then p.putRecord (fld cfg 0 10) rec else p

/-- The submission ring a task's record names (16 R496). -/
def Source.ring16 : Source → Nat
  | .ring i => i
  | _ => 0xFFFF

/-- The completion ring of submission ring `i` (16 R501). -/
def Part.cqOf (p : Part) (i : Nat) : Nat := fld (p.regN (Reg.HST_SQ_CFG.at [i])) 6 10

end Sys2Proof.Machine
end

