-- ==== Sys2Proof/Machine/Errors.lean ====
section
/-! DEFINITION. Shared: placement, completion and abort of tasks (10 R300 to R325), the error log and its classes (18 R535 to R551),
blackout and the fatal path (15 R470, 18 R548). -/

namespace Sys2Proof.Machine

open Sys2Proof

/-! ### Order among tasks (10 R308 R312 R313 R317) -/

/-- The share group a task is selected and charged in (10 R317). -/
def Part.groupOf (p : Part) (t : Task) : Nat :=
  if t.seatEn then p.regFld (Reg.STG_SEAT_CFG.at [t.seat]) 1 6 else t.group

def Part.weight (p : Part) (g : Nat) : Nat := p.regN (Reg.STG_SHARE_W.at [g])
def Part.balance (p : Part) (g : Nat) : Nat := p.regN (Reg.STG_SHARE_BAL.at [0, g])

/-- Group `g` is preferred over group `h` (10 R313). -/
def Part.prefers (p : Part) (g h : Nat) : Bool :=
  let wg := p.weight g
  let wh := p.weight h
  let bg := p.balance g
  let bh := p.balance h
  if wg = 0 then decide (wh = 0) && (decide (bg < bh) || (decide (bg = bh) && decide (g < h)))
  else if wh = 0 then true
  else decide (bg * wh < bh * wg) || (decide (bg * wh = bh * wg) && decide (g < h))

/-- The older ready stamp ranks first; equal stamps by lower home die, then lower slot (10 R308). -/
def Task.older (a b : Task) : Bool :=
  decide (a.stamp.toNat < b.stamp.toNat) ||
  (decide (a.stamp = b.stamp) && (decide (a.home < b.home) || (decide (a.home = b.home) && decide (a.slot < b.slot))))

/-- 10 R312. -/
def Part.before (p : Part) (a b : Task) : Bool :=
  let g := p.groupOf a
  let h := p.groupOf b
  if g = h then a.older b else p.prefers g h

def Part.select (p : Part) (l : List Task) : Option Task := pickMin p.before l

/-! ### Placement (10 R309, 15 R475) -/

def Part.boardOf (p : Part) (anchor : Nat) : List TaskKey := (p.cluster anchor).board

/-- Placed and running tasks of a replica. -/
def Part.load (p : Part) (r : Replica) : Nat := (p.boardOf r.anchor).length + (if r.task.isSome then 1 else 0)

/-- The die on which a READY task is placed: its home, or the die of its save area (10 R309 R321). -/
def Task.placeDie (t : Task) : Nat := match t.save with
  | some (d, _, _) => d
  | none => t.home

def Part.openReplicas (p : Part) (t : Task) : List Replica :=
  p.stg.replicas.filter (fun r =>
    r.scene == t.scene && r.die == t.placeDie && !r.dark && decide ((p.boardOf r.anchor).length < 64))

def Part.bestReplica (p : Part) (t : Task) : Option Replica :=
  pickMin (fun a b => decide (p.load a < p.load b) || (decide (p.load a = p.load b) && decide (a.anchor < b.anchor)))
    (p.openReplicas t)

/-- One task put on the callboard of a replica. -/
def Part.placeOn (p : Part) (k : TaskKey) (anchor : Nat) : Part :=
  (p.onTask k (fun t => { t with st := .placed, anchor := some anchor })).onCluster anchor
    (fun c => { c with board := c.board ++ [k] })

/-- READY tasks that have a replica to go to, one after the other in the order of 10 R312. -/
def Part.placeAll : Nat → Part → Part
  | 0, p => p
  | n + 1, p =>
    match p.select (p.stg.tasks.filter (fun t => decide (t.st = .ready) && (p.bestReplica t).isSome)) with
    | none => p
    | some t => match p.bestReplica t with
      | none => p
      | some r => Part.placeAll n (p.placeOn t.key r.anchor)

def Part.place (p : Part) : Part := Part.placeAll p.stg.tasks.length p

def Part.unboard (p : Part) (anchor : Nat) (k : TaskKey) : Part :=
  p.onCluster anchor (fun c => { c with board := c.board.filter (fun x => decide (x ≠ k)) })

/-! ### Completion (10 R303 R305 R306 R315 R316 R325, 16 R497) -/

/-- 0 DONE, 1 SKIPPED, 2 FAILED (16 R496). -/
def outcomeReg (d code : Nat) : Nat := match code with
  | 0 => Reg.STG_DONE.at [d]
  | 1 => Reg.STG_SKIPPED.at [d]
  | _ => Reg.STG_FAILED.at [d]

/-- The cluster is on the roster (01 R30). -/
def Part.onRoster (p : Part) (cl : Nat) : Bool :=
  bitOf (p.regN (Reg.STG_ROSTER.at [cl / 400, (cl % 400) / 64])) ((cl % 400) % 64)

/-- The replica's task is RUNNING: a save does not end that, and a restore's beginning does (10 R300). -/
def Part.taskRuns (p : Part) (r : Replica) : Bool := (r.task.bind p.task).any (fun t => decide (t.st = .running))

/-- The core-nanoseconds of a replica's task since its last charge go to its group (10 R314 R317). -/
def Part.accrue (p : Part) (r : Replica) : Part := match r.task.bind p.task with
  | none => p
  | some t =>
    if t.st ≠ .running then p
    else
    let u := 16 * (r.clusters.filter p.onRoster).length * (p.tim.now - t.charged).toNat
    let g := p.groupOf t
    let p1 := (p.bump (Reg.STG_SHARE_USED.at [0, g]) u).onTask t.key (fun x => { x with charged := p.tim.now })
    { p1 with stg := { p1.stg with charge := Tab.put 0 p1.stg.charge g (Tab.get 0 p1.stg.charge g + u) } }

/-- D − t in 32 signed bits (10 R316). -/
def slack32 (d t : Nat) : Nat := wrapInt 32 (clampInt (-2147483648) 2147483647 ((d : Int) - t))

/-- 10 R315: a pending disable takes effect, `STG_SEAT_CFG.en` cleared, when nothing of the seat is in flight. -/
def Part.seatDone (p : Part) (t : Task) : Part :=
  if !t.seatEn then p
  else
    let s := t.seat
    let p1 := (p.bump (Reg.STG_SEAT_DONE.at [s]) 1)
    let n := p1.regN (Reg.STG_SEAT_INFLIGHT.at [s]) - 1
    let p2 := p1.setRegN (Reg.STG_SEAT_INFLIGHT.at [s]) n
    if n = 0 && inList p2.stg.seatOff s then
      { p2.setFld (Reg.STG_SEAT_CFG.at [s]) 0 1 0 with stg := { p2.stg with seatOff := p2.stg.seatOff.filter (· ≠ s) } }
    else p2

/-- 10 R316. -/
def Part.seatDeadline (p : Part) (t : Task) : Part :=
  let s := t.seat
  let c := p.regN (Reg.STG_SEAT_CADENCE.at [s])
  if !(t.seatEn && t.deadline) || decide (c = 0) then p
  else
    let now := p.tim.now.toNat
    let d := p.regN (Reg.STG_SEAT_DEADLINE.at [s])
    let p1 := p.setRegN (Reg.STG_SEAT_SLACK.at [s]) (slack32 d now)
    let p2 :=
      if d < now then
        let worst := max (p1.regN (Reg.STG_SEAT_WORST.at [s])) (min (now - d) 0xFFFFFFFF)
        let q := ((p1.bumpSat (Reg.STG_SEAT_MISS.at [s]) 1).orReg (Reg.STG_SEAT_STAT.at [s]) 1).setRegN
          (Reg.STG_SEAT_WORST.at [s]) worst
        q.putEvent (recordBytes (some t.key) 3 0 0 s t.src.ring16 p.tim.now (BitVec.ofNat 64 (now - d)))
      else p1
    let d' := d + c
    p2.setRegN (Reg.STG_SEAT_DEADLINE.at [s]) (if d' ≤ now then now + c else d')

/-- A predecessor's outcome reaches its successors (10 R301 R304). A child resolves nobody. -/
def resolveTask (k : TaskKey) (code : Nat) (t : Task) : Task :=
  if t.preds.any (fun x => x.1 == k.id && x.2 == k.gen) then
    { t with
      preds := t.preds.filter (fun x => !(x.1 == k.id && x.2 == k.gen))
      predFailed := t.predFailed || code == 2
      predSkipped := t.predSkipped || code == 1 }
  else t

/-- The save area of a task goes back to its pool (10 R322). -/
def Part.freeSave (p : Part) (k : TaskKey) : Part := match p.task k with
  | some t => match t.save with
    | some a =>
      { p.onTask k (fun t => { t with save := none }) with
        stg := { (p.onTask k (fun t => { t with save := none })).stg with
          areas := p.stg.areas.filter (fun x => decide (x ≠ a)), saved := p.stg.saved.filter (fun x => decide (x.key ≠ k)) } }
    | none => p
  | none => p

/-- The COMPLETE record of a task with notify (16 R497). -/
def Part.notifyDone (p : Part) (t : Task) (code cause : Nat) : Part :=
  if t.notify then match t.src with
    | .ring i => p.putRecord (p.cqOf i) (recordBytes (some t.key) 1 code cause t.seat i p.tim.now 0)
    | _ => p
  else p

/-- One task completes with an outcome and, when it failed, a cause: counters, seat, record, successors, slot. -/
def Part.finishOne (p : Part) (t : Task) (code cause : Nat) : Part :=
  let p1 := (p.freeSave t.key).bump (outcomeReg t.home code) 1
  let p2 := if code = 2 then
      p1.setRegN (Reg.STG_LAST_FAIL.at [t.home]) (t.key.id.toNat + t.key.gen.toNat * 2 ^ 32 + cause * 2 ^ 48)
    else p1
  let p3 := ((p2.seatDone t).seatDeadline t).notifyDone t code cause
  let p4 := match t.anchor with | some a => p3.unboard a t.key | none => p3
  let p5 := p4.dropTask t.key
  let p6 := if t.key.child = 0xFFFF then
      { p5 with stg := { p5.stg with tasks := p5.stg.tasks.map (resolveTask t.key code) } }
    else p5
  { p6 with err := { p6.err with recs := p6.err.recs.filter (fun r => !(r.cls == 1 && r.task == some t.key)) } }

/-- A completed task, and the fan that waited for it as its last child (10 R306). -/
def Part.finish (p : Part) (k : TaskKey) (code cause : Nat) : Part := match p.task k with
  | none => p
  | some t =>
    let p1 := p.finishOne t code cause
    if k.child = 0xFFFF then p1
    else
      let fk : TaskKey := { k with child := 0xFFFF }
      match p1.task fk with
      | none => p1
      | some f =>
        let f' := { f with children := f.children - 1, childFailed := f.childFailed || code == 2 }
        let p2 := p1.onTask fk (fun _ => f')
        if decide (f'.st = .holding) && decide (f'.children = 0) then
          (if f'.childFailed then p2.finishOne f' 2 0x10 else p2.finishOne f' 0 0)
        else p2

/-! ### Stopping a replica (10 R324, 09 R286, 11 R329 R337 R344) -/

/-- The routes that lead to queue `q` of core `c`; routes come with the replicas that hold them. -/
def Part.senders (p : Part) (c q : Nat) : List (Nat × Nat) :=
  p.stg.replicas.flatMap (fun r => r.cores.flatMap (fun k =>
    (List.range 16).filterMap (fun i => if p.routeTarget k i = some (c, q) then some (k, i) else none)))

/-- 09 R286. -/
def Part.resetQueue (p : Part) (c q : Nat) : Part :=
  let k := p.core c
  let qu := k.queue q
  let e := qu.epoch + 1
  let p1 := p.setCore c (k.onQueue q (fun x => { x with msgs := [], epoch := e, running := false }))
  let p2 := if qu.msgs.isEmpty then p1
    else p1.bump32 (cluReg Reg.CLU_CH_DROP (clusterOf c) [16 * (c % 16) + q]) qu.msgs.length
  forEach (p.senders c q) (fun s x => x.onCore s.1 (fun kk => kk.onRoute s.2 (fun r => { r with epoch := e, credits := 8 }))) p2

def Part.resetQueues (p : Part) (c : Nat) : Part := forEach (List.range 16) (fun q x => x.resetQueue c q) p

/-- The threads, the unit queues and the units of a core are cleared; its counters and pending bits are 0 and its tiles closed
(10 R324, 11 R329 R337, 02 R581). A fill in flight leaves its way invalid. -/
def Core.stop (k : Core) : Core :=
  { k with
    threads := List.replicate 8 Thread.reset
    cnt := List.replicate 16 0
    wire := 0
    xcue := 0
    matq := []
    matRun := []
    epiq := []
    epiRun := none
    epiOut := []
    sides := k.sides.map (fun s => { s with isOpen := false })
    vecq := []
    vecRun := none
    moveq := []
    moving := []
    due := []
    cache := k.cache.map (fun w => (w.1, if w.2.filling then { w.2 with filling := false, valid := false } else w.2))
    arrivals := [] }

/-- The matrix engine, the vector engine, the epilogue unit and the row-move unit have nothing queued and nothing under way. -/
def Core.unitsIdle (k : Core) : Bool :=
  k.matq.isEmpty && k.matRun.isEmpty && k.epiq.isEmpty && k.epiRun.isNone && k.vecq.isEmpty && k.vecRun.isNone && k.moveq.isEmpty &&
  k.moving.isEmpty

/-- A core memory view access of core `c` is pending (06 R175). -/
def Part.viewPending (p : Part) (c : Nat) : Bool :=
  p.views.any (fun v => (piecesOf v.addr (accLength v.acc)).any (fun x => viewCore x.1 == c))

/-- Core `c` is quiescent (06 R175). The units of a two-hander's odd core work with the even core, which records what they do. -/
def Part.quiet (p : Part) (c : Nat) : Bool :=
  (p.core c).threads.all (fun t => decide (t.st = .idle) || decide (t.st = .wait)) && (p.core (p.issuer c)).unitsIdle && !p.viewPending c

/-- The vector engine's status shows no run (04 R128). -/
def Part.vecIdle (p : Part) (c : Nat) : Part := p.andNotReg (coreReg Reg.CORE_VEC_STATUS c []) 1

/-- Step 1 of 10 R324 on every core of a replica, with its row requests, transfers and signals under way, and its curtains. -/
def Part.stopReplica (p : Part) (r : Replica) : Part :=
  let cs := r.cores
  let p0 := forEach cs (fun c x => if p.quiet c then x else x.bump (coreReg Reg.CORE_SLEEPS c []) 1) p
  let p1 := forEach cs (fun c x => ((x.vecIdle c).onCore c Core.stop).resetQueues c) p0
  let p2 := forEach r.clusters (fun cl x => x.onCluster cl (fun k => { k with curts := [] })) p1
  let p3 := p2.onReplica r.anchor (fun x => { x with st := .free, task := none, preempt := none, curts := [] })
  { p3 with
    reqs := p3.reqs.filter (fun q => !inList cs q.core)
    xfers := p3.xfers.filter (fun q => !inList cs q.core)
    flight := p3.flight.filter (fun f => match f with
      | .add c _ _ => !inList cs c
      | .fire cl _ => !r.holds cl
      | _ => true)
    stg := { p3.stg with saveq := p3.stg.saveq.filter (· ≠ r.anchor) } }

/-- 14 R426: an aborted task's descriptors send nothing further, and those that have not started are discarded, the ones too that a doorbell
write of the task still reveals. -/
def Part.dropDescs (p : Part) (k : TaskKey) : Part :=
  let gone := p.fab.owners.filter (fun o => decide (o.2 = some k))
  { p with fab := { p.fab with
      descs := p.fab.descs.filter (fun d => decide (d.owner ≠ some k))
      unacked := p.fab.unacked.filter (fun u => (p.fab.descs.find? (fun d => d.num == u.desc)).all (fun d => decide (d.owner ≠ some k)))
      owners := p.fab.owners.filter (fun o => decide (o.2 ≠ some k))
      bells := p.fab.bells.map (fun b => if b.owner = some k then { b with owner := none, dead := true } else b)
      dropped := forEach gone (fun o x => Tab.put false x o.1 true) p.fab.dropped } }

/-- Steps 1 to 3 of 10 R324: the replica stopped, the task READY again. -/
def Part.sendBack (p : Part) (r : Replica) (k : TaskKey) : Part :=
  (((((p.accrue r).stopReplica r).dropDescs k).freeSave k).bump (Reg.STG_ABORTS.at [r.die]) 1).onTask k (fun x =>
    { x with st := .ready, anchor := none, aborts := x.aborts + 1 })

/-- 10 R324: the running task of a replica is aborted. With `fate` it completes FAILED with that cause at once (10 R324,
13 R396, 08 R250); otherwise it returns to READY, or fails with ABORTS past the limit of its home die. -/
def Part.abortOn (p : Part) (r : Replica) (k : TaskKey) (fate : Option Nat) : Part := match p.task k with
  | none => p
  | some t => match fate with
    | some c => (p.sendBack r k).finish k 2 c
    | none => if fld (p.regN (Reg.STG_CFG.at [t.home])) 0 2 < t.aborts + 1 then (p.sendBack r k).finish k 2 0x14 else (p.sendBack r k).place

/-- 10 R324 on the task's replica. An error that names a task which runs nowhere aborts nothing; with a fate such a task fails. -/
def Part.abort (p : Part) (k : TaskKey) (fate : Option Nat) : Part :=
  match p.stg.replicas.find? (fun r => r.task == some k) with
  | some r => p.abortOn r k fate
  | none => match fate with
    | some c => (p.finish k 2 c).place
    | none => p

/-! ### Blackout (15 R470, 19 R563 R577, 17 R513) -/

/-- The header word of a chain block (15 R467). -/
def Part.chainHeader (p : Part) (type : Nat) : List Byte :=
  leBytes 4 (type + (if p.chain.fixed then p.chain.pos * 256 + 2048 else 0))

/-- A block on the chain output, with its CRC (15 R467). -/
def Part.chainSend (p : Part) (type : Nat) (payload : List Byte) : Part :=
  let b := p.chainHeader type ++ payload
  p.emit (.chain (b ++ leBytes 4 (crc32c b).toNat))

/-- The domains on in blackout: the always-on ones, and E0's house processors and security engine (19 R563). -/
def Part.darkDomains (p : Part) : Part :=
  let p1 := forEach (List.range 4) (fun d x => x.setRegN (Reg.PWR_DOM_C.at [d]) (2 ^ 49)) p
  let p2 := forEach (List.range 2) (fun m x => x.setRegN (Reg.PWR_DOM_M.at [m]) (2 ^ 11)) p1
  (p2.setRegN (Reg.PWR_DOM_E.at [0]) (2 ^ 13 + 2 ^ 12 + 2 ^ 11)).setRegN (Reg.PWR_DOM_E.at [1]) (2 ^ 13)

/-- What the switched-off domains held is lost (19 R564). -/
def Part.dropContents (p : Part) : Part :=
  { p with
    mem := [], tagErr := [], poison := [], cores := [], clusters := [], reqs := [], xfers := [], partials := [], views := [], flight := [], net := []
    retrainFails := [], stg := Stage.reset, fab := Fabric.reset }

/-- 15 R470: ABORT on the chain output, CFG_FAIL_N, the cause, every host port and fabric port down. -/
def Part.blackout (p : Part) (cause named : Nat) : Part :=
  if p.phase = .blackout then p
  else
    let p1 := (p.chainSend 3 []).setRegN (Reg.CFG_CAUSE.at []) (cause + named * 256)
    let p2 := (((p1.darkDomains).dropContents).setRegN (Reg.HST_PORT_STAT.at [0]) 0).setRegN (Reg.HST_PORT_STAT.at [1]) 0
    let p3 : Part := { p2 with
      phase := .blackout
      cfg := { p2.cfg with st := 3, reqs := [], staged := none }
      chain := { p2.chain with sentOther := true, ended := true }
      pwr := { p2.pwr with cfgFailN := false }
      sec := { p2.sec with rpuf := none, quotes := [], building := false }
      err := { p2.err with recs := [], scenes := [] } }
    p3.ibi 2 cause

/-! ### The error log (18 R535 to R551) -/

/-- The class as detected and whether the error is a program error, by source code (18 R551). -/
def sourceClass : Nat → Option (Nat × Bool)
  | 0x0001 => some (0, false) | 0x0002 => some (1, false)
  | 0x0010 => some (1, false) | 0x0011 => some (1, false) | 0x0012 => some (1, false) | 0x0013 => some (1, false)
  | 0x0014 => some (1, false) | 0x0020 => some (1, false) | 0x0021 => some (1, false) | 0x0022 => some (1, false)
  | 0x0023 => some (3, false) | 0x0030 => some (0, false) | 0x0031 => some (1, false) | 0x0032 => some (1, false)
  | 0x0033 => some (0, false) | 0x0040 => some (1, true) | 0x0050 => some (1, false) | 0x0051 => some (0, false)
  | 0x0052 => some (0, false) | 0x0060 => some (1, false) | 0x0061 => some (2, false) | 0x0062 => some (2, false)
  | 0x0070 => some (1, true) | 0x0071 => some (1, true) | 0x0072 => some (1, true) | 0x0073 => some (1, true)
  | 0x0074 => some (1, true) | 0x0075 => some (1, true) | 0x0080 => some (0, false) | 0x0090 => some (0, false)
  | 0x0091 => some (3, false) | 0x0092 => some (3, false) | 0x0093 => some (2, false)
  | _ => none

/-- Domain `a` of one error holds or equals domain `b` of the other (18 R535 R545). -/
def Part.domainHolds (p : Part) (ad adie aplace : Nat) (bd bdie bplace : Nat) : Bool :=
  if ad = 4 then true
  else if bd = 4 || decide (adie ≠ bdie) then false
  else if ad = 3 then true
  else if bd = 3 then false
  else if ad = 2 then (match p.replicaOf (400 * adie + aplace) with
    | some r => r.holds (400 * bdie + bplace)
    | none => decide (aplace = bplace))
  else if bd = 2 then false
  else decide (aplace = bplace) && decide (bd ≤ ad)

/-- A recovery is in progress: a SCENE recovery until its step 5, a CONTAINED one inside the window (18 R545). -/
def Part.inProgress (p : Part) (r : Recovery) : Bool :=
  r.cls == 2 || decide (p.tim.interval.toNat - r.start.toNat ≤ p.regFld (Reg.ERR_CFG.at []) 0 8 * 1000000)

def Part.related (p : Part) (e : Report) (r : Recovery) : Bool :=
  p.inProgress r &&
  (p.domainHolds e.domain e.die e.place r.domain r.die r.place || p.domainHolds r.domain r.die r.place e.domain e.die e.place ||
    (e.task.isSome && decide (e.task = r.task)))

/-- The parent of a nested error: handled at the highest class, then the highest seq (18 R546). -/
def Part.parentOf (p : Part) (e : Report) : Option Recovery :=
  pickMin (fun a b => decide (b.cls < a.cls) || (decide (a.cls = b.cls) && decide (b.seq.toNat < a.seq.toNat)))
    (p.err.recs.filter (p.related e))

/-- The bytes of a log entry (18 R550). -/
def entryBytes (seq stamp : W64) (e : Report) (handled detected : Nat) (program escalated : Bool) (depth : Nat) (parent : W64) :
    List Byte :=
  leBytes 8 seq.toNat ++ leBytes 8 stamp.toNat ++ leBytes 1 (handled + 4 * detected) ++
  leBytes 1 (e.domain + (if program then 8 else 0) + (if escalated then 16 else 0) + 32 * (min depth 3)) ++
  leBytes 2 e.source ++ leBytes 1 e.die ++ leBytes 1 0 ++ leBytes 2 e.place ++ leBytes 1 e.core ++ leBytes 1 e.unit ++
  leBytes 2 0 ++ leBytes 4 (match e.task with | some k => k.id.toNat | none => 0) ++
  leBytes 2 (match e.task with | some k => k.gen.toNat | none => 0) ++
  leBytes 2 (match e.task with | some k => k.child.toNat | none => 0xFFFF) ++ leBytes 4 0 ++
  leBytes 8 parent.toNat ++ leBytes 8 e.addr ++ leBytes 8 e.detail.toNat

/-- 18 R549: the entry is written, counted and signalled; the oldest unread entry makes room. -/
def Part.logEntry (p : Part) (e : Report) (handled detected : Nat) (program escalated : Bool) (depth : Nat) (parent : W64) : Part :=
  let seq := p.reg (Reg.ERR_SEQ.at [])
  let b := entryBytes seq p.tim.now e handled detected program escalated depth parent
  let p1 := forEach (List.range 8) (fun i x => x.setRegN (Reg.ERR_LOG.at [seq.toNat % 4096, i]) (leAt b (8 * i) 8)) p
  let full := decide (seq.toNat - p.regN (Reg.ERR_LOG_RD.at []) ≥ 4096)
  let p2 := if full then ((p1.bump (Reg.ERR_LOG_RD.at []) 1).bumpSat (Reg.ERR_LOST.at []) 1).event (Reg.ERR_STAT.at []) 16 else p1
  let p3 := ((p2.setReg (Reg.ERR_SEQ.at []) (seq + 1)).bump (Reg.ERR_COUNT.at [handled]) 1).event (Reg.ERR_STAT.at [])
    (2 ^ handled + (if escalated then 32 else 0))
  p3.putEvent (recordBytes none 4 0 0 0 0xFFFF p.tim.now seq)

/-- No parent (18 R550). -/
def noParent : W64 := 0xFFFFFFFFFFFFFFFF

/-- 18 R548, after its log entry. -/
def Part.fatal (p : Part) (seq : W64) : Part :=
  let p1 := p.setReg (Reg.ERR_FATAL.at []) seq
  (Part.ibi { p1 with pwr := { p1.pwr with faultN := false } } 3 0).blackout 0x20 0

/-- The tasks of a callboard return to READY, keeping their stamps (01 R29). -/
def Part.clearBoard (p : Part) (anchor : Nat) : Part :=
  let ks := p.boardOf anchor
  (forEach ks (fun k x => x.onTask k (fun t => { t with st := .ready, anchor := none })) p).onCluster anchor
    (fun c => { c with board := [] })

/-- Bays of a die whose 25 clusters are all on the roster (01 R30). -/
def Part.baysFull (p : Part) (d : Nat) : Nat :=
  ((List.range 16).map (fun b =>
    if (List.range 400).all (fun n => bayOf n != b || p.onRoster (400 * d + n)) then 2 ^ b else 0)).sum

/-- 01 R29, logged as source 0x0093 under the entry of its recovery (18 R546). -/
def Part.retireCluster (p : Part) (cl : Nat) (parent : W64) (depth : Nat) : Part :=
  if !p.onRoster cl then p
  else
    let d := cl / 400
    let p1 := match p.replicaAt cl with
      | some r => p.clearBoard r.anchor
      | none => p
    let p2 := p1.andNotReg (Reg.STG_ROSTER.at [d, (cl % 400) / 64]) (2 ^ ((cl % 400) % 64))
    let now := p2.regFld (Reg.STG_ROSTER_COUNT.at [d]) 16 9
    let p3 := (p2.setFld (Reg.STG_ROSTER_COUNT.at [d]) 16 9 (now - 1)).setFld (Reg.STG_ROSTER_COUNT.at [d]) 32 16 (p2.baysFull d)
    p3.logEntry ⟨0x0093, 1, d, cl % 400, 0xFF, 0, none, 0, 0⟩ 2 2 false false depth parent

/-- 18 R536 R543: the cluster is retired at once when no replica holds it; otherwise step 1 of the recovery of its replica takes
place: the region dark as HELD and the task aborted; the later steps are SCENE_RECOVERY's. The task that met the error is aborted with its
own fate (13 R396). -/
def Part.beginScene (p : Part) (e : Report) (seq : W64) (depth : Nat) (fate : Option Nat) : Part :=
  let inCluster := decide (e.domain ≤ 1) && decide (e.die < 4)
  let cl := 400 * e.die + e.place
  let target := if inCluster then p.replicaAt cl
    else if e.domain = 2 then p.replicaOf cl
    else none
  match target with
  | some r =>
    let p1 := p.onReplica r.anchor (fun x => { x with dark := true })
    let p2 := match r.task with
      | some k => p1.abortOn r k (if e.task = some k then fate else none)
      | none => p1
    let p3 := match e.task with
      | some k => if r.task = some k then p2 else p2.abort k fate
      | none => p2
    { p3 with err := { p2.err with
        recs := p3.err.recs ++ [⟨seq, 2, depth, e.domain, e.die, e.place, e.task, p.tim.interval, some r.anchor⟩]
        scenes := p3.err.scenes ++ [(r.anchor, if inCluster then cl else 1600, seq)] } }
  | none =>
    let p1 := if inCluster then p.retireCluster cl seq depth else p
    match e.task with
    | some k => p1.abort k fate
    | none => p1

/-- One detected error: its class as handled, its entry, its action (18 R536 R538 R545 R546 R548). `fate` is the cause with which
its task completes FAILED instead of being re-dispatched (13 R396, 08 R250). -/
def Part.raise (p : Part) (e : Report) (fate : Option Nat) : Part :=
  if p.phase = .blackout then p
  else match sourceClass e.source with
  | none => p
  | some (det, program) =>
    let parent := if program || det == 0 then none else p.parentOf e
    let up := match parent with | some r => max det (min 3 (r.cls + 1)) | none => det
    let depth := match parent with | some r => r.depth + 1 | none => 0
    let cls := if 2 ≤ depth then 3 else up
    let seq := p.reg (Reg.ERR_SEQ.at [])
    let p1 := p.logEntry e cls det program parent.isSome depth (match parent with | some r => r.seq | none => noParent)
    match cls with
    | 0 => p1
    | 1 =>
      let p2 := match e.task with
        | some k => p1.abort k fate
        | none => p1
      if program then p2
      else
        let open_ := match e.task with | some k => (p2.task k).isSome | none => true
        if open_ then
          { p2 with err := { p2.err with
              recs := p2.err.recs ++ [⟨seq, 1, depth, e.domain, e.die, e.place, e.task, p.tim.interval, none⟩] } }
        else p2
    | 2 => p1.beginScene e seq depth fate
    | _ => p1.fatal seq

/-- An error that core `c` raises: its task, its place (18 R535: a program error in the core's domain, else the cluster's). -/
def Part.raiseCore (p : Part) (c source unit addr : Nat) (detail : W64) (fate : Option Nat) : Part :=
  let program := match sourceClass source with | some (_, b) => b | none => false
  p.raise ⟨source, if program then 0 else 1, dieOf c, (c / 16) % 400, c % 16, unit, p.taskOf c, addr, detail⟩ fate

end Sys2Proof.Machine
end

