-- ==== Sys2Proof/Machine/Operands.lean ====
section
/-! DEFINITION. Cue operation words and their operand forms: fields, indexed places, completion fields, places and the bytes
they name (07 R197 to R235, 06 R177 to R195). -/

namespace Sys2Proof.Machine

open Sys2Proof

/-! ### Words (07 R197 R198) -/

/-- The opcode of a cue operation word. -/
def opcode (w : Nat) : Nat := fld w 58 6

namespace Op
def END : Nat := 0x00
def NOP : Nat := 0x01
def FENCE : Nat := 0x02
def INTV : Nat := 0x03
def LOOP : Nat := 0x04
def SHOP : Nat := 0x05
def ADDA : Nat := 0x06
def LDR : Nat := 0x08
def STR : Nat := 0x09
def MOV : Nat := 0x0A
def TRD : Nat := 0x0B
def SRD : Nat := 0x0C
def GATH : Nat := 0x0D
def XFER : Nat := 0x0E
def CINV : Nat := 0x0F
def MAT : Nat := 0x10
def MAUX : Nat := 0x11
def RUN : Nat := 0x12
def SEND : Nat := 0x18
def POST : Nat := 0x19
def RECV : Nat := 0x1A
def WAIT : Nat := 0x1C
def CUE : Nat := 0x1D
def CURT : Nat := 0x1E
end Op

/-- A LOOP word (07 R206). -/
structure LoopWord where
  lvl : Nat
  stop : Nat
  src : Bool
  reg : Nat
  sh : Nat
  imm : Nat
  deriving DecidableEq, Repr

def loopWord (w : Nat) : LoopWord := ⟨fld w 56 2, fld w 46 10, bitOf w 45, fld w 41 4, fld w 36 5, fld w 11 25⟩

/-- A SHOP word (07 R209). -/
structure ShopWord where
  d : Nat
  a : Nat
  b : Nat
  fn : Nat
  bimm : Bool
  alc : Bool
  lvl : Nat
  imm : Nat
  deriving DecidableEq, Repr

def shopWord (w : Nat) : ShopWord :=
  ⟨fld w 54 4, fld w 50 4, fld w 46 4, fld w 43 3, bitOf w 42, bitOf w 41, fld w 39 2, fld w 7 32⟩

/-- An ADDA word (07 R210). -/
structure AddaWord where
  d : Nat
  a : Nat
  b : Nat
  useb : Bool
  sh : Nat
  imm : Nat
  deriving DecidableEq, Repr

def addaWord (w : Nat) : AddaWord := ⟨fld w 55 3, fld w 52 3, fld w 48 4, bitOf w 47, fld w 42 5, fld w 10 32⟩

/-- An LDR or STR word (07 R213). -/
structure LdrWord where
  place : Nat
  preg : Nat
  off : Nat
  cnt : Nat
  lvl : Nat
  sreg : Nat
  ix : Bool
  cached : Bool
  sync : Bool
  done : Nat
  deriving DecidableEq, Repr

def ldrWord (w : Nat) : LdrWord :=
  ⟨fld w 46 12, fld w 43 3, fld w 23 20, fld w 18 5, fld w 16 2, fld w 12 4, bitOf w 11, bitOf w 10, bitOf w 9, fld w 4 5⟩

/-- A MAT word (07 R223). -/
structure MatWord where
  arow : Nat
  brow : Nat
  atag : Nat
  btag : Nat
  shape : Nat
  acc : Bool
  scan : Bool
  tile : Nat
  chain : Nat
  close : Bool
  sreg : Nat
  done : Nat
  slc : Nat
  tri : Bool
  aux : Bool
  deriving DecidableEq, Repr

def matWord (w : Nat) : MatWord :=
  ⟨fld w 46 12, fld w 34 12, fld w 29 5, fld w 24 5, fld w 22 2, bitOf w 21, bitOf w 20, fld w 18 2, fld w 14 4, bitOf w 13,
    fld w 9 4, fld w 4 5, fld w 2 2, bitOf w 1, bitOf w 0⟩

/-- A MAUX word (07 R227). -/
def mauxWord (w : Nat) : Maux :=
  ⟨fld w 51 7, fld w 48 3, fld w 46 2, fld w 44 2, fld w 37 7, fld w 30 7, fld w 23 7, fld w 16 7, fld w 3 13⟩

/-! ### Indexed places (07 R199 R200) -/

/-- The place an indexed field names for a thread. -/
def Thread.place (th : Thread) (f : Nat) : Nat :=
  let p := fld f 0 7
  let q := fld f 9 3
  if q = 0 then p else (p + q * ((th.loops.getD (fld f 7 2) LoopLevel.reset).lc).toNat) % 2 ^ 32

/-- A computed place above 0x5F, which is a range violation (07 R200). -/
def placeOver (f place : Nat) : Bool := fld f 9 3 != 0 && decide (0x5F < place)

def Thread.lc (th : Thread) (l : Nat) : W32 := (th.loops.getD l LoopLevel.reset).lc

/-- The places `n` from `pl` on of which one is a scratchpad row outside the scratch part, or no place at all (06 R182). -/
def placesBad (s pl n : Nat) : Option Nat :=
  ((List.range n).map (pl + ·)).find? (fun x => (decide (s ≤ x) && decide (x < 0x60)) || decide (0x7F < x))

/-- Rows `r` to `r + n - 1` that lie outside the scratch part. -/
def rowsBad (s r n : Nat) : Option Nat := ((List.range n).map (r + ·)).find? (fun x => decide (s ≤ x))

/-! ### Places and their bytes (07 R199, 06 R190 R193) -/

/-- The core memory view offset of a place. -/
def placeOff (code : Nat) : Nat :=
  if code < 0x60 then 512 * code else if code < 0x68 then 0xF000 + 512 * (code - 0x60) else 0xC000 + 512 * (code - 0x68)

/-- The accumulator tile of a place, and the tile buffer. -/
def placeTile (code : Nat) : Option Nat := if 0x68 ≤ code ∧ code ≤ 0x7F then some ((code - 0x68) / 6) else none
def placeBuf (code : Nat) : Option Nat := if 0x60 ≤ code ∧ code ≤ 0x67 then some ((code - 0x60) / 2) else none

/-- The bytes of a place of one core. -/
def Part.half (p : Part) (c code : Nat) : List Byte := p.bytesAt (viewAddr c (placeOff code)) 512

/-- The bytes of a place: 512 B, or 1,024 B over both cores of a two-hander. -/
def Part.placeBytes (p : Part) (c code : Nat) : List Byte :=
  if p.paired c then p.half c code ++ p.half (c + 1) code else p.half c code

/-- A scratchpad row of a place passes its tag (18 R530); other places carry no tag. -/
def Part.placeGood (p : Part) (c code : Nat) : Bool :=
  if code < 0x60 then
    p.rowGood (viewAddr c (512 * code)) && (!p.paired c || p.rowGood (viewAddr (c + 1) (512 * code)))
  else true

/-- A word of the place is poisoned (18 R533). -/
def Part.placePoisoned (p : Part) (c code : Nat) : Bool :=
  let bad := fun k => (List.range 64).any (fun i => Tab.get false p.poison ((viewAddr k (placeOff code)) / 8 + i))
  bad c || (p.paired c && bad (c + 1))

/-! ### X and residues (02 R44, 03 R84 R98 R99) -/

def xAddr (c tile i : Nat) : Nat := viewAddr c (0xC000 + 0xC00 * tile + 12 * i)

/-- The X of element `i` of a tile, over one core or over both (02 R44). -/
def Part.getX (p : Part) (cores : List Nat) (tile i : Nat) : Int :=
  let v := cores.zipIdx.map (fun (c, j) => p.natAt (xAddr c tile i) 12 * 2 ^ (96 * j))
  sext (96 * cores.length) v.sum

/-- The core that keeps the residues of what core `c` holds of a tile: for 192-bit elements the even one (03 R98). -/
def Part.residCore (p : Part) (c t : Nat) : Nat :=
  if p.paired c && c % 2 == 1 && ((p.core (c - 1)).side t).pair.1 == 0x0A then c - 1 else c

/-- The residue of element `i` that core `x` keeps: X mod 3 with the held difference (03 R98). -/
def Part.residue (p : Part) (x t i : Nat) : Nat :=
  let s := (p.core x).side t
  ((p.getX (if s.pair.1 = 0x0A then [x, x + 1] else [x]) t i % 3).toNat + (Tab.get 0 s.resid i).toNat) % 3

/-- Elements of the tile that bytes `off` to `off + n - 1` of a view lie in. -/
def residSpan (off n : Nat) : List Nat :=
  let o := (off - 0xC000) % 0xC00
  (List.range ((o + n - 1) / 12 + 1 - o / 12)).map (o / 12 + ·)

/-- The first element in a range of core `c`'s view whose X mod 3 differs from its residue, with the core that keeps it and its tile
(03 R99). -/
def Part.residAt (p : Part) (c off n : Nat) : Option (Nat × Nat × Nat) :=
  if off < 0xC000 ∨ 0xF000 ≤ off then none
  else
    let t := (off - 0xC000) / 0xC00
    let x := p.residCore c t
    ((residSpan off n).find? (fun i => decide ((Tab.get 0 ((p.core x).side t).resid i).toNat % 3 ≠ 0))).map (fun i => (x, t, i))

/-- The same over a whole tile. -/
def Part.residTile (p : Part) (c t : Nat) : Option (Nat × Nat × Nat) := p.residAt c (0xC000 + 0xC00 * t) 0xC00

/-- The residues of the elements in a range of a view are those of their X again (03 R84). -/
def Part.fixResid (p : Part) (c off n : Nat) : Part :=
  if off < 0xC000 ∨ 0xF000 ≤ off then p
  else
    let t := (off - 0xC000) / 0xC00
    let l := residSpan off n
    p.onCore (p.residCore c t) (fun k => k.onSide t (fun s => { s with resid := s.resid.filter (fun e => !l.elem e.1) }))

/-- A failed accumulator check: X mod 3 in bits [31:0] of the detail and ρ in bits [63:32] (18 R550 R551, log 47). -/
def Part.residReport (p : Part) (x t i : Nat) : Report :=
  let s := (p.core x).side t
  let m := (p.getX (if s.pair.1 = 0x0A then [x, x + 1] else [x]) t i % 3).toNat
  ⟨0x0011, 1, dieOf x, (x / 16) % 400, x % 16, t, p.taskOf x, 0, BitVec.ofNat 64 (m + p.residue x t i * 2 ^ 32)⟩

/-- One core's half of a place written with a tag difference. -/
def Part.setHalf (p : Part) (c code : Nat) (b : List Byte) (diff : W32) : Part :=
  let a := viewAddr c (placeOff code)
  if code < 0x60 then p.setRow a b diff
  else
    let q := p.fixResid c (placeOff code) 512
    { q.setBytes a (padTo 512 b) with poison := q.poison.filter (fun w => decide (w.1 / 64 ≠ a / 512)) }

/-- A place written whole; a scratchpad row takes a good tag (18 R529). The residues of accumulator elements are recomputed (03 R84). -/
def Part.setPlace (p : Part) (c code : Nat) (b : List Byte) : Part :=
  if p.paired c then (p.setHalf c code (b.take 512) 0).setHalf (c + 1) code (b.drop 512) 0 else p.setHalf c code b 0

/-! ### Thread steps (06 R168 R170, 07 R205 R207) -/

/-- Levels tested from the highest down when the operation at `a` has issued (07 R207). -/
def endTest (a : Nat) : Nat → List LoopLevel → List LoopLevel × Option Nat
  | 0, ls => (ls, none)
  | l + 1, ls =>
    let v := ls.getD l LoopLevel.reset
    if v.active && v.stop == a then
      if v.lc.toNat + 1 < v.count.toNat then (ls.set l { v with lc := v.lc + 1 }, some v.start)
      else endTest a l (ls.set l { v with lc := v.count, active := false })
    else endTest a l ls

/-- The thread after the operation at its cue pointer has issued. -/
def Thread.advance (th : Thread) : Thread :=
  let r := endTest th.ptr 4 th.loops
  { th with ptr := (match r.2 with | some s => s | none => th.ptr + 1) % 1024, loops := r.1 }

def Thread.ready (th : Thread) : Thread := { th with st := .ready, why := 0, on := .nothing }
def Thread.await (th : Thread) (why : Nat) (on : Waiting) : Thread := { th with st := .wait, why := why, on := on }
def Thread.stallAt (th : Thread) (mark : Nat) : Thread := { th with st := .stall, why := 8, on := .stall mark }

/-- END: the thread is IDLE with its loop state cleared (07 R205). -/
def Thread.ended (th : Thread) : Thread :=
  { th with st := .idle, why := 0, handler := false, queue := 0, took := false, on := .nothing,
            loops := List.replicate 4 LoopLevel.reset }

/-- The word at thread `t`'s cue pointer. -/
def Part.wordAt (p : Part) (c t : Nat) : Nat := p.cueWord c (p.th c t).ptr

/-- The core's replica is being saved or restored (10 R320 R321). -/
def Part.switching (p : Part) (c : Nat) : Bool := match p.replicaAt (clusterOf c) with
  | some r => decide (r.st = .saving) || decide (r.st = .restoring)
  | none => false

/-- A SEND of ordinary thread `t` is blocked: the thread waits with why = 8 (07 R231, 09 R280). -/
def Core.sendHeld (k : Core) (t : Nat) : Bool := !(k.th t).handler && k.moving.any (fun m => m.since.isSome && m.thread == t)

/-- The thread issues in this beat, and its operation has opcode `op` (06 R170). -/
def Part.issues (p : Part) (c t op : Nat) : Bool :=
  decide (t < 8) && !p.switching c && decide ((p.th c t).st = .ready) && !(p.core c).sendHeld t && decide (opcode (p.wordAt c t) = op)

/-! ### Beats (06 R170, 07 R204, log 3)

In each beat every READY thread issues, in ascending thread number. A thread that was READY as the present beat began and has not yet
issued issues in it; any other issue begins a new beat. -/

/-- Thread `t` takes its issue slot. -/
def Core.beat (k : Core) (t : Nat) : Core :=
  if k.due.elem t then { k with due := k.due.filter (t < ·) }
  else { k with sh0 := k.sh, ptrs0 := k.ptrs, due := (List.range 8).filter (fun j => decide (t < j) && decide ((k.th j).st = .ready)) }

/-- The core as thread `t` reads its shape and pointer registers: as they stood when the beat began. -/
def Core.asOf (k : Core) (t : Nat) : Core := if k.due.elem t then { k with sh := k.sh0, ptrs := k.ptrs0 } else k

/-- A slot taken and counted (06 R196). -/
def Part.takeSlot (p : Part) (c t : Nat) : Part := (p.bump (coreReg Reg.CORE_ISSUED c []) 1).onCore c (·.beat t)

/-- Issue counted and the thread moved on. -/
def Part.issued (p : Part) (c t : Nat) : Part := (p.takeSlot c t).onTh c t Thread.advance

/-- A later thread of the present beat adds to a cue counter or waits on one: the beat's tests of counters are still to come (11 R332). -/
def Part.countsDue (p : Part) (c : Nat) : Bool :=
  (p.core c).due.any (fun j => decide ((p.th c j).st = .ready) && !(p.core c).sendHeld j && fld (p.wordAt c j) 56 2 == 1 &&
    inList [Op.CUE, Op.WAIT] (opcode (p.wordAt c j)))

/-! ### Quiescence (06 R175) -/

/-- What may bring the cores of `cs` to rest: an entry into quiescence is counted (06 R196), once (an abort counts its own). -/
def Part.resting (p : Part) (cs : List Nat) (f : Part → Part) : Part :=
  let q := f p
  forEach cs (fun x z =>
    let r := coreReg Reg.CORE_SLEEPS x []
    if !p.quiet x && q.quiet x && decide (p.reg r = q.reg r) then z.bump r 1 else z) q

/-- A command on core `c`, or on its two-hander. -/
def Part.onTheCore (p : Part) (c : Nat) (f : Part → Part) : Part := p.resting (p.pairOf c) f

/-! ### What is still outstanding (07 R211) -/

def Move.isChannel : Move → Bool
  | .send _ _ _ _ => true
  | .recv _ _ _ => true
  | _ => false

/-- Operations of mask bit `i` issued before `mark`, of thread `t` or (scope 1) of every thread (07 R211). -/
def Part.pendingKind (p : Part) (c t : Nat) (scope : Bool) (mark i : Nat) : Bool :=
  let k := p.core c
  let mine := fun (th uid : Nat) => (scope || th == t) && decide (uid < mark)
  match i with
  | 0 => (k.matq ++ k.matRun).any (fun m => mine m.thread m.uid)
  | 1 => (k.vecq ++ k.vecRun.toList).any (fun v => mine v.thread v.uid)
  | 2 => (k.matq ++ k.matRun).any (fun m => m.close && mine m.thread m.uid) ||
         (k.epiq ++ k.epiRun.toList).any (fun m => mine m.thread m.uid)
  | 3 => (k.moveq ++ k.moving).any (fun m => !m.what.isChannel && mine m.thread m.uid)
  | 4 => p.xfers.any (fun x => x.core == c && mine x.thread x.uid)
  | 5 => (k.moveq ++ k.moving).any (fun m => m.what.isChannel && mine m.thread m.uid) ||
         (List.range 8).any (fun j => match (k.th j).on with | .recv u _ _ _ _ => mine j u | _ => false)
  | _ => p.reqs.any (fun r => r.core == c && r.fill.isSome && mine r.thread r.uid)

def Part.fenceMet (p : Part) (c t : Nat) (mask : Nat) (scope : Bool) (mark : Nat) : Bool :=
  (List.range 7).all (fun i => !bitOf mask i || !p.pendingKind c t scope mark i)

/-- Operation `uid` of core `c` is still outstanding. -/
def Part.outstanding (p : Part) (c uid : Nat) : Bool :=
  ((p.core c).moveq ++ (p.core c).moving).any (fun m => m.uid == uid) || p.xfers.any (fun x => x.core == c && x.uid == uid)

/-! ### Waits that end (06 R176, 07 R233, 11 R331 R332) -/

/-- A queue of a core, or of its two-hander partner (06 R191): core and index. -/
def queueHome (c q : Nat) : Nat × Nat := if q < 16 then (c, q) else (c + 1, q - 16)

/-- Messages at the head of a queue that belong to RECVs: to queued ones and to those of stalled threads. -/
def Core.claimed (k : Core) (q : Nat) : Nat :=
  (k.moveq.filter (fun m => match m.what with | .recv x _ _ => x == q | _ => false)).length +
  (k.threads.filter (fun t => match t.on with | .recv _ x _ _ _ => x == q && decide (t.st = .stall) | _ => false)).length

/-- Messages of a queue that no RECV has claimed. -/
def Part.unclaimed (p : Part) (c q : Nat) : Nat :=
  ((p.core (queueHome c q).1).queue (queueHome c q).2).msgs.length - (p.core c).claimed q

/-- The RECV of a thread that waited for its message enters the row-move queue. -/
def Part.queueRecv (p : Part) (c t u q pl sl dn : Nat) : Part :=
  p.onCore c (fun k =>
    { k with moveq := k.moveq ++ [({ uid := u, thread := t, what := .recv q pl sl, done := dn, sync := false, looked := false, data := [], since := none } : MoveOp)] }.onTh t Thread.ready)

/-- The row-move queue holds 8 operations (06 R171). -/
def Part.moveFull (p : Part) (c : Nat) : Bool := decide (8 ≤ (p.core c).moveq.length)

/-- The line is valid in the cache, or still being filled. -/
def Core.lineValid (k : Core) (line : Nat) : Bool := k.cache.any (fun w => w.2.valid && w.2.line == line)
def Core.lineFilling (k : Core) (line : Nat) : Bool := k.cache.any (fun w => w.2.filling && w.2.line == line)

/-- Thread `t`'s wait, if what it waits for has come: the first test, in which consuming waits take their value and messages are
claimed (11 R332 step 2). -/
def Part.testThread (c t : Nat) (p : Part) : Part :=
  let th := p.th c t
  match th.on with
  | .counter i v true =>
    if v.toNat ≤ ((p.core c).cnt.getD i 0).toNat then
      p.onCore c (fun k => { k with cnt := modAt k.cnt i (· - v.setWidth 32) }.onTh t Thread.ready)
    else p
  | .queue q => if ((p.core (queueHome c q).1).queue (queueHome c q).2).msgs.isEmpty then p else p.onTh c t Thread.ready
  | .oper u => if p.outstanding c u then p else p.onTh c t Thread.ready
  | .fence m sc mark => if p.fenceMet c t m.toNat sc mark then p.onTh c t Thread.ready else p
  | .parking mark =>
    if p.fenceMet c t 0x7F false mark then p.onTh c t (fun x => { x with on := .parked }) else p
  | .fill ls sync =>
    let left := ls.filter (fun l => !(p.core c).lineValid l)
    if left.isEmpty then
      (match sync with
       | some u => if p.outstanding c u then p.onTh c t (fun x => x.await 4 (.oper u)) else p.onTh c t Thread.ready
       | none => p.onTh c t Thread.ready)
    else p.onTh c t (fun x => { x with on := .fill left sync })
  | .recv u q pl sl dn =>
    if decide (th.st = .stall) || p.unclaimed c q == 0 then p
    else if p.moveFull c then p.onTh c t (fun x => { x with st := .stall, why := 8 })
    else p.queueRecv c t u q pl sl dn
  | _ => p

/-- The second test: every counter wait without consume that the counter satisfies (11 R332 step 3). -/
def Part.testPlain (c t : Nat) (p : Part) : Part :=
  match (p.th c t).on with
  | .counter i v false =>
    if v.toNat ≤ ((p.core c).cnt.getD i 0).toNat then p.onTh c t Thread.ready else p
  | _ => p

/-- The waiting threads of a core tested in ascending thread number. -/
def Part.settle (p : Part) (c : Nat) : Part :=
  forEach (List.range 8) (fun t x => x.testPlain c t) (forEach (List.range 8) (fun t x => x.testThread c t) p)

/-! ### Counters, completion fields, wires (11 R330 R334 R335, 07 R201) -/

/-- An addition to a counter: past 0xFFFF_FFFF it saturates and the task is aborted. -/
def Part.countUp (p : Part) (c i v : Nat) : Part :=
  let n := ((p.core c).cnt.getD i 0).toNat + v
  if 2 ^ 32 ≤ n then
    ((p.onCore c (fun k => { k with cnt := k.cnt.set i 0xFFFFFFFF })).orReg (cluReg Reg.CLU_CUE_STAT (clusterOf c) []) 1).raiseCore
      c 0x0071 i 0 0 none
  else p.onCore c (fun k => { k with cnt := k.cnt.set i (BitVec.ofNat 32 n) })

/-- The addition, and the waiting threads tested after it. -/
def Part.addCounter (p : Part) (c i v : Nat) : Part :=
  let q := p.countUp c i v
  if 2 ^ 32 ≤ ((p.core c).cnt.getD i 0).toNat + v then q else q.settle c

/-- A completion field reached (07 R201). -/
def Part.completed (p : Part) (c done : Nat) : Part :=
  if bitOf done 4 then p.addCounter c (fld done 0 4) 1 else p.settle c

/-- The pending bit of a wire, or of external input `sel` - 64, set at a core: every thread that waits on it wakes and the bit is
cleared once, or it stays pending (11 R334 R335 R338). -/
def Core.fire (k : Core) (sel : Nat) : Core :=
  if k.threads.any (fun t => t.on == .wire sel) then
    { k with threads := k.threads.map (fun t => if t.on = .wire sel then t.ready else t) }
  else if sel < 64 then { k with wire := k.wire ||| (1 <<< sel) }
  else { k with xcue := k.xcue ||| (1 <<< (sel - 64)) }

def Core.pendingWire (k : Core) (sel : Nat) : Bool :=
  if sel < 64 then bitOf k.wire.toNat sel else bitOf k.xcue.toNat (sel - 64)

def Core.takeWire (k : Core) (sel : Nat) : Core :=
  if sel < 64 then { k with wire := k.wire &&& ~~~ ((1 : W64) <<< sel) }
  else { k with xcue := k.xcue &&& ~~~ ((1 : Byte) <<< (sel - 64)) }

/-- A firing of wire `w` in cluster `cl` reaches the cores its mask names (11 R334). -/
def Part.fireWire (p : Part) (cl w : Nat) : Part :=
  forEach (List.range 16) (fun k x => if bitOf (p.wireCfg cl w) k then x.onCore (16 * cl + k) (·.fire w) else x) p

/-! ### Violations (06 R182, 03 R89 R93, 02 R52) -/

/-- A scratchpad range violation at `row`. -/
def Part.rangeViolation (p : Part) (c row : Nat) : Part :=
  ((p.orReg (coreReg Reg.CORE_SP_ERR c []) 1).setRegN (coreReg Reg.CORE_SP_ERR_ROW c []) (row % 128)).raiseCore c 0x0070 0 row 0 none

/-- A word that a unit reads is uncorrectable (18 R533). -/
def Part.sramFault (p : Part) (c row : Nat) : Part := p.raiseCore c 0x0002 0 row 0 none

/-- An operation refused at issue (07 R214 R232, 13 R390). -/
def Part.refusedOp (p : Part) (c unit addr : Nat) : Part := p.raiseCore c 0x0073 unit addr 0 none

end Sys2Proof.Machine
end

