-- ==== Sys2Proof/Machine/Ordering.lean ====
section
/-! DEFINITION. Chain entries and element steps as words, and the order among the operations of a core that touch one
accumulator tile, tile buffer or row (03 R81 R83, 04 R105 R110, 05 R140 R146 R148 R150 R164, 06 R194, 07 R216). -/

namespace Sys2Proof.Machine

open Sys2Proof

/-! ### Chain entries (05 R140) -/

structure ChainEntry where
  epi : Nat
  pro : Nat
  final : Bool
  rnd : Nat
  ftz : Bool
  outTag : Nat
  st0 : Nat
  st1 : Nat
  st2 : Nat
  act : Nat
  span : Nat
  gateTile : Nat
  gateSrc : Bool
  statKind : Bool
  rsMode : Bool
  qAxis : Bool
  outRow : Nat
  auxRow : Nat
  s0Row : Nat
  s0Tag : Nat
  s1Row : Nat
  s1Tag : Nat
  zpA : Int
  zpB : Int
  nseg : Nat
  segLen : Nat
  param0 : Nat
  param1 : Nat
  deriving DecidableEq, Repr

/-- The entry that 256 bits spell. -/
def chainEntry (w : Nat) : ChainEntry :=
  { epi := fld w 0 5, pro := fld w 5 3, final := bitOf w 8, rnd := fld w 9 3, ftz := bitOf w 12, outTag := fld w 13 5,
    st0 := fld w 18 5, st1 := fld w 23 5, st2 := fld w 28 5, act := fld w 33 2, span := fld w 35 4,
    gateTile := fld w 39 2, gateSrc := bitOf w 41, statKind := bitOf w 42, rsMode := bitOf w 43, qAxis := bitOf w 44,
    outRow := fld w 45 7, auxRow := fld w 52 7, s0Row := fld w 64 7, s0Tag := fld w 71 5, s1Row := fld w 76 7,
    s1Tag := fld w 83 5, zpA := sext 8 (fld w 88 8), zpB := sext 8 (fld w 96 8), nseg := fld w 104 6,
    segLen := fld w 110 8, param0 := fld w 128 32, param1 := fld w 160 32 }

def Part.chainOf (p : Part) (c e : Nat) : ChainEntry := chainEntry (leNat (p.chainBytes c e))

/-- The stages of an epilogue (05 R146). -/
inductive ChainStage where
  | r | b | a | g | s | q | t | x | n
  deriving DecidableEq, Repr

def stagesOf : Nat → List ChainStage
  | 0x00 => [.r] | 0x01 => [.r, .b] | 0x02 => [.r, .b, .a] | 0x03 => [.r, .a] | 0x04 => [.r, .g]
  | 0x05 => [.r, .a, .g] | 0x06 => [.r, .b, .a, .g] | 0x07 => [.r, .s] | 0x08 => [.r, .b, .s]
  | 0x09 => [.r, .a, .g, .s] | 0x0A => [.r, .q] | 0x0B => [.r, .b, .q] | 0x0C => [.r, .b, .a, .q]
  | 0x0D => [.r, .a, .g, .q] | 0x0E => [.r, .s, .q] | 0x0F => [.r, .t] | 0x10 => [.r, .s, .t]
  | 0x11 => [.r, .b, .s, .t] | 0x12 => [.r, .x, .t] | 0x13 => [.r, .x, .n] | _ => []

def ChainEntry.has (e : ChainEntry) (st : ChainStage) : Bool := (stagesOf e.epi).elem st

/-- Prologue stages (05 R142). -/
def ChainEntry.scans (e : ChainEntry) : Bool := e.pro == 1 || e.pro == 2 || e.pro == 5 || e.pro == 6 || e.pro == 7
def ChainEntry.mxd (e : ChainEntry) : Bool := e.pro == 2 || e.pro == 6
def ChainEntry.zp (e : ChainEntry) : Bool := e.pro == 3
def ChainEntry.rs (e : ChainEntry) : Bool := e.pro == 4 || e.pro == 5 || e.pro == 6
def ChainEntry.osr (e : ChainEntry) : Bool := e.pro == 7
def ChainEntry.sidecar (e : ChainEntry) : Bool := e.rs || e.osr

/-- The streams in stage order (05 R150): which of a sidecar, a bias, a gate partner and a residual it takes. -/
def ChainEntry.streams (e : ChainEntry) : List ChainStage :=
  (if e.sidecar then [.x] else []) ++ (if e.has .b then [.b] else []) ++
  (if e.has .g && e.gateSrc then [.g] else []) ++ (if e.has .s then [.s] else [])

/-- Row and tag of the stream that serves a stage (the sidecar under `x`). -/
def ChainEntry.streamOf (e : ChainEntry) (st : ChainStage) : Nat × Nat :=
  if e.streams.head? = some st then (e.s0Row, e.s0Tag) else (e.s1Row, e.s1Tag)

def ChainEntry.spanTiles (e : ChainEntry) : List Nat := (List.range 4).filter (bitOf e.span)

/-- The gate partner of span tile number `k` (05 R149). -/
def ChainEntry.partners (e : ChainEntry) : List Nat :=
  if e.has .g && !e.gateSrc then (List.range e.spanTiles.length).map (e.gateTile + ·) else []

/-! ### The tiles of a step (03 R81 R82) -/

def MatStep.fp64 (m : MatStep) : Bool := m.atag == 0x0A

/-- The tiles a step targets, on its core or on both cores of its two-hander. -/
def MatStep.tiles (m : MatStep) : List Nat := match m.shape with
  | 0 => [m.tile]
  | 1 => [0, 1, 2, 3]
  | _ => if m.fp64 then [0, 1, 2, 3] else [m.tile, m.tile + 1]

/-- Rows and columns of a core's span matrix (05 R148). -/
def MatStep.spanSize (m : MatStep) (e : ChainEntry) : Nat × Nat :=
  let t := e.spanTiles.length
  if m.shape < 2 then (16, 16 * t)
  else if m.fp64 then (32, 16)
  else (32, 16 * (t / 2))

def rowsOf (tag n : Nat) : Nat := ceilDiv n (perRow tag)

/-- Rows the output of an epilogue fills, and its scale bytes or records (05 R148 R151 R152). -/
def MatStep.outRows (m : MatStep) (e : ChainEntry) : List Nat :=
  let (r, c) := m.spanSize e
  (List.range (rowsOf e.outTag (r * c))).map (e.outRow + ·)

def MatStep.auxRows (m : MatStep) (e : ChainEntry) : List Nat :=
  let (r, c) := m.spanSize e
  let n := if e.has .q then r * c / 32 else if e.has .t then 8 * r else 0
  (List.range (ceilDiv n 512)).map (e.auxRow + ·)

/-- Rows of the bias, gate and residual streams. -/
def MatStep.streamRows (m : MatStep) (e : ChainEntry) : List Nat :=
  let (r, c) := m.spanSize e
  (e.streams.filter (· ≠ .x)).flatMap (fun st =>
    let (row, tag) := e.streamOf st
    (List.range (rowsOf tag (if st = .b then c else r * c))).map (row + ·))

/-! ### Element steps (04 R108 R110) -/

structure ElemStep where
  op : Nat
  d : Nat
  a : Nat
  b : Nat
  c : Nat
  m : Nat
  imm18 : Nat
  deriving DecidableEq, Repr

def elemStep (w : Nat) : ElemStep := ⟨fld w 27 5, fld w 23 4, fld w 17 6, fld w 11 6, fld w 5 6, fld w 0 5, fld w 5 18⟩

/-- The steps before the first END (04 R104). -/
def Part.program (p : Part) (c pr : Nat) : List ElemStep :=
  ((List.range 32).map (fun i => elemStep (p.elemWord c pr i))).takeWhile (fun s => s.op != 0)

/-- The source codes a step reads (04 R111 R112 R114 R117 R123); DEDUCED: a field that the opcode does not read is no source, and any
code may stand there (log 49). -/
def ElemStep.sources (s : ElemStep) : List Nat :=
  if s.op = 0x00 ∨ s.op = 0x02 then []
  else if inList [0x01, 0x11, 0x12, 0x15, 0x16, 0x17] s.op then [s.a]
  else if s.op = 0x10 then [s.a, s.b, s.c]
  else if inList [0x07, 0x08, 0x09, 0x0A] s.op && s.m % 2 == 1 then [s.a]
  else [s.a, s.b]

/-! ### Outstanding uses -/

inductive Res where
  | tile (t : Nat)
  | buf (b : Nat)
  | row (r : Nat)
  deriving DecidableEq, Repr

/-- Which unit an operation belongs to. -/
inductive UnitKind where
  | matrix | epilogue | vector | move | view
  deriving DecidableEq, Repr

/-- What an operation of a core has still to read and to write. -/
structure Use where
  uid : Nat
  kind : UnitKind
  reads : List Res
  writes : List Res
  deriving DecidableEq, Repr

/-- What a place lies in. -/
def placeRes (code : Nat) : Res := match placeTile code, placeBuf code with
  | some t, _ => .tile t
  | none, some b => .buf b
  | none, none => .row code

def MatStep.epiReads (m : MatStep) (e : ChainEntry) : List Res :=
  (e.spanTiles ++ e.partners).map .tile ++ (m.streamRows e).map .row
def MatStep.epiWrites (m : MatStep) (e : ChainEntry) : List Res := (m.outRows e ++ m.auxRows e).map .row

def codeRes (code : Nat) : List Res :=
  if 0x10 ≤ code ∧ code ≤ 0x13 then [.buf (code - 0x10)]
  else if 0x14 ≤ code ∧ code ≤ 0x27 then [.tile (code % 4)]
  else []

def ElemStep.bufReads (s : ElemStep) : List Res := s.sources.flatMap codeRes
def ElemStep.bufWrites (s : ElemStep) : List Res := if s.op = 0x15 then [.buf (s.d % 4)] else []

/-- Places a row move reads and writes. -/
def Move.reads (paired : Bool) : Move → List Nat
  | .str pl _ n _ => (List.range n).map (pl + ·)
  | .mov _ src n => (List.range n).map (src + ·)
  | .trd _ r _ _ => (List.range (if paired then 32 else 16)).map (r + ·)
  | .srd _ r d _ => (List.range (if paired then 32 else 16)).map (fun j => r + j * d)
  | .gath _ list _ _ _ _ => [list]
  | .send pl _ _ _ => [pl]
  | _ => []

def Move.writes : Move → List Nat
  | .ldr pl _ n _ => (List.range n).map (pl + ·)
  | .mov dst _ n => (List.range n).map (dst + ·)
  | .trd dst _ _ _ => [dst]
  | .srd dst _ _ _ => [dst]
  | .gath dst _ _ _ n _ => (List.range n).map (dst + ·)
  | .recv _ pl _ => [pl]
  | _ => []

/-- Row requests of an operation that have not landed. -/
def Part.reqsOf (p : Part) (c uid : Nat) : List Req := p.reqs.filter (fun r => r.core == c && r.uid == uid)

/-- Places that a started row move has not written yet. -/
def Part.writesLeft (p : Part) (c : Nat) (m : MoveOp) : List Nat :=
  match m.what with
  | .ldr pl _ _ false | .gath pl _ _ _ _ _ =>
    m.data.map (·.1) ++ ((p.reqsOf c m.uid).filter (fun r => !r.landed)).map (fun r => pl + (if p.paired c then r.idx / 2 else r.idx))
  | .send _ _ _ _ => []
  | _ => m.data.map (·.1)

/-- What a range of a core memory view lies in (06 R193). -/
def viewRes (off : Nat) : Res :=
  if off < 0xC000 then .row (off / 512) else if off < 0xF000 then .tile ((off - 0xC000) / 0xC00) else .buf ((off - 0xF000) / 0x400)

/-- The tiles and tile buffers of core `c` that a waiting view access touches; scratchpad rows are not ordered (06 R194). -/
def ViewWait.places (v : ViewWait) (c : Nat) : List Res :=
  ((piecesOf v.addr (accLength v.acc)).filter (fun x => viewCore x.1 == c && decide (0xC000 ≤ (x.1 - viewBase) % 0x10000))).map
    (fun x => viewRes ((x.1 - viewBase) % 0x10000))

/-- A waiting view access as a use of core `c`, and of its odd partner. -/
def ViewWait.use (v : ViewWait) (paired : Bool) (c : Nat) : Use :=
  let l := v.places c ++ (if paired then v.places (c + 1) else [])
  match v.acc with
  | .read _ => ⟨v.uid, .view, l, []⟩
  | .write _ => ⟨v.uid, .view, [], l⟩

/-- Every use of core `c` that is not over. On a two-hander the even core issues for both (06 R191). -/
def Part.uses (p : Part) (c : Nat) : List Use :=
  let k := p.core c
  let prog := fun (v : VecRun) => p.program c v.prog
  (k.matq ++ k.matRun).map (fun m => ⟨m.uid, .matrix, [], m.tiles.map .tile⟩) ++
  ((k.matq ++ k.matRun).filter (·.close) ++ k.epiq).map (fun m =>
    ⟨m.uid, .epilogue, m.epiReads (p.chainOf c m.chain), m.epiWrites (p.chainOf c m.chain)⟩) ++
  k.epiRun.toList.map (fun m => ⟨m.uid, .epilogue, [], m.epiWrites (p.chainOf c m.chain)⟩) ++
  k.vecq.map (fun v => ⟨v.uid, .vector, (prog v).flatMap ElemStep.bufReads, (prog v).flatMap ElemStep.bufWrites⟩) ++
  k.vecRun.toList.map (fun v => ⟨v.uid, .vector, [], (prog v).flatMap ElemStep.bufWrites⟩) ++
  k.moveq.map (fun m => ⟨m.uid, .move, (m.what.reads (p.paired c)).map placeRes, m.what.writes.map placeRes⟩) ++
  k.moving.map (fun m => ⟨m.uid, .move, [], (p.writesLeft c m).map placeRes⟩) ++
  p.views.map (fun v => v.use (p.paired c) c)

/-- An earlier use must be over before an operation with these reads and writes. -/
def Use.blocks (u : Use) (reads writes : List Res) : Bool :=
  u.writes.any (fun x => reads.elem x || writes.elem x) || u.reads.any (fun x => writes.elem x)

/-- No operation issued before `uid`, of a kind other than `skip`, stands in the way. -/
def Part.clear (p : Part) (c uid : Nat) (skip : Option UnitKind) (reads writes : List Res) : Bool :=
  (p.uses c).all (fun u => decide (uid ≤ u.uid) || decide (some u.kind = skip) || !u.blocks reads writes)

/-- A view access to core `c` at `off` that came in the order of issue at `mark` need not wait (06 R194, 05 R164): every operation issued
before that writes the tile, the buffer or the epilogue row is over, and for a write every one that reads it. Scratchpad rows are otherwise
unordered. -/
def Part.viewReady (p : Part) (c off : Nat) (write : Bool) (mark : Nat) : Bool :=
  let i := p.issuer c
  let x := viewRes off
  (p.uses i).all (fun u => decide (mark ≤ u.uid) ||
    (match x with | .row _ => decide (u.kind ≠ .epilogue) | _ => false) ||
    !u.blocks (if write then [] else [x]) (if write then [x] else []))

end Sys2Proof.Machine
end

