-- ==== Sys2Proof/Machine/Homes.lean ====
section
/-! DEFINITION. Rows at their homes: reads and writes with their tag checks, refusals, and what a fault of a transfer does
(13 R380 to R398 R584, 06 R195, 15 R459 R472, 18 R528 to R533). -/

namespace Sys2Proof.Machine

open Sys2Proof

/-! ### Channels and ranges -/

/-- The data capacity D (13 R381). -/
def Part.cap (p : Part) : Nat := p.regN (Reg.MEM_CAPACITY.at [0])
def Part.homeAt (p : Part) (a : Nat) : Home := homeOf p.cap a

/-- The M-die that holds an LPDDR5X or staging address. -/
def mdieOf (a : Nat) : Nat := if a < stagingBase then channelOf a / 64 else (a - stagingBase) / 0x20000000

/-- A register of the channel of `a`. -/
def chanReg (r : RegRow) (a : Nat) : Nat := r.at [channelOf a / 64, channelOf a % 64]

def Part.chFailed (p : Part) (a : Nat) : Bool := bitOf (p.regN (chanReg Reg.MEM_CH_STAT a)) 1

/-- The retained pool touches bytes `a` to `a + n - 1` (15 R459). -/
def Part.inPool (p : Part) (a n : Nat) : Bool :=
  overlaps a n (p.regN (Reg.CFG_RETAIN_BASE.at [])) (p.regN (Reg.CFG_RETAIN_SIZE.at []) * 2 ^ 20)

/-- The mirror row of a primary row (13 R397). -/
def Part.mirrorOf (p : Part) (a : Nat) : Option Nat :=
  (List.range 4).findSome? (fun i =>
    let size := p.regN (Reg.MEM_MIRROR_SIZE.at [i]) * 2 ^ 20
    let pri := p.regN (Reg.MEM_MIRROR_PRI.at [i])
    if pri ≤ a ∧ a < pri + size then some (p.regN (Reg.MEM_MIRROR_SEC.at [i]) + (a - pri)) else none)

/-- Where a row may be read or written by a transfer: LPDDR5X below D, staging, cluster stores, core memory views (07 R214,
13 R390). -/
def Home.movable : Home → Bool
  | .lpddr => true
  | .staging _ => true
  | .store _ _ => true
  | .view _ _ => true
  | _ => false

/-- What a cache may hold (06 R184, 07 R214). -/
def Home.cacheable : Home → Bool
  | .lpddr => true
  | .staging _ => true
  | .store _ _ => true
  | _ => false

/-- A row of a core memory view that lies in the cache part (06 R183 R193). -/
def Part.cacheRow (p : Part) (core off : Nat) : Bool := decide (off < 0xC000) && decide (scratchRows (p.partition core) ≤ off / 512)

/-! ### Faults of a transfer (13 R396) -/

/-- The line in row `row` of a core whose scratch part has `s` rows is invalid. -/
def Core.spoil (k : Core) (s row : Nat) : Core :=
  { k with cache := k.cache.map (fun (w : Nat × Way) => (w.1, if w.1 + s = row then { w.2 with valid := false } else w.2)) }

/-- A damaged row or a row on a failed channel, a failure in flight, a refused access, a poisoned word, an accumulator element whose
residue check fails (its core, tile and number), or a pit fault with its flag. -/
inductive RowFault where
  | word (a : Nat)
  | resid (x t i : Nat)
  | damaged (a : Nat)
  | flight (a : Nat)
  | refused (a : Nat)
  | pit (a bit : Nat)
  deriving DecidableEq, Repr

/-- The log's domain, die and place of a row (18 R535 R550). -/
def Part.rowPlace (p : Part) (a : Nat) : Nat × Nat × Nat × Nat := match p.homeAt a with
  | .lpddr => (3, 4 + mdieOf a, channelOf a, 0xFF)
  | .staging m => (3, 4 + m, 0, 0xFF)
  | .store cl _ => (1, cl / 400, cl % 400, 0xFF)
  | .view c _ => (1, c / 6400, (c / 16) % 400, c % 16)
  | _ => (4, 0, 0, 0xFF)

def Part.rowReport (p : Part) (source : Nat) (k : Option TaskKey) (a : Nat) : Report :=
  let (dom, die, place, core) := p.rowPlace a
  ⟨source, dom, die, place, core, 0, k, a, 0⟩

/-- A damaged row is counted and recorded: LPDDR5X and staging rows in the M-die's registers (13 R395 R398 R584). -/
def Part.noteDamaged (p : Part) (a : Nat) : Part :=
  let note := fun (q : Part) => (q.orReg (Reg.MEM_FAULT.at [mdieOf a]) 1).setRegN (Reg.MEM_FAULT_ADDR.at [mdieOf a]) (512 * (a / 512))
  match p.homeAt a with
  | .lpddr => note (p.bumpSat (chanReg Reg.MEM_CH_DAMAGED a) 1)
  | .staging _ => note p
  | _ => p

/-- A row whose channel has failed (13 R398). -/
def Part.lost (p : Part) (a : Nat) : Bool := decide (p.homeAt a = .lpddr) && p.chFailed a

/-- A band is on and was last used now (19 R563 R564). -/
def Part.touchBand (p : Part) (cl : Nat) : Part :=
  let p1 := p.orReg (Reg.PWR_DOM_C.at [cl / 400]) (2 ^ bandOf cl)
  { p1 with pwr := { p1.pwr with bandFree := Tab.put 0 p1.pwr.bandFree (40 * (cl / 400) + bandOf cl) p.tim.interval } }

/-- An access to a cluster store or a core memory view powers its band on (19 R564). -/
def Part.touch (p : Part) (a : Nat) : Part := match p.homeAt a with
  | .store cl _ => p.touchBand cl
  | .view c _ => p.touchBand (c / 16)
  | _ => p

/-- The read of an LPDDR5X row is counted (13 R404); another row's band is used. -/
def Part.countRead (p : Part) (a : Nat) : Part :=
  if p.homeAt a = .lpddr then p.bump (chanReg Reg.MEM_CH_RD a) 1 else p.touch a
def Part.countWrite (p : Part) (a : Nat) : Part :=
  if p.homeAt a = .lpddr then p.bump (chanReg Reg.MEM_CH_WR a) 1 else p.touch a

/-- The home row written again from its mirror when that passes its tag (13 R396 R397): none without a usable mirror. -/
def Part.repair (p : Part) (a : Nat) : Option Part :=
  let row := 512 * (a / 512)
  match p.mirrorOf row with
  | some m =>
    if !p.lost a && p.rowGood m && !p.lost m then
      let q := ((p.countRead m).setRow row (p.rowAt m) 0).countWrite row
      some (match p.homeAt a with
        | .lpddr | .staging _ => q.orReg (Reg.MEM_FAULT.at [mdieOf a]) 2
        | _ => q)
    else none
  | none => none

/-- FAILED with cause DATA (13 R396). -/
def causeData : Nat := 0x15

/-- A transfer fault of task `k`, at core `c` when a core's transfer met it (13 R396, 04 R137). -/
def Part.rowFault (p : Part) (k : Option TaskKey) (f : RowFault) : Part := match f with
  | .damaged a =>
    let p1 := p.noteDamaged a
    match p1.repair a with
    | some q => q.raise (p.rowReport 0x0031 k a) none
    | none => p1.raise (p.rowReport 0x0031 k a) (some causeData)
  | .flight a =>
    let p1 := match p.homeAt a with
      | .view c off => if p.cacheRow c off then p.onCore c (fun x => x.spoil (scratchRows (p.partition c)) (off / 512)) else p
      | _ => p
    p1.raise (p.rowReport 0x0020 k a) none
  | .refused a => p.raise (p.rowReport 0x0073 k a) none
  | .word a => p.raise (p.rowReport 0x0002 k a) none
  | .resid x t i => p.raise { p.residReport x t i with task := k } none
  | .pit a bit => (p.orReg (chanReg Reg.PIT_FAULT a) (2 ^ bit)).raise (p.rowReport 0x0040 k a) (some causeData)

/-- The fault as core `c` meets it: an access that is refused is a program error of the core (18 R535 R551). -/
def Part.coreRowFault (p : Part) (c : Nat) (k : Option TaskKey) (f : RowFault) : Part := match f with
  | .refused a => p.raise ⟨0x0073, 0, dieOf c, (c / 16) % 400, c % 16, 0, k, a, 0⟩ none
  | _ => p.rowFault k f

/-! ### Reads and writes of whole rows -/

/-- What a read of a row of tiles or buffers meets: a poisoned word, or a residue that does not match (03 R99, 18 R533). -/
def Part.wordFault (p : Part) (c off : Nat) : Option RowFault :=
  if !p.rowGood (viewAddr c off) then some (.word (viewAddr c off)) else (p.residAt c off 512).map (fun x => .resid x.1 x.2.1 x.2.2)

/-- Why a row at its home cannot be read: none when it can (13 R395 R398, 15 R472). DESIGN CHOICE: the store and the views of a cluster off the
roster are read and written as any others, since no rule names such an access among the refused ones (01 R26, 13 R390, 16 R489, log 52). -/
def Part.readFault (p : Part) (a : Nat) : Option RowFault := match p.homeAt a with
  | .lpddr => if p.chFailed a || !p.rowGood a then some (.damaged a) else none
  | .staging _ => if p.rowGood a then none else some (.damaged a)
  | .store cl _ => if p.darkCluster cl then some (.refused a) else if p.rowGood a then none else some (.damaged a)
  | .view c off =>
    if p.darkCluster (c / 16) then some (.refused a)
    else if off < 0xC000 then
      (if p.rowGood a then none else if p.cacheRow c off then some (.flight a) else some (.damaged a))
    else p.wordFault c off
  | _ => some (.refused a)

/-- Bytes `a` to `a + n - 1` read row by row up to the first that cannot be read, its fault: each row on a working channel counts (13 R395 R404).
DESIGN CHOICE: no failure of the link meets such a read; only ROW_READ carries one (log 51). -/
def Part.readSpan (p : Part) (a n : Nat) : Part × Option RowFault :=
  (List.range ((a + n - 1) / 512 - a / 512 + 1)).foldl (fun (x : Part × Option RowFault) i =>
    let row := 512 * (a / 512 + i)
    match x.2 with
    | some _ => x
    | none => (if x.1.lost row then x.1 else x.1.countRead row, x.1.readFault row)) (p, none)

/-- A damaged row that a stage manager has read (13 R395 R398). -/
def Part.noteFault (p : Part) : Option RowFault → Part
  | some (.damaged a) => p.noteDamaged a
  | _ => p

/-- Why a task's row cannot be written to its home. -/
def Part.writeFault (p : Part) (a n : Nat) : Option RowFault :=
  if p.inPool a n then some (.refused a)
  else match p.homeAt a with
  | .lpddr => if p.chFailed a then some (.damaged a) else none
  | .staging _ => none
  | .store cl _ => if p.darkCluster cl then some (.refused a) else none
  | .view c _ => if p.darkCluster (c / 16) then some (.refused a) else none
  | _ => some (.refused a)

/-- A view write to a cache row is discarded and invalidates the line held there (06 R195). -/
def Part.spoilCache (p : Part) (core off : Nat) : Part :=
  (p.onCore core (fun x => x.spoil (scratchRows (p.partition core)) (off / 512))).orReg (coreReg Reg.CORE_SP_ERR core []) 4

/-- Bytes written below a whole row, or a whole row of a store without tags (03 R84, 06 R194 R195, 09 R272, 13 R394). -/
def Part.writePart (p0 : Part) (a : Nat) (l : List Byte) : Part :=
  let p := p0.touch a
  match p.homeAt a with
  | .view c off =>
    if off < 0xC000 then (if p.cacheRow c off then p.spoilCache c off else p.mergeRow a l)
    else
      let q := p.fixResid c off l.length
      { q.setBytes a l with poison := q.poison.filter (fun w => !overlaps (8 * w.1) 8 a l.length) }
  | _ => (p.mergeRow a l).countWrite a

/-- A row that carries a tag, its own home: not a copy in a cache, not a tile or a buffer (13 R395, 18 R530). -/
def Part.tagged (p : Part) (a : Nat) : Bool := match p.homeAt a with
  | .lpddr | .staging _ | .store _ _ => true
  | .view c off => decide (off < 0xC000) && !p.cacheRow c off
  | _ => false

/-- A read-modify-write of less than a row: the row is read and counted, its tag checked, a bad one noted and logged for no task (09 R272,
13 R394 R395 R404, 18 R529 R532). -/
def Part.rmw (p : Part) (a : Nat) (l : List Byte) : Part :=
  let q := p.countRead a
  (if p.tagged a && !p.rowGood a then (q.noteDamaged a).raise (p.rowReport 0x0031 none a) none else q).writePart a l

/-- A whole row written to its home with a tag that differs from the right one by `diff`. -/
def Part.writeRow (p0 : Part) (a : Nat) (row : List Byte) (diff : W32) : Part :=
  let p := p0.touch a
  match p.homeAt a with
  | .view c off =>
    if off < 0xC000 then (if p.cacheRow c off then p.spoilCache c off else p.setRow a row diff)
    else
      let q := p.fixResid c off 512
      { q.setBytes (512 * (a / 512)) (padTo 512 row) with poison := q.poison.filter (fun w => decide (w.1 / 64 ≠ a / 512)) }
  | _ => (p.setRow a row diff).countWrite a

/-- Doorbells in a write of bytes `a` to `a + n - 1` that is acknowledged at its home, for the task that made it: fabric queues take
the word's new tail, enabled or not, and the load doorbell is rung (14 R425 R426, 15 R471). DESIGN CHOICE: a queue that is not enabled and whose
FAB_Q_DB is 0, its value at reset, has no doorbell word yet (log 11). -/
def Part.bell (p : Part) (a n : Nat) (owner : Option TaskKey) : Part :=
  let covers := fun (w : Nat) => decide (a ≤ w) && decide (w + 8 ≤ a + n) && (match p.homeAt w with | .lpddr => true | .staging _ => true | _ => false)
  let qs := (List.range 64).filter (fun q =>
    (bitOf (p.regN (Reg.FAB_Q_CFG.at [q])) 4 || p.regN (Reg.FAB_Q_DB.at [q]) != 0) && covers (p.regN (Reg.FAB_Q_DB.at [q])))
  let db := p.regN (Reg.CFG_LOAD_DB.at [])
  let w := db % 2 ^ 48
  { p with
    fab := { p.fab with bells := p.fab.bells ++ qs.map (fun q => ⟨q, p.natAt (p.regN (Reg.FAB_Q_DB.at [q])) 2, owner, false⟩) }
    cfg := { p.cfg with rung := if bitOf db 63 && covers w then p.cfg.rung ++ [w] else p.cfg.rung } }

/-- An access to a view whose tile, buffer or row earlier operations still use must wait (06 R194). -/
def Part.mustWait (p : Part) (a : Nat) (write : Bool) : Bool := match p.homeAt a with
  | .view c off => !p.viewReady c off write p.uid
  | _ => false

/-! ### Accesses through BAR2 to core memory views (06 R194, 16 R487 R489) -/

/-- What a read of `n` bytes at a view address finds bad: a row's tag, a poisoned word, a residue (18 R531 R533, 03 R99). -/
def Part.viewFault (p : Part) (a n : Nat) : Option Report := match p.homeAt a with
  | .view c off =>
    if off < 0xC000 then
      (if p.rowGood a then none else some (p.rowReport (if p.cacheRow c off then 0x0020 else 0x0031) none a))
    else if (List.range n).any (fun i => p.poisoned (a + i)) then some (p.rowReport 0x0002 none a)
    else match p.residAt c off n with
      | some (x, t, i) => some (p.residReport x t i)
      | none => none
  | _ => none

/-- One piece of a view read: what has been read so far, and whether it is poisoned. -/
def Part.viewGet (x : Part × List Byte × Bool) (y : Nat × Nat) : Part × List Byte × Bool :=
  let p := x.1.countRead y.1
  match p.viewFault y.1 y.2 with
  | some e => (p.raise e none, x.2.1 ++ p.bytesAt y.1 y.2, true)
  | none => (p, x.2.1 ++ p.bytesAt y.1 y.2, x.2.2)

/-- One piece of a view write. -/
def Part.viewPut (p : Part) (x : Nat × List Byte) : Part :=
  if x.2.length = 512 then p.writeRow x.1 x.2 0 else p.rmw x.1 x.2

/-- A BAR2 access to views, done. -/
def Part.viewAccess (p : Part) (port a : Nat) : Bar2 → Part
  | .read n =>
    let r := (piecesOf a n).foldl Part.viewGet (p, [], false)
    r.1.emit (.readData port r.2.1 r.2.2)
  | .write l => forEach (piecesOf a l.length) (fun x q => q.viewPut (x.1, (l.drop (x.1 - a)).take x.2)) p

/-- The access waits at the core for what was issued before it; what is issued later waits for the access (06 R194). -/
def Part.holdView (p : Part) (port a : Nat) (acc : Bar2) : Part :=
  let (u, p1) := p.fresh
  { p1 with views := p1.views ++ [⟨u, port, a, acc⟩] }

/-- A waiting view access need not wait any longer. -/
def Part.viewFree (p : Part) (v : ViewWait) : Bool :=
  let write := match v.acc with | .write _ => true | .read _ => false
  (piecesOf v.addr (accLength v.acc)).all (fun x => p.viewReady (viewCore x.1) ((x.1 - viewBase) % 0x10000) write v.uid)

/-- Waiting view accesses that need not wait any longer are done, the oldest first; one to a region gone dark is refused (16 R489). -/
def Part.pumpViewsF : Nat → Part → Part
  | 0, p => p
  | n + 1, p => match p.views.find? p.viewFree with
    | none => p
    | some v =>
      let cs := ((piecesOf v.addr (accLength v.acc)).map (fun x => viewCore x.1)).dedup
      Part.pumpViewsF n (p.resting cs (fun z =>
        let p1 : Part := { z with views := z.views.filter (fun x => x.uid ≠ v.uid) }
        if cs.any (fun c => p.darkCluster (c / 16)) then
          (let q := p1.refuse 1 v.addr v.port
           match v.acc with | .read _ => q.emit (.unsupported v.port) | .write _ => q)
        else p1.viewAccess v.port v.addr v.acc))

def Part.pumpViews (p : Part) : Part := Part.pumpViewsF p.views.length p

/-- A command on core `c` of the running part, with the waiting view accesses that it frees. -/
def State.coreCmd (s : State) (c : Nat) (f : Part → Part) : Host.Outcome State Fault Refusal :=
  s.live (fun p => (p.onTheCore c f).pumpViews)

/-- An event of the running part, with the waiting view accesses that it frees. -/
def State.event (s : State) (f : Part → Part) : Host.Outcome State Fault Refusal := s.live (fun p => (f p).pumpViews)

/-- Half-rows that leave the cluster port at which the row at `a` lies, when it goes to another cluster (09 R257 R290). -/
def Part.sent (p : Part) (a : Nat) (other : Option Nat) (n : Nat) : Part :=
  let at_ := match p.homeAt a with | .store cl _ => some cl | .view c _ => some (c / 16) | _ => none
  match at_ with
  | some cl => if other = some cl then p else p.bump (cluReg Reg.CLU_TRV_SENT cl []) n
  | none => p

end Sys2Proof.Machine
end

