-- ==== Sys2Proof/Machine/Pit.lean ====
section
/-! DEFINITION. Packed rows and the pit functions (02 R39 R40, 04 R129 to R137, 03 R85 to R93). The panel layout of EXPAND and
COMPRESS is that of T16, and a map lies before the metadata (log 14). -/

namespace Sys2Proof.Machine

open Sys2Proof

/-! ### Packed rows (02 R39) -/

/-- The codes of a list of bytes under a tag, in element order. -/
def rowCodes (tag : Nat) (l : List Byte) : List Nat :=
  match elemBits tag with
  | 4 => l.flatMap (fun b => [b.toNat % 16, b.toNat / 16])
  | 6 => (chunks 3 (l.take 504)).flatMap (fun g => (List.range 4).map (fun j => fld (leNat g) (6 * j) 6))
  | 8 => l.map (·.toNat)
  | n => (chunks (n / 8) l).map leNat

/-- One row of packed codes, completed with zeros. -/
def packRow (tag : Nat) (cs : List Nat) : List Byte :=
  padTo 512 (match elemBits tag with
    | 4 => (chunks 2 cs).map (fun g => BitVec.ofNat 8 (g.getD 0 0 % 16 + 16 * (g.getD 1 0 % 16)))
    | 6 => (chunks 4 cs).flatMap (fun g => leBytes 3 ((List.range 4).map (fun j => (g.getD j 0 % 64) * 2 ^ (6 * j))).sum)
    | n => cs.flatMap (leBytes (n / 8)))

def packRows (tag : Nat) (cs : List Nat) : List (List Byte) := (chunks (perRow tag) cs).map (packRow tag)

/-- All codes of consecutive rows. -/
def streamCodes (tag : Nat) (rows : List (List Byte)) : List Nat := rows.flatMap (rowCodes tag)

/-- Bytes in consecutive rows. -/
def packBytes (l : List Byte) : List (List Byte) := (chunks 512 l).map (padTo 512)

/-! ### The pit word (04 R131 R132) -/

structure PitWord where
  fn : Nat
  src : Nat
  dst : Nat
  rnd : Nat
  sat : Bool
  ftz : Bool
  low0 : Bool
  spare : Nat
  scale : Int
  param : Nat
  deriving DecidableEq, Repr

def pitWord (w : Nat) : PitWord :=
  ⟨fld w 0 4, fld w 4 5, fld w 9 5, fld w 14 3, bitOf w 17, bitOf w 18, bitOf w 19, fld w 20 4, sext 8 (fld w 24 8), fld w 32 32⟩

def PitWord.pattern (w : PitWord) : Nat := w.param % 256
def PitWord.hasMap (w : PitWord) : Bool := bitOf w.param 8

/-- 16- and 32-bit floating-point tags. -/
def isFloat32 (t : Nat) : Bool := decide (7 ≤ t) && decide (t ≤ 9)

/-- A format whose elements are numbers by themselves. -/
def isPlain (t : Nat) : Bool := decide (t ≤ 0x0B)

/-- The tags of the operands that may be compressed under a pattern (03 R86). -/
def patternTag (t : Nat) : Bool := inList [0x00, 0x01, 0x02, 0x05, 0x06, 0x11, 0x12, 0x15, 0x16] t

/-- The tags of the operands that may carry a presence map: all but the 6-bit ones (03 R91). -/
def mapTag (t : Nat) : Bool := (isNarrow t || isWide t) && elemBits t != 6

/-- Refused at issue (04 R131 R132 R135, 13 R390; log 14 for the tags of CONVERT, MX_APPLY, MX_QUANT, EXPAND and COMPRESS). -/
def PitWord.bad (w : PitWord) : Bool :=
  decide (7 < w.fn) || !tagKnown w.src || !tagKnown w.dst || w.spare != 0 || decide (4 < w.rnd) ||
  (match w.fn with
  | 0 => w.param != 0
  | 1 => w.param != 0 || !isPlain w.src || !isPlain w.dst
  | 2 => w.param != 0 || !isMx w.src || !isFloat32 w.dst
  | 3 => w.param != 0 || !isFloat32 w.src || !isMx w.dst
  | 4 => w.src != w.dst || !isPlain w.src
  | 7 => w.param != 0
  | _ => decide (4 < w.pattern) || decide (512 ≤ w.param) || (w.pattern == 0 && !w.hasMap) || w.src != w.dst ||
      (w.pattern != 0 && !patternTag w.src) || (w.hasMap && !mapTag w.src))

/-! ### Conversion of one element (04 R133) -/

/-- The element's code, whether saturation changed it, and whether it is a NaN without a code. An overflow to E4M3 gives its NaN unless
`sat` is set. DESIGN CHOICE: an infinity that becomes the largest magnitude of FP6, FP4 or an integer counts as changed by saturation, one
that becomes the NaN of E4M3 does not (log 49). -/
def convertElem (dst rnd : Nat) (ftz sat : Bool) (x : Num) : Nat × Bool × Bool :=
  let r := rndOf rnd
  let noNan := (match fmtOf (elemTag dst) with | some f => !f.ieee && !f.nanTop | none => true)
  match x with
  | .nan => if noNan then (0, false, true) else ((encode dst r ftz sat x).1, false, false)
  | .inf _ => let (c, _) := encode dst r ftz sat x; (c, noNan, false)
  | .fin _ _ _ =>
    let (c, o) := encode dst r ftz sat x
    let c := if o && !sat && (match fmtOf (elemTag dst) with | some f => f.nanTop | none => false) then
        c / 2 ^ (elemBits dst - 1) * 2 ^ (elemBits dst - 1) + (2 ^ (elemBits dst - 1) - 1) else c
    (c, o && (sat || noNan || (match decode dst c with | .fin _ _ _ => true | _ => false)), false)

/-! ### Blocks (04 R134) -/

/-- emax of an MX element format. -/
def mxEmax : Nat → Int
  | 0x15 => 8 | 0x16 => 15 | 0x13 => 2 | 0x14 => 4 | 0x12 => 2 | _ => 0

/-- One block brought into an MX format: its scale byte, and each code with whether saturation changed it. -/
def quantBlock (dst rnd : Nat) (ftz : Bool) (xs : List Num) : Nat × List (Nat × Bool) :=
  let conv := fun (x : Int) => xs.map (fun v => let (c, o, _) := convertElem dst rnd ftz true (v.scale (-x)); (c, o))
  if xs.any (fun v => v == .nan) then (0xFF, xs.map (fun _ => (0, false)))
  else
    let tops := xs.filterMap (fun v => match v with | .fin _ m e => if m = 0 then none else some (Num.top m e) | _ => none)
    match tops with
    | [] => (0x7F, conv 0)
    | t :: ts =>
      let x := clampInt (-127) 127 (ts.foldl max t - mxEmax dst)
      ((127 + x).toNat, conv x)

/-! ### Panels (03 R85 to R93) -/

/-- Group size, kept values and slot bits of a pattern. -/
def patternOf : Nat → Nat × Nat × Nat
  | 1 => (4, 2, 2) | 2 => (8, 4, 3) | 3 => (4, 1, 2) | _ => (8, 2, 3)

/-- Stride of a metadata segment in bytes for a panel `w` columns wide (03 R88). -/
def metaStride (w bits b : Nat) : Nat :=
  let base := if b = 2 then 128 else 256
  base * (if bits = 4 then 2 else 1) * (if w = 32 then 2 else 1)

/-- Presence blocks: logical K indices of a block when both operands have `bits`-bit elements (03 R91). -/
def blockLen (bits : Nat) : Nat := if bits = 4 then 32 else 16

/-- The slots of group `g` of column `j` in the segment at byte `at_` of a metadata panel. -/
def metaSlots (panel : List Byte) (at_ w n b g j : Nat) : List Nat :=
  let f := g * w + j
  let v := leNat ((panel.drop at_).take (metaStride w 4 b * 2))
  (List.range n).map (fun s => fld v (f * (n * b) + s * b) b)

/-- A compressed panel 16 columns wide as dense codes, row by row of the panel. -/
def expandNm (tag pat : Nat) (rows : List (List Byte)) (panel : List Byte) : List Nat :=
  let (g, n, b) := patternOf pat
  let kr := perRow tag / 16
  let st := metaStride 16 (elemBits tag) b
  rows.zipIdx.flatMap (fun (row, r) =>
    let cs := rowCodes tag row
    (List.range (kr / n)).flatMap (fun q =>
      let slots := (List.range 16).map (fun j => metaSlots panel (r * st) 16 n b q j)
      (List.range g).flatMap (fun pos => (List.range 16).map (fun j =>
        match (slots.getD j []).idxOf? pos with
        | some s => cs.getD (16 * (n * q + s) + j) 0
        | none => 0))))

/-- The blocks a map marks, laid out densely up to the last one that is marked and stored: the completion of the last row is no block. -/
def expandMap (tag : Nat) (cs : List Nat) (map : List Byte) : List Nat :=
  let size := 16 * blockLen (elemBits tag)
  let m := leNat map
  let stored := chunks size cs
  ((List.range 4096).foldl (fun (acc : List Nat × List (List Nat)) b =>
    match acc.2 with
    | [] => acc
    | x :: xs => if bitOf m b then (acc.1 ++ x, xs) else if m < 2 ^ b then acc else (acc.1 ++ List.replicate size 0, acc.2)) ([], stored)).1

/-- The slots COMPRESS writes for the nonzero positions of a group: as R89 permits (log 14). -/
def chooseSlots (nz : List Nat) (n g : Nat) : List Nat :=
  let free := Config.spareSlots nz n g
  let ok := decide (free.length = n) && free.all (fun x => decide (x < g)) && decide (free.Pairwise (· < ·)) &&
    nz.all (fun x => free.elem x)
  if ok then free
  else
    let spare := ((List.range g).filter (fun x => !nz.elem x)).take (n - nz.length)
    (List.range g).filter (fun x => nz.elem x || spare.elem x)

/-- A code stands for zero (+0 or −0). -/
def zeroCode (tag c : Nat) : Bool := (decode tag c).isZero

/-- Dense codes of a panel 16 columns wide as kept codes and metadata bytes, and the first element of a group with too many
nonzero elements. -/
def compressNm (tag pat : Nat) (cs : List Nat) : List Nat × List Byte × Option Nat :=
  let (g, n, b) := patternOf pat
  let kr := perRow tag / 16
  let st := metaStride 16 (elemBits tag) b
  let groups := (chunks (16 * g) cs).map (fun q => (List.range 16).map (fun j => (List.range g).map (fun x => q.getD (16 * x + j) 0)))
  let nzs := groups.map (fun q => q.map (fun col => (List.range g).filter (fun x => !zeroCode tag (col.getD x 0))))
  let bad := nzs.findIdx? (fun q => q.any (fun nz => decide (n < nz.length)))
  let slots := nzs.map (fun q => q.map (fun nz => chooseSlots nz n g))
  let kept := (groups.zip slots).flatMap (fun (q, sl) =>
    (List.range n).flatMap (fun s => (List.range 16).map (fun j => (q.getD j []).getD ((sl.getD j []).getD s 0) 0)))
  let segs := (chunks (kr / n) slots).map (fun rowGroups =>
    let bits := (rowGroups.zipIdx.flatMap (fun (sl, q) => (List.range 16).flatMap (fun j =>
      (List.range n).map (fun s => ((sl.getD j []).getD s 0) * 2 ^ ((q * 16 + j) * (n * b) + s * b))))).sum
    leBytes st bits)
  (kept, segs.flatten, bad.map (· * (16 * g)))

/-- The source element that stands at place `i` of what a map keeps. -/
def mapSource (tag : Nat) (map : List Byte) (i : Nat) : Nat :=
  let size := 16 * blockLen (elemBits tag)
  let m := leNat map
  size * (((List.range 4096).filter (bitOf m)).getD (i / size) 0) + i % size

/-- Dense codes with the blocks that a map marks absent left out, and the first nonzero element of an absent block. -/
def compressMap (tag : Nat) (cs : List Nat) (map : List Byte) : List Nat × Option Nat :=
  let size := 16 * blockLen (elemBits tag)
  let m := leNat map
  let blocks := (chunks size cs).zipIdx
  ((blocks.filter (fun x => bitOf m x.2)).flatMap (·.1),
   (blocks.find? (fun x => !bitOf m x.2 && x.1.any (fun c => !zeroCode tag c))).map (fun x => size * x.2))

/-! ### The functions (04 R132) -/

/-- What a pit function gives: rows, rows of its second stream, the source elements that clamping or saturation changed, and a
fault with its `PIT_FAULT` bit and source element. -/
structure PitOut where
  rows : List (List Byte)
  second : List (List Byte)
  changed : List Nat
  fault : Option (Nat × Nat)
  deriving DecidableEq, Repr

/-- CLAMP of one element (04 R132). DESIGN CHOICE: a NaN element stays as it is (log 49). -/
def clampElem (w : PitWord) (c : Nat) : Nat :=
  let bc := if w.src = 0x0A then w.param * 2 ^ 32 else w.param % 2 ^ elemBits w.src
  let x := decode w.src c
  match decode w.src bc with
  | .nan => Config.clampOdd w.param c % 2 ^ elemBits w.src
  | b =>
    if b.neg && !b.isZero then Config.clampOdd w.param c % 2 ^ elemBits w.src
    else if Num.lt b x then bc
    else if w.low0 then (if Num.lt x Num.zero then 0 else c)
    else
      let nb : Num := match b with | .fin _ m e => .fin true m e | .inf _ => .inf true | .nan => .nan
      if Num.lt x nb then (encode w.src .even false false nb).1 else c

/-- CLAMP of one row, and its elements that changed. -/
def clampRow (w : PitWord) (row : List Byte) : List Byte × Nat :=
  let cs := rowCodes w.src row
  let ds := cs.map (clampElem w)
  (packRow w.src ds, ((cs.zip ds).filter (fun x => decide (x.1 ≠ x.2))).length)

/-- CONVERT, MX_APPLY, MX_QUANT, EXPAND and COMPRESS on whole streams. DESIGN CHOICE: the scale of the pit word acts in MX_QUANT on the source
elements, before the block's amax is taken, and in MX_APPLY beside the block's scale (log 49). -/
def pitStream (w : PitWord) (rows second : List (List Byte)) : PitOut :=
  let cs := streamCodes w.src rows
  let aux := second.flatten
  match w.fn with
  | 1 =>
    let xs := cs.map (fun c => convertElem w.dst w.rnd w.ftz w.sat ((decode w.src c).scale w.scale))
    ⟨packRows w.dst (xs.map (·.1)), [], (xs.zipIdx.filter (·.1.2.1)).map (·.2), (xs.findIdx? (·.2.2)).map (fun i => (1, i))⟩
  | 2 =>
    let xs := cs.zipIdx.map (fun (c, i) =>
      let v := (aux.getD (i / 32) 0).toNat
      convertElem w.dst w.rnd w.ftz w.sat (if v = 0xFF then .nan else (decode w.src c).scale ((v : Int) - 127 + w.scale)))
    ⟨packRows w.dst (xs.map (·.1)), [], (xs.zipIdx.filter (·.1.2.1)).map (·.2), none⟩
  | 3 =>
    let bs := (chunks 32 cs).map (fun b => quantBlock w.dst w.rnd w.ftz (b.map (fun c => (decode w.src c).scale w.scale)))
    let xs := bs.flatMap (·.2)
    ⟨packRows w.dst (xs.map (·.1)), packBytes (bs.map (fun b => BitVec.ofNat 8 b.1)), (xs.zipIdx.filter (·.1.2)).map (·.2), none⟩
  | 5 =>
    let panel := if w.hasMap then aux.drop 512 else aux
    let dense := if w.pattern = 0 then cs else expandNm w.src w.pattern rows panel
    ⟨packRows w.dst (if w.hasMap then expandMap w.src dense (aux.take 512) else dense), [], [], none⟩
  | 6 =>
    let (kept, bad) := if w.hasMap then compressMap w.src cs (aux.take 512) else (cs, none)
    match bad with
    | some i => ⟨[], [], [], some (2, i)⟩
    | none =>
      if w.pattern = 0 then ⟨packRows w.dst kept, [], [], none⟩
      else
        let (vals, segs, full) := compressNm w.src w.pattern kept
        match full with
        | some i => ⟨[], [], [], some (2, if w.hasMap then mapSource w.src (aux.take 512) i else i)⟩
        | none => ⟨packRows w.dst vals, packBytes segs, [], none⟩
  | _ => ⟨rows, [], [], none⟩

/-- Rows of the second stream that a function reads for `t` source rows (04 R135, 13 R389). -/
def PitWord.secondRows (w : PitWord) (t : Nat) : Nat := match w.fn with
  | 2 => ceilDiv (ceilDiv (t * perRow w.src) 32) 512
  | 5 => (if w.hasMap then 1 else 0) +
      (if w.pattern = 0 then 0 else ceilDiv (t * metaStride 16 (elemBits w.src) (patternOf w.pattern).2.2) 512)
  | 6 => if w.hasMap then 1 else 0
  | _ => 0

end Sys2Proof.Machine
end

