-- ==== Sys2Proof/Machine/Requests.lean ====
section
/-! DEFINITION. Row requests of the transfer engines, the cache, and what a landing row does (06 R184 to R187, 07 R213 to R216,
13 R384 to R396). -/

namespace Sys2Proof.Machine

open Sys2Proof

/-! ### Requests -/

def Part.onReq (p : Part) (r : Req) (f : Req → Req) : Part :=
  { p with reqs := p.reqs.map (fun x => if x.uid = r.uid ∧ x.idx = r.idx then f x else x) }

def Part.dropReqs (p : Part) (uid : Nat) : Part := { p with reqs := p.reqs.filter (fun x => x.uid ≠ uid) }

def Part.xferOf (p : Part) (uid : Nat) : Option Xfer := p.xfers.find? (fun x => x.uid == uid)

/-- Requests of core `c` that hold a place in its transfer engine one by one: rows of row moves and cache fills. -/
def Part.singles (p : Part) (c : Nat) : List Req :=
  p.reqs.filter (fun r => r.core == c && !r.landed && (p.xferOf r.uid).isNone)

def Part.coreXfers (p : Part) (c : Nat) : List Xfer := p.xfers.filter (fun x => x.core == c)

/-- Requests outstanding in the transfer engine of a core, at most 32 (06 R171 R196). -/
def Part.xferOut (p : Part) (c : Nat) : Nat := min 32 ((p.coreXfers c).length + (p.singles c).length)

/-- The core's engine holds the request now: each descriptor takes one of the 32, the rows of row moves and the fills the rest, in
order (13 R384). -/
def Part.inEngine (p : Part) (r : Req) : Bool :=
  (p.xferOf r.uid).isSome ||
  ((p.singles r.core).take (32 - (p.coreXfers r.core).length)).any (fun x => x.uid == r.uid && x.idx == r.idx)

/-- A home that core `c` reaches without the traverse network and without a memory controller: staging stores, core memory views,
cluster stores of other dies (09 R257, 13 R393). -/
def Part.direct (p : Part) (c a : Nat) : Bool := match p.homeAt a with
  | .staging _ => true
  | .view _ _ => true
  | .store cl _ => cl / 400 != dieOf c
  | _ => false

/-- A cluster store of the core's own die (09 R257). -/
def Part.onNetwork (p : Part) (c a : Nat) : Bool := match p.homeAt a with
  | .store cl _ => cl / 400 == dieOf c
  | _ => false

/-- A row bound for, or coming from, M-die `m` (13 R384). -/
def Part.onMdie (p : Part) (m : Nat) (a : Option Nat) : Bool := match a with
  | some x => (match p.homeAt x with | .lpddr => mdieOf x == m | .staging k => k == m | _ => false)
  | none => false

/-- One end of the row lies off the cluster of core `c`, and not on its traverse network (09 R257, 13 R384). -/
def Part.offCluster (p : Part) (c : Nat) (a : Option Nat) : Bool := match a with
  | some x => (match p.homeAt x with
    | .view k _ => clusterOf k != clusterOf c
    | _ => !p.onNetwork c x)
  | none => false

/-- A row request that has not yet come to its end: written, or read where nothing is written. -/
def Req.open (r : Req) : Bool := !r.landed && !(r.got && r.dst.isNone)

/-- The request is among the first `n` of those that `f` selects, in order. -/
def Part.among (p : Part) (n : Nat) (f : Req → Bool) (r : Req) : Bool :=
  decide (p.reqs.length ≤ n) || ((p.reqs.filter f).take n).any (fun x => x.uid == r.uid && x.idx == r.idx)

/-- The cluster transfer unit holds the request, if it is one for it: 512 rows of its 16 cores, in order (01 R36, 13 R384). -/
def Part.inUnit (p : Part) (r : Req) : Bool :=
  let off := fun (x : Req) => p.offCluster x.core x.src || p.offCluster x.core x.dst
  p.inEngine r && (!off r || p.among 512 (fun x => clusterOf x.core == clusterOf r.core && x.open && off x && p.inEngine x) r)

/-- The M-die end of the leg that a request is on. -/
def Part.forHub (p : Part) (m : Nat) (r : Req) : Bool := r.open && (if r.got then p.onMdie m r.dst else p.onMdie m r.src)

/-- Every unit on the way holds the request: a transfer hub takes 4,096 rows, in order (13 R384). -/
def Part.held (p : Part) (r : Req) : Bool :=
  p.inUnit r && [0, 1].all (fun m => !p.forHub m r || p.among 4096 (fun x => p.forHub m x && p.inUnit x) r)

/-- Requests outstanding at the transfer hub of M-die `m` (13 R384 R403). -/
def Part.hubOut (p : Part) (m : Nat) : Nat := (p.reqs.filter (fun r => p.forHub m r && p.held r)).length

/-- The high-water mark of MEM_HUB_OUT (13 R403). -/
def Part.hubMark (p : Part) : Part :=
  forEach [0, 1] (fun m x =>
    let r := Reg.MEM_HUB_OUT.at [m]
    if x.regFld r 16 13 < x.hubOut m then x.setFld r 16 13 (x.hubOut m) else x) p

def Part.isLpddr (p : Part) (a : Nat) : Bool := decide (p.homeAt a = .lpddr)

/-- A request of core `c` for its running task. -/
def Part.newReq (p : Part) (c uid idx : Nat) (src dst : Option Nat) (row : List Byte) (got : Bool) (fill : Option Nat) : Req :=
  { thread := 0, uid := uid, core := c, idx := idx, src := src, dst := dst, row := row, got := got, moved := 0, stage := 0, landed := false, fill := fill,
    task := p.taskOf c }

/-! ### The cache (06 R183 to R187) -/

def Way.reset : Way := { line := 0, valid := false, filling := false, age := 0 }

def Core.way (k : Core) (slot : Nat) : Way := Tab.get Way.reset k.cache slot
def Core.setWay (k : Core) (slot : Nat) (w : Way) : Core := { k with cache := Tab.put Way.reset k.cache slot w }

/-- Way `slot` becomes the most recently used of its set (06 R184). -/
def Core.touch (k : Core) (slot : Nat) : Core :=
  let old := (k.way slot).age
  let base := 4 * (slot / 4)
  forEach (List.range 4) (fun i x =>
    let w := x.way (base + i)
    if base + i = slot then x.setWay slot { w with age := 3 }
    else if old < w.age then x.setWay (base + i) { w with age := w.age - 1 } else x) k

def lineSlots (sets line : Nat) : List Nat := (List.range 4).map (fun w => 4 * (line % sets) + w)

/-- Where a line is, valid or with its fill in flight. -/
def Core.slotOf (k : Core) (sets line : Nat) (filling : Bool) : Option Nat :=
  (lineSlots sets line).find? (fun s => let w := k.way s; w.line == line && (if filling then w.filling else w.valid && !w.filling))

/-- A fill issued for a line by thread `t`, if its set has a way without a fill in flight (06 R185). -/
def Part.startFill (p : Part) (c t line : Nat) : Part :=
  let k := p.core c
  let sets := cacheSets (p.partition c)
  match pickMin (fun a b => decide ((k.way a).age < (k.way b).age)) ((lineSlots sets line).filter (fun s => !(k.way s).filling)) with
  | none => p
  | some s =>
    let p1 := p.setCore c ((k.setWay s { (k.way s) with line := line, valid := false, filling := true }).touch s)
    let (u, p2) := p1.fresh
    { p2 with reqs := p2.reqs ++ [{ p2.newReq c u 0 (some (512 * line)) none [] false (some s) with thread := t }] }.hubMark

/-- The lookup of one line of a cached load, counted (06 R185 R196). -/
def Part.lookup (p : Part) (c t line : Nat) : Part :=
  let k := p.core c
  let sets := cacheSets (p.partition c)
  match k.slotOf sets line false with
  | some s => (p.bump (coreReg Reg.CORE_CACHE_HIT c []) 1).setCore c (k.touch s)
  | none =>
    let p1 := p.bump (coreReg Reg.CORE_CACHE_MISS c []) 1
    if (k.slotOf sets line true).isSome then p1 else p1.startFill c t line

/-- Lines among `ls` that are not valid in the cache of `c`. -/
def Part.missing (p : Part) (c : Nat) (ls : List Nat) : List Nat :=
  ls.filter (fun l => ((p.core c).slotOf (cacheSets (p.partition c)) l false).isNone)

/-- Fills for lines that are neither valid nor being filled. -/
def Part.refill (p : Part) (c t : Nat) (ls : List Nat) : Part :=
  forEach ls (fun l x =>
    let k := x.core c
    let sets := cacheSets (x.partition c)
    if (k.slotOf sets l false).isSome || (k.slotOf sets l true).isSome then x else x.startFill c t l) p

/-- The thread of a cached load waits for its missing lines (06 R185). -/
def Part.awaitFills (p : Part) (c t uid : Nat) (sync : Bool) (ls : List Nat) : Part :=
  let left := p.missing c ls
  if left.isEmpty then p else p.onTh c t (fun th => th.await 6 (.fill left (if sync then some uid else none)))

/-! ### Landing -/

/-- The row move that owns a request. -/
def Part.moveOf (p : Part) (r : Req) : Option MoveOp := (p.core r.core).moving.find? (fun m => m.uid == r.uid)

/-- The core and place of row `idx` of a load (07 R190 R213). -/
def Part.landingPlace (p : Part) (r : Req) (pl : Nat) : Nat × Nat :=
  if p.paired r.core then (r.core + r.idx % 2, pl + r.idx / 2) else (r.core, pl + r.idx)

/-- Whether the pit word of a transfer works on its read side (13 R389). -/
def xferPit (x : Xfer) : Option PitWord := if bitOf (leAt x.desc 6 2) 1 then some (pitWord (leAt x.desc 32 8)) else none

/-- The pit word of a transfer works as its rows are read: its source is in LPDDR5X, and a FILL has none (13 R388 R389). -/
def Part.pitReads (p : Part) (x : Xfer) : Bool := leAt x.desc 14 1 % 16 != 3 && p.isLpddr (leAt x.desc 0 6)

/-- A row under a pit word crosses the channel of `a` on the side where the word works: counted, CLAMP applied (04 R129 R132
R138, 13 R389). DESIGN CHOICE: an engine counts the rows it takes part in, those of the second stream with them: as rows read where the word
works on the read side, as rows written where it works on the write side (log 49). -/
def Part.pitRow (p : Part) (x : Xfer) (a : Nat) (row : List Byte) (out : Bool) : Part × List Byte := match xferPit x with
  | none => (p, row)
  | some w =>
    if out == p.pitReads x then (p, row)
    else
      let p1 := (p.bump (chanReg (if out then Reg.PIT_ROWS_OUT else Reg.PIT_ROWS_IN) a) 1).setRegN (chanReg Reg.PIT_LAST_WORD a)
        (leAt x.desc 32 8)
      if w.fn = 4 then
        let (r, n) := clampRow w row
        (if n = 0 then p1 else p1.bump (chanReg Reg.PIT_CLAMPED a) n, r)
      else (p1, row)

/-- A row has been read for its request: into its place, or held for its transfer or its fill. -/
def Part.deliver (p : Part) (r : Req) (row : List Byte) : Part :=
  match p.moveOf r with
  | some m =>
    let pl := match m.what with | .ldr x _ _ _ => x | .gath x _ _ _ _ _ => x | _ => 0
    let (k, code) := p.landingPlace r pl
    (p.setHalf k code row 0).onReq r (fun x => { x with got := true, landed := true })
  | none => p.onReq r (fun x => { x with got := true, row := row, moved := 0, stage := 0 }) |>.hubMark

/-- A fault of a request: a fill leaves its way invalid (06 R185); the task is aborted (13 R396). -/
def Part.reqFault (p : Part) (r : Req) (f : RowFault) : Part :=
  let p1 := match r.fill with
    | some s => (p.onCore r.core (fun k => k.setWay s { (k.way s) with valid := false, filling := false })).orReg
        (coreReg Reg.CORE_SP_ERR r.core []) 2
    | none => p
  let p2 := match p1.xferOf r.uid, f with
    | some x, .damaged a =>
      if (xferPit x).isSome && p1.isLpddr a && !p1.chFailed a && r.src == some a then
        (p1.bumpSat (chanReg Reg.PIT_TAG_ERR a) 1).orReg (chanReg Reg.PIT_FAULT a) 1
      else p1
    | _, _ => p1
  { p2 with reqs := p2.reqs.filter (fun x => !(x.uid == r.uid && x.idx == r.idx)) }.coreRowFault r.core r.task f

/-- A row written to its home for a request. -/
def Part.put (p : Part) (r : Req) (a : Nat) : Part := match p.writeFault a 512 with
  | some f => p.reqFault r f
  | none =>
    let (p1, row) := match p.xferOf r.uid with
      | some x => if p.isLpddr a then p.pitRow x a r.row true else (p, r.row)
      | none => (p, r.row)
    let near := match p.homeAt a with | .store cl _ => cl == clusterOf r.core | .view k _ => clusterOf k == clusterOf r.core | _ => false
    let p2 := if near || p.onNetwork r.core a then p1 else p1.bump (cluReg Reg.CLU_TRV_SENT (clusterOf r.core) []) 2
    ((p2.writeRow a row 0).bell a 512 r.task).onReq r (fun x => { x with landed := true })

/-- A request whose row lies at a direct home takes its next step. -/
def Part.stepDirect (p : Part) (r : Req) : Part :=
  if !r.got then match r.src with
    | some a => match p.readFault a with
      | some f => p.reqFault r f
      | none => (p.sent a (some (clusterOf r.core)) 2).deliver r (p.rowAt a)
    | none => p
  else match r.dst with
    | some a => p.put r a
    | none => p

/-- The request can take a step at a direct home. -/
def Part.canDirect (p : Part) (r : Req) : Bool :=
  p.held r && !r.landed &&
  (if !r.got then (match r.src with | some a => p.direct r.core a && !p.mustWait a false | none => false)
   else (match r.dst with | some a => p.direct r.core a && !p.mustWait a true | none => false))

/-- Steps at direct homes for the requests of one operation, at most `n` of them. -/
def Part.runDirect (uid : Nat) : Nat → Part → Part
  | 0, p => p
  | n + 1, p => match p.reqs.find? (fun r => r.uid == uid && p.canDirect r) with
    | some r => Part.runDirect uid n (p.stepDirect r)
    | none => p

def Part.moveDirect (p : Part) (uid : Nat) : Part :=
  Part.runDirect uid (2 * (p.reqs.filter (fun r => r.uid == uid)).length) p

end Sys2Proof.Machine
end

