-- ==== Sys2Proof/Machine/Sequencing.lean ====
section
/-! DEFINITION. Cue operations that complete at issue: END, NOP, FENCE, INTV, LOOP, SHOP, ADDA, MAUX, WAIT, CUE
(07 R198 R205 to R212 R227 R233 R234, 11 R329 to R336). -/

namespace Sys2Proof.Machine

open Sys2Proof

/-- What thread `t` of core `c` issues when its next operation has opcode `op`, nothing otherwise (log 2). An operation that ends the core's
task frees the accesses that waited for what the core had under way. -/
def Part.issue (p : Part) (c t op : Nat) (f : Part → Part) : Part :=
  if p.issues c t op then (if (f p).taskOf c = p.taskOf c then f p else (f p).pumpViews) else p

/-- A cue operation. -/
def State.cueOp (s : State) (c t op : Nat) (f : Part → Part) : Host.Outcome State Fault Refusal :=
  s.live (fun p => p.onTheCore c (·.issue c t op f))

/-- 09 R278: the entry of a queue is free and the credit goes back to its sender. -/
def Part.returnCredit (p : Part) (m : Msg) : Part := { p with flight := p.flight ++ [.credit m.core m.route] }

/-- A handler's end: without its RECV the dispatching message, the first that no RECV has claimed, is discarded and counted (07 R232); the
queue may dispatch again (06 R173). -/
def Part.endHandler (p : Part) (c t : Nat) : Part :=
  let th := p.th c t
  let (k, q) := queueHome c th.queue
  let n := (p.core c).claimed th.queue
  let p1 := if th.took then p
    else match ((p.core k).queue q).msgs[n]? with
      | none => p
      | some m =>
        ((p.onCore k (fun x => x.onQueue q (fun y => { y with msgs := y.msgs.eraseIdx n }))).bump32
          (cluReg Reg.CLU_CH_DROP (clusterOf k) [16 * (k % 16) + q]) 1).returnCredit m
  p1.onCore k (fun x => x.onQueue q (fun y => { y with running := false }))

/-- 07 R205. -/
def Part.doEnd (p : Part) (c t : Nat) : Part :=
  let p1 := if (p.th c t).handler then p.endHandler c t else p
  (p1.issued c t).onTh c t Thread.ended

/-- 07 R211. -/
def Part.doFence (p : Part) (c t : Nat) : Part :=
  let w := p.wordAt c t
  let mask := fld w 51 7
  let scope := bitOf w 50
  let p1 := p.issued c t
  if p1.fenceMet c t mask scope p1.uid then p1
  else p1.onTh c t (fun th => th.await 5 (.fence (BitVec.ofNat 7 mask) scope p1.uid))

/-- 07 R212. -/
def Part.doIntv (p : Part) (c t : Nat) : Part :=
  let asked := match p.replicaAt (clusterOf c) with | some r => r.preempt.isSome | none => false
  if !asked then p.issued c t
  else
    let p1 := p.takeSlot c t
    if p1.fenceMet c t 0x7F false p1.uid then p1.onTh c t (fun th => th.await 5 .parked)
    else p1.onTh c t (fun th => th.await 5 (.parking p1.uid))

/-- The count a LOOP stores (07 R206). -/
def LoopWord.count (l : LoopWord) (sh : List W32) : W32 :=
  if l.src then BitVec.ofNat 32 ((((sh.getD l.reg 0).toNat + 2 ^ l.sh - 1) % 2 ^ 33) >>> l.sh) else BitVec.ofNat 32 l.imm

/-- The thread after a LOOP at its cue pointer (07 R207). -/
def Thread.beginLoop (th : Thread) (l : LoopWord) (n : W32) : Thread :=
  let lv : LoopLevel := { lc := 0, count := n, start := (th.ptr + 1) % 1024, stop := l.stop, active := n != 0 }
  { th with loops := th.loops.set l.lvl lv, ptr := if n = 0 then (l.stop + 1) % 1024 else (th.ptr + 1) % 1024 }

def Part.doLoop (p : Part) (c t : Nat) : Part :=
  let l := loopWord (p.wordAt c t)
  (p.takeSlot c t).onTh c t (fun th => th.beginLoop l (l.count ((p.core c).asOf t).sh))

/-- The result of shape register arithmetic (07 R209). -/
def shopResult (fn : Nat) (x y : W32) : W32 := match fn with
  | 0 => x + y
  | 1 => x - y
  | 2 => if y < x then y else x
  | 3 => y
  | 4 => x <<< y.toNat
  | 5 => x >>> y.toNat
  | 6 => x &&& y
  | _ => x * y

/-- The value a SHOP writes, its operands taken from the core and the thread as they stand (07 R204 R209). -/
def ShopWord.value (o : ShopWord) (k : Core) (th : Thread) : W32 :=
  shopResult o.fn (if o.alc then th.lc o.lvl else k.sh.getD o.a 0) (if o.bimm then BitVec.ofNat 32 o.imm else k.sh.getD o.b 0)

def Part.doShop (p : Part) (c t : Nat) : Part :=
  let o := shopWord (p.wordAt c t)
  let v := o.value ((p.core c).asOf t) (p.th c t)
  (p.issued c t).onCore c (fun k => { k with sh := k.sh.set o.d v })

/-- The value an ADDA writes (07 R210). -/
def AddaWord.value (o : AddaWord) (k : Core) : W48 :=
  k.ptrs.getD o.a 0 + (if o.useb then BitVec.ofNat 48 ((k.sh.getD o.b 0).toNat * 2 ^ o.sh) else 0) +
    (BitVec.ofNat 32 o.imm).signExtend 48

def Part.doAdda (p : Part) (c t : Nat) : Part :=
  let o := addaWord (p.wordAt c t)
  let v := o.value ((p.core c).asOf t)
  (p.issued c t).onCore c (fun k => { k with ptrs := k.ptrs.set o.d v })

/-- 07 R233, 11 R331 R335. -/
def Part.doWait (p : Part) (c t : Nat) : Part :=
  let w := p.wordAt c t
  let kind := fld w 56 2
  let sel := fld w 49 7
  let consume := bitOf w 48
  let value := fld w 32 16
  let p1 := p.issued c t
  match kind with
  | 0 =>
    if (p1.core c).pendingWire sel then p1.onCore c (·.takeWire sel) else p1.onTh c t (fun th => th.await 1 (.wire sel))
  | 1 =>
    let p2 := p1.onTh c t (fun th => th.await 2 (.counter sel (BitVec.ofNat 16 value) consume))
    if p2.countsDue c then p2 else p2.settle c
  | _ =>
    let (k, q) := queueHome c sel
    if ((p1.core k).queue q).msgs.isEmpty then p1.onTh c t (fun th => th.await 3 (.queue sel)) else p1

/-- 07 R234, 11 R333 R334 R336. -/
def Part.doCue (p : Part) (c t : Nat) : Part :=
  let w := p.wordAt c t
  let sel := fld w 50 6
  let value := fld w 30 16
  let p1 := p.issued c t
  let cl := clusterOf c
  match fld w 56 2 with
  | 0 =>
    let cfg := p.wireCfg cl sel
    let p2 := p1.fireWire cl sel
    if bitOf cfg 16 then { p2 with flight := p2.flight ++ [.fire (400 * (cl / 400) + fld cfg 17 9) (fld cfg 26 6)] } else p2
  | 1 => if p1.countsDue c then p1.countUp c (sel % 16) value else p1.addCounter c (sel % 16) value
  | _ => { p1 with flight := p1.flight ++ [.add (16 * cl + fld w 46 4) (sel % 16) (BitVec.ofNat 16 value)] }

def execEndOp (c t : Nat) (s : State) : Host.Outcome State Fault Refusal := s.cueOp c t Op.END (·.doEnd c t)
/-- 07 R198. -/
def execNop (c t : Nat) (s : State) : Host.Outcome State Fault Refusal := s.cueOp c t Op.NOP (·.issued c t)
def execFence (c t : Nat) (s : State) : Host.Outcome State Fault Refusal := s.cueOp c t Op.FENCE (·.doFence c t)
def execIntv (c t : Nat) (s : State) : Host.Outcome State Fault Refusal := s.cueOp c t Op.INTV (·.doIntv c t)
def execLoop (c t : Nat) (s : State) : Host.Outcome State Fault Refusal := s.cueOp c t Op.LOOP (·.doLoop c t)
def execShop (c t : Nat) (s : State) : Host.Outcome State Fault Refusal := s.cueOp c t Op.SHOP (·.doShop c t)
def execAdda (c t : Nat) (s : State) : Host.Outcome State Fault Refusal := s.cueOp c t Op.ADDA (·.doAdda c t)
/-- 07 R227: MAUX itself only issues; the MAT at the next address reads its fields. -/
def execMaux (c t : Nat) (s : State) : Host.Outcome State Fault Refusal := s.cueOp c t Op.MAUX (·.issued c t)
def execWait (c t : Nat) (s : State) : Host.Outcome State Fault Refusal := s.cueOp c t Op.WAIT (·.doWait c t)
def execCue (c t : Nat) (s : State) : Host.Outcome State Fault Refusal := s.cueOp c t Op.CUE (·.doCue c t)

end Sys2Proof.Machine
end

