-- ==== Sys2Proof/Machine/RowMoves.lean ====
section
/-! DEFINITION. Row moves at issue: LDR, STR, MOV, TRD, SRD, GATH, CINV, SEND, POST, RECV (07 R199 R200 R213 to R222 R230 to R232,
06 R180 to R187). A queued move starts with ROW_MOVE_START. -/

namespace Sys2Proof.Machine

open Sys2Proof

/-! ### Operand forms -/

/-- 07 R217. -/
structure MovWord where
  dst : Nat
  src : Nat
  n : Nat
  done : Nat
  deriving DecidableEq, Repr

def movWord (w : Nat) : MovWord := ⟨fld w 46 12, fld w 34 12, fld w 29 5 + 1, fld w 24 5⟩

/-- 07 R218. -/
structure TrdWord where
  dst : Nat
  row : Nat
  j : Nat
  w : Nat
  done : Nat
  deriving DecidableEq, Repr

def trdWord (w : Nat) : TrdWord := ⟨fld w 46 12, fld w 34 12, fld w 29 5, fld w 27 2, fld w 22 5⟩

/-- 07 R219. -/
structure SrdWord where
  dst : Nat
  row : Nat
  d : Nat
  s : Nat
  done : Nat
  deriving DecidableEq, Repr

def srdWord (w : Nat) : SrdWord := ⟨fld w 46 12, fld w 34 12, fld w 27 7, fld w 22 5, fld w 17 5⟩

/-- 07 R220. -/
structure GathWord where
  dst : Nat
  list : Nat
  e0 : Nat
  preg : Nat
  n : Nat
  sh : Nat
  sync : Bool
  done : Nat
  deriving DecidableEq, Repr

def gathWord (w : Nat) : GathWord :=
  ⟨fld w 46 12, fld w 39 7, fld w 32 7, fld w 29 3, fld w 24 5 + 1, fld w 20 4, bitOf w 19, fld w 14 5⟩

/-- 07 R222. -/
structure CinvWord where
  all : Bool
  preg : Nat
  off : Nat
  done : Nat
  deriving DecidableEq, Repr

def cinvWord (w : Nat) : CinvWord := ⟨bitOf w 57, fld w 54 3, fld w 34 20, fld w 29 5⟩

/-- 07 R230. -/
structure SendWord where
  src : Nat
  slot : Nat
  route : Nat
  done : Nat
  deriving DecidableEq, Repr

def sendWord (w : Nat) : SendWord := ⟨fld w 46 12, fld w 42 4, fld w 38 4, fld w 33 5⟩

/-- 07 R232. -/
structure RecvWord where
  dst : Nat
  slot : Nat
  q : Nat
  done : Nat
  deriving DecidableEq, Repr

def recvWord (w : Nat) : RecvWord := ⟨fld w 46 12, fld w 42 4, fld w 37 5, fld w 32 5⟩

/-! ### Addresses (07 R213) -/

def Core.ptr (k : Core) (i : Nat) : Nat := (k.ptrs.getD i 0).toNat

/-- addr of an LDR or STR. -/
def LdrWord.addr (o : LdrWord) (k : Core) (th : Thread) : Nat :=
  (k.ptr o.preg + 512 * (o.off + if o.ix then (th.lc o.lvl).toNat * (k.sh.getD o.sreg 0).toNat else 0)) % 2 ^ 48

/-- 512-B units of a place: 1, or 2 on a two-hander. -/
def Part.units (p : Part) (c : Nat) : Nat := if p.paired c then 2 else 1

/-- The rule of R214 for `n` rows from `addr` on. -/
def Part.rowsAllowed (p : Part) (addr n : Nat) (cached : Bool) : Bool :=
  addr % 512 == 0 && (List.range n).all (fun i => let h := p.homeAt (addr + 512 * i); if cached then h.cacheable else h.movable)

/-! ### Issue -/

/-- A place operand that is out of range at issue: the offending row (07 R200, 06 R182). -/
def Part.placeFault (p : Part) (c : Nat) (th : Thread) (f n : Nat) : Option Nat :=
  let pl := th.place f
  if placeOver f pl then some pl else placesBad (scratchRows (p.partition c)) pl n

/-- A row move enters its unit's queue, and its thread waits when `sync` is set (06 R170, 07 R213). -/
def Part.enqueue (p : Part) (c t : Nat) (what : Move) (done : Nat) (sync : Bool) : Part :=
  let (u, p1) := (p.issued c t).fresh
  let m : MoveOp := { uid := u, thread := t, what := what, done := done, sync := sync, looked := false, data := [], since := none }
  let p2 := p1.onCore c (fun k => { k with moveq := k.moveq ++ [m] })
  if sync then p2.onTh c t (fun th => th.await 4 (.oper u)) else p2

/-- The row-move queue holds 8 operations (06 R171): a thread that meets it full stalls. -/
def Part.orStall (p : Part) (c t : Nat) (full : Bool) (f : Part → Part) : Part :=
  if full then (let (u, p1) := p.fresh; (p1.onCore c (·.beat t)).onTh c t (fun th => th.stallAt u)) else f p

/-- A CINV of the core is queued or running: cached loads after it are looked up when they start (06 R187). -/
def Core.invalidating (k : Core) : Bool := (k.moveq ++ k.moving).any (fun m => match m.what with | .cinv _ _ => true | _ => false)

def Part.doLdr (p : Part) (c t : Nat) : Part := p.orStall c t (p.moveFull c) fun p =>
  let o := ldrWord (p.wordAt c t)
  let th := p.th c t
  let addr := o.addr ((p.core c).asOf t) th
  let n := o.cnt + 1
  match p.placeFault c th o.place n with
  | some r => p.rangeViolation c r
  | none =>
    if !p.rowsAllowed addr (n * p.units c) o.cached then p.refusedOp c 0 addr
    else
      let p1 := p.enqueue c t (.ldr (th.place o.place) addr n o.cached) o.done o.sync
      if o.cached && !(p.core c).invalidating then
        let u := p1.uid - 1
        let ls := (List.range n).map (addr / 512 + ·)
        let p2 := forEach ls (fun l x => x.lookup c t l) p1
        let p3 := p2.onCore c (fun k => { k with moveq := modFirst (fun m => m.uid == u) (fun m => { m with looked := true }) k.moveq })
        p3.awaitFills c t u o.sync ls
      else p1

def Part.doStr (p : Part) (c t : Nat) : Part := p.orStall c t (p.moveFull c) fun p =>
  let o := ldrWord (p.wordAt c t)
  let th := p.th c t
  let addr := o.addr ((p.core c).asOf t) th
  let n := o.cnt + 1
  match p.placeFault c th o.place n with
  | some r => p.rangeViolation c r
  | none =>
    if !p.rowsAllowed addr (n * p.units c) o.cached then p.refusedOp c 0 addr
    else p.enqueue c t (.str (th.place o.place) addr n o.cached) o.done o.sync

def Part.doMov (p : Part) (c t : Nat) : Part := p.orStall c t (p.moveFull c) fun p =>
  let o := movWord (p.wordAt c t)
  let th := p.th c t
  match (p.placeFault c th o.dst o.n).orElse (fun _ => p.placeFault c th o.src o.n) with
  | some r => p.rangeViolation c r
  | none => p.enqueue c t (.mov (th.place o.dst) (th.place o.src) o.n) o.done false

/-- A group or strided source: every source row lies in the scratch part (06 R182, 07 R219). -/
def Part.sourceFault (p : Part) (c : Nat) (th : Thread) (f step n : Nat) : Option Nat :=
  let r := th.place f
  if placeOver f r then some r
  else ((List.range n).map (fun j => r + j * step)).find? (fun x => decide (scratchRows (p.partition c) ≤ x))

def Part.doTrd (p : Part) (c t : Nat) : Part := p.orStall c t (p.moveFull c) fun p =>
  let o := trdWord (p.wordAt c t)
  let th := p.th c t
  match (p.placeFault c th o.dst 1).orElse (fun _ => p.sourceFault c th o.row 1 (16 * p.units c)) with
  | some r => p.rangeViolation c r
  | none => p.enqueue c t (.trd (th.place o.dst) (th.place o.row) o.j o.w) o.done false

def Part.doSrd (p : Part) (c t : Nat) : Part := p.orStall c t (p.moveFull c) fun p =>
  let o := srdWord (p.wordAt c t)
  let th := p.th c t
  match (p.placeFault c th o.dst 1).orElse (fun _ => p.sourceFault c th o.row o.d (16 * p.units c)) with
  | some r => p.rangeViolation c r
  | none => p.enqueue c t (.srd (th.place o.dst) (th.place o.row) o.d o.s) o.done false

def Part.doGath (p : Part) (c t : Nat) : Part := p.orStall c t (p.moveFull c) fun p =>
  let o := gathWord (p.wordAt c t)
  let th := p.th c t
  match (p.placeFault c th o.dst o.n).orElse (fun _ => rowsBad (scratchRows (p.partition c)) o.list 1) with
  | some r => p.rangeViolation c r
  | none => p.enqueue c t (.gath (th.place o.dst) o.list o.e0 (((p.core c).asOf t).ptr o.preg) o.n o.sh) o.done o.sync

def Part.doCinv (p : Part) (c t : Nat) : Part := p.orStall c t (p.moveFull c) fun p =>
  let o := cinvWord (p.wordAt c t)
  p.enqueue c t (.cinv o.all (((((p.core c).asOf t).ptr o.preg + 512 * o.off) % 2 ^ 48) / 512)) o.done false

/-- SEND and POST (07 R230 R231): a SEND of a handler behaves as a POST. -/
def Part.doSend (p : Part) (c t : Nat) (post : Bool) : Part := p.orStall c t (p.moveFull c) fun p =>
  let o := sendWord (p.wordAt c t)
  let th := p.th c t
  match p.sourceFault c th o.src 0 1 with
  | some r => p.rangeViolation c r
  | none => p.enqueue c t (.send (th.place o.src) o.slot o.route (!post && !th.handler)) o.done false

/-- A RECV on a queue that names a handler belongs to the thread that runs its handler, once (07 R232). -/
def Part.recvRefused (p : Part) (c : Nat) (th : Thread) (q : Nat) : Bool :=
  let (k, i) := queueHome c q
  bitOf (p.queueWord k i) 0 && !(th.handler && th.queue == q && !th.took)

def Part.doRecv (p : Part) (c t : Nat) : Part := p.orStall c t (p.moveFull c) fun p =>
  let o := recvWord (p.wordAt c t)
  let th := p.th c t
  match p.placeFault c th o.dst 1 with
  | some r => p.rangeViolation c r
  | none =>
    if p.recvRefused c th o.q then p.refusedOp c o.q 0
    else
      let p1 := if th.handler && th.queue == o.q then p.onTh c t (fun x => { x with took := true }) else p
      if 0 < p1.unclaimed c o.q then p1.enqueue c t (.recv o.q (th.place o.dst) o.slot) o.done false
      else
        let (u, p2) := (p1.issued c t).fresh
        p2.onTh c t (fun x => x.await 3 (.recv u o.q (th.place o.dst) o.slot o.done))

def execLdr (c t : Nat) (s : State) : Host.Outcome State Fault Refusal := s.cueOp c t Op.LDR (·.doLdr c t)
def execStr (c t : Nat) (s : State) : Host.Outcome State Fault Refusal := s.cueOp c t Op.STR (·.doStr c t)
def execMov (c t : Nat) (s : State) : Host.Outcome State Fault Refusal := s.cueOp c t Op.MOV (·.doMov c t)
def execTrd (c t : Nat) (s : State) : Host.Outcome State Fault Refusal := s.cueOp c t Op.TRD (·.doTrd c t)
def execSrd (c t : Nat) (s : State) : Host.Outcome State Fault Refusal := s.cueOp c t Op.SRD (·.doSrd c t)
def execGath (c t : Nat) (s : State) : Host.Outcome State Fault Refusal := s.cueOp c t Op.GATH (·.doGath c t)
def execCinv (c t : Nat) (s : State) : Host.Outcome State Fault Refusal := s.cueOp c t Op.CINV (·.doCinv c t)
def execSend (c t : Nat) (s : State) : Host.Outcome State Fault Refusal := s.cueOp c t Op.SEND (fun p => p.doSend c t false)
def execPost (c t : Nat) (s : State) : Host.Outcome State Fault Refusal := s.cueOp c t Op.POST (fun p => p.doSend c t true)
def execRecv (c t : Nat) (s : State) : Host.Outcome State Fault Refusal := s.cueOp c t Op.RECV (·.doRecv c t)

end Sys2Proof.Machine
end

