-- ==== Sys2Proof/Machine/Transfers.lean ====
section
/-! DEFINITION. XFER and transfer descriptors: checks at issue, row requests, pit functions, signals and completion
(07 R221, 13 R387 to R393, 04 R129 to R137). -/

namespace Sys2Proof.Machine

open Sys2Proof

/-! ### Descriptors (13 R387) -/

structure Desc where
  src : Nat
  sig : Bool
  pit : Bool
  flagsRes : Nat
  dst : Nat
  kind : Nat
  sh : Nat
  res15 : Nat
  runLen : Nat
  runs : Nat
  srcStride : Nat
  dstStride : Nat
  pitw : Nat
  aux : Nat
  res46 : Nat
  sigAddr : Nat
  res54 : Nat
  sigVal : Nat
  deriving DecidableEq, Repr

def descOf (l : List Byte) : Desc :=
  { src := leAt l 0 6, sig := bitOf (leAt l 6 2) 0, pit := bitOf (leAt l 6 2) 1, flagsRes := leAt l 6 2 / 4,
    dst := leAt l 8 6, kind := leAt l 14 1 % 16, sh := leAt l 14 1 / 16, res15 := leAt l 15 1, runLen := leAt l 16 4,
    runs := leAt l 20 4, srcStride := leAt l 24 4, dstStride := leAt l 28 4, pitw := leAt l 32 8, aux := leAt l 40 6,
    res46 := leAt l 46 2, sigAddr := leAt l 48 6, res54 := leAt l 54 2, sigVal := leAt l 56 8 }

def Desc.word (d : Desc) : PitWord := pitWord d.pitw
def Desc.total (d : Desc) : Nat := d.runLen * d.runs
def Desc.isVerify (d : Desc) : Bool := d.pit && d.word.fn == 7
/-- The kind writes rows (13 R388 R389). -/
def Desc.writes (d : Desc) : Bool := d.kind != 4 && !d.isVerify
/-- A function that produces its own rows (13 R389). -/
def Desc.reshapes (d : Desc) : Bool := d.pit && inList [1, 2, 3, 5, 6] d.word.fn

/-- Row addresses of the source, or of the destination, in order. -/
def runRows (base runLen runs stride : Nat) : List Nat :=
  (List.range runs).flatMap (fun r => (List.range runLen).map (fun i => base + 512 * (r * stride + i)))

def Desc.srcRows (d : Desc) : List Nat := runRows d.src d.runLen d.runs d.srcStride
def Desc.dstRows (d : Desc) : List Nat := runRows d.dst d.runLen d.runs d.dstStride

/-- Entries of a gather or scatter list. -/
def Part.listEntries (p : Part) (d : Desc) : List Nat := (List.range d.runLen).map (fun e => p.natAt (d.aux + 4 * e) 4)

/-- Rows the first read of a source and the writes of a destination name (13 R388); VERIFY reads its source only (13 R389). -/
def Part.descRows (p : Part) (d : Desc) : List (Option Nat × Option Nat) :=
  let pitch := 2 ^ (9 + d.sh)
  let all := match d.kind with
  | 0 => if d.reshapes then d.srcRows.map (fun a => (some a, none)) else (d.srcRows.zip d.dstRows).map (fun x => (some x.1, some x.2))
  | 1 => (p.listEntries d).zipIdx.map (fun (x, e) => (if x = 0xFFFFFFFF then none else some (d.src + x * pitch), some (d.dst + 512 * e)))
  | 2 => (p.listEntries d).zipIdx.filterMap (fun (x, e) =>
      if x = 0xFFFFFFFF then none else some (some (d.src + 512 * e), some (d.dst + x * pitch)))
  | 3 => d.dstRows.map (fun a => (none, some a))
  | _ => d.srcRows.map (fun a => (some a, none))
  if d.isVerify then all.filterMap (fun x => x.1.map (fun a => (some a, none))) else all

/-- Elements that EXPAND makes of `n` stored ones under a map: up to the last block that is marked and stored (04 R135). -/
def expandedCount (tag n m : Nat) : Nat :=
  let size := 16 * blockLen (elemBits tag)
  let marked := ((List.range 4096).filter (bitOf m)).take (ceilDiv n size)
  match marked.getLast? with
  | some b => size * b + (if marked.length = ceilDiv n size then n - size * (marked.length - 1) else size)
  | none => 0

/-- Elements that COMPRESS keeps of `n` under a map. -/
def keptCount (tag n m : Nat) : Nat :=
  let size := 16 * blockLen (elemBits tag)
  ((List.range (min 4096 (ceilDiv n size))).map (fun b => if bitOf m b then min size (n - size * b) else 0)).sum

/-- Rows a reshaping function writes from dst, and in its second stream (13 R389), under the map that memory holds as the XFER issues. -/
def Part.outCount (p : Part) (d : Desc) : Nat × Nat :=
  let w := d.word
  let per := perRow w.src
  let n := d.total * per
  let map := if (w.fn = 5 ∨ w.fn = 6) ∧ w.hasMap then p.natAt d.aux 512 else 0
  match w.fn with
  | 5 =>
    let dense := if w.pattern = 0 then n else n * (patternOf w.pattern).1 / (patternOf w.pattern).2.1
    (ceilDiv (if w.hasMap then expandedCount w.src dense map else dense) per, 0)
  | 6 =>
    let kept := if w.hasMap then keptCount w.src n map else n
    let rows := if w.pattern = 0 then ceilDiv kept per
      else ceilDiv (ceilDiv kept (16 * (patternOf w.pattern).1) * (16 * (patternOf w.pattern).2.1)) per
    (rows, if w.pattern = 0 then 0 else
      (if w.hasMap then 1 else 0) + ceilDiv (rows * metaStride 16 (elemBits w.src) (patternOf w.pattern).2.2) 512)
  | 3 => (ceilDiv n (perRow w.dst), ceilDiv (ceilDiv n 32) 512)
  | _ => (ceilDiv n (perRow w.dst), 0)

/-- 13 R390, but for rows, list entries and signals outside memory (log 16). -/
def Part.descBad (p : Part) (d : Desc) : Bool :=
  let w := d.word
  let lp := fun (a : Nat) => decide (p.homeAt a = .lpddr)
  let t := d.total
  decide (4 < d.kind) || d.flagsRes != 0 || d.res15 != 0 || d.res46 != 0 || d.res54 != 0 ||
  t == 0 || decide (2 ^ 24 < t) || d.src % 512 != 0 || d.dst % 512 != 0 ||
  (d.kind == 3 && d.src != 0) || (!d.writes && d.dst != 0) || (d.sig && d.sigAddr % 8 != 0) ||
  (!d.pit && d.pitw != 0) ||
  (decide (1 < d.runs) && (d.kind == 1 || d.kind == 2 || (d.writes && decide (d.dstStride < d.runLen)))) ||
  (d.pit && (w.bad || !((d.kind != 3 && lp d.src) || (d.writes && lp d.dst)) ||
    (d.reshapes && d.kind != 0) || (d.reshapes && decide (1 < d.runs)) ||
    (d.reshapes && w.fn != 1 && d.aux % 512 != 0)))

/-- Every row, list entry and signal lies in memory that transfers reach (13 R390). -/
def Part.descInside (p : Part) (d : Desc) : Bool :=
  let ok := fun (a : Nat) => (p.homeAt a).movable
  let w := d.word
  ((d.kind != 1 && d.kind != 2) || (List.range (ceilDiv (d.aux % 512 + 4 * d.runLen) 512)).all (fun i => ok (d.aux / 512 * 512 + 512 * i))) &&
  (p.descRows d).all (fun x => x.1.all ok && x.2.all ok) &&
  (!d.sig || ok d.sigAddr) &&
  (!d.reshapes ||
    ((List.range (w.secondRows d.total)).all (fun i => ok (d.aux + 512 * i)) &&
     (let (a, b) := p.outCount d
      (List.range a).all (fun i => ok (d.dst + 512 * i)) && (List.range b).all (fun i => ok (d.aux + 512 * i)))))

/-- The rows of the list of a gather or scatter are read. -/
def Part.readList (p : Part) (d : Desc) : Part × Option RowFault :=
  if d.kind = 1 ∨ d.kind = 2 then p.readSpan d.aux (4 * d.runLen) else (p, none)

/-- The first requests of a transfer. Rows of the second stream are numbered from 2^25 on. -/
def Part.descReqs (p : Part) (c uid : Nat) (d : Desc) : List Req :=
  let fillRow := (List.replicate 128 (leBytes 4 (d.aux % 2 ^ 32))).flatten
  let row := if d.kind = 3 then fillRow else List.replicate 512 0
  (p.descRows d).zipIdx.map (fun (x, i) => p.newReq c uid i x.1 x.2 (if x.1.isNone then row else []) x.1.isNone none) ++
  (if d.reshapes then
    (List.range (d.word.secondRows d.total)).map (fun i => p.newReq c uid (2 ^ 25 + i) (some (d.aux + 512 * i)) none [] false none)
   else [])

/-- 07 R221. -/
def Part.doXfer (p : Part) (c t : Nat) : Part := p.orStall c t (decide (32 ≤ p.xferOut c)) fun p =>
  let w := p.wordAt c t
  let drow := fld w 51 7
  let a := viewAddr c (512 * drow)
  let bytes := p.bytesAt (a + 64 * fld w 48 3) 64
  let d := descOf bytes
  let done := fld w 42 5
  match rowsBad (scratchRows (p.partition c)) drow 1 with
  | some r => p.rangeViolation c r
  | none =>
    if !p.rowGood a then p.rowFault (p.taskOf c) (.damaged a)
    else if p.descBad d || !p.descInside d then p.refusedOp c 0 a
    else match p.readList d with
    | (q, some f) => q.coreRowFault c (p.taskOf c) f
    | (q, none) =>
      let (u, p1) := (q.issued c t).fresh
      let x : Xfer := { uid := u, core := c, thread := t, done := done, sync := bitOf w 47, desc := bytes, writing := !d.reshapes,
                        submits := 0, task := p1.taskOf c }
      let p2 : Part := { p1 with xfers := p1.xfers ++ [x], reqs := p1.reqs ++ p1.descReqs c u d }.hubMark
      if bitOf w 47 then p2.onTh c t (fun th => th.await 4 (.oper u)) else p2

/-! ### From the rows read to the rows written -/

def Part.onXfer (p : Part) (uid : Nat) (f : Xfer → Xfer) : Part :=
  { p with xfers := p.xfers.map (fun x => if x.uid = uid then f x else x) }

/-- The rows of a reshaping function: computed when every source row has been read; a fault sets its pit engine's flag
(04 R133 R135 R137, 13 R389). -/
def Part.reshape (p : Part) (x : Xfer) (d : Desc) : Part :=
  let rs := p.reqs.filter (fun r => r.uid == x.uid)
  let first := rs.filter (fun r => r.idx < 2 ^ 25)
  let second := rs.filter (fun r => 2 ^ 25 ≤ r.idx)
  let o := pitStream d.word (first.map (·.row)) (second.map (·.row))
  let onRead := p.isLpddr d.src
  let chan := fun (e : Nat) => if onRead then d.src + 512 * (e / perRow d.word.src) else d.dst + 512 * (e / perRow d.word.dst)
  match o.fault with
  | some (bit, e) => (p.dropReqs x.uid).rowFault x.task (.pit (chan e) bit)
  | none =>
    let p1 := forEach o.changed (fun e y => y.bump (chanReg Reg.PIT_CLAMPED (chan e)) 1) p
    let outs := o.rows.zipIdx.map (fun (row, i) => p.newReq x.core x.uid i none (some (d.dst + 512 * i)) row true none)
    let auxOff := if d.word.fn = 6 ∧ d.word.hasMap then 512 else 0
    let secs := o.second.zipIdx.map (fun (row, i) => p.newReq x.core x.uid (2 ^ 25 + i) none (some (d.aux + auxOff + 512 * i)) row true none)
    { p1 with reqs := (p1.dropReqs x.uid).reqs ++ outs ++ secs }.hubMark.onXfer x.uid (fun y => { y with writing := true })

/-- Task descriptors handed to the lead stage manager: four to a row, all-zero ones skipped (13 R388). -/
def Part.submitRows (p : Part) (x : Xfer) : Part :=
  let rows := (p.reqs.filter (fun r => r.uid == x.uid)).map (·.row)
  let subs := ((rows.flatMap (chunks 128)).filter (fun d => d.any (· ≠ 0))).map (fun d => ({ src := .xfer x.uid, desc := d } : Submission))
  { p with stg := { p.stg with inbox := p.stg.inbox ++ subs }, reqs := (p.dropReqs x.uid).reqs }.onXfer x.uid
    (fun y => { y with submits := 1 })

/-- What follows once every row of a transfer has been read. -/
def Part.advanceXfer (p : Part) (uid : Nat) : Part := match p.xferOf uid with
  | none => p
  | some x =>
    let d := descOf x.desc
    if (p.reqs.filter (fun r => r.uid == uid)).all (·.got) then
      if !x.writing then p.reshape x d
      else if d.kind = 4 ∧ x.submits = 0 then p.submitRows x
      else p
    else p

/-- Steps at direct homes, then what follows from them. -/
def Part.pumpXfer (p : Part) (uid : Nat) : Part := ((p.moveDirect uid).advanceXfer uid).moveDirect uid

/-- Every row of the transfer has reached its home, been checked, or been handed over (13 R392). -/
def Part.xferDone (p : Part) (x : Xfer) : Bool :=
  let d := descOf x.desc
  x.writing && (p.reqs.filter (fun r => r.uid == x.uid)).all (fun r => if r.dst.isNone then r.got else r.landed) &&
  (d.kind != 4 || (x.submits != 0 && !p.stg.inbox.any (fun s => decide (s.src = .xfer x.uid))))

/-- A signal write of 8 B waits for earlier partial writes of its row and for the tile or buffer it lies in (13 R394, 06 R194). -/
def Part.sigWaits (p : Part) (a : Nat) : Bool :=
  p.partials.any (fun q => q.addr / 512 == a / 512) || p.mustWait a true

/-- The end of a transfer: its signal, a read-modify-write that can find its row damaged, then its completion field (13 R392 R394 R396,
07 R221). -/
def Part.endXfer (p : Part) (x : Xfer) : Part :=
  let d := descOf x.desc
  let out := fun (q : Part) => { q.dropReqs x.uid with xfers := (q.dropReqs x.uid).xfers.filter (fun y => y.uid ≠ x.uid) }
  if d.sig then
    if p.sigWaits d.sigAddr then p
    else match p.writeFault d.sigAddr 8 with
    | some f => (out p).coreRowFault x.core x.task f
    | none =>
      let q := ((out p).countRead d.sigAddr).writePart d.sigAddr (leBytes 8 d.sigVal)
      if p.tagged d.sigAddr && !p.rowGood d.sigAddr then q.rowFault x.task (.damaged d.sigAddr)
      else (q.bell d.sigAddr 8 x.task).completed x.core x.done
  else (out p).completed x.core x.done

def execXfer (c t : Nat) (s : State) : Host.Outcome State Fault Refusal := s.cueOp c t Op.XFER (·.doXfer c t)

end Sys2Proof.Machine
end

