-- ==== Sys2Proof/Machine/Matrix.lean ====
section
/-! DEFINITION. Matrix steps: MAT at issue, operand panels, sparsity, exponent prescan, exact accumulation (02 R43 to R58 R65 R581,
03 R69 to R98, 05 R142 to R145 R159 to R161, 07 R223 to R228, 08 R250 to R255). -/

namespace Sys2Proof.Machine

open Sys2Proof

/-! ### Extents and rows of a step -/

/-- Rows and columns a mode allows (07 R224). -/
def modeLimit : Nat → Nat × Nat
  | 0 => (16, 16) | 1 => (16, 64) | _ => (32, 32)

/-- Bytes of a panel row: 512, or 1,024 for T32H (03 R73). -/
def MatStep.rowBytes (m : MatStep) : Nat := if m.shape < 2 then 512 else 1024

/-- Width of the A panel (none in T16S, where each row of A has its own) and of the B panel. -/
def MatStep.widthB (m : MatStep) : Nat := match m.shape with | 0 => 16 | 1 => 64 | _ => 32
def MatStep.widthA (m : MatStep) : Nat := match m.shape with | 2 => 32 | _ => 16

/-- K indices per panel row for a panel `w` columns wide (03 R73). -/
def MatStep.perPanel (m : MatStep) (tag w : Nat) : Nat := (m.rowBytes / 512) * perRow tag / w

/-- Length of a presence block (03 R91). -/
def MatStep.kb (m : MatStep) : Nat := if elemBits m.atag = 4 ∧ elemBits m.btag = 4 then 32 else 16

def MatStep.pat (m : MatStep) : Nat := match m.aux with | some x => x.pat | none => 0
/-- The presence map of A or of B: 0 none, 1 static, 2 run-time. -/
def MatStep.mapA (m : MatStep) : Nat := match m.aux with | some x => x.amap | none => 0
def MatStep.mapB (m : MatStep) : Nat := match m.aux with | some x => x.bmap | none => 0

/-- Kept K indices of a B panel that stands for `k` logical ones (03 R87). -/
def MatStep.keptB (m : MatStep) (k : Nat) : Nat :=
  if m.pat = 0 then k else let (g, n, _) := patternOf m.pat; n * ceilDiv k g

/-- Panel rows of A and of B when they store `k` K indices. -/
def MatStep.rowsA (m : MatStep) (k : Nat) : Nat :=
  if m.shape = 1 then m.m * ceilDiv k (perRow m.atag) else ceilDiv k (m.perPanel m.atag m.widthA)
def MatStep.rowsB (m : MatStep) (k : Nat) : Nat := ceilDiv (m.keptB k) (m.perPanel m.btag m.widthB)

/-- Metadata rows (03 R88). -/
def MatStep.rowsMeta (m : MatStep) (k : Nat) : Nat :=
  if m.pat = 0 then 0
  else ceilDiv (m.rowsB k * metaStride m.widthB (elemBits m.btag) (patternOf m.pat).2.2) m.rowBytes

/-- Scale rows of an operand whose lines are `w` wide (07 R228). -/
def MatStep.rowsScale (m : MatStep) (w : Nat) : Nat := ceilDiv (ceilDiv m.k 32 * w) m.rowBytes

/-- Every row the step can read, as 07 R225 counts them. -/
def MatStep.rowsRead (m : MatStep) : List Nat :=
  let run := fun (r n : Nat) => (List.range n).map (r + ·)
  let stored := fun (map : Nat) => if map = 1 then min m.k ((match m.aux with | some x => x.count | none => 0) * m.kb) else m.k
  run m.arow (m.rowsA (stored m.mapA)) ++ run m.brow (m.rowsB (stored m.mapB)) ++
  (match m.aux with
  | none => []
  | some x =>
    (if m.pat = 0 then [] else run x.mrow (m.rowsMeta (stored m.mapB))) ++
    (if m.mapA = 0 then [] else [x.amrow]) ++ (if m.mapB = 0 then [] else [x.bmrow]) ++
    (if isMx m.atag then run x.asrow (m.rowsScale m.widthA) else []) ++
    (if isMx m.btag then run x.bsrow (m.rowsScale m.widthB) else []))

/-! ### MAT at issue -/

/-- The step that the MAT at a thread's cue pointer asks for (07 R204 R223 R224 R227). -/
def Part.matStep (p : Part) (c t : Nat) : MatStep :=
  let o := matWord (p.wordAt c t)
  let k := (p.core c).asOf t
  let th := p.th c t
  let e := (k.sh.getD o.sreg 0).toNat
  { uid := 0, thread := t, m := fld e 0 8, n := fld e 8 8, k := fld (k.sh.getD (o.sreg + 1) 0).toNat 0 25,
    arow := th.place o.arow, brow := th.place o.brow, atag := o.atag, btag := o.btag, shape := o.shape, acc := o.acc, scan := o.scan,
    tile := o.tile, chain := o.chain, close := o.close, done := o.done, slices := 7 + o.slc, tri := o.tri,
    aux := if o.aux then some (mauxWord (p.cueWord c (th.ptr + 1023))) else none }

/-- The latched padding pattern of an operand, and its tag (08 R245 R253). -/
def Core.pad (k : Core) (i : Nat) : Nat := (k.pads.getD i 0).toNat
def Core.padTag (k : Core) (i : Nat) : Nat := fld (k.pad 3) (5 * i) 5

/-- A padding pattern as an element (08 R251 R252). -/
def padCode (tag pat : Nat) : Nat := if pat = 0 then 0 else if tag = 0x0A then pat * 2 ^ 32 else pat % 2 ^ elemBits tag

/-- 08 R254. -/
def Core.padBad (k : Core) (i tag : Nat) (scans : Bool) : Bool :=
  k.pad i != 0 && (k.padTag i != tag || (scans && (decode tag (padCode tag (k.pad i))).counts))

/-- 02 R51, 05 R148, 07 R224, 08 R254. -/
def Part.shapeBad (p : Part) (c : Nat) (m : MatStep) : Bool :=
  let e := p.chainOf c m.chain
  let (lm, ln) := modeLimit m.shape
  m.m == 0 || m.n == 0 || m.k == 0 || decide (lm < m.m) || decide (ln < m.n) || decide (2 ^ 24 < m.k) ||
  (m.shape == 1 && m.close && decide (16 * e.spanTiles.length < m.n)) ||
  (p.core c).padBad 0 m.atag e.scans || (p.core c).padBad 1 m.btag e.scans

/-- An accumulate-mode step that its tile's side record forbids (02 R52, 03 R78). -/
def Side.refuses (s : Side) (m : MatStep) : Bool :=
  !s.isOpen || s.atag != m.atag || s.btag != m.btag || (m.fp64 && (s.slices != m.slices || s.tri != m.tri)) || (m.scan && s.fed)

/-- The cores whose tiles a step of core `c` targets. -/
def MatStep.cores (m : MatStep) (c : Nat) : List Nat := if m.shape < 2 then [c] else [c, c + 1]

/-- The side records as the step leaves them at its issue: the accumulation opened and its pair fixed, or fed (02 R52 R581). -/
def MatStep.mark (m : MatStep) (s : Side) : Side :=
  if m.acc then { s with fed := s.fed || !m.scan }
  else { s with isOpen := true, atag := m.atag, btag := m.btag, slices := m.slices, tri := m.tri, fed := !m.scan }

/-- FAILED with cause SHAPE (08 R250). -/
def causeShape : Nat := 0x11

def Part.doMat (p : Part) (c t : Nat) : Part := p.orStall c t (decide (4 ≤ (p.core c).matq.length)) fun p =>
  let o := matWord (p.wordAt c t)
  let m := p.matStep c t
  let high := if placeOver o.arow m.arow then some m.arow else if placeOver o.brow m.brow then some m.brow else none
  match high with
  | some r => p.rangeViolation c r
  | none =>
    if p.shapeBad c m then p.raiseCore c 0x0074 m.tile 0 0 (some causeShape)
    else match m.rowsRead.find? (fun r => decide (scratchRows (p.partition c) ≤ r)) with
    | some r => p.rangeViolation c r
    | none =>
      if m.acc && m.tiles.any (fun x => ((p.core c).side x).refuses m) then p.raiseCore c 0x0070 m.tile 0 0 none
      else
        let (u, p1) := (p.issued c t).fresh
        let p2 := p1.onCore c (fun k => { k with matq := k.matq ++ [{ m with uid := u }] })
        forEach (m.cores c) (fun x q => q.onCore x (fun k => forEach m.tiles (fun y z => z.onSide y m.mark) k)) p2

def execMat (c t : Nat) (s : State) : Host.Outcome State Fault Refusal := s.cueOp c t Op.MAT (·.doMat c t)

/-! ### Operands (03 R73 R74 R85 to R97, 07 R228) -/

/-- One operand element: its value as classified under 02 R65, its narrow integer, and what the anchors compare: its block scale
(127 without one) or its exponent (02 R42 R47 R48). -/
structure El where
  num : Num
  n : Int
  key : Int
  deriving DecidableEq, Repr

/-- An element of a code with its block scale, its OSR shift and its zero point (02 R38 to R42, 05 R143 R159). -/
def mkEl (tag code scale : Nat) (shift zp : Int) : El :=
  let x := decode tag code
  if isNarrow tag then
    let n := x.mant * 2 ^ (x.exp - unitExp tag).toNat - zp
    { num := if isMx tag && scale == 0xFF then .nan else if zp = 0 then x else Num.ofInt n, n := n, key := (scale : Int) + shift }
  else { num := x.scale shift, n := 0, key := x.exp + sigBits tag - 1 + shift }

/-- Codes of a panel row, both halves of a double row. -/
def panelCodes (tag : Nat) (row : List Byte) : List Nat :=
  if elemBits tag = 6 then rowCodes tag (row.take 512) ++ (if row.length = 512 then [] else rowCodes tag (row.drop 512)) else rowCodes tag row

/-- Lines of a panel `w` columns wide that stores `k` indices from row `r` on: line by line, in K order. -/
def Part.panelLines (p : Part) (c : Nat) (m : MatStep) (tag w r k lines : Nat) : List (List Nat) :=
  let kr := m.perPanel tag w
  let ks := ((List.range (ceilDiv k kr)).flatMap (fun i => (chunks w (panelCodes tag (p.placeBytes c (r + i)))).take kr)).take k
  (List.range lines).map (fun j => ks.map (fun x => x.getD j 0))

/-- Lines of a T16S A panel: each row of A has rows of its own. Under a static map the `k` stored indices give how many; DESIGN CHOICE
(log 48): 03 R73 writes ceil(K ÷ Kr), of a panel that stores every index. -/
def Part.rowLines (p : Part) (c : Nat) (m : MatStep) (k : Nat) : List (List Nat) :=
  let per := ceilDiv k (perRow m.atag)
  (List.range m.m).map (fun i =>
    ((List.range per).flatMap (fun j => panelCodes m.atag (p.placeBytes c (m.arow + i * per + j)))).take k)

/-- Consecutive rows as one byte string. -/
def Part.rowBytesAt (p : Part) (c r n : Nat) : List Byte := (List.range n).flatMap (fun i => p.placeBytes c (r + i))

/-- The groups of a compressed line as dense codes, or none where its metadata breaks 03 R89. `k` logical indices are stored. -/
def expandLine (m : MatStep) (panel : List Byte) (k j : Nat) (kept : List Nat) : Option (List Nat) :=
  let (g, n, b) := patternOf m.pat
  let kr := m.perPanel m.btag m.widthB
  let st := metaStride m.widthB (elemBits m.btag) b
  let groups := (List.range (ceilDiv k g)).map (fun q =>
    let slots := metaSlots panel ((q / (kr / n)) * st) m.widthB n b (q % (kr / n)) j
    if slots.all (fun s => decide (g * q + s < k)) && decide (slots.Pairwise (· < ·)) then
      some ((List.range g).map (fun x => match slots.idxOf? x with | some s => kept.getD (n * q + s) 0 | none => 0))
    else none)
  if groups.all Option.isSome then some ((groups.filterMap id).flatten.take k) else none

/-- The bits of a presence map over `nb` blocks, all ones without a map. A map row has 4,096 bits (03 R91); for blocks past them, DESIGN
CHOICE (log 48), a single core reads 0 and a two-hander the odd core's half of the double row. -/
def Part.mapBits (p : Part) (c kind row nb : Nat) : List Bool :=
  if kind = 0 then List.replicate nb true
  else let v := leNat (p.placeBytes c row); (List.range nb).map (bitOf v)

/-- A stored line spread over the blocks its static map marks. -/
def spreadLine (kb k : Nat) : List Bool → Nat → List Nat → List Nat
  | [], _, _ => []
  | b :: bs, i, l =>
    let n := min kb (k - kb * i)
    if b then l.take n ++ List.replicate (n - l.length) 0 ++ spreadLine kb k bs (i + 1) (l.drop n)
    else List.replicate n 0 ++ spreadLine kb k bs (i + 1) l

/-- What a step reads: the elements of each line of A and B up to Kp, which K indices are live, and what is wrong. -/
structure Operands where
  a : List (List El)
  b : List (List El)
  live : List Bool
  bad : Bool
  deriving DecidableEq, Repr

/-- The sidecar records of a row: (m, empty, nan, stat) of each segment that takes part (05 R152 R159). -/
def Part.sidecar (p : Part) (c : Nat) (e : ChainEntry) (k i : Nat) : List (Int × Bool × Bool × Nat) :=
  let segs := (List.range (e.nseg + 1)).filter (fun x => decide (x * (e.segLen * 16) < k))
  let bytes := p.rowBytesAt c (e.streamOf .x).1 (ceilDiv (256 * segs.length) (512 * p.units c))
  segs.map (fun x =>
    let w := leAt bytes (8 * (32 * x + i)) 8
    (sext 16 (fld w 0 16), bitOf w 16, bitOf w 17, fld w 32 32))

/-- M_i of 05 R159, none when every segment is empty. -/
def rowMax (l : List (Int × Bool × Bool × Nat)) : Option Int := ((l.filter (fun x => !x.2.1)).map (·.1)).max?

/-- The exponent shift of K index `k` of a row under OSR. -/
def osrShift (e : ChainEntry) (l : List (Int × Bool × Bool × Nat)) (k : Nat) : Int :=
  match rowMax l, l[k / (e.segLen * 16)]? with
  | some mx, some r => r.1 - mx
  | _, _ => 0

/-- The operands of a step as the engine reads them. `shifts` gives each row's records when the step applies OSR. DESIGN CHOICE (log 48):
the count of 03 R93 is of blocks that every static map shows present, a run-time map beside it left out; and the metadata fields that 03 R89
checks are those of the columns below N. -/
def Part.operands (p : Part) (c : Nat) (m : MatStep) (shifts : List (List (Int × Bool × Bool × Nat))) : Operands :=
  let e := p.chainOf c m.chain
  let k := p.core c
  let kp := 32 * ceilDiv m.k 32
  let nb := ceilDiv m.k m.kb
  let x : Maux := m.aux.getD ⟨0, 0, 0, 0, 0, 0, 0, 0, 0⟩
  let ma := p.mapBits c m.mapA x.amrow nb
  let mb := p.mapBits c m.mapB x.bmrow nb
  let size := fun (bits : List Bool) => ((bits.zipIdx.filter (·.1)).map (fun y => min m.kb (m.k - m.kb * y.2))).sum
  let ka := if m.mapA = 1 then size ma else m.k
  let kb := if m.mapB = 1 then size mb else m.k
  let counted := ((List.range nb).filter (fun i => (m.mapA != 1 || ma.getD i false) && (m.mapB != 1 || mb.getD i false))).length
  let rawA := if m.shape = 1 then p.rowLines c m ka else p.panelLines c m m.atag m.widthA m.arow ka m.m
  let rawB := p.panelLines c m m.btag m.widthB m.brow (m.keptB kb) m.n
  let panel := p.rowBytesAt c x.mrow (m.rowsMeta kb)
  let denseB := if m.pat = 0 then rawB.map some else rawB.zipIdx.map (fun (l, j) => expandLine m panel kb j l)
  let linesA := if m.mapA = 1 then rawA.map (spreadLine m.kb m.k ma 0) else rawA
  let linesB := denseB.map (fun l => let l := l.getD []; if m.mapB = 1 then spreadLine m.kb m.k mb 0 l else l)
  let present := fun (i : Nat) => ma.getD i false && mb.getD i false
  let live := (List.range kp).map (fun i => present ((min i (m.k - 1)) / m.kb))
  let scaleA := p.rowBytesAt c x.asrow (if isMx m.atag then m.rowsScale m.widthA else 0)
  let scaleB := p.rowBytesAt c x.bsrow (if isMx m.btag then m.rowsScale m.widthB else 0)
  let blank := fun (tag i : Nat) => padCode tag (k.pad i)
  let els := fun (tag w i : Nat) (scales : List Byte) (zp : Int) (line : List Nat) (j : Nat) (sh : Nat → Int) =>
    (List.range kp).map (fun y =>
      let on := live.getD y false
      let code := if !on then 0 else if y < m.k then line.getD y 0 else blank tag i
      let sc := if isMx tag then (scales.getD ((min y (m.k - 1)) / 32 * w + j) 0).toNat else 127
      mkEl tag code sc (sh y) zp)
  let zpA := if e.zp then e.zpA else 0
  let zpB := if e.zp then e.zpB else 0
  { a := linesA.zipIdx.map (fun (l, i) => els m.atag m.widthA 0 scaleA zpA l i (fun y =>
      match shifts[i]? with | some r => osrShift e r y | none => 0))
    b := linesB.zipIdx.map (fun (l, j) => els m.btag m.widthB 1 scaleB zpB l j (fun _ => 0))
    live := live
    bad := denseB.any Option.isNone || ((m.mapA == 1 || m.mapB == 1) && counted != x.count) }

/-! ### Anchors (02 R47 R48 R52) -/

/-- The elements of a line that the prescan counts: nonzero, finite, live. -/
def counting (live : List Bool) (l : List El) : List El := ((l.zip live).filter (fun x => x.2 && x.1.num.counts)).map (·.1)

def anchorOf (live : List Bool) (l : List El) : Option Int := ((counting live l).map (·.key)).max?

def raiseAnchor (a b : Option Int) : Option Int := match a, b with
  | some x, some y => some (max x y)
  | some x, none => some x
  | none, y => y

/-- An element above its anchor, or with none (02 R52). -/
def breaks (live : List Bool) (anchor : Option Int) (l : List El) : Bool :=
  (counting live l).any (fun x => match anchor with | some a => decide (a < x.key) | none => true)

/-! ### Products (02 R46 R47 R50 R53 to R55 R65) -/

/-- How the products of a step enter X. -/
inductive Kind where
  | plain
  | mx (g : Int)
  | half
  | slices (s : Nat) (tri : Bool)
  deriving DecidableEq, Repr

def MatStep.kind (m : MatStep) (osr : Bool) : Kind :=
  if m.fp64 then .slices m.slices m.tri
  else if m.atag = 0x09 then .slices 3 false
  else if isWide m.atag then .half
  else if isMx m.atag || isMx m.btag || osr then .mx (71 - qBits m.atag - qBits m.btag)
  else .plain

/-- Slice `a` of an aligned integer (02 R54). -/
def sliceOf (s : Nat) (x : Int) (a : Nat) : Int :=
  let v : Int := (fld x.natAbs (8 * (s - 1 - a)) 8 : Nat)
  if x < 0 then -v else v

/-- A product's contribution to X for anchors α and β. -/
def addend (kd : Kind) (al be : Int) (a b : El) : Int :=
  if !(a.num.counts && b.num.counts) && kd != .plain then 0
  else match kd with
  | .plain => a.n * b.n
  | .mx g => shiftTrunc (a.n * b.n) (g - (al + be - a.key - b.key))
  | .half => shiftTrunc (a.num.mant * b.num.mant) (a.num.exp + b.num.exp - (al + be - 69))
  | .slices s tri =>
    let x := shiftTrunc a.num.mant (a.num.exp + 8 * s - 1 - al)
    let y := shiftTrunc b.num.mant (b.num.exp + 8 * s - 1 - be)
    if tri then
      ((List.range s).flatMap (fun i => (List.range (s - i)).map (fun j =>
        sliceOf s x i * sliceOf s y j * 2 ^ (8 * (2 * s - 2 - i - j))))).sum
    else x * y

/-- L of an element (02 R46 R47 R50 R55). -/
def Kind.weight (kd : Kind) (ta tb : Nat) (al be : Int) : Int := match kd with
  | .plain => unitExp ta + unitExp tb
  | .mx g => unitExp ta + unitExp tb + (al - 127) + (be - 127) - g
  | .half => al + be - 69
  | .slices s _ => al + be - 16 * s + 2

/-- The class of a product: 0 finite, 1 NaN, 2 +inf, 3 −inf (02 R65). -/
def classOf (a b : Num) : BitVec 2 := match a.mul b with
  | .nan => 1
  | .inf n => if n then 3 else 2
  | .fin _ _ _ => 0

def mergeFlag (f g : BitVec 2) : BitVec 2 :=
  if g = 0 then f else if f = 0 then g else if f = g then f else 1

/-! ### Targets and X (02 R44, 03 R81) -/

/-- Where part of a step's output goes: the cores that hold it (both halves of X for FP64), the tile, its first row and column. -/
structure Target where
  cores : List Nat
  tile : Nat
  r0 : Nat
  c0 : Nat
  deriving DecidableEq, Repr

def MatStep.targets (m : MatStep) (c : Nat) : List Target := match m.shape with
  | 0 => [⟨[c], m.tile, 0, 0⟩]
  | 1 => (List.range 4).map (fun i => ⟨[c], i, 0, 16 * i⟩)
  | _ => [0, 1].flatMap (fun h => [0, 1].map (fun v =>
      if m.fp64 then ⟨[c, c + 1], 2 * h + v, 16 * h, 16 * v⟩ else ⟨[c + v], m.tile + h, 16 * h, 16 * v⟩))

/-- All 256 values of a tile's X, in two's complement of 96 or 192 bits. DESIGN CHOICE (log 47): the manual bounds a sum of up to 2^24
products (02 R46 R47 R50 R57); past it, over several accumulate-mode steps, X wraps. -/
def Part.setXs (p : Part) (cores : List Nat) (tile : Nat) (xs : List Int) : Part :=
  forEach cores.zipIdx (fun (c, j) q =>
    q.setBytes (xAddr c tile 0) (xs.flatMap (fun x => leBytes 12 (wrapInt (96 * cores.length) x >>> (96 * j))))) p

/-- Words of the tile's bytes are no longer poisoned. -/
def Part.cleanTile (p : Part) (cores : List Nat) (tile : Nat) : Part :=
  { p with poison := p.poison.filter (fun w => !cores.any (fun c => overlaps (8 * w.1) 8 (xAddr c tile 0) 3072)) }

/-! ### Row factors (05 R159 R160) -/

def c40Add (a b : Num) : Num := toC40 (Num.add false a b)
def c40Mul (a b : Num) : Num := toC40 (Num.mul a b)

/-- 1 ÷ x with enough bits, and a sticky one, for one correct rounding to C40. -/
def Num.recip : Num → Num
  | .nan => .nan
  | .inf n => .fin n 0 0
  | .fin n 0 _ => .inf n
  | .fin n m e =>
    let k := Nat.log2 m + 80
    let q := 2 ^ k / m
    .fin n (2 * q + if q * m = 2 ^ k then 0 else 1) (-e - k - 1)

/-- 1 ÷ √x in the same way. -/
def Num.rsqrt : Num → Num
  | .nan => .nan
  | .inf false => .fin false 0 0
  | .inf true => .nan
  | .fin n 0 _ => .inf n
  | .fin true _ _ => .nan
  | .fin false m e =>
    let (m, e) := if e % 2 = 0 then (m, e) else (2 * m, e - 1)
    let k := Nat.log2 m + 80
    let q := Nat.sqrt (2 ^ (2 * k) / m)
    .fin false (2 * q + if q * q * m = 2 ^ (2 * k) then 0 else 1) (-(e / 2) - k - 1)

/-- The row factor of a row's records. -/
def rowFactor (e : ChainEntry) (l : List (Int × Bool × Bool × Nat)) : Num :=
  if e.osr then
    match rowMax l with
    | none => Num.zero
    | some mx =>
      let s := (l.filter (fun x => !x.2.1)).foldl (fun acc x => c40Add acc (toC40 ((decode 0x09 x.2.2.2).scale (x.1 - mx)))) Num.zero
      toC40 s.recip
  else
    let s := l.foldl (fun acc x => c40Add acc (toC40 (decode 0x09 x.2.2.2))) Num.zero
    let y := c40Mul (toC40 (decode 0x09 e.param0)) s
    if e.rsMode then toC40 y.recip else toC40 (c40Add y (toC40 (decode 0x09 e.param1))).rsqrt

/-! ### One step in the engine (03 R79) -/

/-- How a step's products enter the X of a target with this side record: as its opening step fixed it (02 R52). -/
def MatStep.kindOn (m : MatStep) (osr : Bool) (s : Side) : Kind := m.kind (if m.acc then s.pairOsr else osr)

/-- The anchors of 16 lines of a target after the step, from those the tile holds and those of the lines it scans (02 R47 R48 R52,
03 R77): a plain narrow pair has none. -/
def MatStep.anchorsOn (m : MatStep) (kd : Kind) (base : Nat) (new old : List (Option Int)) : List (Option Int) :=
  (List.range 16).map (fun i =>
    let n := new.getD (base + i) none
    let o := old.getD i none
    if m.acc then (if m.scan && kd != .plain then raiseAnchor o n else o) else if kd = .plain then none else n)

/-- The side record of one target after the step. -/
def MatStep.sideAfter (m : MatStep) (t : Target) (osr : Bool) (al be : List (Option Int)) (factors : List (Num × Bool))
    (flags : Tab (BitVec 2)) (s : Side) : Side :=
  if m.acc then { s with rows := al, cols := be, flags := flags }
  else
    { s with
      pair := (m.atag, m.btag), pairS := m.slices, pairTri := m.tri, pairOsr := osr
      rows := al, cols := be, flags := flags, resid := []
      extM := min 16 (m.m - t.r0), extN := min 16 (m.n - t.c0)
      factors := if factors.isEmpty then none
        else some ((List.range 16).map (fun i => BitVec.ofNat 40 (encodeC40 (factors.getD (t.r0 + i) (Num.zero, false)).1))) }

/-- The products of one output element. -/
def dot (kd : Kind) (live : List Bool) (al be : Option Int) (a b : List El) : Int :=
  match kd, al, be with
  | .plain, _, _ => (((a.zip b).zip live).map (fun x => if x.2 then addend .plain 0 0 x.1.1 x.1.2 else 0)).sum
  | k, some x, some y => (((a.zip b).zip live).map (fun z => if z.2 then addend k x y z.1.1 z.1.2 else 0)).sum
  | _, _, _ => 0

def dotFlag (live : List Bool) (a b : List El) (f : BitVec 2) : BitVec 2 :=
  ((a.zip b).zip live).foldl (fun acc x => if x.2 then mergeFlag acc (classOf x.1.1.num x.1.2.num) else acc) f

/-- The side record that a target's X goes with. -/
def Part.sideOf (p : Part) (t : Target) : Side := (p.core (t.cores.headD 0)).side t.tile

/-- Products, flags and side records of one target. A row whose records hold a NaN sets its flags to NaN (05 R161). -/
def Part.runTarget (p : Part) (m : MatStep) (osr : Bool) (o : Operands) (na nb : List (Option Int)) (factors : List (Num × Bool))
    (t : Target) : Part :=
  let side := p.sideOf t
  let kd := m.kindOn osr side
  let al := m.anchorsOn kd t.r0 na side.rows
  let be := m.anchorsOn kd t.c0 nb side.cols
  let cell := fun (i : Nat) => (t.r0 + i / 16, t.c0 + i % 16)
  let inside := fun (i : Nat) => decide ((cell i).1 < m.m) && decide ((cell i).2 < m.n)
  let line := fun (l : List (List El)) (i : Nat) => l.getD i []
  let nans := (List.range 256).foldl (fun (f : Tab (BitVec 2)) i =>
    if inside i && (factors.getD (cell i).1 (Num.zero, false)).2 then Tab.put 0 f i 1 else f) []
  let old := fun (i : Nat) => if m.acc then p.getX t.cores t.tile i else 0
  let xs := (List.range 256).map (fun i =>
    if m.scan || !inside i then old i
    else old i + dot kd o.live (al.getD (i / 16) none) (be.getD (i % 16) none) (line o.a (cell i).1) (line o.b (cell i).2))
  let flags := (List.range 256).foldl (fun (f : Tab (BitVec 2)) i =>
    if m.scan || !inside i then f
    else Tab.put 0 f i (dotFlag o.live (line o.a (cell i).1) (line o.b (cell i).2) (Tab.get 0 f i))) (if m.acc then side.flags else nans)
  let p1 := if m.acc && m.scan then p else (p.setXs t.cores t.tile xs)
  let p2 := if m.acc then p1 else p1.cleanTile t.cores t.tile
  forEach t.cores (fun x q => q.onCore x (fun k => k.onSide t.tile (m.sideAfter t osr al be factors flags))) p2

/-- An anchor violation of an accumulate-mode step that forms products: a wide element or a block of an MX pair above its anchor, or
without one (02 R52). The element of a plain narrow pair never causes one. -/
def Part.wild (p : Part) (m : MatStep) (o : Operands) (t : Target) : Bool :=
  let s := p.sideOf t
  let bad := fun (base : Nat) (anchors : List (Option Int)) (ls : List (List El)) =>
    (((ls.drop base).take 16).zip anchors).any (fun x => breaks o.live x.2 x.1)
  m.acc && !m.scan && (isWide m.atag || isMx m.atag || isMx m.btag) && (bad t.r0 s.rows o.a || bad t.c0 s.cols o.b)

/-! ### The rows that a step reads (03 R89 R92 to R94, 05 R145) -/

/-- Panel rows, counted from the panel's start, that hold an index of a present block: `ks` lists the logical K index of each stored one,
`per` is how many logical indices a panel row covers. -/
def panelRows (live : List Bool) (per : Nat) (ks : List Nat) : List Nat :=
  ((chunks per ks).zipIdx.filter (fun x => x.1.any (fun k => live.getD k false))).map (·.2)

/-- Every row that the engine reads for a step: panel rows and scale rows of present blocks, all of the metadata, the maps, the
sidecar. -/
def Part.rowsTouched (p : Part) (c : Nat) (m : MatStep) (live : List Bool) : List Nat :=
  let x : Maux := m.aux.getD ⟨0, 0, 0, 0, 0, 0, 0, 0, 0⟩
  let e := p.chainOf c m.chain
  let nb := ceilDiv m.k m.kb
  let stored := fun (map row : Nat) =>
    let bits := if map = 1 then p.mapBits c map row nb else []
    (List.range m.k).filter (fun k => map != 1 || bits.getD (k / m.kb) false)
  let ka := stored m.mapA x.amrow
  let kb := stored m.mapB x.bmrow
  let perB := m.perPanel m.btag m.widthB
  let perLogical := if m.pat = 0 then perB else perB * (patternOf m.pat).1 / (patternOf m.pat).2.1
  let rowsA := panelRows live (if m.shape = 1 then perRow m.atag else m.perPanel m.atag m.widthA) ka
  let scales := fun (w : Nat) => panelRows live (32 * (m.rowBytes / w)) (List.range m.k)
  let segs := ((List.range (e.nseg + 1)).filter (fun i => decide (i * (e.segLen * 16) < m.k))).length
  (if m.shape = 1 then (List.range m.m).flatMap (fun i => rowsA.map (m.arow + i * ceilDiv ka.length (perRow m.atag) + ·))
   else rowsA.map (m.arow + ·)) ++
  (panelRows live perLogical kb).map (m.brow + ·) ++
  (if m.pat = 0 then [] else (List.range (m.rowsMeta kb.length)).map (x.mrow + ·)) ++
  (if m.mapA = 0 then [] else [x.amrow]) ++ (if m.mapB = 0 then [] else [x.bmrow]) ++
  (if isMx m.atag then (scales m.widthA).map (x.asrow + ·) else []) ++
  (if isMx m.btag then (scales m.widthB).map (x.bsrow + ·) else []) ++
  (if e.sidecar && !m.acc then (List.range (ceilDiv (256 * segs) (512 * p.units c))).map ((e.streamOf .x).1 + ·) else [])

/-- The step at the head of the queue takes its first beat (03 R79); its results count as in the accumulator at retirement. -/
def Part.runStep (p : Part) (c : Nat) (m : MatStep) : Part :=
  let e := p.chainOf c m.chain
  let side := e.sidecar && !m.acc
  let recs := if side then (List.range m.m).map (p.sidecar c e m.k) else []
  let o := p.operands c m (if e.osr && side then recs else [])
  let p1 := p.onCore c (fun k => { k with matq := k.matq.drop 1, matRun := k.matRun ++ [m] })
  match (p.rowsTouched c m o.live).find? (fun r => p.placePoisoned c r) with
  | some r => p1.sramFault c r
  | none =>
    if o.bad then p1.raiseCore c 0x0070 m.tile 0 0 none
    else if (m.targets c).any (p.wild m o) then p1.raiseCore c 0x0070 m.tile 0 0 none
    else
      let factors := recs.map (fun l => (rowFactor e l, e.osr && l.any (fun x => x.2.2.1)))
      forEach (m.targets c) (fun t q =>
        q.runTarget m e.osr o (o.a.map (anchorOf o.live)) (o.b.map (anchorOf o.live)) factors t) p1

/-! ### When a step may start (03 R83, 05 R164) -/

/-- Writes that operations still have to make outside the core that issued them, or through a core memory view: the place of each in the
order of issue, its first byte and its length (03 R83, 07 R213 R221, 13 R388 R392). -/
def Part.writesDue (p : Part) : List (Nat × Nat × Nat) :=
  p.reqs.filterMap (fun r => match r.dst with | some a => if r.landed then none else some (r.uid, a, 512) | none => none) ++
  p.cores.flatMap (fun x => x.2.moveq.filterMap (fun m => match m.what with
    | .str _ a n _ => some (m.uid, a, 512 * n * p.units x.1)
    | _ => none)) ++
  p.xfers.flatMap (fun x =>
    let d := descOf x.desc
    (if d.sig then [(x.uid, d.sigAddr, 8)] else []) ++
    (if d.reshapes && !x.writing then
      [(x.uid, d.dst, 512 * (p.outCount d).1), (x.uid, d.aux, 512 * max (d.word.secondRows d.total) (p.outCount d).2)] else []))

/-- A step may take its first beat: what was issued before it and writes its tiles is over, in its core and through the core's memory
view (03 R83), and so is every earlier epilogue and reader of them (05 R164). -/
def Part.stepReady (p : Part) (c : Nat) (m : MatStep) : Bool :=
  p.clear c m.uid (some .matrix) [] (m.tiles.map .tile) &&
  p.writesDue.all (fun w => decide (m.uid ≤ w.1) ||
    !(m.cores c).any (fun x => m.tiles.any (fun t => overlaps w.2.1 w.2.2 (xAddr x t 0) 3072)))

end Sys2Proof.Machine
end

