-- ==== Sys2Proof/Machine/Epilogue.lean ====
section
/-! DEFINITION. Epilogues: span matrices, stages, rounding placement, packing, statistics (05 R141 R146 to R165, 08 R255). Readings
beside the manual's words are in log 17. -/

namespace Sys2Proof.Machine

open Sys2Proof

/-! ### Roundings (05 R153 R154) -/

/-- The last value stage of a chain without a stage Q, X or N: it rounds to out_tag. -/
def ChainEntry.last (e : ChainEntry) : Option ChainStage :=
  if e.has .q || e.has .x then none else ((stagesOf e.epi).filter (· != .t)).getLast?

def ChainEntry.stageTag (e : ChainEntry) : ChainStage → Nat
  | .r => e.st0
  | .b => e.st1
  | .a => e.st1
  | _ => e.st2

/-- A value rounded once to a format, in the chain's mode. -/
def ChainEntry.roundTo (e : ChainEntry) (tag : Nat) (x : Num) : Num := decode tag (encode tag (rndOf e.rnd) e.ftz false x).1

/-- What leaves a stage whose exact result is `x`. -/
def ChainEntry.close (e : ChainEntry) (st : ChainStage) (x : Num) : Num :=
  if e.last = some st then e.roundTo e.outTag x
  else if e.final then (if st = .g then x else toC40 x)
  else e.roundTo (e.stageTag st) x

/-- The rounding that ends the stage is roundTowardNegative: an exact zero is −0 (02 R62, 05 R147). -/
def ChainEntry.down (e : ChainEntry) (st : ChainStage) : Bool := e.rnd == 2 && (e.last == some st || !e.final)

/-! ### Stage R (05 R147 R149 R153 R154 R161, 08 R255) -/

def Num.isFinite : Num → Bool
  | .fin _ _ _ => true
  | _ => false

/-- L of element (r, c) of a tile, 0 where an anchor is absent and X is 0 (02 R45). -/
def Side.weight (s : Side) (r c : Nat) : Int :=
  let (ta, tb) := s.pair
  let w := fun (kd : Kind) => match s.rows.getD r none, s.cols.getD c none with
    | some a, some b => kd.weight ta tb a b
    | _, _ => 0
  if ta = 0x0A then w (.slices s.pairS s.pairTri)
  else if ta = 0x09 then w (.slices 3 false)
  else if isWide ta then w .half
  else if isMx ta || isMx tb || s.pairOsr then
    w (.mx (71 - qBits ta - qBits tb))
  else Kind.plain.weight ta tb 0 0

/-- X × 2^L of an accumulator element, or its infinity or NaN (02 R60 R62 R65). -/
def Part.accNum (p : Part) (down : Bool) (cores : List Nat) (tile i : Nat) : Num :=
  let s := (p.core (cores.headD 0)).side tile
  match (Tab.get 0 s.flags i).toNat with
  | 1 => .nan
  | 2 => .inf false
  | 3 => .inf true
  | _ => Num.ofScaled down (p.getX cores tile i) (s.weight (i / 16) (i % 16))

/-- What stage R takes for an element: pad_c outside the tile's recorded extent when c_en is set; a padding of pattern 0 is +0 under any tag
(08 R252 R255). -/
def Part.spanNum (p : Part) (c : Nat) (down : Bool) (cores : List Nat) (tile i : Nat) : Num :=
  let s := (p.core (cores.headD 0)).side tile
  let k := p.core c
  if bitOf (k.pad 3) 15 && (decide (s.extM ≤ i / 16) || decide (s.extN ≤ i % 16)) then
    if k.pad 2 = 0 then Num.zero else decode (k.padTag 2) (padCode (k.padTag 2) (k.pad 2))
  else p.accNum down cores tile i

/-- Stage R of a value with its row factor. -/
def ChainEntry.stageR (e : ChainEntry) (v : Num) (factor : Option (BitVec 40)) : Num := match factor with
  | none => e.close .r v
  | some f =>
    let y := decodeC40 f.toNat
    if e.osr && y.isZero && v.isFinite then e.close .r (.fin (e.down .r) 0 0)
    else if !e.final || e.epi == 0 then e.close .r (v.mul (e.roundTo 0x09 y))
    else e.close .r ((toC40 v).mul y)

/-! ### The span matrix (05 R148 R149) -/

/-- Where element (r, col) of the span matrix of core `x` lies: the cores that hold X, the tile, the element. -/
structure Spot where
  cores : List Nat
  tile : Nat
  i : Nat
  deriving DecidableEq, Repr

def MatStep.spot (m : MatStep) (e : ChainEntry) (c x r col : Nat) : Spot :=
  let ts := e.spanTiles
  if m.shape < 2 then ⟨[x], ts.getD (col / 16) 0, 16 * r + col % 16⟩
  else if m.fp64 then ⟨[c, c + 1], (x - c) + 2 * (r / 16), 16 * (r % 16) + col⟩
  else if ts.length = 4 then ⟨[x], 2 * (col / 16) + r / 16, 16 * (r % 16) + col % 16⟩
  else ⟨[x], ts.headD 0 + r / 16, 16 * (r % 16) + col⟩

/-- The gate partner of a span tile. -/
def ChainEntry.partnerOf (e : ChainEntry) (tile : Nat) : Nat := e.gateTile + e.spanTiles.idxOf tile

/-- The first `n` values of the stream that serves a stage, from the half rows of core `x`. -/
def Part.streamNums (p : Part) (x : Nat) (e : ChainEntry) (st : ChainStage) (n : Nat) : List Num :=
  let (row, tag) := e.streamOf st
  (((List.range (rowsOf tag n)).flatMap (fun i => rowCodes tag (p.half x (row + i)))).take n).map (decode tag)

/-- Stage A of a value (05 R147 R153 R155). -/
def ChainEntry.activate (e : ChainEntry) (v : Num) : Num := match e.act with
  | 0 => (match v with
    | .nan => .nan
    | .inf n => if n then Num.zero else v
    | .fin n m _ => if n || m == 0 then Num.zero else v)
  | 1 => if e.final then geluC40 v else gelu32 v
  | _ => if e.final then siluC40 v else silu32 v

/-- The values of the span matrix of core `x` after its stages B, A, G and S, row by row. -/
def Part.spanValues (p : Part) (c x : Nat) (m : MatStep) (e : ChainEntry) : List (List Num) :=
  let (rows, cols) := m.spanSize e
  let bias := if e.has .b then p.streamNums x e .b cols else []
  let gate := if e.has .g && e.gateSrc then p.streamNums x e .g (rows * cols) else []
  let res := if e.has .s then p.streamNums x e .s (rows * cols) else []
  (List.range rows).map (fun r => (List.range cols).map (fun col =>
    let s := m.spot e c x r col
    let side := (p.core (s.cores.headD 0)).side s.tile
    let factor := if e.sidecar then side.factors.map (fun l => l.getD (s.i / 16) 0) else none
    let v0 := e.stageR (p.spanNum c (e.down .r) s.cores s.tile s.i) factor
    let v1 := if e.has .b then e.close .b (Num.add (e.down .b) v0 (bias.getD col Num.zero)) else v0
    let v2 := if e.has .a then e.close .a (e.activate v1) else v1
    let v3 := if e.has .g then
        e.close .g (v2.mul (if e.gateSrc then gate.getD (r * cols + col) Num.zero
          else e.close .r (p.spanNum c (e.down .r) s.cores (e.partnerOf s.tile) s.i)))
      else v2
    if e.has .s then e.close .s (Num.add (e.down .s) v3 (res.getD (r * cols + col) Num.zero)) else v3))

/-! ### Stages Q, T, X and N (05 R151 R152 R158) -/

/-- The C40 sum, or sum of squares, of a row in ascending column order. -/
def rowSum (squares : Bool) (l : List Num) : Num :=
  l.foldl (fun acc v => c40Add acc (if squares then c40Mul v v else v)) Num.zero

/-- A sidecar record. -/
def recordOf (e : ChainEntry) (m : Int) (row : List Num) (stat : Num) : List Byte :=
  let empty := !row.any (·.isFinite)
  let odd := row.any (fun v => v == .nan || v == .inf false)
  leBytes 8 (wrapInt 16 m + (if empty then 2 ^ 16 else 0) + (if odd then 2 ^ 17 else 0) +
    (encode 0x09 .even e.ftz false stat).1 * 2 ^ 32)

/-- The least integer not below a finite value. -/
def Num.ceil (x : Num) : Int := -(shiftFloor (-x.mant) x.exp)
where
  /-- m × 2^s rounded toward −∞. -/
  shiftFloor (m s : Int) : Int := if 0 ≤ s then m * 2 ^ s.toNat else m / 2 ^ (-s).toNat

/-- The exponent m of a row of y values: NaNs are passed over, a row of NaNs alone has 0. -/
def rowExp (ys : List Num) : Int :=
  if ys.any (· == .inf false) then 32767
  else match (ys.filter (·.isFinite)).map Num.ceil |>.max? with
  | some y => clampInt (-32768) 32767 y
  | none => if ys.any (· == .inf true) then -32768 else 0

/-- p = 2^(y − m). -/
def expOf (y : Num) (m : Int) : Num := exp2C40 (Num.add false y (Num.ofInt (-m)))

/-- The outputs of an epilogue: for each core its codes row by row and its scale bytes, and the records. -/
structure EpiResult where
  codes : List (List (List Nat))
  scales : List (List Byte)
  records : List Byte
  deriving DecidableEq, Repr

def ChainEntry.code (e : ChainEntry) (x : Num) : Nat := (encode e.outTag (rndOf e.rnd) e.ftz false x).1

def transpose (n : Nat) (l : List (List Nat)) : List (List Nat) := (List.range n).map (fun c => l.map (fun r => r.getD c 0))

/-- Stage Q on the span matrix of one core: codes and scale bytes. -/
def ChainEntry.quantise (e : ChainEntry) (cols : Nat) (l : List (List Num)) : List (List Nat) × List Byte :=
  let q := fun (b : List Num) => quantBlock e.outTag e.rnd e.ftz b
  if e.qAxis then
    let bs := (List.range cols).map (fun c => q (l.map (fun r => r.getD c Num.zero)))
    (transpose l.length (bs.map (fun b => b.2.map (·.1))), bs.map (fun b => BitVec.ofNat 8 b.1))
  else
    let bs := l.map (fun r => (chunks 32 r).map q)
    (bs.map (fun r => r.flatMap (fun b => b.2.map (·.1))), bs.flatMap (fun r => r.map (fun b => BitVec.ofNat 8 b.1)))

/-- The row `r` over every core of the step. -/
def wholeRow (vs : List (List (List Num))) (r : Nat) : List Num := vs.flatMap (fun v => v.getD r [])

def ChainEntry.finishRows (e : ChainEntry) (rows cols : Nat) (vs : List (List (List Num))) : EpiResult :=
  if e.has .q then
    let qs := vs.map (e.quantise cols)
    ⟨qs.map (·.1), qs.map (·.2), []⟩
  else if e.has .x then
    let k := decode 0x09 e.param0
    let ys := vs.map (fun v => v.map (fun r => r.map (fun x => c40Mul x k)))
    let es := (List.range rows).map (fun r => rowExp (wholeRow ys r))
    let ps := ys.map (fun v => v.zipIdx.map (fun (r, i) => r.map (fun y => expOf y (es.getD i 0))))
    if e.has .n then
      let rs := (List.range rows).map (fun r => toC40 (rowSum false (wholeRow ps r)).recip)
      ⟨ps.map (fun v => v.zipIdx.map (fun (r, i) => r.map (fun x => e.code (x.mul (rs.getD i Num.zero))))), [], []⟩
    else
      let outs := ps.map (fun v => v.map (fun r => r.map (e.roundTo e.outTag)))
      ⟨outs.map (fun v => v.map (fun r => r.map e.code)), [],
        (List.range rows).flatMap (fun r => recordOf e (es.getD r 0) (wholeRow ys r) (rowSum false (wholeRow outs r)))⟩
  else
    ⟨vs.map (fun v => v.map (fun r => r.map e.code)), [],
      if e.has .t then (List.range rows).flatMap (fun r => recordOf e 0 (wholeRow vs r) (rowSum (!e.statKind) (wholeRow vs r))) else []⟩

/-- The rows that an epilogue writes: scratchpad row, with 128 added on the odd core, and bytes. -/
def Part.epiRows (p : Part) (c : Nat) (m : MatStep) : List (Nat × List Byte) :=
  let e := p.chainOf c m.chain
  let (rows, cols) := m.spanSize e
  let res := e.finishRows rows cols ((m.cores c).map (fun x => p.spanValues c x m e))
  let out := res.codes.zipIdx.flatMap (fun (v, i) => (packRows e.outTag v.flatten).zipIdx.map (fun (b, j) => (e.outRow + j + 128 * i, b)))
  let aux := res.scales.zipIdx.flatMap (fun (b, i) => (packBytes b).zipIdx.map (fun (r, j) => (e.auxRow + j + 128 * i, r)))
  let rec_ := (packBytes res.records).zipIdx.map (fun (r, j) => (e.auxRow + j, r))
  out ++ aux ++ rec_

/-! ### Events -/

/-- A word of a tile is poisoned (18 R533). -/
def Part.tilePoisoned (p : Part) (cores : List Nat) (tile : Nat) : Bool :=
  p.poison.any (fun w => cores.any (fun c => overlaps (8 * w.1) 8 (xAddr c tile 0) 3072))

/-- Why the epilogue of a step cannot run: its first bad row, or a poisoned row or tile. -/
def Part.epiFault (p : Part) (c : Nat) (m : MatStep) (e : ChainEntry) : Option (Part → Part) :=
  let s := scratchRows (p.partition c)
  match (m.outRows e ++ m.auxRows e ++ m.streamRows e).find? (fun r => decide (s ≤ r)) with
  | some r => some (·.rangeViolation c r)
  | none => match (m.streamRows e).find? (fun r => p.placePoisoned c r) with
    | some r => some (·.sramFault c r)
    | none => match (e.spanTiles ++ e.partners).find? (p.tilePoisoned (m.cores c)) with
      | some t => some (·.sramFault c (0x68 + 6 * t))
      | none => ((e.spanTiles ++ e.partners).flatMap (fun t => (m.cores c).map (fun x => (x, t)))).findSome?
          (fun y => (p.residTile y.1 y.2).map (fun x q => q.rowFault (q.taskOf c) (.resid x.1 x.2.1 x.2.2)))

/-- The epilogue at the head of its queue starts (05 R141 R163 R164): its writes become visible when it ends. -/
def Part.startEpilogue (p : Part) (c : Nat) : Part :=
  let k := p.core c
  match k.epiq, k.epiRun with
  | m :: ms, none =>
    let e := p.chainOf c m.chain
    if !p.clear c m.uid none ((e.spanTiles ++ e.partners).map .tile) [] then p
    else
      let p1 := p.onCore c (fun k => { k with epiq := ms, epiRun := some m })
      match p.epiFault c m e with
      | some f => f p1
      | none => p1.onCore c (fun k => { k with epiOut := p.epiRows c m })
  | _, _ => p

/-- The epilogue's writes are visible. -/
def Part.endEpilogue (p : Part) (c : Nat) : Part :=
  let k := p.core c
  match k.epiRun with
  | some _ =>
    let p1 := forEach k.epiOut (fun (r, b) x => x.setHalf (c + r / 128) (r % 128) b 0) p
    (p1.onCore c (fun k => { k with epiRun := none, epiOut := [] })).settle c
  | none => p

def execEpilogueStart (c : Nat) (s : State) : Host.Outcome State Fault Refusal :=
  s.coreCmd c (·.startEpilogue c)

def execEpilogueEnd (c : Nat) (s : State) : Host.Outcome State Fault Refusal :=
  s.coreCmd c (·.endEpilogue c)

end Sys2Proof.Machine
end

