-- ==== Sys2Proof/Machine/Vector.lean ====
section
/-! DEFINITION. The vector engine: RUN at issue, element steps, passes, reductions (04 R101 to R123, 07 R229). An element run takes
its values and writes them in ELEMENT_RUN_START and counts as outstanding until ELEMENT_RUN_END (log 18). -/

namespace Sys2Proof.Machine

open Sys2Proof

/-! ### Arithmetic of one lane (04 R111 to R117) -/

/-- An exact result brought into 32 bits (04 R113). -/
def bring (mode : Nat) (x : Int) : W32 := match mode with
  | 1 => BitVec.ofInt 32 (clampInt (-2147483648) 2147483647 x)
  | 2 => BitVec.ofInt 32 (clampInt 0 4294967295 x)
  | _ => BitVec.ofInt 32 x

/-- ADD, SUB or MUL of the operands as the mode reads them. -/
def arith (mode : Nat) (f : Int → Int → Int) (a b : W32) : W32 :=
  if mode = 2 then bring 2 (f a.toNat b.toNat) else bring mode (f a.toInt b.toInt)

/-- Leading zero bits. -/
def clz (a : W32) : Nat := if a = 0 then 32 else 31 - Nat.log2 a.toNat

/-- 04 R115. -/
def elemCmp (code : Nat) (a b : W32) : Bool :=
  let x := decode 0x09 a.toNat
  let y := decode 0x09 b.toNat
  let un := x == .nan || y == .nan
  match code with
  | 0x0 => a == b
  | 0x1 => a != b
  | 0x2 => BitVec.slt a b
  | 0x3 => BitVec.sle a b
  | 0x4 => BitVec.ult a b
  | 0x5 => BitVec.ule a b
  | 0x6 => Num.lt x y
  | 0x7 => !un && !Num.lt y x
  | 0x8 => !un && !Num.lt x y && !Num.lt y x
  | 0x9 => un
  | _ => false

/-- A × B ÷ 2^c (04 R114). -/
def mulq (mod c : Nat) (a b : W32) : W32 :=
  let x := a.toInt * b.toInt
  let q := x / 2 ^ c
  let r := x % 2 ^ c
  let up := bitOf mod 0 && (decide (2 ^ c < 2 * r) || (decide (2 * r = 2 ^ c) && decide (q % 2 = 1)))
  bring (if bitOf mod 1 then 1 else 0) (if up then q + 1 else q)

/-- 04 R116. -/
def dnm (mod : Nat) (a b : W32) : W32 :=
  let n := b.toNat % 64
  let q := a.toNat >>> n
  let sticky := a.toNat % 2 ^ n != 0
  BitVec.ofNat 32 (match mod with
    | 1 => roundShift .even false a.toNat n
    | 2 => if sticky then q ||| 1 else q
    | _ => q)

/-- LUT entry `e` at operand `a` (04 R117). -/
def lutValue (e a : W32) : W32 :=
  bring 1 (sext 20 (fld e.toNat 12 20) * 2 ^ 12 + sext 12 (fld e.toNat 0 12) * (fld a.toNat 12 12 : Nat))

/-- ⊕ of RED and TREE (04 R122). -/
def reduceOp (code : Nat) (a b : W32) : W32 := match code with
  | 0x0 => a + b
  | 0x1 => bring 1 (a.toInt + b.toInt)
  | 0x2 => if BitVec.slt a b then b else a
  | 0x3 => if BitVec.slt b a then b else a
  | 0x4 => if BitVec.ult a b then b else a
  | 0x5 => if BitVec.ult b a then b else a
  | 0x6 => a &&& b
  | 0x7 => a ||| b
  | _ => a ^^^ b

/-- LDI's value (04 R118). -/
def ldiValue (mod imm : Nat) : W32 := match mod with
  | 1 => BitVec.ofNat 32 (imm * 2 ^ 14)
  | 2 => BitVec.ofNat 32 imm
  | _ => BitVec.ofInt 32 (sext 18 imm)

/-- What a lane-local step writes, from its operands and the old destination `d`. LUT, STB, RED and TREE are not lane-local. -/
def ElemStep.result (s : ElemStep) (a b c d : W32) : W32 :=
  let n := if bitOf s.m 0 then s.c else b.toNat % 64
  match s.op with
  | 0x01 => a
  | 0x02 => ldiValue (s.m % 4) s.imm18
  | 0x03 => a &&& b
  | 0x04 => a ||| b
  | 0x05 => a ^^^ b
  | 0x06 => a &&& ~~~b
  | 0x07 => a <<< n
  | 0x08 => a >>> n
  | 0x09 => a.sshiftRight n
  | 0x0A => a.rotateLeft (n % 32)
  | 0x0B => arith (s.m % 4) (· + ·) a b
  | 0x0C => arith (s.m % 4) (· - ·) a b
  | 0x0D => arith (s.m % 4) (· * ·) a b
  | 0x0E => if bitOf s.m 0 then BitVec.ofNat 32 ((a.toNat * b.toNat) >>> 32) else BitVec.ofInt 32 (a.toInt * b.toInt / 2 ^ 32)
  | 0x0F => mulq s.m s.c a b
  | 0x10 => if elemCmp (s.m % 16) a b then c else d
  | 0x11 => BitVec.ofNat 32 (if bitOf s.m 0 then clz (if a.msb then ~~~a else a) - 1 else clz a)
  | 0x12 => if a = 0 then 0 else a <<< clz a
  | 0x13 => dnm s.m a b
  | _ => d

/-! ### Runs -/

/-- Row and column of lane `l` in pass `q` (04 R103). -/
def lanePos (column : Bool) (q l : Nat) : Nat × Nat :=
  if column then (l % 16, 2 * q + l / 16) else (2 * q + l / 16, l % 16)

/-- The lane registers and tile buffers of a core while a run works on them. -/
structure Lanes where
  regs : List (List W32)
  bufs : List (List W32)
  deriving DecidableEq, Repr

def Lanes.reg (v : Lanes) (d l : Nat) : W32 := (v.regs.getD d []).getD l 0
def Lanes.buf (v : Lanes) (b i : Nat) : W32 := (v.bufs.getD b []).getD i 0

/-- A source operand (04 R107 R108). -/
def Part.laneSource (p : Part) (x : Nat) (column : Bool) (q l : Nat) (v : Lanes) (code : Nat) : W32 :=
  let (r, col) := lanePos column q l
  let i := 16 * r + col
  if code < 0x10 then v.reg code l
  else if code < 0x14 then v.buf (code - 0x10) i
  else if code < 0x18 then bring 1 (p.getX [x] (code % 4) i)
  else if code < 0x24 then BitVec.ofNat 32 (p.natAt (xAddr x (code % 4) i + 4 * ((code - 0x18) / 4)) 4)
  else if code < 0x28 then BitVec.ofNat 32 (Tab.get 0 ((p.core x).side (code % 4)).flags i).toNat
  else match code with
  | 0x28 => BitVec.ofNat 32 r
  | 0x29 => BitVec.ofNat 32 col
  | 0x2A => BitVec.ofNat 32 l
  | 0x2B => BitVec.ofNat 32 q
  | _ => if 0x30 ≤ code then BitVec.ofNat 32 (p.vconst x (code - 0x30)) else 0

/-- The reduction of 2^n values by a tree (04 R123). -/
def treeOf (code : Nat) : Nat → List W32 → List W32
  | 0, l => l
  | n + 1, l => treeOf code n ((chunks 2 l).map (fun g => reduceOp code (g.getD 0 0) (g.getD 1 0)))

def Lanes.setReg (v : Lanes) (d : Nat) (l : List W32) : Lanes := { v with regs := v.regs.set d l }

/-- One step of pass `q` on all lanes (04 R111 R117 R119 R121 R123). -/
def Part.laneStep (p : Part) (x : Nat) (column : Bool) (q : Nat) (s : ElemStep) (v : Lanes) : Lanes :=
  let src := fun (code l : Nat) => p.laneSource x column q l v code
  let as_ := (List.range 32).map (src s.a)
  match s.op with
  | 0x14 => v.setReg s.d (as_.map (fun a => lutValue (v.buf (s.b % 4) (fld a.toNat 24 8)) a))
  | 0x15 =>
    { v with bufs := modAt v.bufs (s.d % 4) (fun b => forEach as_.zipIdx (fun (a, l) z =>
        let (r, col) := lanePos column q l
        z.set (16 * r + col) a) b) }
  | 0x16 => v.setReg s.d (if q = 0 then as_ else as_.zipIdx.map (fun (a, l) => reduceOp (s.m % 16) (v.reg s.d l) a))
  | 0x17 => v.setReg s.d ((chunks (2 ^ s.c) as_).flatMap (fun g => List.replicate g.length ((treeOf (s.m % 16) s.c g).headD 0)))
  | _ => v.setReg s.d ((List.range 32).map (fun l => s.result (src s.a l) (src s.b l) (src s.c l) (v.reg s.d l)))

/-- The fold of a RED step after pass 7 (04 R121). -/
def foldRed (s : ElemStep) (v : Lanes) : Lanes :=
  if s.op = 0x16 && !bitOf s.m 4 then
    let l := v.regs.getD s.d []
    let f := (List.range 16).map (fun i => reduceOp (s.m % 16) (l.getD i 0) (l.getD (i + 16) 0))
    v.setReg s.d (f ++ f)
  else v

/-- A whole run on core `x`: 8 passes, then the folds (04 R102 R121). -/
def Part.runLanes (p : Part) (x : Nat) (column : Bool) (prog : List ElemStep) (v : Lanes) : Lanes :=
  forEach prog foldRed (forEach (List.range 8) (fun q z => forEach prog (fun s y => p.laneStep x column q s y) z) v)

/-- The memory address of tile buffer `b` (04 R102). -/
def bufAddr (x b : Nat) : Nat := viewAddr x (0xF000 + 0x400 * b)

/-- The lane registers and tile buffers of a core. -/
def Part.lanesOf (p : Part) (x : Nat) : Lanes :=
  ⟨(p.core x).lanes, (List.range 4).map (fun b => (List.range 256).map (fun i => BitVec.ofNat 32 (p.natAt (bufAddr x b + 4 * i) 4)))⟩

/-- A tile buffer written whole. -/
def Part.setBuf (p : Part) (x b : Nat) (l : List W32) : Part :=
  let q := p.setBytes (bufAddr x b) (l.flatMap (fun w => leBytes 4 w.toNat))
  { q with poison := q.poison.filter (fun w => !overlaps (8 * w.1) 8 (bufAddr x b) 1024) }

/-- The results of a run on core `x`. -/
def Part.storeLanes (p : Part) (x : Nat) (prog : List ElemStep) (v : Lanes) : Part :=
  let written := (List.range 4).filter (fun b => prog.any (fun s => s.op == 0x15 && s.d % 4 == b))
  forEach written (fun b q => q.setBuf x b (v.bufs.getD b [])) (p.onCore x (fun k => { k with lanes := v.regs }))

/-! ### RUN and its events -/

def Part.vecFull (p : Part) (c : Nat) : Bool := decide (2 ≤ (p.core c).vecq.length)

/-- 07 R229. -/
def Part.doRun (p : Part) (c t : Nat) : Part := p.orStall c t (p.vecFull c) fun p =>
  let w := p.wordAt c t
  let (u, p1) := (p.issued c t).fresh
  p1.onCore c (fun k => { k with vecq := k.vecq ++ [⟨u, t, fld w 54 4, bitOf w 53, fld w 48 5⟩] })

def execRun (c t : Nat) (s : State) : Host.Outcome State Fault Refusal := s.cueOp c t Op.RUN (·.doRun c t)

/-- CORE_VEC_STATUS (04 R128). -/
def vecStatus (v : VecRun) (busy : Bool) (pass : Nat) : Nat :=
  (if busy then 1 else 0) + 2 * v.prog + (if v.order then 32 else 0) + 64 * pass

/-- A word that the run reads is poisoned: the first such place (18 R533). -/
def Part.vecPoison (p : Part) (c : Nat) (prog : List ElemStep) : Option Nat :=
  ((prog.flatMap ElemStep.bufReads).findSome? (fun r =>
    let (base, n, code) := match r with | .tile t => (0xC000 + 0xC00 * t, 3072, 0x68 + 6 * t) | .buf b => (0xF000 + 0x400 * b, 1024, 0x60 + 2 * b) | .row x => (512 * x, 512, x)
    if p.poison.any (fun w => (p.pairOf c).any (fun x => overlaps (8 * w.1) 8 (viewAddr x base) n)) then some code else none))

/-- An element whose residue check fails in a tile of which the run reads X (03 R99, 04 R108). -/
def Part.vecResid (p : Part) (c : Nat) (prog : List ElemStep) : Option (Nat × Nat × Nat) :=
  ((prog.flatMap ElemStep.sources).filter (fun s => decide (0x14 ≤ s) && decide (s < 0x24))).findSome? (fun s =>
    (p.pairOf c).findSome? (fun x => p.residTile x (s % 4)))

/-- The run at the head of the queue starts once the tiles and buffers it touches are free (04 R105 R109). -/
def Part.startRun (p : Part) (c : Nat) : Part :=
  let k := p.core c
  match k.vecq, k.vecRun with
  | v :: vs, none =>
    let prog := p.program c v.prog
    if !p.clear c v.uid none (prog.flatMap ElemStep.bufReads) (prog.flatMap ElemStep.bufWrites) then p
    else
      let p1 := p.onCore c (fun k => { k with vecq := vs, vecRun := some v })
      let p2 := forEach (p.pairOf c) (fun x q => q.setRegN (coreReg Reg.CORE_VEC_STATUS x []) (vecStatus v true 0)) p1
      match p.vecPoison c prog with
      | some r => p2.sramFault c r
      | none => match p.vecResid c prog with
      | some x => p2.rowFault (p.taskOf c) (.resid x.1 x.2.1 x.2.2)
      | none => forEach (p.pairOf c) (fun x q => q.storeLanes x prog (p.runLanes x v.order prog (p.lanesOf x))) p2
  | _, _ => p

/-- The run's last writes are visible: its completion point (07 R229). -/
def Part.endRun (p : Part) (c : Nat) : Part := match (p.core c).vecRun with
  | some v =>
    let p1 := p.onCore c (fun k => { k with vecRun := none })
    let p2 := forEach (p.pairOf c) (fun x q =>
      (q.setRegN (coreReg Reg.CORE_VEC_STATUS x []) (vecStatus v false 7)).bump32 (coreReg Reg.CORE_VEC_RUNS x []) 1) p1
    p2.completed c v.done
  | none => p

def execElementRunEnd (c : Nat) (s : State) : Host.Outcome State Fault Refusal :=
  s.coreCmd c (·.endRun c)

end Sys2Proof.Machine
end

