-- ==== Sys2Proof/Machine/Units.lean ====
section
/-! DEFINITION. A freed place in a unit queue lets stalled threads issue (06 R170 to R172), and the events of the matrix and vector
engines. -/

namespace Sys2Proof.Machine

open Sys2Proof

/-- The queue of the unit that an operation targets is full (06 R171). -/
def Part.unitFull (p : Part) (c op : Nat) : Bool :=
  if op = Op.MAT then decide (4 ≤ (p.core c).matq.length)
  else if op = Op.RUN then p.vecFull c
  else if op = Op.XFER then decide (32 ≤ p.xferOut c)
  else p.moveFull c

/-- The operation at the cue pointer of a thread that leaves STALL. -/
def Part.issueOp (p : Part) (c t : Nat) : Part :=
  let op := opcode (p.wordAt c t)
  if op = Op.MAT then p.doMat c t
  else if op = Op.RUN then p.doRun c t
  else if op = Op.XFER then p.doXfer c t
  else if op = Op.LDR then p.doLdr c t
  else if op = Op.STR then p.doStr c t
  else if op = Op.MOV then p.doMov c t
  else if op = Op.TRD then p.doTrd c t
  else if op = Op.SRD then p.doSrd c t
  else if op = Op.GATH then p.doGath c t
  else if op = Op.CINV then p.doCinv c t
  else if op = Op.SEND then p.doSend c t false
  else if op = Op.POST then p.doSend c t true
  else if op = Op.RECV then p.doRecv c t
  else p

/-- The stalled threads of a core with their marks: a RECV whose message has come ranks from its issue. -/
def Core.stalled (k : Core) : List (Nat × Nat) :=
  (List.range 8).filterMap (fun t => match (k.th t).on with
    | .stall m => some (m, t)
    | .recv u _ _ _ _ => if (k.th t).st = .stall then some (u, t) else none
    | _ => none)

/-- The unit that a stalled thread waits for is full. -/
def Part.stallsOn (p : Part) (c t : Nat) : Bool := match (p.th c t).on with
  | .recv _ _ _ _ _ => p.moveFull c
  | _ => p.unitFull c (opcode (p.wordAt c t))

/-- A stalled thread's operation enters its unit's queue. -/
def Part.unstallTh (p : Part) (c t : Nat) : Part := match (p.th c t).on with
  | .recv u q pl sl dn => p.queueRecv c t u q pl sl dn
  | _ => (p.onTh c t Thread.ready).issueOp c t

/-- The stalled thread that has stalled longest among those whose unit has a free place issues; `n` bounds how many do. -/
def Part.unstallF (c : Nat) : Nat → Part → Part
  | 0, p => p
  | n + 1, p =>
    match pickMin (fun a b => decide (a.1 < b.1)) ((p.core c).stalled.filter (fun x => !p.stallsOn c x.2)) with
    | none => p
    | some (_, t) => Part.unstallF c n (p.unstallTh c t)

def Part.unstall (p : Part) (c : Nat) : Part := p.unstallF c 8

/-- An event at core `c`: its effect, then the threads that it frees. -/
def State.coreEvent (s : State) (c : Nat) (f : Part → Part) : Host.Outcome State Fault Refusal :=
  s.coreCmd c (fun q => (f q).unstall c)

/-- The step at the head of the matrix queue takes its first beat when nothing issued before it holds its tiles
(03 R79 R83, 05 R164, 06 R171). -/
def Part.startStep (p : Part) (c : Nat) : Part := match (p.core c).matq with
  | [] => p
  | m :: _ => if p.stepReady c m then p.runStep c m else p

/-- The oldest started step retires: its completion field, and its epilogue when it closes (03 R79, 05 R141 R163, 07 R226). -/
def Part.retireStep (p : Part) (c : Nat) : Part := match (p.core c).matRun with
  | [] => p
  | m :: ms =>
    (p.onCore c (fun k => { k with matRun := ms, epiq := if m.close then k.epiq ++ [m] else k.epiq })).completed c m.done

def execMatrixStepStart (c : Nat) (s : State) : Host.Outcome State Fault Refusal := s.coreEvent c (·.startStep c)
def execMatrixStepRetire (c : Nat) (s : State) : Host.Outcome State Fault Refusal := s.coreEvent c (·.retireStep c)
def execElementRunStart (c : Nat) (s : State) : Host.Outcome State Fault Refusal := s.coreEvent c (·.startRun c)

end Sys2Proof.Machine
end

