-- ==== Sys2Proof/Machine/MoveEvents.lean ====
section
/-! DEFINITION. Row moves, cache fills and transfers under way: start, messages offered on a route, landing, completion
(06 R180 R181 R184 to R187 R192, 07 R215 to R222 R230 to R232, 09 R278 to R286, 13 R392). -/

namespace Sys2Proof.Machine

open Sys2Proof

/-! ### Channels (09 R278 to R286) -/

def Part.onRoute (p : Part) (c r : Nat) (f : Route → Route) : Part := p.onCore c (fun k => k.onRoute r f)
def Part.route (p : Part) (c r : Nat) : Route := (p.core c).route r

/-- The depth of a route's spill ring and its first row (09 R275). -/
def Part.ringDepth (p : Part) (c r : Nat) : Nat := if bitOf (p.routeWord c r) 30 then 16 else 8
def Part.ringRow (p : Part) (c r : Nat) : Nat := fld (p.routeWord c r) 23 7

/-- The address of ring position `i` (09 R281). -/
def Part.ringAddr (p : Part) (c r i : Nat) : Nat := viewAddr c (512 * (p.ringRow c r + i / 8) + 64 * (i % 8))

/-- A message meets a DARK or RETIRED queue (09 R285). -/
def Part.darkSend (p : Part) (c r : Nat) (task : Option TaskKey) : Part :=
  if bitOf (p.routeWord c r) 22 then
    let live := match task with | some k => p.stg.replicas.any (fun x => x.task == some k) | none => false
    (p.onRoute c r (fun x => { x with darkFault := true })).raise
      ⟨0x0072, 0, dieOf c, (c / 16) % 400, c % 16, r, if live then task else none, 0, 0⟩ none
  else p.bump32 (cluReg Reg.CLU_CH_DARK (clusterOf c) [16 * (c % 16) + r]) 1

/-- A message takes a credit and leaves on its way (09 R278). -/
def Part.takeCredit (p : Part) (c r : Nat) (m : Msg) : Part := match p.routeTarget c r with
  | some (k, q) =>
    let p1 := p.onRoute c r (fun x => { x with credits := x.credits - 1 })
    { p1 with flight := p1.flight ++ [.msg k q m (if fld (p.routeWord c r) 0 2 = 2 then some 0 else none)] }
  | none => p

/-- An accepted message is counted (09 R290). -/
def Part.countTx (p : Part) (c r : Nat) : Part := p.bump32 (cluReg Reg.CLU_CH_TX (clusterOf c) [16 * (c % 16) + r]) 1

/-- The message at the tail of the spill ring (09 R280 to R282). -/
def Part.spill (p : Part) (c r : Nat) (m : Msg) : Part :=
  let x := p.route c r
  if p.ringDepth c r ≤ x.ring.length then
    (p.onRoute c r (fun y => { y with ringFull := true })).raise ⟨0x0072, 0, dieOf c, (c / 16) % 400, c % 16, r, m.task, 0, 0⟩ none
  else
    ((p.mergeRow (p.ringAddr c r ((x.head + x.ring.length) % p.ringDepth c r)) m.data).onRoute c r
      (fun y => { y with ring := y.ring ++ [{ m with data := [] }] })).countTx c r

/-- What became of a message offered on a route. -/
inductive Offer where
  | done (p : Part)
  | blocked
  deriving DecidableEq, Repr

/-- A message is offered on route `r` of core `c`; `wait` is set for a SEND of an ordinary thread. -/
def Part.offer (p : Part) (c r : Nat) (m : Msg) (wait : Bool) : Offer :=
  let x := p.route c r
  if 2 ≤ p.peerState c r then .done (p.darkSend c r m.task)
  else if x.credits ≠ 0 ∧ x.ring.isEmpty then .done ((p.takeCredit c r m).countTx c r)
  else if wait then .blocked
  else .done (p.spill c r m)

/-- A SEND or POST that has been accepted, or met a dark reader: its completion point (07 R231). It holds its thread no longer. -/
def Part.sendDone (p : Part) (c : Nat) (m : MoveOp) : Part :=
  (p.onCore c (fun k => { k with moving := k.moving.filter (fun y => y.uid ≠ m.uid) })).completed c m.done

/-- Ring messages take the free credits (09 R281), then the blocked SENDs of the route in order of issue. -/
def Part.pumpRoute (c r : Nat) : Nat → Part → Part
  | 0, p => p
  | n + 1, p =>
    let x := p.route c r
    match x.ring with
    | h :: t =>
      if x.credits = 0 then p
      else
        let a := p.ringAddr c r x.head
        let m : Msg := { h with data := p.bytesAt a 64 }
        if !p.rowGood a then p.rowFault (p.taskOf c) (.damaged a)
        else Part.pumpRoute c r n ((p.onRoute c r (fun y => { y with ring := t, head := (y.head + 1) % p.ringDepth c r })).takeCredit c r m)
    | [] =>
      match (p.core c).moving.find? (fun y => match y.what with | .send _ _ r' _ => r' == r | _ => false) with
      | some y =>
        let msg : Msg := { data := (y.data.map (·.2)).flatten, epoch := x.epoch, core := c, route := r, task := p.taskOf c }
        (match p.offer c r msg true with
         | .done q => Part.pumpRoute c r n (if (q.core c).moving.any (fun z => z.uid == y.uid) then q.sendDone c y else q)
         | .blocked => p)
      | none => p

/-! ### Reads of a row move at its start -/

/-- A place that cannot be read: its row tag fails, so that it is damaged at its home, or a word of it is poisoned (13 R395, 18 R530 R533). -/
def Part.placeTrouble (p : Part) (c code : Nat) : Option (Part → Part) :=
  if !p.placeGood c code then
    let a := viewAddr (if p.rowGood (viewAddr c (512 * code)) then c + 1 else c) (512 * code)
    some (fun q => q.rowFault (q.taskOf c) (.damaged a))
  else if p.placePoisoned c code then some (·.sramFault c code)
  else ((if p.paired c then [c, c + 1] else [c]).findSome? (fun k => p.residAt k (placeOff code) 512)).map
    (fun x q => q.rowFault (q.taskOf c) (.resid x.1 x.2.1 x.2.2))

/-- Segment `s` of a place (06 R178 R190). -/
def Part.segment (p : Part) (c code s : Nat) : List Byte := ((p.placeBytes c code).drop (32 * s)).take 32

/-- A transposed read (06 R180 R192). -/
def Part.transposed (p : Part) (c row j w : Nat) : List Byte :=
  let n := 16 * p.units c
  let eb := 2 ^ w
  (List.range (32 / eb)).flatMap (fun k => (List.range n).flatMap (fun i => ((p.segment c (row + i) j).drop (eb * k)).take eb))

/-- A strided read (06 R181 R192). -/
def Part.strided (p : Part) (c row d s : Nat) : List Byte :=
  (List.range (16 * p.units c)).flatMap (fun j => p.segment c (row + j * d) s)

/-- The rows of a MOV in ascending order, each place read after the earlier ones are written (07 R217). -/
def Part.movData (p : Part) (c dst src : Nat) : Nat → List (Nat × List Byte) → List (Nat × List Byte)
  | 0, acc => acc
  | n + 1, acc =>
    let i := acc.length
    let b := match acc.find? (fun x => x.1 == src + i) with | some x => x.2 | none => p.placeBytes c (src + i)
    p.movData c dst src n (acc ++ [(dst + i, b)])

/-- The operation leaves the queue for the unit with what it has read. -/
def Part.begin (p : Part) (c : Nat) (m : MoveOp) (data : List (Nat × List Byte)) (rs : List Req) : Part :=
  { p.onCore c (fun k => { k with moveq := k.moveq.drop 1, moving := k.moving ++ [{ m with data := data }] }) with
    reqs := p.reqs ++ rs }.hubMark

/-- Package addresses of an operation's units: one per row, or two per double row. -/
def Part.unitAddrs (p : Part) (c addr n : Nat) : List Nat := (List.range (n * p.units c)).map (fun i => addr + 512 * i)

def Part.startLdr (p : Part) (c : Nat) (m : MoveOp) (place addr n : Nat) (cached : Bool) : Part :=
  let lines := (List.range n).map (addr / 512 + ·)
  if cached then
    let p1 := if m.looked then p.refill c m.thread lines
      else
        let q := forEach lines (fun l x => x.lookup c m.thread l) p
        q.onCore c (fun k => { k with moveq := modFirst (fun y => y.uid == m.uid) (fun y => { y with looked := true }) k.moveq })
    let k := p1.core c
    let slots := lines.map (fun l => k.slotOf (cacheSets (p1.partition c)) l false)
    if slots.any (·.isNone) then (if decide ((k.th m.thread).st = .ready) then p1.awaitFills c m.thread m.uid m.sync lines else p1)
    else
      let rows := slots.map (fun s => scratchRows (p1.partition c) + s.getD 0)
      match rows.find? (fun r => !p1.rowGood (viewAddr c (512 * r))) with
      | some r => p1.rowFault (p1.taskOf c) (.flight (viewAddr c (512 * r)))
      | none => p1.begin c m (rows.zipIdx.map (fun (r, i) => (place + i, p1.half c r))) []
  else p.begin c m [] ((p.unitAddrs c addr n).zipIdx.map (fun (a, i) => p.newReq c m.uid i (some a) none [] false none))

/-- STR reads its places when it starts; a cached one updates the lines that are present and waits for those being filled
(06 R186). -/
def Part.startStr (p : Part) (c : Nat) (m : MoveOp) (place addr n : Nat) (cached : Bool) : Part :=
  let k := p.core c
  let sets := cacheSets (p.partition c)
  let lines := (List.range n).map (addr / 512 + ·)
  if cached && lines.any (fun l => (k.slotOf sets l true).isSome) then p
  else match (List.range n).findSome? (fun i => p.placeTrouble c (place + i)) with
  | some f => f p
  | none =>
    let rows := (List.range n).flatMap (fun i => chunks 512 (p.placeBytes c (place + i)))
    let rs := ((p.unitAddrs c addr n).zip rows).zipIdx.map (fun ((a, b), i) => p.newReq c m.uid i none (some a) b true none)
    let p1 := p.begin c m [] rs
    if cached then
      forEach (lines.zip rows) (fun (l, b) x => match k.slotOf sets l false with
        | some s => x.setRow (viewAddr c (512 * (scratchRows (p.partition c) + s))) b 0
        | none => x) p1
    else p1

/-- GATH reads its list row when it starts (07 R220). -/
def Part.startGath (p : Part) (c : Nat) (m : MoveOp) (dst list e0 base n sh : Nat) : Part :=
  if !p.rowGood (viewAddr c (512 * list)) then p.rowFault (p.taskOf c) (.damaged (viewAddr c (512 * list)))
  else
    let xs := (List.range n).map (fun i => p.natAt (viewAddr c (512 * list + 4 * (e0 + i))) 4)
    let addr := fun (x : Nat) => (base + x * 2 ^ (9 + sh)) % 2 ^ 48
    match xs.find? (fun x => x != 0xFFFFFFFF && !p.rowsAllowed (addr x) (p.units c) false) with
    | some x => p.refusedOp c 0 (addr x)
    | none =>
      let zeros := (xs.zipIdx.filter (fun x => x.1 == 0xFFFFFFFF)).map (fun x => (dst + x.2, List.replicate (512 * p.units c) (0 : Byte)))
      let rs := (xs.zipIdx.filter (fun x => x.1 != 0xFFFFFFFF)).flatMap (fun (x, i) =>
        (List.range (p.units c)).map (fun h => p.newReq c m.uid (p.units c * i + h) (some (addr x + 512 * h)) none [] false none))
      p.begin c m zeros rs

/-- CINV waits for every fill in flight, then clears the valid bits (06 R187). -/
def Part.startCinv (p : Part) (c : Nat) (m : MoveOp) (all : Bool) (line : Nat) : Part :=
  if (p.core c).cache.any (fun w => w.2.filling) then p
  else (p.begin c m [] []).onCore c (fun k =>
    { k with cache := k.cache.map (fun w => (w.1, if all || w.2.line == line then { w.2 with valid := false } else w.2)) })

/-- SEND and POST read the message and offer it (07 R230 R231). -/
def Part.startSend (p : Part) (c : Nat) (m : MoveOp) (place slot route : Nat) (wait : Bool) : Part :=
  match p.placeTrouble c place with
  | some f => f p
  | none =>
    let msg := ((p.placeBytes c place).drop (64 * slot)).take 64
    let p1 := p.begin c m [(0, msg)] []
    match p1.offer c route ⟨msg, (p.route c route).epoch, c, route, p.taskOf c⟩ wait with
    | .done q => if (q.core c).moving.any (fun y => y.uid == m.uid) then q.sendDone c m else q
    | .blocked => p1.onCore c (fun k => { k with
        moving := k.moving.map (fun y => if y.uid = m.uid then { y with since := some p.tim.interval } else y) })

/-- RECV removes the head message of its queue (07 R232). -/
def Part.startRecv (p : Part) (c : Nat) (m : MoveOp) (q place : Nat) : Part :=
  let (k, i) := queueHome c q
  match ((p.core k).queue i).msgs with
  | [] => p
  | h :: t => ((p.onCore k (fun x => x.onQueue i (fun y => { y with msgs := t }))).begin c m [(place, h.data)] []).returnCredit h

/-- The operation at the head of the row-move queue starts when nothing issued before it holds its places (07 R216, 05 R164). -/
def Part.startMove (p : Part) (c : Nat) : Part := match (p.core c).moveq with
  | [] => p
  | m :: _ =>
    if !p.clear c m.uid none ((m.what.reads (p.paired c)).map placeRes) (m.what.writes.map placeRes) then p
    else match m.what with
    | .ldr place addr n cached => p.startLdr c m place addr n cached
    | .str place addr n cached => p.startStr c m place addr n cached
    | .mov dst src n =>
      (match (List.range n).findSome? (fun i => p.placeTrouble c (src + i)) with
       | some f => f p
       | none => p.begin c m (p.movData c dst src n []) [])
    | .trd dst row j w =>
      (match (m.what.reads (p.paired c)).findSome? (fun r => p.placeTrouble c r) with
       | some f => f p
       | none => p.begin c m [(dst, p.transposed c row j w)] [])
    | .srd dst row d s =>
      (match (m.what.reads (p.paired c)).findSome? (fun r => p.placeTrouble c r) with
       | some f => f p
       | none => p.begin c m [(dst, p.strided c row d s)] [])
    | .gath dst list e0 base n sh => p.startGath c m dst list e0 base n sh
    | .cinv all line => p.startCinv c m all line
    | .send place slot route wait => p.startSend c m place slot route wait
    | .recv q place _ => p.startRecv c m q place

/-! ### Landing and completion -/

/-- What a finished operation writes: whole places, or the 64 B of a message. -/
def Part.writeMove (p : Part) (c : Nat) (m : MoveOp) : Part := match m.what with
  | .recv _ place slot =>
    forEach m.data (fun d x => x.writePart (viewAddr (c + slot / 8) (placeOff place + 64 * (slot % 8))) d.2) p
  | _ => forEach m.data (fun d x => x.setPlace c d.1 d.2) p

/-- Rows at direct homes move; when every row has landed the operation completes (07 R215). A blocked SEND completes with its
credit. -/
def Part.endMove (p : Part) (c uid : Nat) : Part :=
  let p1 := p.moveDirect uid
  match (p1.core c).moving.find? (fun m => m.uid == uid) with
  | none => p1
  | some m =>
    match m.what with
    | .send _ _ _ _ => p1
    | _ =>
      if (p1.reqsOf c uid).all (·.landed) then
        ((p1.writeMove c m).dropReqs uid).onCore c (fun k => { k with moving := k.moving.filter (fun y => y.uid ≠ uid) }) |>.completed c m.done
      else p1

/-- Lines that threads of a core wait for and that are neither valid nor being filled are requested (06 R185). -/
def Part.refillWaiting (p : Part) (c : Nat) : Part :=
  forEach (List.range 8) (fun t x => match (p.th c t).on with | .fill ls _ => x.refill c t ls | _ => x) p

/-- A cache fill lands in its way (06 R185 R186). -/
def Part.landFill (p : Part) (c line : Nat) : Part :=
  match p.reqs.find? (fun r => r.core == c && r.fill.isSome && r.src == some (512 * line)) with
  | none => p
  | some r =>
    let p1 := p.moveDirect r.uid
    match p1.reqs.find? (fun x => x.uid == r.uid && x.got), r.fill with
    | some x, some s =>
      let row := scratchRows (p1.partition c) + s
      let p2 := (p1.setRow (viewAddr c (512 * row)) x.row 0).onCore c (fun k => k.setWay s { (k.way s) with valid := true, filling := false })
      (((p2.dropReqs r.uid).settle c).refillWaiting c)
    | _, _ => p1

/-- A transfer's rows at direct homes move; when all have landed it signals and completes (13 R392). -/
def Part.completeXfer (p : Part) (c uid : Nat) : Part :=
  let p1 := p.pumpXfer uid
  match p1.xferOf uid with
  | some x => if x.core = c ∧ p1.xferDone x then p1.endXfer x else p1
  | none => p1

def execRowMoveStart (c : Nat) (s : State) : Host.Outcome State Fault Refusal := s.coreEvent c (·.startMove c)
def execRowMoveComplete (c uid : Nat) (s : State) : Host.Outcome State Fault Refusal := s.coreEvent c (fun p => p.endMove c uid)
def execCacheFillLands (c line : Nat) (s : State) : Host.Outcome State Fault Refusal := s.coreEvent c (fun p => p.landFill c line)
def execTransferComplete (c uid : Nat) (s : State) : Host.Outcome State Fault Refusal := s.coreEvent c (fun p => p.completeXfer c uid)

end Sys2Proof.Machine
end

