-- ==== Sys2Proof/Machine/MemoryEvents.lean ====
section
/-! DEFINITION. Events of the memory controllers: row reads and writes, partial writes, refresh, retraining (13 R391 to R402 R584,
18 R532). -/

namespace Sys2Proof.Machine

open Sys2Proof

/-- The oldest request whose row the engine holds and that reads the row of `a` from its channel. -/
def Part.readerOf (p : Part) (a : Nat) : Option Req :=
  p.reqs.find? (fun r => p.held r && !r.got && !r.landed && (match r.src with | some x => x / 512 == a / 512 && p.isLpddr x | none => false))

/-- The channel of `a` stops: marked, and logged once (13 R398). -/
def Part.failChannel (p : Part) (a : Nat) : Part :=
  if p.chFailed a then p
  else
    ((p.orReg (chanReg Reg.MEM_CH_STAT a) 2).orReg (Reg.MEM_FAULT.at [mdieOf a]) 4).raise
      ⟨0x0032, 3, 4 + mdieOf a, channelOf a, 0xFF, 0, none, a, 0⟩ none

/-- What follows the arrival of a row for its request. -/
def Part.rowArrived (p : Part) (r : Req) (a : Nat) : Part :=
  let (p1, row) := match p.xferOf r.uid with
    | some x => p.pitRow x a (p.rowAt a) false
    | none => (p, p.rowAt a)
  (p1.deliver r row).advanceXfer r.uid

/-- 13 R395: link corrections counted, the tag checked, one second read. -/
def Part.readRow (p : Part) (addr : Nat) (link : Link) (ecc : Nat) : Part := match p.readerOf addr with
  | none => p
  | some r =>
    let a := 512 * (addr / 512)
    if p.chFailed a then p.reqFault r (.damaged a)
    else if link = .silent then (p.failChannel a).reqFault r (.damaged a)
    else
      let p1 := (p.countRead a).bumpSat (chanReg Reg.MEM_CH_LECC a) ecc
      if !p.rowGood a || link = .twice then p1.reqFault r (.damaged a)
      else if link = .once then
        ((p1.bumpSat (chanReg Reg.MEM_CH_RETRY a) 1).raise (p.rowReport 0x0030 r.task a) none).rowArrived r a
      else p1.rowArrived r a

/-- The oldest request that writes the row of `a` on its channel, its row read or at hand. -/
def Part.writerOf (p : Part) (a : Nat) : Option Req :=
  p.reqs.find? (fun r => p.held r && !r.landed && (r.got || p.canDirect r) &&
    (match r.dst with | some x => x / 512 == a / 512 && p.isLpddr x | none => false))

/-- 13 R391 R584. -/
def Part.writeTo (p : Part) (addr : Nat) : Part := match p.writerOf addr with
  | none => p
  | some r =>
    let p1 := if r.got then p else (p.stepDirect r).advanceXfer r.uid
    match p1.reqs.find? (fun x => x.uid == r.uid && x.idx == r.idx), r.dst with
    | some x, some a => if x.got && !x.landed then p1.put x a else p1
    | _, _ => p1

/-- 13 R394 R584, 18 R532: a read-modify-write of less than a row. A row found damaged is written with a poisoned tag. -/
def Part.mergePartial (p : Part) (addr : Nat) : Part :=
  match p.partials.find? (fun q => q.addr / 512 == addr / 512) with
  | none => p
  | some q =>
    let p1 : Part := { p with partials := dropFirst (fun x => x.addr / 512 == addr / 512) p.partials }
    let lp := decide (p.homeAt q.addr = .lpddr)
    if lp && p.chFailed q.addr then (p1.noteDamaged q.addr).refuse 1 q.addr q.port
    else (p1.rmw q.addr q.data).bell q.addr q.data.length none

/-- The registers of global channel `ch`. -/
def chReg (r : RegRow) (ch : Nat) : Nat := r.at [ch / 64, ch % 64]

/-- The longest wait of one request (13 R404). -/
def Part.waited (p : Part) (ch ns : Nat) : Part :=
  p.setRegN (chReg Reg.MEM_CH_WAIT_MAX ch) (max (p.regN (chReg Reg.MEM_CH_WAIT_MAX ch)) (min ns 0xFFFFFFFF))

/-- 13 R399 R402: the MR4 rate 0 to 2; a device above its rated range keeps the 4× rate and is reported when it becomes hot. -/
def Part.refreshed (p : Part) (ch rate : Nat) (hot : Bool) (ns : Nat) : Part :=
  let r := chReg Reg.MEM_CH_STAT ch
  let was := bitOf (p.regN r) 2
  let p1 := ((p.setFld r 3 2 (if hot then 2 else min rate 2)).setFld r 2 1 (if hot then 1 else 0)).waited ch ns
  if hot && !was then
    (p1.orReg (Reg.MEM_FAULT.at [ch / 64]) 8).raise ⟨0x0033, 3, 4 + ch / 64, ch, 0xFF, 0, none, 0, 0⟩ none
  else p1

/-- 13 R398 R400: the third failed run in a row fails the channel. -/
def Part.retrained (p : Part) (ch : Nat) (ok : Bool) (ns : Nat) : Part :=
  let p1 := (p.bump32 (chReg Reg.MEM_CH_RETRAINS ch) 1).waited ch ns
  let n := if ok then 0 else Tab.get 0 p.retrainFails ch + 1
  let p2 : Part := { p1 with retrainFails := Tab.put 0 p1.retrainFails ch n }
  if 3 ≤ n then
    ((p2.orReg (chReg Reg.MEM_CH_STAT ch) 2).orReg (Reg.MEM_FAULT.at [ch / 64]) 4).raise
      ⟨0x0032, 3, 4 + ch / 64, ch, 0xFF, 0, none, 0, 0⟩ none
  else p2

/-- The channel works: it exists, its domain is on (19 R562) and it has not failed. -/
def Part.chAlive (p : Part) (ch : Nat) : Bool := decide (ch < 128) && p.domainM (ch / 64) (ch % 64 / 8) && !bitOf (p.regN (chReg Reg.MEM_CH_STAT ch)) 1

/-- An event of the memory side, with what it frees at the core whose operation it serves. -/
def Part.forReq (p : Part) (r : Option Req) (f : Part → Part) : Part := match r with
  | some x => p.onTheCore x.core (fun q => (f q).unstall x.core)
  | none => f p

def execRowRead (addr : Nat) (link : Link) (ecc : Nat) (s : State) : Host.Outcome State Fault Refusal :=
  s.event (fun p => p.forReq (p.readerOf addr) (fun q => q.readRow addr link ecc))

def execRowWrite (addr : Nat) (s : State) : Host.Outcome State Fault Refusal :=
  s.event (fun p => p.forReq (p.writerOf addr) (fun q => q.writeTo addr))

def execPartialWrite (addr : Nat) (s : State) : Host.Outcome State Fault Refusal := s.live (·.mergePartial addr)

def execRefresh (ch rate : Nat) (hot : Bool) (waited : Nat) (s : State) : Host.Outcome State Fault Refusal :=
  s.live (fun p => if p.chAlive ch then p.refreshed ch rate hot waited else p)

def execRetrain (ch : Nat) (ok : Bool) (waited : Nat) (s : State) : Host.Outcome State Fault Refusal :=
  s.live (fun p => if p.chAlive ch then p.retrained ch ok waited else p)

end Sys2Proof.Machine
end

