-- ==== Sys2Proof/Machine/Tasks.lean ====
section
/-! DEFINITION. Submission, dependences, predicates and fan tasks; share accounts (10 R294 to R308 R314). -/

namespace Sys2Proof.Machine

open Sys2Proof

/-! ### The task descriptor (10 R294 to R296) -/

structure TaskDesc where
  id : Nat
  gen : Nat
  scene : Nat
  seat : Nat
  seatRsv : Nat
  group : Nat
  kind : Nat
  npred : Nat
  nptr : Nat
  cost : Nat
  flags : Nat
  shape : Nat
  fanMax : Nat
  pred : Nat
  preds : List Nat
  ptrs : List Nat
  deriving DecidableEq, Repr

def taskDesc (b : List Byte) : TaskDesc :=
  { id := leAt b 0 4, gen := leAt b 4 2, scene := leAt b 6 2, seat := leAt b 8 2 % 4096, seatRsv := leAt b 8 2 / 4096,
    group := fld (leAt b 10 1) 0 6, kind := fld (leAt b 10 1) 6 2, npred := fld (leAt b 11 1) 0 4, nptr := fld (leAt b 11 1) 4 4,
    cost := leAt b 12 2, flags := leAt b 14 2, shape := leAt b 16 6, fanMax := leAt b 22 2, pred := leAt b 24 8,
    preds := (List.range 8).map (fun i => leAt b (32 + 6 * i) 6), ptrs := (List.range 8).map (fun i => leAt b (80 + 6 * i) 6) }

def TaskDesc.flag (d : TaskDesc) (i : Nat) : Bool := bitOf d.flags i
def TaskDesc.ovf (d : TaskDesc) : Bool := d.flag 1
def TaskDesc.ovfPtr (d : TaskDesc) : Nat := d.preds.getD 7 0

/-- The predicate word (10 R302). -/
def predCond (w : Nat) : Nat := fld w 0 3
def predAddr (w : Nat) : Nat := fld w 3 45 * 8
def predBit (w : Nat) : Nat := fld w 48 6

/-- Where shape records, overflow lists and predicates may lie (10 R297). -/
def Home.taskData : Home → Bool
  | .lpddr => true
  | .staging _ => true
  | .store _ _ => true
  | _ => false

/-! ### Reads of the stage manager -/

/-- The overflow list's count, and its faults (10 R296 R297). -/
def Part.ovfCount (p : Part) (d : TaskDesc) : Nat := p.natAt d.ovfPtr 4
def Part.ovfBad (p : Part) (d : TaskDesc) : Bool :=
  let c := p.ovfCount d
  (p.readFault d.ovfPtr).isSome || decide (c = 0) || decide (1024 < c) || (p.readSpan d.ovfPtr (8 + 8 * c)).2.isSome

/-- The rows of an overflow list are read, a damaged one noted. -/
def Part.readOvf (p : Part) (d : TaskDesc) : Part :=
  if d.ovf then
    let (q, f) := p.readSpan d.ovfPtr (if (p.readFault d.ovfPtr).isSome || decide (1024 < p.ovfCount d) then 8 else 8 + 8 * p.ovfCount d)
    q.noteFault f
  else p

/-- Every predecessor a descriptor names, as (id, gen). -/
def Part.predsOf (p : Part) (d : TaskDesc) : List (W32 × W16) :=
  let key := fun (x : Nat) => (BitVec.ofNat 32 x, BitVec.ofNat 16 (x / 2 ^ 32))
  ((d.preds.take d.npred).map key) ++
    (if d.ovf then (List.range (p.ovfCount d)).map (fun j => key (p.natAt (d.ovfPtr + 8 + 8 * j) 6)) else [])

/-! ### Refusal (10 R297) -/

def Part.dupFault (p : Part) (d : TaskDesc) : Bool :=
  p.stg.tasks.any (fun t => t.key.id.toNat == d.id && t.key.gen.toNat == d.gen)

def Part.sceneFault (p : Part) (d : TaskDesc) : Bool :=
  decide (d.kind < 2) && (match p.sceneOf d.scene with | some s => s.retiring | none => true)

def TaskDesc.kindFault (d : TaskDesc) : Bool := match d.kind with
  | 0 => d.fanMax != 0
  | 1 => d.nptr != 8 || d.fanMax == 0 || decide (4096 < d.fanMax)
  | 2 => d.scene != 0 || d.shape != 0 || d.nptr != 0 || d.fanMax != 0
  | _ => true

/-- A seat that new submissions may name (10 R315). -/
def Part.seatUsable (p : Part) (s : Nat) : Bool := bitOf (p.regN (Reg.STG_SEAT_CFG.at [s])) 0 && !p.stg.seatOff.elem s

def Part.seatFault (p : Part) (d : TaskDesc) : Bool :=
  if d.flag 5 then !p.seatUsable d.seat || d.group != 0 else d.seat != 0 || d.flag 6 || d.flag 7

def TaskDesc.fieldFault (d : TaskDesc) : Bool :=
  d.seatRsv != 0 || decide (2048 ≤ d.flags) || decide (4 < predCond d.pred) || fld d.pred 54 10 != 0 ||
  decide (8 < d.npred) || decide (8 < d.nptr) || (d.ovf && decide (7 < d.npred)) ||
  ((d.preds.take (if d.ovf then 7 else 8)).drop d.npred).any (· != 0) || (d.ptrs.drop d.nptr).any (· != 0)

def Part.ptrFault (p : Part) (d : TaskDesc) : Bool :=
  d.shape % 64 != 0 || (d.shape != 0 && !(p.homeAt d.shape).taskData) ||
  (d.ovf && (d.ovfPtr % 64 != 0 || !(p.homeAt d.ovfPtr).taskData)) ||
  (predCond d.pred != 0 && !(p.homeAt (predAddr d.pred)).taskData)

/-- The lowest code of a descriptor's faults, 0 without one. -/
def Part.refusalCode (p : Part) (d : TaskDesc) : Nat :=
  if p.dupFault d then 1 else if p.sceneFault d then 2 else if d.kindFault then 3 else if p.seatFault d then 4
  else if d.fieldFault then 5 else if p.ptrFault d then 6 else if d.ovf && p.ovfBad d then 7 else 0

/-! ### Home die (10 R307) -/

/-- Tasks of a scene that wait on a die, and replicas of the scene on it. -/
def Part.sceneWaiting (p : Part) (sc d : Nat) : Nat :=
  (p.stg.tasks.filter (fun t => t.scene == sc && t.home == d &&
    (decide (t.st = .waiting) || decide (t.st = .ready) || decide (t.st = .placed)))).length
def Part.sceneReplicas (p : Part) (sc d : Nat) : Nat := (p.stg.replicas.filter (fun r => r.scene == sc && r.die == d)).length

/-- The home die of a descriptor, none while no die that may be home has a free slot (10 R298). -/
def Part.homeDie (p : Part) (d : TaskDesc) : Option Nat :=
  let free := (List.range 4).filter (fun x => p.slotsFree x != 0)
  if d.kind = 2 then pickMin (fun a b => decide (p.slotsFree b < p.slotsFree a)) free
  else pickMin (fun a b => decide (p.sceneWaiting d.scene a * p.sceneReplicas d.scene b < p.sceneWaiting d.scene b * p.sceneReplicas d.scene a))
    (free.filter (fun x => p.sceneReplicas d.scene x != 0))

/-! ### Dependences (10 R300 to R302) -/

/-- A task that may run: READY and placed, EXPANDING, or for a barrier DONE. -/
def Part.letRun (p : Part) (k : TaskKey) : Part := match p.task k with
  | none => p
  | some t => match t.kind with
    | 1 => p.onTask k (fun x => { x with st := .expanding })
    | 2 => p.finish k 0 0
    | _ => (p.onTask k (fun x => { x with st := .ready, stamp := p.tim.now })).place

/-- The last predecessor has resolved (10 R301). -/
def Part.resolved (p : Part) (k : TaskKey) : Part := match p.task k with
  | none => p
  | some t =>
    if t.predFailed && !t.flag 4 then p.finish k 2 0x10
    else if t.predSkipped && t.flag 3 then p.finish k 1 0
    else if predCond t.pred.toNat = 0 then p.letRun k
    else p.onTask k (fun x => { x with askPred := true })

/-- A new task's record in its slot. -/
def Part.newTask (p : Part) (d : TaskDesc) (src : Source) (home : Nat) : Task :=
  { key := ⟨BitVec.ofNat 32 d.id, BitVec.ofNat 16 d.gen, 0xFFFF⟩, scene := d.scene, seat := d.seat, group := d.group, kind := d.kind,
    cost := d.cost, flags := BitVec.ofNat 16 d.flags, shape := d.shape, fanMax := d.fanMax, pred := BitVec.ofNat 64 d.pred,
    preds := (p.predsOf d).filter (fun x => p.stg.tasks.any (fun t => t.key.id == x.1 && t.key.gen == x.2 && t.key.child == 0xFFFF)),
    predFailed := false, predSkipped := false, ptrs := d.ptrs.take d.nptr, src := src, home := home, slot := p.freeSlot home,
    st := .waiting, askPred := false, stamp := 0, aborts := 0, anchor := none, claimed := none, save := none, list := [],
    nextChild := 0, children := 0, childFailed := false, listRead := false, beat0 := 0, overrun := false, charged := 0 }

/-- A task takes its slot and counts for its seat (10 R298 R327). -/
def Part.addTask (p : Part) (t : Task) : Part :=
  let p1 := if t.seatEn then p.bump (Reg.STG_SEAT_INFLIGHT.at [t.seat]) 1 else p
  { p1 with stg := { p1.stg with tasks := p1.stg.tasks ++ [t] } }

/-- The head of a host ring moves on when the lead stage manager has taken an entry (16 R491). -/
def Part.consume (p : Part) (src : Source) : Part := match src with
  | .ring i =>
    let r := Reg.HST_SQ_HEAD.at [i]
    let size := ringSize (p.regFld (Reg.HST_SQ_CFG.at [i]) 0 4)
    let p1 := p.setRegN r ((p.regFld r 0 16 + 1) % size)
    { p1 with hst := { p1.hst with turn := (i + 1) % 1024 } }
  | _ => p

/-- A refused descriptor: the code goes to `STG_LAST_REFUSE` and to the submitter (10 R297, 16 R497). -/
def Part.refuseTask (p : Part) (d : TaskDesc) (src : Source) (code : Nat) : Part :=
  let p1 := p.setRegN (Reg.STG_LAST_REFUSE.at [0]) (d.id + d.gen * 2 ^ 32 + code * 2 ^ 48)
  match src with
  | .ring i => p1.putRecord (p1.cqOf i) (recordBytes (some ⟨BitVec.ofNat 32 d.id, BitVec.ofNat 16 d.gen, 0xFFFF⟩) 2 code 0 d.seat i p.tim.now 0)
  | _ => p1

/-- A descriptor decided: refused, or in flight (10 R297 to R301). -/
def Part.judge (p : Part) (s : Submission) : Part :=
  let d := taskDesc s.desc
  let p1 := p.consume s.src
  match p.refusalCode d, p.homeDie d with
  | 0, some h =>
    let t := p.newTask d s.src h
    let p2 := (p1.readOvf d).addTask t
    if t.preds.isEmpty then p2.resolved t.key else p2
  | c, _ => (if c = 7 then p1.readOvf d else p1).refuseTask d s.src c

/-- A descriptor that can be decided now: refused, or with a slot to go to. -/
def Part.decidable (p : Part) (s : Submission) : Bool :=
  let d := taskDesc s.desc
  p.refusalCode d != 0 || (p.homeDie d).isSome

/-- The first submission of each source, in the order of arrival. -/
def heads : List Source → List Submission → List Submission
  | _, [] => []
  | seen, s :: ss => if seen.any (fun x => decide (x = s.src)) then heads seen ss else s :: heads (s.src :: seen) ss

def Part.takeSubmission (p : Part) (s : Submission) : Part :=
  Part.judge { p with stg := { p.stg with inbox := dropFirst (fun x => decide (x = s)) p.stg.inbox } } s

/-- The submission served next: of the sources whose next descriptor can be decided the one that came first, and among host rings
the one whose turn it is (16 R491, log 26). -/
def Part.nextSubmission (p : Part) : Option Submission :=
  let ready := (heads [] p.stg.inbox).filter p.decidable
  let turn := fun (s : Submission) => match s.src with | .ring i => (i + 1024 - p.hst.turn) % 1024 | _ => 0
  let isRing := fun (s : Submission) => match s.src with | .ring _ => true | _ => false
  match ready with
  | [] => none
  | s :: _ => if isRing s then pickMin (fun a b => decide (turn a < turn b)) (ready.filter isRing) else some s

/-- House firmware's descriptor joins its earlier ones; otherwise the first source whose next descriptor can be decided is served. -/
def Part.submit (p : Part) : Option (List Byte) → Part
  | some b =>
    let p1 : Part := { p with stg := { p.stg with inbox := p.stg.inbox ++ [⟨.house, padTo 128 b⟩] } }
    match p1.stg.inbox.find? (fun s => decide (s.src = .house)) with
    | some s => if p1.decidable s then p1.takeSubmission s else p1
    | none => p1
  | none => match p.nextSubmission with
    | some s => p.takeSubmission s
    | none => p

/-- 10 R301: every predecessor of a waiting task has resolved. -/
def Part.predResolve (p : Part) (k : TaskKey) : Part := match p.task k with
  | some t => if decide (t.st = .waiting) && t.preds.isEmpty && !t.askPred then p.resolved k else p
  | none => p

/-- A stage manager's own error on a task of its die (18 R535: the die's domain). -/
def Part.stgError (p : Part) (source : Nat) (t : Task) (addr cause : Nat) : Part :=
  (p.raise ⟨source, 3, t.home, 0, 0xFF, 0, some t.key, addr, 0⟩ (some cause))

/-- The test of the predicate word (10 R302). -/
def predHolds (w v : Nat) : Bool := match predCond w with
  | 1 => v != 0
  | 2 => v == 0
  | 3 => bitOf v (predBit w)
  | 4 => !bitOf v (predBit w)
  | _ => true

/-- 10 R302. -/
def Part.predRead (p : Part) (k : TaskKey) : Part := match p.task k with
  | none => p
  | some t =>
    if !(decide (t.st = .waiting) && t.askPred) then p
    else
      let a := predAddr t.pred.toNat
      let p1 := p.onTask k (fun x => { x with askPred := false })
      match p1.readSpan a 8 with
      | (q, some f) => (q.noteFault (some f)).stgError 0x0075 t a 0x13
      | (q, none) => if predHolds t.pred.toNat (p.natAt a 8) then q.letRun k else q.finish k 1 0

/-! ### Fan tasks (10 R305 R306) -/

/-- The entries of an index list that make children: number and value. -/
def Part.fanEntries (p : Part) (a : Nat) : List (Nat × Nat) :=
  ((List.range (p.natAt a 4)).map (fun j => (j, p.natAt (a + 4 + 4 * j) 4))).filter (fun e => e.2 != 0xFFFFFFFF)

/-- A fan whose children are complete, once it is HOLDING. -/
def Part.fanHold (p : Part) (k : TaskKey) : Part := match p.task k with
  | none => p
  | some t =>
    let p1 := p.onTask k (fun x => { x with st := .holding })
    if t.children = 0 then p1.finish k (if t.childFailed then 2 else 0) (if t.childFailed then 0x10 else 0) else p1

def Part.fanRead (p : Part) (k : TaskKey) : Part := match p.task k with
  | none => p
  | some t =>
    if !(decide (t.st = .expanding) && !t.listRead) then p
    else
      let a := t.ptrs.getD 7 0
      let es := p.fanEntries a
      let (q, f) := p.readSpan a (if (p.readFault a).isSome then 4 else 4 + 4 * p.natAt a 4)
      if f.isSome || decide (t.fanMax < es.length) then (q.noteFault f).stgError 0x0075 t a 0x12
      else
        let p1 := q.onTask k (fun x => { x with listRead := true, list := es })
        if es.isEmpty then p1.fanHold k else p1

/-- The child for entry `j` with value `x`. -/
def Part.childOf (p : Part) (t : Task) (j x : Nat) : Task :=
  { t with
    key := { t.key with child := BitVec.ofNat 16 t.nextChild }
    kind := 0
    fanMax := 0
    pred := 0
    preds := []
    shape := if t.shape = 0 then 0 else (t.shape + 64 * x) % 2 ^ 48
    ptrs := t.ptrs.take 7 ++ [(t.ptrs.getD 7 0 + 4 + 4 * j) % 2 ^ 48]
    slot := p.freeSlot t.home
    st := .ready
    stamp := p.tim.now
    aborts := 0
    list := []
    nextChild := 0
    children := 0
    listRead := false }

def Part.fanChild (p : Part) (k : TaskKey) : Part := match p.task k with
  | none => p
  | some t => match t.list with
    | [] => p
    | (j, x) :: rest =>
      if !(decide (t.st = .expanding) && t.listRead) || p.slotsFree t.home == 0 then p
      else
        let c := p.childOf t j x
        let p1 := (p.onTask k (fun y => { y with list := rest, nextChild := t.nextChild + 1, children := t.children + 1 })).addTask c
        let p2 := p1.place
        if rest.isEmpty then p2.fanHold k else p2

/-! ### Share accounts (10 R314) -/

/-- The decay exponent and the tick. -/
def Part.shareD (p : Part) : Nat := max 1 (p.regFld (Reg.STG_SHARE_CFG.at []) 0 4)

/-- The number of the tick of 2^t µs that a time lies in. -/
def Part.tickNo (p : Part) (t : W64) : Nat := t.toNat / (1000 * 2 ^ p.regFld (Reg.STG_SHARE_CFG.at []) 4 3)

/-- A tick has ended since the balances were last brought up to date. -/
def Part.tickOver (p : Part) : Bool := p.tickNo p.tim.now != p.tickNo p.stg.tickAt

/-- At the end of a tick every running task is charged, then every balance decays and takes its group's charge. -/
def Part.endTick (p : Part) : Part :=
  let p1 := forEach (p.stg.replicas) (fun r x => x.accrue r) p
  let d := p.shareD
  let p2 := forEach (List.range 64) (fun g x =>
    let b := p1.regN (Reg.STG_SHARE_BAL.at [0, g])
    x.setRegN (Reg.STG_SHARE_BAL.at [0, g]) ((b - b / 2 ^ d + Tab.get 0 p1.stg.charge g) % 2 ^ 64)) p1
  { p2 with stg := { p2.stg with charge := [], tickAt := p.tim.now } }

/-- 10 R314. -/
def Part.shareTick (p : Part) : Part := if p.tickOver then p.endTick else p

def execTaskSubmit (house : Option (List Byte)) (s : State) : Host.Outcome State Fault Refusal := s.live (·.submit house)
def execPredecessorResolve (k : TaskKey) (s : State) : Host.Outcome State Fault Refusal := s.live (·.predResolve k)
def execPredicateRead (k : TaskKey) (s : State) : Host.Outcome State Fault Refusal := s.live (·.predRead k)
def execFanListRead (k : TaskKey) (s : State) : Host.Outcome State Fault Refusal := s.live (·.fanRead k)
def execFanChildCreate (k : TaskKey) (s : State) : Host.Outcome State Fault Refusal := s.live (·.fanChild k)
def execShareTick (s : State) : Host.Outcome State Fault Refusal := s.live (·.shareTick)

end Sys2Proof.Machine
end

