-- ==== Sys2Proof/Machine/HostIo.lean ====
section
/-! DEFINITION. The host ports: rings, doorbells, MSI-X, function level reset and BAR2 (16 R485 to R500). -/

namespace Sys2Proof.Machine

open Sys2Proof

/-! ### Submission rings (16 R490 to R495) -/

def Part.sqCfg (p : Part) (i : Nat) : Nat := p.regN (Reg.HST_SQ_CFG.at [i])
def Part.sqEnabled (p : Part) (i : Nat) : Bool := bitOf (p.sqCfg i) 4
def Part.sqPort (p : Part) (i : Nat) : Nat := fld (p.sqCfg i) 5 1
def Part.sqSize (p : Part) (i : Nat) : Nat := ringSize (fld (p.sqCfg i) 0 4)
def Part.sqHead (p : Part) (i : Nat) : Nat := p.regFld (Reg.HST_SQ_HEAD.at [i]) 0 16

/-- Entries of ring `i` that have been read and wait for the lead stage manager. -/
def Part.sqRead (p : Part) (i : Nat) : Nat := (p.stg.inbox.filter (fun s => decide (s.src = .ring i))).length

/-- Index of the next entry to read, and how many lie before the tail. -/
def Part.sqNext (p : Part) (i : Nat) : Nat := (p.sqHead i + p.sqRead i) % p.sqSize i
def Part.sqLeft (p : Part) (i : Nat) : Nat := ((p.ring i).tail + p.sqSize i - p.sqNext i) % p.sqSize i

/-- The reads of host memory for `n` entries of a ring from index `k` on: one, or two when they wrap. -/
def Part.readEntries (p : Part) (i k n : Nat) : Part :=
  let base := p.regN (Reg.HST_SQ_BASE.at [i])
  let first := min n (p.sqSize i - k)
  let p1 := if first = 0 then p else p.emit (.hostRead (p.sqPort i) (base + 128 * k) (128 * first))
  if n - first = 0 then p1 else p1.emit (.hostRead (p.sqPort i) base (128 * (n - first)))

/-- A write of `v` to the submission doorbell of ring `i` through a port. -/
def Part.sqDoorbell (p : Part) (port i : Nat) (v : W32) : Part :=
  if !p.portUp port then p
  else if !p.sqEnabled i || decide (p.sqPort i ≠ port) || decide (p.phase = .provision) then p.refuse 4 (0x200 * i) port
  else if p.sqSize i ≤ v.toNat then p.event (Reg.HST_RING_STAT.at [i]) 1
  else
    let p1 := p.onRing i (fun r => { r with tail := v.toNat })
    p1.readEntries i (p1.sqNext i) (p1.sqLeft i)

/-- Host memory answers a ring's read: the entries are handed over in ring order, or the ring fails (16 R491 R493). -/
def Part.ringRead (p : Part) (i : Nat) (entries : Option (List (List Byte))) : Part :=
  if !p.sqEnabled i || !p.portUp (p.sqPort i) || p.sqLeft i == 0 then p
  else match entries with
  | none => (p.setFld (Reg.HST_SQ_CFG.at [i]) 4 1 0).event (Reg.HST_RING_STAT.at [i]) 4
  | some es =>
    { p with stg := { p.stg with inbox := p.stg.inbox ++ (es.take (p.sqLeft i)).map (fun b => ⟨.ring i, padTo 128 b⟩) } }

/-! ### Completion rings (16 R497 to R500) -/

/-- A write of `v` to the completion head doorbell of ring `i`. -/
def Part.cqDoorbell (p : Part) (port i : Nat) (v : W32) : Part :=
  if !p.portUp port then p
  else if !p.cqEnabled i || decide (p.cqPort i ≠ port) || decide (p.phase = .provision) then p.refuse 4 (0x200 * i + 8) port
  else (p.onRing i (fun r => { r with cqHead := v.toNat })).flushHeld i 256

/-- The time threshold of 16 R499 is reached by the oldest unsignalled record. -/
def Part.cqTimeout (p : Part) (i : Nat) : Part :=
  let thr := fld (p.cqCfg i) 24 8
  match (p.ring i).oldest with
  | some t => if thr ≠ 0 ∧ thr * 1000 ≤ (p.tim.interval - t).toNat then p.signalRing i else p
  | none => p

/-- A disabled completion ring holds no records: those held for it are lost (16 R500, log 30). -/
def Part.dropHeld (p : Part) (i : Nat) : Part :=
  let n := (p.ring i).held.length
  let p1 := p.onRing i (fun r => { r with held := [], fresh := 0, oldest := none })
  forEach (List.range n) (fun _ x => x.loseRecord i) p1

/-! ### MSI-X and function level reset (16 R488 R499 R500) -/

/-- A dword of the MSI-X table; a vector unmasked with its pending bit set signals. -/
def Part.writeMsix (p : Part) (port i : Nat) (v : W32) : Part :=
  let p1 := p.setMsixDword port i v
  let vec := i / 4
  if i % 4 = 3 ∧ v.toNat % 2 = 0 ∧ Tab.get false p.hst.pba (1024 * port + vec) = true then
    ({ p1 with hst := { p1.hst with pba := Tab.put false p1.hst.pba (1024 * port + vec) false } }).signal port vec
  else p1

/-- A write to BAR4: a doorbell, the MSI-X table, the pending-bit array, which it leaves, or a reserved offset. -/
def Part.bar4Write (p : Part) (port off : Nat) (v : W32) : Part :=
  if !p.portUp port then p
  else if off < 0x80000 then
    (if off % 0x200 = 0 then p.sqDoorbell port (off / 0x200) v
     else if off % 0x200 = 8 then p.cqDoorbell port (off / 0x200) v
     else p.refuse 2 off port)
  else if off < 0x84000 then (if off % 4 = 0 then p.writeMsix port ((off - 0x80000) / 4) v else p.refuse 2 off port)
  else if off < 0x84080 then p
  else p.refuse 2 off port

/-- 16 R500. -/
def Part.flr (p : Part) (port : Nat) : Part :=
  if !p.portUp port then p
  else
  let p1 := forEach (List.range 1024) (fun i x => if x.sqPort i = port then x.setFld (Reg.HST_SQ_CFG.at [i]) 4 1 0 else x) p
  let p2 := forEach (List.range 1024) (fun i x =>
    if x.cqPort i = port then (x.setFld (Reg.HST_CQ_CFG.at [i]) 4 1 0).dropHeld i else x) p1
  let p3 := p2.setReg (Reg.HST_WIN.at [port]) 0
  { p3 with hst := { p3.hst with
      msix := p3.hst.msix.filter (fun e => decide (e.1 / 4096 ≠ port))
      pba := p3.hst.pba.filter (fun e => decide (e.1 / 1024 ≠ port)) } }

/-! ### What a port reports (16 R482) -/

/-- The identification of a port in its configuration space: class code, vendor and device. -/
structure PortIdent where
  cls : BitVec 24
  vendor : W16
  device : W16
  deriving DecidableEq, Repr

/-- A port whose link is up reports a processing accelerator of the vendor and device that Config names. -/
def Part.portIdent (p : Part) (port : Nat) : Option PortIdent :=
  if p.portUp port then some ⟨0x120000, Config.pciVendor, Config.pciDevice⟩ else none

/-! ### BAR2 (16 R485 to R489, 06 R194, 13 R394, 18 R529 R531) -/

/-- A place that no BAR2 access may touch (16 R489, 13 R381, 15 R459 R472, 18 R584, 06 R194, log 31). -/
def Part.bar2Bad (p : Part) (x : Nat × Nat) : Bool :=
  p.inPool x.1 x.2 ||
  match p.homeAt x.1 with
  | .lpddr => p.chFailed x.1
  | .staging _ => false
  | .store cl _ => p.darkCluster cl
  | .view c _ => p.darkCluster (c / 16) || x.1 % 4 != 0 || x.2 % 4 != 0
  | .config => false
  | _ => true

/-- Pieces on failed channels are counted and recorded (13 R398 R584). -/
def Part.noteFailed (p : Part) (ps : List (Nat × Nat)) : Part :=
  forEach (ps.filter (fun x => decide (p.homeAt x.1 = .lpddr) && p.chFailed x.1)) (fun x q => q.noteDamaged x.1) p

/-- Earlier partial writes of the row, done now in their order (13 R394; a PCI Express read does not pass a write, log 31). -/
def Part.drainRow (p : Part) (a : Nat) : Part :=
  forEach (p.partials.filter (fun q => q.addr / 512 == a / 512)) (fun q x => x.mergePartial q.addr) p

/-- One piece of a BAR2 write. -/
def Part.bar2Put (p : Part) (port a : Nat) (l : List Byte) : Part :=
  let whole := l.length == 512
  match p.homeAt a with
  | .lpddr | .staging _ =>
    if whole then ((p.drainRow a).writeRow a l 0).bell a 512 none
    else { p with partials := p.partials ++ [⟨a, l, port⟩] }
  | .store _ _ =>
    if whole then p.writeRow a l 0 else p.rmw a l
  | .view _ _ => p.viewPut (a, l)
  | _ => p

/-- A row or words of it that a BAR2 read finds bad: its report (18 R531 R533). -/
def Part.bar2Fault (p : Part) (a n : Nat) : Option Report := match p.homeAt a with
  | .view _ _ => p.viewFault a n
  | .config => none
  | _ => if p.rowGood a then none else some (p.rowReport 0x0031 none a)

/-- One piece of a BAR2 read: what has been read so far, and whether it is poisoned. -/
def Part.bar2Get (x : Part × List Byte × Bool) (y : Nat × Nat) : Part × List Byte × Bool :=
  let p := (x.1.drainRow y.1).countRead y.1
  match p.bar2Fault y.1 y.2 with
  | some e => ((p.noteDamaged y.1).raise e none, x.2.1 ++ p.bytesAt y.1 y.2, true)
  | none => (p, x.2.1 ++ p.bytesAt y.1 y.2, x.2.2)

/-- The package address of a BAR2 offset. -/
def Part.bar2Addr (p : Part) (port off : Nat) : Nat := p.regN (Reg.HST_WIN.at [port]) + off

/-- The port takes an access of `n` bytes at this offset: its link is up, the part is READY, and PCI Express carries it (16 R481 R485). -/
def Part.bar2Takes (p : Part) (port off n limit : Nat) : Bool :=
  p.portUp port && decide (p.phase = .ready) && decide (1 ≤ n) && decide (n ≤ limit) && decide (off + n ≤ 2 ^ 36)

def Part.bar2 (p : Part) (port off : Nat) (acc : Bar2) : Part :=
  let a := p.bar2Addr port off
  match acc with
  | .read n =>
    let ps := piecesOf a n
    if !p.bar2Takes port off n 4096 then p
    else if ps.any p.bar2Bad then ((p.noteFailed ps).refuse 1 a port).emit (.unsupported port)
    else if ps.any (fun x => p.mustWait x.1 false) then p.holdView port a acc
    else
      let (q, data, bad) := ps.foldl Part.bar2Get (p, [], false)
      q.emit (.readData port data bad)
  | .write l =>
    let ps := piecesOf a l.length
    if !p.bar2Takes port off l.length 512 then p
    else if ps.any p.bar2Bad then (p.noteFailed ps).refuse 1 a port
    else if ps.any (fun x => p.mustWait x.1 true) then p.holdView port a acc
    else forEach ps (fun x q => q.bar2Put port x.1 ((l.drop (x.1 - a)).take x.2)) p

def execSubmissionDoorbell (port ring : Nat) (v : W32) (s : State) : Host.Outcome State Fault Refusal :=
  .next (s.act (fun p => p.bar4Write port (0x200 * ring) v))
def execRingEntryRead (ring : Nat) (entries : Option (List (List Byte))) (s : State) : Host.Outcome State Fault Refusal :=
  .next (s.act (fun p => p.ringRead ring entries))
def execCompletionHeadDoorbell (port ring : Nat) (v : W32) (s : State) : Host.Outcome State Fault Refusal :=
  .next (s.act (fun p => p.bar4Write port (0x200 * ring + 8) v))
def execCompletionTimeThreshold (ring : Nat) (s : State) : Host.Outcome State Fault Refusal := .next (s.act (·.cqTimeout ring))
def execFunctionLevelReset (port : Nat) (s : State) : Host.Outcome State Fault Refusal := .next (s.act (·.flr port))
def execBar2Access (port off : Nat) (acc : Bar2) (s : State) : Host.Outcome State Fault Refusal := .next (s.act (fun p => p.bar2 port off acc))
def execMsixTableWrite (port off : Nat) (v : W32) (s : State) : Host.Outcome State Fault Refusal :=
  .next (s.act (fun p => p.bar4Write port off v))

end Sys2Proof.Machine
end

