-- ==== Sys2Proof/Machine/Clock.lean ====
section
/-! DEFINITION. The timebase: the tick, corrections, PPS, holdover (12 R352 to R356). -/

namespace Sys2Proof.Machine

open Sys2Proof

/-- The units of 2^-32 ns by which a tick is lengthened or shortened to absorb `slew` at 200 ppm (12 R354, log 28). -/
def slewStep (slew : Int) : Int := clampInt (-858993) 858993 slew

/-- `TIM_RATE` in units of 0.01 ppm: lowered while ahead, raised while behind. -/
def slewRate (slew : Int) : Nat := if slew = 0 then 0 else wrapInt 32 (if 0 < slew then -20000 else 20000)

def Part.setNow (p : Part) (v : W64) : Part := { p with tim := { p.tim with now := v, copies := List.replicate 7 v } }

/-- 1 ns of the reference clock: the timebase, its copies and the interval count advance at the corrected rate (12 R352 R354
R355 R356). While RESET_N is low the count holds 0. -/
def Part.tick (p : Part) : Part :=
  if p.phase = .off ∨ p.phase = .aux ∨ p.phase = .held then p
  else
    let t := p.tim
    let d := slewStep t.slew
    let total : Nat := ((t.frac.toNat : Int) + 2 ^ 32 - d).toNat
    let n := BitVec.ofNat 64 (total / 2 ^ 32)
    let q : Part := { p with tim := { t with
      now := t.now + n, interval := t.interval + n, frac := BitVec.ofNat 32 (total % 2 ^ 32), slew := t.slew - d
      copies := t.copies.map (· + n) } }
    if t.slew ≠ 0 ∧ t.slew = d then q.setRegN (Reg.TIM_RATE.at []) 0 else q

/-- An offset `e` in ns, positive when this part is ahead (12 R353 R354). -/
def Part.correct (p : Part) (e : Int) : Part :=
  let p1 := p.setRegN (Reg.TIM_OFFSET.at []) (wrapInt 32 (clampInt (-2147483648) 2147483647 e))
  let step := decide (e < 0) && decide (p.regN (Reg.TIM_STEP_MAX.at []) < e.natAbs) && bitOf (p.regN (Reg.TIM_CFG.at [])) 6
  let slew : Int := if step then 0 else e * 2 ^ 32
  let p2 : Part := { p1 with tim := { p1.tim with slew := slew } }
  let p3 := p2.setRegN (Reg.TIM_RATE.at []) (slewRate slew)
  if step then (p3.setNow (p3.tim.now + BitVec.ofNat 64 e.natAbs)).orReg (Reg.TIM_STAT.at []) 2 else p3

/-- An offset against whole seconds (12 R353). -/
def ppsOffset (t : Nat) : Int :=
  if 5 * 10 ^ 8 < t % 10 ^ 9 then ((t % 10 ^ 9 : Nat) : Int) - 10 ^ 9 else ((t % 10 ^ 9 : Nat) : Int)

def Part.timSrc (p : Part) : Nat := p.regFld (Reg.TIM_CFG.at []) 0 2

/-- 12 R353: a filtered edge of PPS_IN. -/
def Part.pps (p : Part) : Part := match (p.pwr.ins.getD 8 Input.reset).edge with
  | none => p
  | some at_ =>
    let p1 : Part := { p with
      pwr := { p.pwr with ins := modAt p.pwr.ins 8 (fun x => { x with edge := none }) }
      tim := { p.tim with ppsLast := p.tim.interval } }
    let p2 := p1.setReg (Reg.TIM_PPS_STAMP.at []) at_
    if p.timSrc = 1 then (p2.andNotReg (Reg.TIM_STAT.at []) 1).correct (ppsOffset at_.toNat) else p2

/-- 12 R353 R373: no edge for 1.5 s, or no timestamps from the parent for 10 ms. -/
def Part.holdOver (p : Part) : Part :=
  let since := fun (t : W64) => (p.tim.interval - t).toNat
  if p.timSrc = 1 ∧ 1500000000 ≤ since p.tim.ppsLast then p.orReg (Reg.TIM_STAT.at []) 1
  else if p.timSrc = 2 ∧ 10000000 ≤ since p.tim.parentLast then p.orReg (Reg.TIM_STAT.at []) 9
  else p

/-- The exchange with the parent port: the offset, if it gives one, and the end of a holdover (12 R353, 14 R412). -/
def Part.parentTime (p : Part) (e : Option Int) : Part :=
  let p1 : Part := { p with tim := { p.tim with parentLast := p.tim.interval } }
  let p2 := p1.andNotReg (Reg.TIM_STAT.at []) 1
  match e with
  | some x => p2.correct x
  | none => p2

/-- 12 R354: a write of `TIM_SET`. -/
def Part.timSet (p : Part) (v : W64) : Part :=
  if v.toNat < p.tim.now.toNat then p.orReg (Reg.TIM_STAT.at []) 4 else p.setNow v

def execPpsEdge (s : State) : Host.Outcome State Fault Refusal := .next (s.act (·.pps))
def execHoldover (s : State) : Host.Outcome State Fault Refusal := .next (s.act (·.holdOver))
/-- 12 R356: every copy of the timebase is aligned with E0's count. -/
def execTimebaseAlign (s : State) : Host.Outcome State Fault Refusal := .next (s.act (fun p => p.setNow p.tim.now))

end Sys2Proof.Machine
end

