-- ==== Sys2Proof/Machine/Links.lean ====
section
/-! DEFINITION. Packets and the sending side of a fabric port: headers, output queues, flits, replay and credits
(14 R408 to R411 R421). -/

namespace Sys2Proof.Machine

open Sys2Proof

/-! ### Headers (14 R421 R422) -/

structure Hdr where
  dst : Nat
  src : Nat
  vc : Nat
  fence : Bool
  job : Nat
  type : Nat
  circ : Bool
  length : Nat
  tags : Nat
  addr : Nat
  circuit : Nat
  arg : Nat
  xid : Nat
  ttl : Nat
  deriving DecidableEq, Repr

namespace Pkt
def PUT : Nat := 1
def GET_REQ : Nat := 2
def GET_RESP : Nat := 3
def SIGNAL : Nat := 4
def SIGNAL_ADD : Nat := 5
def RED : Nat := 6
def ACK : Nat := 7
def CURT_ARRIVE : Nat := 8
def CURT_RELEASE : Nat := 9
def BREAK : Nat := 10
end Pkt

def Hdr.word (h : Hdr) : Nat :=
  h.dst + h.src * 2 ^ 14 + h.vc * 2 ^ 28 + h.fence.toNat * 2 ^ 31 + h.job * 2 ^ 32 + h.type * 2 ^ 40 + h.circ.toNat * 2 ^ 45 +
  h.length * 2 ^ 48 + h.tags * 2 ^ 60 + h.addr * 2 ^ 64 + h.circuit * 2 ^ 112 + h.arg * 2 ^ 128 + h.xid * 2 ^ 192

/-- The 24 check bits of a header (14 R421). -/
def headCheck (b : List Byte) : Nat := (crc32c (b.take 28)).toNat % 2 ^ 24

def Hdr.bytes (h : Hdr) : List Byte :=
  let b := leBytes 28 h.word
  b ++ leBytes 1 h.ttl ++ leBytes 3 (headCheck b)

/-- The fields of a header. -/
def hdrOf (b : List Byte) : Hdr :=
  let w := leNat (b.take 32)
  { dst := fld w 0 14, src := fld w 14 14, vc := fld w 28 3, fence := bitOf w 31, job := fld w 32 8, type := fld w 40 5,
    circ := bitOf w 45, length := fld w 48 12, tags := fld w 60 4, addr := fld w 64 48, circuit := fld w 112 12,
    arg := fld w 128 64, xid := fld w 192 32, ttl := fld w 224 8 }

def Packet.hdr (k : Packet) : Hdr := hdrOf k.head
def Packet.bytes (k : Packet) : List Byte := k.head ++ k.body

/-- `FAB_CFG` (14 R446). -/
def Part.fabSelf (p : Part) : Nat := p.regFld (Reg.FAB_CFG.at []) 0 14
def Part.fabValid (p : Part) : Bool := bitOf (p.regN (Reg.FAB_CFG.at [])) 14
def Part.fabTtl (p : Part) : Nat := p.regFld (Reg.FAB_CFG.at []) 16 8

/-! ### Circuits (14 R437 R438) -/

def Part.circEntry (p : Part) (c : Nat) : Nat := p.regN (Reg.FAB_CIRC.at [c])
def circPort (w : Nat) : Nat := fld w 0 4
def circValid (w : Nat) : Bool := bitOf w 4
def circOrigin (w : Nat) : Bool := bitOf w 5
def circSink (w : Nat) : Bool := bitOf w 6
def circPartner (w : Nat) : Option Nat := if bitOf w 19 then some (fld w 7 12) else none
def circSinkDev (w : Nat) : Nat := fld w 20 14
def circOriginDev (w : Nat) : Nat := fld w 34 14

/-- An entry reserves its slots on its outbound port; at the sink the port is unused (log 39). -/
def reservesOn (entry port : Nat) : Bool := circValid entry && !circSink entry && circPort entry == port

/-! ### Ports -/

def Part.port (p : Part) (n : Nat) : Port := p.fab.ports.getD n Port.reset
def Part.onPort (p : Part) (n : Nat) (f : Port → Port) : Part := { p with fab := { p.fab with ports := modAt p.fab.ports n f } }

/-- A register of port `n`. -/
def portReg (r : RegRow) (n : Nat) : Nat := r.at [n]

/-- Link word and CRC around a payload of 244 B (14 R408). -/
def flitBytes (seq ack kind fvc cvc credits : Nat) (payload : List Byte) : List Byte :=
  let b := leBytes 8 (seq % 4096 + (ack % 4096) * 2 ^ 12 + kind * 2 ^ 24 + fvc * 2 ^ 27 + cvc * 2 ^ 30 + (min 32 credits) * 2 ^ 33) ++
    padTo 244 payload
  b ++ leBytes 4 (crc32c b).toNat

/-- The channel for which the next flit returns credits: the lowest that is owed any (14 R411). -/
def Port.oweVc (q : Port) : Nat := ((List.range 8).find? (fun v => decide (q.owe.getD v 0 ≠ 0))).getD 0

/-- A flit of any kind leaves port `n` in the present slot, returning credits for one channel and acknowledging what has come (14 R408 R411
R438). DESIGN CHOICE: the slots count the flits that the model sends (log 11). -/
def Part.sendFlit (p : Part) (n kind seq fvc : Nat) (payload : List Byte) : Part :=
  let q := p.port n
  let v := q.oweVc
  let c := min 32 (q.owe.getD v 0)
  (p.onPort n (fun x => { x with owe := x.owe.set v (q.owe.getD v 0 - c), slot := (x.slot + 1) % 64 })).emit
    (.flit n (flitBytes seq (q.rxSeq + 4095) kind fvc v c payload))

/-- What a flit takes from the packets of a channel: the bytes, the packets left, the bytes of the first of them that have gone, and the
packets that end in it. -/
structure Filled where
  bytes : List Byte
  rest : List Packet
  part : Nat
  ends : List Packet
  deriving DecidableEq, Repr

/-- Packets back to back in a flit with `room` bytes left, `o` bytes of the first having gone before (14 R409). -/
def fillFlit : Nat → Nat → List Packet → Filled
  | _, o, [] => ⟨[], [], o, []⟩
  | room, o, k :: ks =>
    let b := k.bytes.drop o
    if room = 0 then ⟨[], k :: ks, o, []⟩
    else if b.length ≤ room then
      let f := fillFlit (room - b.length) 0 ks
      { f with bytes := b ++ f.bytes, ends := k :: f.ends }
    else ⟨b.take room, k :: ks, o + room, []⟩

/-- A channel holds a packet and a credit. -/
def Port.ready (q : Port) (v : Nat) : Bool := !(q.outq.getD v []).isEmpty && decide (q.credits.getD v 0 ≠ 0)

/-- The circuit whose entry reserves the present slot of port `n` (14 R438). -/
def Part.slotOwner (p : Part) (n : Nat) : Option Nat :=
  (List.range 4096).find? (fun c => reservesOn (p.circEntry c) n && bitOf (p.regN (Reg.FAB_CIRC_SLOTS.at [c])) (p.port n).slot)

/-- Circuit packets with the first one of circuit `c` in front; a packet that is partly sent keeps its place. -/
def pullCircuit (c o : Nat) (ks : List Packet) : Option (List Packet) :=
  let mine := fun (k : Packet) => k.hdr.circuit == c
  if o ≠ 0 then (if (ks.head?.map mine).getD false then some ks else none)
  else (ks.find? mine).map (fun k => k :: dropFirst mine ks)

/-- The channel a port serves next and that channel's packets in order: in a reserved slot the flits of its circuit first (14 R438),
otherwise the lowest channel that holds a packet and a credit (log 23). -/
def Part.nextVc (p : Part) (n : Nat) : Option (Nat × List Packet) :=
  let q := p.port n
  let first := if q.ready 6 then (p.slotOwner n).bind (fun c => pullCircuit c (q.part.getD 6 0) (q.outq.getD 6 [])) else none
  match first with
  | some ks => some (6, ks)
  | none => ((List.range 7).find? q.ready).map (fun v => (v, q.outq.getD v []))

/-- A packet has left the receive buffers of its port: the credits of the flits it took up are owed, and a flit of the port returns them
(14 R411). -/
def Part.freed (p : Part) (k : Packet) : Part := match k.held with
  | none => p
  | some (n, v, f) =>
    let q := p.onPort n (fun x => { x with owe := x.owe.set v (x.owe.getD v 0 + f) })
    if (p.port n).st = 2 ∧ 0 < f then q.sendFlit n 1 0 0 [] else q

/-- DATA flits leave an UP port while packets, credits and room for replay last (14 R409 to R411 R447). -/
def Part.pumpPort (n : Nat) : Nat → Part → Part
  | 0, p => p
  | f + 1, p =>
    let q := p.port n
    if q.st ≠ 2 ∨ 512 ≤ q.replay.length then p
    else match p.nextVc n with
    | none => p
    | some (v, ks) =>
      let d := fillFlit 244 (q.part.getD v 0) ks
      let payload := padTo 244 d.bytes
      let p1 := p.onPort n (fun x => { x with
        outq := x.outq.set v d.rest
        part := x.part.set v d.part
        credits := x.credits.set v (x.credits.getD v 0 - 1)
        replay := x.replay ++ [⟨q.txSeq, v, payload, 0, d.ends⟩]
        txSeq := (q.txSeq + 1) % 4096
        ackAt := if q.replay.isEmpty then p.tim.interval else x.ackAt })
      let p2 := ((p1.sendFlit n 0 q.txSeq v payload).bump48 (portReg Reg.FAB_PORT_PKT_TX n) d.ends.length).bump
        (portReg Reg.FAB_PORT_BYTE_TX n) d.bytes.length
      Part.pumpPort n f p2

def Part.pump (p : Part) (n : Nat) : Part := p.pumpPort n 512

/-- Flits that a channel's output queue of a port fills (14 R447). -/
def Port.depth (q : Port) (v : Nat) : Nat :=
  min 255 (ceilDiv (((q.outq.getD v []).map (fun k => k.bytes.length)).sum - q.part.getD v 0) 244)

/-- The high-water mark of a channel's output queue follows its depth (14 R447). -/
def Part.markDepth (p : Part) (n v : Nat) : Part :=
  let d := (p.port n).depth v
  let r := if v < 4 then portReg Reg.FAB_PORT_VCQ_0 n else portReg Reg.FAB_PORT_VCQ_1 n
  let lo := 16 * (v % 4) + 8
  if p.regFld r lo 8 < d then p.setFld r lo 8 d else p

/-- A packet joins an output queue. -/
def Part.portSend (p : Part) (n v : Nat) (k : Packet) : Part :=
  ((p.onPort n (fun x => { x with outq := x.outq.set v (x.outq.getD v [] ++ [{ k with held := none }]) })).markDepth n v).pump n

/-- A curtain packet for one link (14 R422 R444). -/
def Part.sendCurt (p : Part) (n type c gen : Nat) : Part :=
  p.portSend n 0 ⟨(⟨0, p.fabSelf, 0, true, 0, type, false, 0, 0, 0, 0, c + gen * 64, 0, p.fabTtl⟩ : Hdr).bytes, [], none⟩

end Sys2Proof.Machine
end

