-- ==== Sys2Proof/Machine/Curtains.lean ====
section
/-! DEFINITION. Cue wires between clusters, remote counter additions, external cues and curtains (07 R235, 11 R333 to R346). -/

namespace Sys2Proof.Machine

open Sys2Proof

/-! ### Curtain nodes (11 R340 to R342) -/

/-- Scope, notify counter and package curtain of curtain `c` of a replica's scene. -/
def Part.curtDecl (p : Part) (r : Replica) (c : Nat) : Nat × Nat × Nat := match p.sceneOf r.scene with
  | some s => s.decl.getD c (0, 0, 0)
  | none => (0, 0, 0)

def Part.curtNode (p : Part) (cl c : Nat) : CurtState := Tab.get CurtState.reset (p.cluster cl).curts c
def Part.onNode (p : Part) (cl c : Nat) (f : CurtState → CurtState) : Part :=
  p.onCluster cl (fun k => { k with curts := Tab.put CurtState.reset k.curts c (f (Tab.get CurtState.reset k.curts c)) })

def Replica.node (r : Replica) (c : Nat) : CurtState := Tab.get CurtState.reset r.curts c
def Part.onRNode (p : Part) (anchor c : Nat) (f : CurtState → CurtState) : Part :=
  p.onReplica anchor (fun r => { r with curts := Tab.put CurtState.reset r.curts c (f (r.node c)) })

def Part.pcurt (p : Part) (k : Nat) : PCurt := Tab.get PCurt.reset p.stg.pcurts k
def Part.onPCurt (p : Part) (k : Nat) (f : PCurt → PCurt) : Part :=
  { p with stg := { p.stg with pcurts := Tab.put PCurt.reset p.stg.pcurts k (f (p.pcurt k)) } }

def Arrival.none : Arrival := { pending := false, waits := false }
def Core.arrival (k : Core) (c : Nat) : Arrival := Tab.get Arrival.none k.arrivals c
def Core.setArrival (k : Core) (c : Nat) (a : Arrival) : Core := { k with arrivals := Tab.put Arrival.none k.arrivals c a }

/-- Every participant is among those that arrived. -/
def CurtState.complete (n : CurtState) (who : List Nat) : Bool := !who.isEmpty && who.all (fun x => n.arrived.elem x)

def CurtState.arrive (n : CurtState) (x : Nat) : CurtState :=
  if n.arrived.elem x then n else { n with arrived := n.arrived ++ [x] }

/-- 11 R341: the generation advances and the arrival count is cleared. -/
def CurtState.next (n : CurtState) : CurtState := { gen := n.gen + 1, arrived := [] }

/-- Cores in a participant mask, and clusters of a replica that have participants. -/
def Part.participants (p : Part) (cl c : Nat) : List Nat := (List.range 16).filter (bitOf (p.curtMask cl c))
def Part.partClusters (p : Part) (r : Replica) (c : Nat) : List Nat := r.clusters.filter (fun cl => p.curtMask cl c != 0)

/-- Thread `t` of core `c` arrives at curtain `cur`, or waits for the release of the core's earlier arrival (11 R342). -/
def Part.arrive (p : Part) (c t cur : Nat) (wait : Bool) : Part :=
  let k := p.core c
  if (k.arrival cur).pending then p.onTh c t (fun th => th.await 7 (.rearrive cur wait))
  else
    let p1 := (p.setCore c (k.setArrival cur ⟨true, wait⟩)).onNode (clusterOf c) cur (fun n => n.arrive (c % 16))
    p1.onTh c t (fun th => if wait then th.await 7 (.curtain cur) else if th.st = .wait then th.ready else th)

/-- 07 R235. -/
def Part.doCurt (p : Part) (c t : Nat) : Part :=
  let w := p.wordAt c t
  (p.issued c t).arrive c t (fld w 54 4) (bitOf w 53)

/-- The release at one core: its waiting thread wakes, or its notify counter counts; then the threads that wait to arrive again,
the lowest first (11 R341 R342). -/
def Part.releaseCore (p : Part) (c cur notify : Nat) : Part :=
  let a := (p.core c).arrival cur
  if !a.pending then p
  else
    let p1 := p.onCore c (fun k => (k.setArrival cur Arrival.none))
    let p2 := if a.waits then
        p1.onCore c (fun k => { k with threads := k.threads.map (fun t => if t.on = .curtain cur then t.ready else t) })
      else p1.addCounter c notify 1
    forEach (List.range 8) (fun t x => match (x.th c t).on with
      | .rearrive cu w => if cu = cur then x.arrive c t cur w else x
      | _ => x) p2

def clusterCores (cl : Nat) : List Nat := (List.range 16).map (fun k => 16 * cl + k)

/-- The release in a cluster. -/
def Part.releaseCluster (p : Part) (cl cur notify : Nat) : Part :=
  forEach (clusterCores cl) (fun c x => x.onTheCore c (fun q => q.releaseCore c cur notify)) (p.onNode cl cur CurtState.next)

/-- The release of a whole replica: every node, then every core. -/
def Part.releaseReplica (p : Part) (r : Replica) (cur notify : Nat) : Part :=
  let p1 := forEach r.clusters (fun cl x => x.onNode cl cur CurtState.next) (p.onRNode r.anchor cur CurtState.next)
  forEach r.cores (fun c x => x.onTheCore c (fun q => q.releaseCore c cur notify)) p1

/-- Curtains of a replica's scene that are package curtain `k`. -/
def Part.curtainsOn (p : Part) (r : Replica) (k : Nat) : List Nat :=
  (List.range 16).filter (fun c => let d := p.curtDecl r c; decide (3 ≤ d.1) && d.2.2 == k)

/-! ### The package node (11 R344 to R346 R350, 14 R443 R444) -/

def Part.fabCurt (p : Part) (k : Nat) : Nat := p.regN (Reg.FAB_CURT.at [k])
def Part.curtKids (p : Part) (k : Nat) : List Nat := (List.range 16).filter (fun n => bitOf (p.fabCurt k) (n + 5))

/-- Package curtain `k` releases its generation: here, and on every child port of a fabric tree. -/
def Part.releasePackage (p : Part) (k : Nat) : Part :=
  let g := (p.pcurt k).gen
  let p1 := p.onPCurt k (fun n => { gen := n.gen + 1, tasks := [], kids := 0, sentUp := false, first := none })
  let p2 := if bitOf (p.pcurtCfg k) 13 then
      forEach (p.curtKids k) (fun n x => x.sendCurt n Pkt.CURT_RELEASE k g.toNat) p1
    else p1
  forEach (p.stg.replicas.filter (fun r => r.task.isSome)) (fun r x =>
    forEach (p.curtainsOn r k) (fun c y => y.releaseReplica r c (p.curtDecl r c).2.1) x) p2

/-- The package node has its own arrivals and those of its child ports. -/
def Part.pcurtComplete (p : Part) (k : Nat) : Bool :=
  let cfg := p.pcurtCfg k
  let n := p.pcurt k
  fld cfg 0 13 != 0 && decide (fld cfg 0 13 ≤ n.tasks.length) &&
    (!bitOf cfg 13 || (p.curtKids k).all (fun i => bitOf n.kids.toNat i))

/-- A complete package node releases, or sends one arrival to its parent port. -/
def Part.packageStep (p : Part) (k : Nat) : Part :=
  if !p.pcurtComplete k then p
  else if bitOf (p.pcurtCfg k) 13 && bitOf (p.fabCurt k) 4 then
    (if (p.pcurt k).sentUp then p
     else (p.onPCurt k (fun n => { n with sentUp := true })).sendCurt (fld (p.fabCurt k) 0 4) Pkt.CURT_ARRIVE k (p.pcurt k).gen.toNat)
  else p.releasePackage k

/-- A task's arrival at package curtain `k`, once in a generation (11 R344). -/
def PCurt.arrive (n : PCurt) (t : TaskKey) (now : W64) : PCurt :=
  if n.tasks.any (fun x => decide (x = t)) then n
  else { n with tasks := n.tasks ++ [t], first := n.first.orElse (fun _ => some now) }

/-- 11 R341: a node with all its arrivals passes one up, or releases. -/
def Part.curtainStep (p : Part) : CurtNode → Part
  | .cluster cl c => match p.replicaAt cl with
    | none => p
    | some r =>
      let d := p.curtDecl r c
      if !(p.curtNode cl c).complete (p.participants cl c) then p
      else if d.1 = 1 then p.releaseCluster cl c d.2.1
      else p.onRNode r.anchor c (fun n => n.arrive cl)
  | .scene anchor c => match p.replicaOf anchor with
    | none => p
    | some r =>
      let d := p.curtDecl r c
      if !(r.node c).complete (p.partClusters r c) then p
      else if d.1 = 2 then p.releaseReplica r c d.2.1
      else if d.1 = 0 ∨ d.1 = 1 then p
      else match r.task with
      | some k => p.onPCurt d.2.2 (fun n => n.arrive k p.tim.interval)
      | none => p
  | .package k => p.packageStep k

/-- The cores of a replica's task: those of the replica, or while the task is being restored those of its save. -/
def Part.taskCores (p : Part) (r : Replica) : List Core :=
  if r.st = .restoring then (p.stg.saved.filter (fun x => decide (some x.key = r.task))).flatMap (·.cores) else r.cores.map p.core

/-- A thread of the replica's task waits in a CURT on package curtain `k`. -/
def Part.waitsOn (p : Part) (r : Replica) (k : Nat) : Bool :=
  let cs := p.curtainsOn r k
  (p.taskCores r).any (fun x => x.threads.any (fun t => match t.on with
    | .curtain x => cs.elem x
    | .rearrive x _ => cs.elem x
    | _ => false))

/-- 11 R345. The next timeout of the generation is counted from this one (log 24). -/
def Part.curtTimeout (p : Part) (k : Nat) : Part :=
  let n := fld (p.pcurtCfg k) 14 4
  match (p.pcurt k).first with
  | some f =>
    if n = 0 ∨ (p.tim.interval - f).toNat ≤ 2 ^ (n - 1) * 100000 then p
    else
      let p1 := (p.bumpSat (Reg.STG_PCURT_TIMEOUTS.at [0, k]) 1).onPCurt k (fun x => { x with first := some p.tim.interval })
      forEach (p.stg.replicas.filter (fun r => p.taskRuns r && p.waitsOn r k)) (fun r x =>
        x.raise ⟨0x0075, 2, r.die, r.origin, 0xFF, 0, r.task, 0, 0⟩ none) p1
  | none => p

/-! ### Wires, remote additions, external cues -/

/-- 11 R333: a kind-2 CUE reaches its counter. -/
def Part.remoteAdd (p : Part) (c : Nat) : Part :=
  let here := fun (f : Flight) => match f with | .add k _ _ => k == c | _ => false
  match p.flight.find? here with
  | some (.add _ i v) => { p with flight := dropFirst here p.flight }.addCounter c i v.toNat
  | _ => p

/-- 11 R336: a forwarded firing, which goes no further. -/
def Part.forwarded (p : Part) (cl : Nat) : Part :=
  let here := fun (f : Flight) => match f with | .fire k _ => k == cl | _ => false
  match p.flight.find? here with
  | some (.fire _ w) => { p with flight := dropFirst here p.flight }.fireWire cl w
  | _ => p

/-- Every cluster of the roster. -/
def Part.rosterClusters (p : Part) : List Nat := (List.range 1600).filter p.onRoster

/-- 11 R338 R339: the stamp, the count, and the pending bit in every core. -/
def Part.cueEdge (p : Part) (i : Nat) : Part :=
  match (p.pwr.ins.getD i Input.reset).edge with
  | none => p
  | some at_ =>
    if 8 ≤ i then p
    else
      let p1 : Part := { p with pwr := { p.pwr with ins := modAt p.pwr.ins i (fun x => { x with edge := none }) } }
      let p2 := (p1.setReg (Reg.TIM_CUE_STAMP.at [i]) at_).bump (Reg.TIM_CUE_COUNT.at [i]) 1
      forEach (p.rosterClusters.flatMap clusterCores) (fun c x => x.onCore c (·.fire (64 + i))) p2

def execCurt (c t : Nat) (s : State) : Host.Outcome State Fault Refusal := s.cueOp c t Op.CURT (·.doCurt c t)
def execCueRemoteAdd (c : Nat) (s : State) : Host.Outcome State Fault Refusal :=
  s.live (fun p => p.onTheCore c (·.remoteAdd c))
def execWireForward (cl : Nat) (s : State) : Host.Outcome State Fault Refusal := s.live (·.forwarded cl)
def execCueInEdge (i : Nat) (s : State) : Host.Outcome State Fault Refusal := .next (s.act (·.cueEdge i))
def execCurtainRelease (node : CurtNode) (s : State) : Host.Outcome State Fault Refusal := s.live (·.curtainStep node)
def execPackageCurtainTimeout (k : Nat) (s : State) : Host.Outcome State Fault Refusal := s.event (·.curtTimeout k)

end Sys2Proof.Machine
end

