-- ==== Sys2Proof/Machine/Ports.lean ====
section
/-! DEFINITION. Fabric ports and router: training, flits received, replay, TIME flits, routing, circuits that lose a link
(14 R407 to R424 R437 R440 R443 to R445). -/

namespace Sys2Proof.Machine

open Sys2Proof

/-! ### Routing tables (14 R414 R419) -/

/-- Bit i of `active` false: table 0 is active. -/
def Part.routeEntry (p : Part) (dst : Nat) : Nat := (Tab.get 0 (if p.fab.active then p.fab.rt1 else p.fab.rt0) dst).toNat
def Part.shadowEntry (p : Part) (dst : Nat) : Nat := (Tab.get 0 (if p.fab.active then p.fab.rt0 else p.fab.rt1) dst).toNat

def Part.portUp' (p : Part) (n : Nat) : Bool := decide ((p.port n).st = 2)

def Part.showPort (p : Part) (n : Nat) : Part :=
  let q := p.port n
  p.setRegN (portReg Reg.FAB_PORT_STAT n) (q.st + q.locked.toNat * 4 + q.cause * 8)

/-! ### The NI's packets into the router -/

/-- A packet of this part's own NI enters the router of E-die `e`. -/
def Part.inject (p : Part) (e vc : Nat) (k : Packet) : Part :=
  { p with fab := { p.fab with transit := p.fab.transit ++ [⟨k, e, vc, p.tim.interval, true⟩] } }

/-- A header of this part with its address and hop count. -/
def Part.header (p : Part) (dst vc type : Nat) : Hdr :=
  { dst := dst, src := p.fabSelf, vc := vc, fence := false, job := 0, type := type, circ := false, length := 0, tags := 0, addr := 0,
    circuit := 0, arg := 0, xid := 0, ttl := p.fabTtl }

/-- The circuit that carries the packets of named circuit `c` (14 R440). -/
def Part.circNow (p : Part) (c : Nat) : Option Nat := Tab.get (some c) p.fab.switched c

/-- The pair of a circuit, named by the lower of its two numbers: the partner of its entry, or the entry that names it as partner
(14 R437 R439). -/
def Part.pairKey (p : Part) (c : Nat) : Nat :=
  let other := (circPartner (p.circEntry c)).orElse (fun _ => (List.range 4096).find? (fun d =>
    circValid (p.circEntry d) && circPartner (p.circEntry d) == some c && circSink (p.circEntry d) == circSink (p.circEntry c)))
  match other with
  | some u => min c u
  | none => c

/-- Unacknowledged packets of circuit `c` go out again, in order, on circuit `u`. -/
def Part.resend (p : Part) (c u : Nat) : Part :=
  let again := p.fab.unacked.filter (fun x => x.circuit == some c)
  let renew := fun (k : Packet) => (⟨({ k.hdr with circuit := u } : Hdr).bytes, k.body, none⟩ : Packet)
  let p1 := forEach again (fun x y => y.inject x.e 6 (renew x.pkt)) p
  { p1 with fab := { p1.fab with unacked := p1.fab.unacked.map (fun x => if x.circuit = some c then { x with pkt := renew x.pkt } else x) } }

/-! ### Failure of descriptors (14 R432) -/

/-- A doorbell or completion word written by the part. -/
def Part.writeWord (p : Part) (a v : Nat) (owner : Option TaskKey) : Part := match p.writeFault a 8 with
  | none => (p.rmw a (leBytes 8 v)).bell a 8 owner
  | some f => p.rowFault owner f

def fdKind (b : List Byte) : Nat := leAt b 14 1 % 16
def fdFlag (b : List Byte) (i : Nat) : Bool := bitOf (leAt b 15 1) i
def fdLsig (b : List Byte) : Bool := fdFlag b 3
def fdLsigAddr (b : List Byte) : Nat := leAt b 40 6
def fdLsigVal (b : List Byte) : Nat := leAt b 48 8

/-- The descriptor is over: nothing of it is sent or awaited. -/
def Part.dropDesc (p : Part) (num : Nat) : Part :=
  { p with fab := { p.fab with
      descs := p.fab.descs.filter (fun d => d.num != num)
      unacked := p.fab.unacked.filter (fun u => u.desc != num) } }

/-- A failed descriptor: a task's is a transfer fault, in flight unless its local row was damaged; the host's stops its queue. -/
def Part.failDesc (p : Part) (d : FabDesc) (status : Nat) (damaged : Option Nat) : Part :=
  let p1 := p.dropDesc d.num
  let p2 := p1.noteFault (damaged.map RowFault.damaged)
  let rep : Report := ⟨0x0050, 4, 6 + d.q / 32, d.q, 0xFF, 0, d.owner, (damaged.getD 0), 0⟩
  match d.owner with
  | some _ => p2.raise rep (if damaged.isSome then some causeData else none)
  | none =>
    let p3 := (((p2.setFld (Reg.FAB_Q_CFG.at [d.q]) 4 1 0).orReg (Reg.FAB_Q_STAT.at [d.q]) 1).setRegN (Reg.FAB_Q_LAST.at [d.q])
      (status % 256 + d.index * 256)).raise rep none
    if fdLsig d.bytes then p3.writeWord (fdLsigAddr d.bytes) (2 ^ 63 + status) none else p3

def Part.descOf (p : Part) (num : Nat) : Option FabDesc := p.fab.descs.find? (fun d => d.num == num)

/-! ### A circuit loses its path (14 R440) -/

/-- The understudy of an origin's entry, where its own entry is installed here as an origin (14 R437 R440). -/
def Part.understudy (p : Part) (w : Nat) : Option Nat :=
  (circPartner w).filter (fun u => circValid (p.circEntry u) && circOrigin (p.circEntry u))

/-- The origin's reaction for a circuit in use. -/
def Part.loseCircuit (p : Part) (c : Nat) : Part :=
  let w := p.circEntry c
  if !(circValid w && circOrigin w) then p
  else
    let named := ((p.fab.switched.find? (fun s => decide (s.2 = some c))).map (·.1)).getD c
    let note := fun (q : Part) => q.raise ⟨0x0052, 4, 6 + circPort w / 8, c, 0xFF, 0, none, 0, 0⟩ none
    if p.circNow named ≠ some c then p
    else match p.understudy w with
    | some u =>
      let p1 : Part := { p with fab := { p.fab with switched := Tab.put (some named) p.fab.switched named (some u) } }
      note ((p1.resend named u).orReg (Reg.FAB_EVT.at []) 4)
    | none =>
      let ds := p.fab.descs.filter (fun d => p.fab.unacked.any (fun x => x.desc == d.num && x.circuit == some named) ||
        (fdFlag d.bytes 1 && leAt d.bytes 20 2 == named))
      note (forEach ds (fun d x => x.failDesc d (Config.noStatus).toNat none) (p.orReg (Reg.FAB_EVT.at []) 8))

/-- No packet takes up receive buffers of port `n` any longer: its channels start again with 32 credits (14 R411). -/
def Part.loosen (p : Part) (n : Nat) : Part :=
  let free := fun (k : Packet) => if (k.held.map (·.1)) = some n then { k with held := none } else k
  { p with fab := { p.fab with
      transit := p.fab.transit.map (fun t => { t with pkt := free t.pkt })
      inbox := p.fab.inbox.map (fun x => (x.1, free x.2))
      ports := p.fab.ports.map (fun q => { q with curtIn := q.curtIn.map free }) } }

/-- A link that is lost: curtain packets not acknowledged or not sent go out again when it returns, those received stay (14 R445); so do
the times of the last TIME flit received (14 R412). -/
def Port.lost (q : Port) (cause : Nat) : Port :=
  { Port.reset with
    st := 3
    cause := cause
    outq := ((q.replay.filter (fun x => x.vc == 0)).flatMap (·.ends) ++ q.outq.getD 0 []) :: List.replicate 7 []
    slot := q.slot
    curtIn := q.curtIn
    peerSent := q.peerSent
    peerAt := q.peerAt }

/-- Circuit `c`, whose link on port `n` is lost: its origin reacts; a part behind it sends a BREAK to the origin, unless it is no node, which
starts no packet (14 R415 R440). -/
def Part.breakAt (p : Part) (n c : Nat) : Part :=
  if circOrigin (p.circEntry c) then p.loseCircuit c
  else if !p.fabValid then p
  else p.inject (n / 8) 2 ⟨({ p.header (circOriginDev (p.circEntry c)) 2 Pkt.BREAK with arg := c } : Hdr).bytes, [], none⟩

/-- The port loses its link (14 R407 R440 R445): circuits through it break. -/
def Part.takeDown (p : Part) (n cause : Nat) : Part :=
  let p1 := (((p.loosen n).onPort n (·.lost cause)).markDepth n 0).showPort n
  let p2 := (p1.orReg (Reg.FAB_EVT.at []) 2).raise ⟨0x0051, 4, 6 + n / 8, n, 0xFF, 0, none, 0, cause⟩ none
  let cs := (List.range 4096).filter (fun c => circValid (p.circEntry c) && circPort (p.circEntry c) == n && !circSink (p.circEntry c))
  forEach cs (fun c x => x.breakAt n c) p2

/-- The link's stall is 20 µs old (14 R407). -/
def Part.ackStalled (p : Part) (n : Nat) : Bool :=
  !(p.port n).replay.isEmpty && decide (20000 ≤ (p.tim.interval - (p.port n).ackAt).toNat)

/-- Causes 1 alignment, 2 replay limit, 3 acknowledgement stall. -/
def Part.goDown (p : Part) (n cause : Nat) : Part :=
  let due : Bool := match cause with
    | 1 => true
    | 2 => (p.port n).replay.any (fun x => decide (8 ≤ x.tries))
    | 3 => p.ackStalled n
    | _ => false
  if (p.port n).st = 2 ∧ due = true then p.takeDown n cause else p

/-- 14 R407 R411: a port that trains is UP with fresh sequence numbers and 32 credits a channel. -/
def Part.trained (p : Part) (n : Nat) (ok : Bool) : Part :=
  if (p.port n).st ≠ 1 then p
  else if ok then
    ((p.onPort n (fun x => { Port.reset with
      st := 2, locked := true, credits := List.replicate 8 32, outq := x.outq, slot := x.slot, curtIn := x.curtIn,
      peerSent := x.peerSent, peerAt := x.peerAt, ackAt := p.tim.interval })).showPort n).pump n
  else (p.onPort n (fun x => { x with st := 3, cause := 4 })).showPort n

/-! ### Flits received (14 R408 to R412) -/

structure Flit where
  seq : Nat
  ack : Nat
  kind : Nat
  fvc : Nat
  cvc : Nat
  credits : Nat
  payload : List Byte
  deriving DecidableEq, Repr

def flitOf (b : List Byte) : Flit :=
  let w := leAt b 0 8
  ⟨fld w 0 12, fld w 12 12, fld w 24 3, fld w 27 3, fld w 30 3, fld w 33 6, (b.drop 8).take 244⟩

def flitGood (b : List Byte) : Bool := b.length == 256 && decide (leAt b 252 4 = (crc32c (b.take 252)).toNat)

/-- Flits acknowledged up to `ack` leave the replay buffer (14 R410). -/
def Port.acked (q : Port) (ack : Nat) (now : W64) : Port :=
  let left := q.replay.filter (fun x => decide (2048 ≤ (ack + 4096 - x.seq) % 4096))
  if left.length < q.replay.length then { q with replay := left, ackAt := now } else q

def Port.credit (q : Port) (v n : Nat) : Port := { q with credits := q.credits.set v (q.credits.getD v 0 + n) }

/-- The FEC counters (14 R447). -/
def Part.fecCount (p : Part) (n : Nat) (fec : Option Nat) : Part := match fec with
  | some k => p.bump (portReg Reg.FAB_PORT_FEC_CORR n) k
  | none => p.bump (portReg Reg.FAB_PORT_FEC_UNCORR n) 1

/-- A NAK or IDLE flit of this port. -/
def Part.sendNak (p : Part) (n : Nat) : Part := p.sendFlit n 2 0 0 []
def Part.sendIdle (p : Part) (n : Nat) : Part := p.sendFlit n 1 0 0 []

/-- A flit of kind `kind` received on an UP port: a damaged one is dropped with a NAK, a good one brings its acknowledgement and
credits before `f` (14 R410 R411). -/
def Part.receive (p : Part) (n : Nat) (b : List Byte) (fec : Option Nat) (kind : Nat) (f : Flit → Part → Part) : Part :=
  if !p.portUp' n then p
  else
    let p1 := p.fecCount n fec
    if fec.isNone || !flitGood b then p1.sendNak n
    else
      let fl := flitOf b
      if fl.kind ≠ kind then p
      else f fl (p1.onPort n (fun q => (q.acked fl.ack p.tim.interval).credit fl.cvc fl.credits))

/-- A packet type may use a virtual channel (14 R413). -/
def vcAllows (h : Hdr) (v : Nat) : Bool :=
  if h.type = Pkt.CURT_ARRIVE ∨ h.type = Pkt.CURT_RELEASE then v == 0
  else if h.circ then v == 6
  else if v = 4 ∨ v = 5 then true
  else if h.type = Pkt.GET_REQ then v == 1
  else if h.type = Pkt.ACK ∨ h.type = Pkt.GET_RESP ∨ h.type = Pkt.BREAK then v == 2
  else v == 3

/-- The checks of a packet on its arrival (14 R413 R423 R424). -/
def packetOk (k : Packet) (v : Nat) : Bool :=
  let h := k.hdr
  let rows := h.type == Pkt.PUT || h.type == Pkt.RED || h.type == Pkt.GET_RESP
  decide (leAt k.head 29 3 = headCheck k.head) && decide (1 ≤ h.type) && decide (h.type ≤ 10) &&
    (if rows then h.length == 129 * h.tags && decide (h.tags ≤ 8) else h.length == 0) && vcAllows h v

/-- The flit buffers of a discarded packet are free; the flit that answers returns their credits (14 R411). -/
def Part.discard (p : Part) (k : Packet) : Part := match k.held with
  | none => p
  | some (n, v, f) => p.onPort n (fun x => { x with owe := x.owe.set v (x.owe.getD v 0 + f) })

/-- A packet that has arrived on port `n` (14 R415 R424). -/
def Part.packetIn (p : Part) (n v : Nat) (k : Packet) : Part :=
  let p1 := (p.bump48 (portReg Reg.FAB_PORT_PKT_RX n) 1).bump (portReg Reg.FAB_PORT_BYTE_RX n) k.bytes.length
  if !packetOk k v then (p1.discard k).bumpSat (Reg.FAB_DROP_BAD.at []) 1
  else if v = 0 then p1.onPort n (fun q => { q with curtIn := q.curtIn ++ [k] })
  else if !p.fabValid then (p1.discard k).bumpSat (Reg.FAB_DROP_ROUTE.at []) 1
  else { p1 with fab := { p1.fab with transit := p1.fab.transit ++ [⟨k, n / 8, v, p.tim.interval, false⟩] } }

/-- Whole packets at the front of a channel's bytes, and what is left: nothing behind a zero word at a packet boundary (14 R409). -/
def takePackets : Nat → List Byte → List Packet × List Byte
  | 0, b => ([], b)
  | f + 1, b =>
    if b.length < 4 then ([], b)
    else if leAt b 0 4 = 0 then ([], [])
    else
      let n := 32 + 4 * (hdrOf b).length
      if b.length < 32 ∨ b.length < n then ([], b)
      else
        let (ks, rest) := takePackets f (b.drop n)
        (⟨b.take 32, (b.drop 32).take (n - 32), none⟩ :: ks, rest)

/-- The flit buffers that each packet of a flit takes up: the first those of the flits in which it began, the last the flit itself, unless a
packet goes on behind it. DESIGN CHOICE: a buffer is free when the last packet with bytes in it has left (14 R411, log 11). -/
def holdFlits (n v before : Nat) (whole : Bool) (ks : List Packet) : List Packet :=
  ks.zipIdx.map (fun x => { x.1 with held := some (n, v,
    (if x.2 = 0 then before else 0) + (if x.2 + 1 = ks.length && whole then 1 else 0)) })

/-- An accepted DATA flit is acknowledged at once: by a DATA flit, or where none leaves by an IDLE flit (14 R410). -/
def Part.ackFlit (p : Part) (n : Nat) : Part :=
  let q := p.pump n
  if (q.port n).txSeq = (p.port n).txSeq then q.sendIdle n else q

/-- 14 R410: a DATA flit in order is accepted; others are discarded. -/
def Part.dataIn (p : Part) (n : Nat) (fl : Flit) : Part :=
  let q := p.port n
  if fl.seq ≠ q.rxSeq then p.pump n
  else
    let (ks, rest) := takePackets 64 (q.rx.getD fl.fvc [] ++ fl.payload)
    let before := q.rxFlits.getD fl.fvc 0
    let left := if rest.isEmpty then 0 else if ks.isEmpty then before + 1 else 1
    let idle := if rest.isEmpty && ks.isEmpty then before + 1 else 0
    let p1 := p.onPort n (fun x => { x with
      rxSeq := (x.rxSeq + 1) % 4096
      rx := x.rx.set fl.fvc rest
      rxFlits := x.rxFlits.set fl.fvc left
      owe := x.owe.set fl.fvc (x.owe.getD fl.fvc 0 + idle) })
    (forEach (holdFlits n fl.fvc before rest.isEmpty ks) (fun k x => x.packetIn n fl.fvc k) p1).ackFlit n

/-- 14 R410: everything behind the acknowledged flit goes out again. -/
def Part.replayAll (p : Part) (n : Nat) : Part :=
  let q := p.port n
  if q.replay.isEmpty then p.pump n
  else
    let p1 := forEach q.replay (fun x y => y.sendFlit n 0 x.seq x.vc x.payload) p
    ((p1.bump (portReg Reg.FAB_PORT_REPLAY n) 1).onPort n (fun x =>
      { x with replay := x.replay.map (fun y => { y with tries := y.tries + 1 }) })).pump n

/-- 14 R412. -/
def Part.timeIn (p : Part) (n : Nat) (fl : Flit) : Part :=
  let t3 := leAt fl.payload 0 8
  let t1 := leAt fl.payload 8 8
  let t2 := leAt fl.payload 16 8
  let t4 := p.tim.now.toNat
  let e : Option Int := if t1 = 0 then none else some ((((t4 : Int) - t3) - ((t2 : Int) - t1)) / 2)
  let p1 := p.onPort n (fun x => { x with peerSent := BitVec.ofNat 64 t3, peerAt := p.tim.now })
  let p2 := if p.timSrc = 2 ∧ p.regFld (Reg.TIM_CFG.at []) 2 4 = n then p1.parentTime e else p1
  p2.pump n

def Part.timeOut (p : Part) (n : Nat) : Part :=
  if p.portUp' n then
    p.sendFlit n 3 0 0 (leBytes 8 p.tim.now.toNat ++ leBytes 8 (p.port n).peerSent.toNat ++ leBytes 8 (p.port n).peerAt.toNat)
  else p

/-! ### The router (14 R414 to R418) -/

/-- What the router does with a packet now. -/
inductive Hop where
  | wait
  | drop
  | deliver
  | cross
  | out (port vc : Nat)
  deriving DecidableEq, Repr

/-- UP ports of the set on an E-die, the one with most credits for the channel first. -/
def Part.bestPort (p : Part) (set_ e v : Nat) : Option Nat :=
  pickMin (fun a b => decide ((p.port b).credits.getD v 0 < (p.port a).credits.getD v 0))
    ((List.range 16).filter (fun n => n / 8 == e && bitOf set_ n && p.portUp' n))

/-- The way of a packet (14 R414 R416 R417, circuits R437 R438). -/
def Part.hop (p : Part) (t : Transit) : Hop :=
  let h := t.pkt.hdr
  if h.circ then
    let w := p.circEntry h.circuit
    if !circValid w then .drop
    else if circSink w then .deliver
    else if (!t.own && decide (h.ttl ≤ 1)) || !p.portUp' (circPort w) then .drop
    else if (p.port (circPort w)).credits.getD 6 0 ≠ 0 then .out (circPort w) 6 else .wait
  else if h.dst = p.fabSelf then .deliver
  else
    let w := p.routeEntry h.dst
    let set_ := fld w 0 16
    let esc := fld w 16 4
    let escOk := bitOf w 20 && p.portUp' esc
    if !bitOf w 21 || (!escOk && ((List.range 16).all (fun n => !(bitOf set_ n && p.portUp' n)))) || (!t.own && decide (h.ttl ≤ 1)) then .drop
    else if t.vc = 4 ∨ t.vc = 5 then
      let v := if t.vc = 4 && bitOf (p.regN (portReg Reg.FAB_PORT_CFG esc)) 2 then 5 else t.vc
      if escOk && decide ((p.port esc).credits.getD v 0 ≠ 0) then .out esc v else .wait
    else match p.bestPort set_ t.e t.vc with
      | some n => if (p.port n).credits.getD t.vc 0 ≠ 0 then .out n t.vc else .wait
      | none => if (p.bestPort set_ (1 - t.e) t.vc).isSome then .cross else .wait

/-- The header as it leaves: a forwarding part takes one from ttl (14 R417 R424). -/
def Transit.sent (t : Transit) : Packet :=
  if t.own then t.pkt else { t.pkt with head := t.pkt.head.set 28 (BitVec.ofNat 8 (t.pkt.hdr.ttl - 1)) }

/-- The first packet of E-die `e` that need not wait moves. -/
def Part.forward (p : Part) (e : Nat) : Part :=
  match p.fab.transit.find? (fun t => t.e == e && decide (p.hop t ≠ .wait)) with
  | none => p
  | some t =>
    let p1 : Part := { p with fab := { p.fab with transit := dropFirst (fun x => decide (x = t)) p.fab.transit } }
    match p.hop t with
    | .deliver => { p1 with fab := { p1.fab with inbox := p1.fab.inbox ++ [(e, t.pkt)] } }
    | .drop => (p1.freed t.pkt).bumpSat (Reg.FAB_DROP_ROUTE.at []) 1
    | .cross => { p1 with fab := { p1.fab with transit := p1.fab.transit ++ [{ t with e := 1 - t.e }] } }
    | .out n v => (p1.freed t.pkt).portSend n v t.sent
    | .wait => p

/-- Packets waiting on E-die `e`. -/
def Part.waiting (p : Part) (e : Nat) : List Transit := p.fab.transit.filter (fun t => t.e == e)

/-- 14 R416: a packet that has waited 64 router cycles, 51.2 ns, takes the escape channel. -/
def Part.escape (p : Part) (e i : Nat) : Part := match (p.waiting e)[i]? with
  | none => p
  | some t =>
    let w := p.routeEntry t.pkt.hdr.dst
    if decide (t.vc = 4) || decide (t.vc = 5) || decide (t.vc = 6) || decide (p.hop t ≠ .wait) || !bitOf w 20 ||
        decide ((p.tim.interval - t.since).toNat < 52) then p
    else { p with fab := { p.fab with transit := modFirst (fun x => decide (x = t)) (fun x => { x with vc := 4 }) p.fab.transit } }

/-! ### Curtain packets (11 R346, 14 R444) -/

/-- The first curtain packet of a type that port `n` has received. -/
def Part.takeCurt (p : Part) (n type : Nat) : Option (Nat × Nat × Part) :=
  let is_ := fun (k : Packet) => k.hdr.type == type
  (p.port n).curtIn.find? is_ |>.map (fun k =>
    (fld k.hdr.arg 0 6, fld k.hdr.arg 6 8, (p.onPort n (fun q => { q with curtIn := dropFirst is_ q.curtIn })).freed k))

def Part.mismatch (p : Part) (c : Nat) : Part := p.bumpSat (Reg.STG_PCURT_MISMATCH.at [0, c]) 1

/-- A child's arrival for the current generation counts. -/
def Part.curtArrived (p : Part) (n : Nat) : Part := match p.takeCurt n Pkt.CURT_ARRIVE with
  | none => p
  | some (c, g, p1) =>
    if g ≠ (p.pcurt c).gen.toNat then p1.mismatch c
    else if bitOf (p.pcurtCfg c) 13 && (p.curtKids c).elem n then
      p1.onPCurt c (fun x => { x with kids := x.kids ||| BitVec.ofNat 16 (2 ^ n), first := x.first.orElse (fun _ => some p.tim.interval) })
    else p1

/-- The parent's release for the current generation. -/
def Part.curtReleased (p : Part) (n : Nat) : Part := match p.takeCurt n Pkt.CURT_RELEASE with
  | none => p
  | some (c, g, p1) =>
    if g ≠ (p.pcurt c).gen.toNat then p1.mismatch c
    else if bitOf (p.pcurtCfg c) 13 && bitOf (p.fabCurt c) 4 && fld (p.fabCurt c) 0 4 == n then p1.releasePackage c
    else p1

def execPortTraining (n : Nat) (ok : Bool) (s : State) : Host.Outcome State Fault Refusal := s.live (fun p => p.trained n ok)
def execPortDown (n cause : Nat) (s : State) : Host.Outcome State Fault Refusal := s.event (fun p => p.goDown n cause)
def execDataFlit (n : Nat) (flit : List Byte) (fec : Option Nat) (s : State) : Host.Outcome State Fault Refusal :=
  s.live (fun p => p.receive n flit fec 0 (fun fl q => q.dataIn n fl))
def execIdleFlit (n : Nat) (flit : List Byte) (fec : Option Nat) (s : State) : Host.Outcome State Fault Refusal :=
  s.live (fun p => p.receive n flit fec 1 (fun _ q => q.pump n))
def execNak (n : Nat) (flit : List Byte) (fec : Option Nat) (s : State) : Host.Outcome State Fault Refusal :=
  s.live (fun p => p.receive n flit fec 2 (fun _ q => q.replayAll n))
def execTimeFlit (n : Nat) (flit : List Byte) (fec : Option Nat) (s : State) : Host.Outcome State Fault Refusal :=
  s.live (fun p => p.receive n flit fec 3 (fun fl q => q.timeIn n fl))
def execTimeFlitSend (n : Nat) (s : State) : Host.Outcome State Fault Refusal := s.live (·.timeOut n)
def execPacketForward (e : Nat) (s : State) : Host.Outcome State Fault Refusal := s.live (·.forward e)
def execEscapeTimeout (e i : Nat) (s : State) : Host.Outcome State Fault Refusal := s.live (fun p => p.escape e i)
def execCurtArrive (n : Nat) (s : State) : Host.Outcome State Fault Refusal := s.live (·.curtArrived n)
def execCurtRelease (n : Nat) (s : State) : Host.Outcome State Fault Refusal := s.live (·.curtReleased n)

end Sys2Proof.Machine
end

