-- ==== Sys2Proof/Machine/FabricNi.lean ====
section
/-! DEFINITION. The fabric's network interfaces: doorbells, descriptors, packets at their destination, acknowledgements, reductions
(14 R420 R425 to R442). -/

namespace Sys2Proof.Machine

open Sys2Proof

/-! ### Jobs and the cast list (14 R442) -/

def Part.jobEnabled (p : Part) (j : Nat) : Bool := bitOf (p.regN (Reg.CST_JOB.at [j])) 29

/-- The device of rank `r` of job `j`. -/
def Part.castOf (p : Part) (j r : Nat) : Option Nat :=
  let w := p.regN (Reg.CST_JOB.at [j])
  let i := fld w 0 14 + r
  let e := p.regN (Reg.CST_ENTRY.at [i])
  if fld w 14 15 ≤ r ∨ 16384 ≤ i ∨ !bitOf e 14 then none else some (fld e 0 14)

/-! ### Descriptors (14 R427 R428 R434) -/

def fdLocal (b : List Byte) : Nat := leAt b 0 6
def fdRank (b : List Byte) : Nat := leAt b 6 2 % 16384
def fdRemote (b : List Byte) : Nat := leAt b 8 6
def fdRows (b : List Byte) : Nat := leAt b 16 4
def fdCirc (b : List Byte) : Nat := leAt b 20 2 % 4096
def fdElem (b : List Byte) : Nat := fld (leAt b 22 2) 0 3
def fdOp (b : List Byte) : Nat := fld (leAt b 22 2) 3 3
def fdMap (b : List Byte) : Nat := leAt b 24 6
def fdSignal (b : List Byte) : Bool := fdKind b == 3 || fdKind b == 4

/-- A combination of R436. -/
def redAllowed (elem op : Nat) : Bool := match elem with
  | 0 => decide (op ≤ 5)
  | 1 => decide (op ≤ 5)
  | 2 => op == 0
  | 3 => op == 1 || op == 2
  | 4 => op == 1 || op == 2
  | _ => false

/-- Reserved fields that are not 0. -/
def fdReserved (b : List Byte) : Bool :=
  leAt b 6 2 / 16384 != 0 || leAt b 14 1 / 16 != 0 || decide (4 < fdKind b) || leAt b 15 1 / 16 != 0 || leAt b 20 2 / 4096 != 0 ||
  leAt b 22 2 / 64 != 0 || leAt b 30 2 != 0 || leAt b 46 2 != 0 || leAt b 56 8 != 0

/-- Where local rows and words of a descriptor may lie. -/
def Part.fdHome (p : Part) (a : Nat) : Bool := match p.homeAt a with
  | .lpddr => true
  | .staging _ => true
  | .store _ _ => true
  | _ => false

def Part.qJob (p : Part) (q : Nat) : Nat := p.regFld (Reg.FAB_Q_CFG.at [q]) 5 8

/-- 14 R428: the descriptor is refused. -/
def Part.fdBad (p : Part) (q : Nat) (b : List Byte) : Bool :=
  let rows := fdRows b
  let dev := p.castOf (p.qJob q) (fdRank b)
  let w := p.circEntry (fdCirc b)
  fdReserved b || dev.isNone ||
  (if fdSignal b then fdLocal b != 0 || rows != 0 || fdRemote b % 8 != 0
   else fdLocal b % 512 != 0 || fdRemote b % 512 != 0 || rows == 0 || decide (2 ^ 24 < rows) ||
     !(List.range rows).all (fun i => p.fdHome (fdLocal b + 512 * i))) ||
  (fdFlag b 2 && (fdMap b % 512 != 0 || !(List.range (ceilDiv rows 4096)).all (fun i => p.fdHome (fdMap b + 512 * i)))) ||
  (fdLsig b && (fdLsigAddr b % 8 != 0 || !p.fdHome (fdLsigAddr b))) ||
  (fdFlag b 1 && (!(circValid w && circOrigin w) || decide (some (circSinkDev w) ≠ dev))) ||
  (fdKind b == 2 && !redAllowed (fdElem b) (fdOp b))

/-- Runs of at most 8 consecutive rows among those present (14 R428 R434). -/
def rowRuns : List Nat → List (Nat × Nat)
  | [] => []
  | r :: rs => match rowRuns rs with
    | (s, n) :: t => if s = r + 1 ∧ n < 8 then (r, n + 1) :: t else (r, 1) :: (s, n) :: t
    | [] => [(r, 1)]

/-- The packets of a descriptor. One whose map has no bit set keeps an empty packet that its fence holds and that is not sent (14 R434). -/
def Part.fdPackets (p : Part) (b : List Byte) : List (Nat × Nat) :=
  if fdSignal b then [(0, 0)]
  else if fdFlag b 2 then
    let rs := rowRuns ((List.range (fdRows b)).filter (fun i => bitOf (p.natAt (fdMap b + i / 8) 1) (i % 8)))
    if rs.isEmpty then [(0, 0)] else rs
  else (List.range (ceilDiv (fdRows b) 8)).map (fun i => (8 * i, min 8 (fdRows b - 8 * i)))

/-! ### Sending (14 R420 R428 R429) -/

/-- The packets of descriptor `d` are fenced: its first one, or a signal. -/
def FabDesc.fenced (d : FabDesc) : Bool := fdSignal d.bytes || (fdFlag d.bytes 0 && !d.begun)

/-- An earlier packet of this part for the same device and job is not acknowledged, or not yet sent (14 R429). -/
def Part.fenceHeld (p : Part) (d : FabDesc) (dst : Nat) : Bool :=
  let job := p.qJob d.q
  p.fab.unacked.any (fun u => u.pkt.hdr.dst == dst && u.pkt.hdr.job == job) ||
  p.fab.descs.any (fun x => decide (x.num < d.num) && !x.todo.isEmpty && p.qJob x.q == job && decide (p.castOf job (fdRank x.bytes) = some dst))

/-- Rows and their tags as a payload (14 R423). -/
def Part.payload (p : Part) (a n : Nat) : List Byte :=
  let rows := (List.range n).map (fun i => p.bytesAt (a + 512 * i) 512)
  rows.flatten ++ rows.flatMap (fun r => leBytes 4 (crc32c r).toNat)

/-- A completed descriptor: counted, and its local signal written (14 R430). -/
def Part.fdDone (p : Part) (d : FabDesc) : Part :=
  let p1 := (p.dropDesc d.num).bump (Reg.FAB_Q_DONE.at [d.q]) 1
  if fdLsig d.bytes then p1.writeWord (fdLsigAddr d.bytes) (fdLsigVal d.bytes) d.owner else p1

/-- A descriptor with nothing left to send and nothing awaited completes. -/
def Part.fdCheck (p : Part) (num : Nat) : Part := match p.descOf num with
  | some d => if d.todo.isEmpty && !p.fab.unacked.any (fun u => u.desc == num) then p.fdDone d else p
  | none => p

def Part.onDesc (p : Part) (num : Nat) (f : FabDesc → FabDesc) : Part :=
  { p with fab := { p.fab with descs := p.fab.descs.map (fun d => if d.num = num then f d else d) } }

/-- Packet type of a descriptor kind. -/
def fdType : Nat → Nat
  | 0 => Pkt.PUT
  | 1 => Pkt.GET_REQ
  | 2 => Pkt.RED
  | 3 => Pkt.SIGNAL
  | _ => Pkt.SIGNAL_ADD

/-- The next packet of a descriptor goes out, rows `r` to `r + n - 1`; a local row that cannot be read fails it (14 R432). -/
def Part.sendPacket (p : Part) (d : FabDesc) (r n dst : Nat) (fence : Bool) : Part :=
  let b := d.bytes
  let kind := fdKind b
  let e := d.q / 32
  let src := fdLocal b + 512 * r
  let carries := kind = 0 ∨ kind = 2
  let (p0, bad) := (if carries then p.readSpan src (512 * n) else (p, none) : Part × Option RowFault)
  match bad with
  | some (.damaged a) => p0.failDesc d (Config.noStatus).toNat (some a)
  | some _ => p0.failDesc d (Config.noStatus).toNat none
  | none =>
      let named := fdCirc b
      let onCirc := fdFlag b 1
      match (if onCirc then p.circNow named else some 0) with
      | none => p0.failDesc d (Config.noStatus).toNat none
      | some cur =>
        let xid := if onCirc then Tab.get 0 p.fab.circSent (p.pairKey named) else p.fab.nextXid.toNat
        let arg := match kind with
          | 1 => n
          | 2 => fdElem b + fdOp b * 8
          | 3 => leAt b 32 8
          | 4 => leAt b 32 8
          | _ => 0
        let vc := if onCirc then 6 else if kind = 1 then 1 else 3
        let h : Hdr := { p.header dst vc (fdType kind) with
          fence := fence, job := p.qJob d.q, circ := onCirc, length := (if carries then 129 * n else 0),
          tags := (if carries then n else 0), addr := fdRemote b + 512 * r, circuit := (if onCirc then cur else 0), arg := arg, xid := xid }
        let k : Packet := ⟨h.bytes, if carries then p.payload src n else [], none⟩
        let u : Unacked := ⟨e, BitVec.ofNat 32 xid, d.num, k, p.tim.interval, if onCirc then some named else none, src⟩
        let p1 := (p0.onDesc d.num (fun x => { x with todo := x.todo.drop 1, begun := true })).inject e vc k
        { p1 with fab := { p1.fab with
            unacked := p1.fab.unacked ++ [u]
            nextXid := if onCirc then p1.fab.nextXid else p1.fab.nextXid + 1
            circSent := if onCirc then Tab.put 0 p1.fab.circSent (p.pairKey named) ((xid + 1) % 2 ^ 32) else p1.fab.circSent } }

/-- The next packet of a descriptor, if it may go out now; an empty one only waits for its fence (14 R434). -/
def Part.trySend (p : Part) (d : FabDesc) : Option Part := match d.todo with
  | [] => none
  | (r, n) :: _ =>
    let empty := decide (n = 0) && !fdSignal d.bytes
    let dest := p.castOf (p.qJob d.q) (fdRank d.bytes)
    if (!empty && (bitOf (p.regN (Reg.FAB_CTL.at [])) 0 || !p.fabValid)) ||
        (d.fenced && !fdFlag d.bytes 1 && dest.any (p.fenceHeld d)) then none
    else if empty then some ((p.onDesc d.num (fun x => { x with todo := [] })).fdCheck d.num)
    else match dest with
    | none => some (p.failDesc d (Config.noStatus).toNat none)
    | some dst => some (p.sendPacket d r n dst d.fenced)

/-- The NIs send what they may, the oldest descriptor first. -/
def Part.niPump : Nat → Part → Part
  | 0, p => p
  | n + 1, p => match p.fab.descs.findSome? p.trySend with
    | some q => Part.niPump n q
    | none => p

def Part.ni (p : Part) : Part := Part.niPump ((p.fab.descs.map (fun d => d.todo.length + 1)).sum) p

/-! ### Queues (14 R425 R426) -/

def Part.qSize (p : Part) (q : Nat) : Nat := ringSize (p.regFld (Reg.FAB_Q_CFG.at [q]) 0 4)
def Part.qHead (p : Part) (q : Nat) : Nat := p.regFld (Reg.FAB_Q_HEAD.at [q]) 0 16
def Part.qTail (p : Part) (q : Nat) : Nat := Tab.get 0 p.fab.tails q
def entryKey (q i : Nat) : Nat := q * 65536 + i

/-- The new tail of a doorbell write, with the owner of the entries that it reveals; those of an aborted task are discarded (14 R426). -/
def Part.ringQueue (p : Part) (q : Nat) : Part := match p.fab.bells.find? (fun b => b.q == q) with
  | none => p
  | some b =>
    let size := p.qSize q
    let old := p.qTail q
    let t := b.tail % size
    let shown := (List.range ((t + size - old % size) % size)).map (fun i => (old + i) % size)
    { p with fab := { p.fab with
        bells := dropFirst (fun b => b.q == q) p.fab.bells
        tails := Tab.put 0 p.fab.tails q t
        owners := forEach shown (fun i x => Tab.put none x (entryKey q i) b.owner) p.fab.owners
        dropped := forEach shown (fun i x => Tab.put false x (entryKey q i) b.dead) p.fab.dropped } }

/-- The head passes over discarded entries. -/
def Part.skipDropped (q : Nat) : Nat → Part → Part
  | 0, p => p
  | n + 1, p =>
    if p.qHead q ≠ p.qTail q ∧ Tab.get false p.fab.dropped (entryKey q (p.qHead q)) then
      Part.skipDropped q n (({ p with fab := { p.fab with dropped := Tab.put false p.fab.dropped (entryKey q (p.qHead q)) false } } : Part).setRegN
        (Reg.FAB_Q_HEAD.at [q]) ((p.qHead q + 1) % p.qSize q))
    else p

/-- 14 R425 R428: the descriptor at the head starts, or is refused; one whose presence map cannot be read fails (14 R432). -/
def Part.startDesc (p0 : Part) (q : Nat) : Part :=
  let p := p0.skipDropped q 65536
  let i := p.qHead q
  if decide (64 ≤ q) || !bitOf (p.regN (Reg.FAB_Q_CFG.at [q])) 4 || !p.fabValid || decide (i = p.qTail q) ||
      decide (256 ≤ (p.fab.descs.filter (fun d => d.q / 32 == q / 32)).length) then p
  else
    let a := p.regN (Reg.FAB_Q_BASE.at [q]) + 64 * i
    let owner := Tab.get none p.fab.owners (entryKey q i)
    let p1 := ({ p with fab := { p.fab with owners := Tab.put none p.fab.owners (entryKey q i) none } } : Part).setRegN
      (Reg.FAB_Q_HEAD.at [q]) ((i + 1) % p.qSize q)
    let b := p.bytesAt a 64
    let (p2, bad) := p1.readSpan a 64
    if bad.isSome || p.fdBad q b then
      ((p2.noteFault bad).orReg (Reg.FAB_Q_STAT.at [q]) 2).raise ⟨0x0073, 4, 6 + q / 32, q, 0xFF, 0, owner, a, 0⟩ none
    else
      let (p3, lost) := (if fdFlag b 2 then p2.readSpan (fdMap b) (ceilDiv (fdRows b) 8) else (p2, none) : Part × Option RowFault)
      let d : FabDesc := ⟨p3.fab.nextDesc, q, i, b, owner, p3.fdPackets b, false⟩
      let p4 : Part := { p3 with fab := { p3.fab with descs := p3.fab.descs ++ [d], nextDesc := p3.fab.nextDesc + 1 } }
      if lost.isSome then (p4.noteFault lost).failDesc d (Config.noStatus).toNat none else p4.ni

/-! ### Packets at their destination (14 R424 R429 to R431 R439) -/

/-- The first packet of a type that the NI of E-die `e` holds and may act on: on a circuit a fenced one waits for those before it. -/
def takeIn (e type : Nat) : List (Nat × Packet) → List (Nat × Packet) → Option (Packet × List (Nat × Packet))
  | _, [] => none
  | before, x :: rest =>
    let h := x.2.hdr
    if x.1 = e ∧ h.type = type ∧ !(h.circ && h.fence && before.any (fun y => y.2.hdr.circ && y.2.hdr.circuit == h.circuit)) then
      some (x.2, before ++ rest)
    else takeIn e type (before ++ [x]) rest

/-- The packet of a type that the NI of E-die `e` acts on next, taken out of the receive buffers (14 R411). -/
def Part.take (p : Part) (e type : Nat) : Option (Packet × Part) :=
  (takeIn e type [] p.fab.inbox).map (fun x => (x.1, ({ p with fab := { p.fab with inbox := x.2 } } : Part).freed x.1))

/-- An answer to a packet: ACK, or GET_RESP with rows; none from a part that is no endpoint (14 R415). -/
def Part.answer (p : Part) (e : Nat) (h : Hdr) (type status : Nat) (rows : List Byte) (n : Nat) : Part :=
  if !p.fabValid then p
  else p.inject e 2 ⟨({ p.header h.src 2 type with
    job := h.job, length := 129 * n, tags := n, addr := h.addr, arg := status, xid := h.xid } : Hdr).bytes, rows, none⟩

/-- A circuit packet whose number is not above the last accepted one of its pair, in serial order (14 R439, 18 R554). -/
def Part.repeated (p : Part) (h : Hdr) : Bool :=
  h.circ && (match Tab.get none p.fab.circSeen (p.pairKey h.circuit) with
    | some l => (let d := (h.xid + 2 ^ 32 - l) % 2 ^ 32; !(decide (1 ≤ d) && decide (d < 2 ^ 31)))
    | none => false)

def Part.markSeen (p : Part) (h : Hdr) : Part :=
  if h.circ then { p with fab := { p.fab with circSeen := Tab.put none p.fab.circSeen (p.pairKey h.circuit) (some h.xid) } } else p

/-- What a packet does at its address: a read, a write, or a read-modify-write. -/
inductive Landing where
  | read
  | write
  | add
  deriving DecidableEq, Repr

/-- The addresses a destination accepts (14 R431); the retained pool takes no writes (15 R459). -/
def Part.accepts (p : Part) (a n : Nat) (l : Landing) : Bool :=
  (match p.homeAt a with | .lpddr => true | .staging _ => true | .store cl _ => decide (l ≠ .add) && !p.darkCluster cl | _ => false) &&
    (decide (l = .read) || !p.inPool a n)

/-- Row `i` of a payload with its tag. -/
def rowOf (k : Packet) (i : Nat) : List Byte := (k.body.drop (512 * i)).take 512
def tagOk (k : Packet) (i : Nat) : Bool := decide (leAt k.body (512 * k.hdr.tags + 4 * i) 4 = (crc32c (rowOf k i)).toNat)

/-- A request packet: refused for its job, then its tags and addresses; otherwise `f` acts and gives the status. -/
def Part.serve (p : Part) (e type : Nat) (ok : Part → Hdr → Bool) (f : Part → Packet → Part × Nat) : Part :=
  match p.take e type with
  | none => p
  | some (k, p1) =>
    let h := k.hdr
    if p1.repeated h then p1.answer e h Pkt.ACK 0 [] 0
    else
      let p2 := p1.markSeen h
      if !p2.jobEnabled h.job then p2.answer e h Pkt.ACK 3 [] 0
      else if !(List.range h.tags).all (tagOk k) then p2.answer e h Pkt.ACK 1 [] 0
      else if !ok p2 h then p2.answer e h Pkt.ACK 2 [] 0
      else
        let (p3, st) := f p2 k
        p3.answer e h Pkt.ACK st [] 0

/-- A home row of a fabric write that cannot be changed: noted, logged without a task. -/
def Part.homeDamaged (p : Part) (a : Nat) : Part := (p.noteDamaged a).raise (p.rowReport 0x0031 none a) none

/-- The row lies on a failed channel. -/
def Part.failedAt (p : Part) (a : Nat) : Bool := decide (p.homeAt a = .lpddr) && p.chFailed a

/-- A PUT writes its rows; a row on a failed channel is discarded (13 R584). -/
def Part.doPut (p : Part) (k : Packet) : Part × Nat :=
  let h := k.hdr
  (List.range h.tags).foldl (fun (s : Part × Nat) i =>
    let a := h.addr + 512 * i
    if s.1.failedAt a then (s.1.noteDamaged a, 4) else ((s.1.writeRow a (rowOf k i) 0).bell a 512 none, s.2)) (p, 0)

/-- An 8-B write or add at the home of `addr` (14 R431, 13 R394). -/
def Part.doSignal (p : Part) (add : Bool) (k : Packet) : Part × Nat :=
  let h := k.hdr
  if p.failedAt h.addr then (p.noteDamaged h.addr, 4)
  else
    let v := if add then (p.natAt h.addr 8 + h.arg) % 2 ^ 64 else h.arg
    ((p.rmw h.addr (leBytes 8 v)).bell h.addr 8 none, if p.rowGood h.addr then 0 else 4)

/-! ### Reductions (14 R433 R436) -/

/-- Bytes of an element and elements of a row. -/
def redShape : Nat → Nat × Nat
  | 0 => (4, 128)
  | 1 => (8, 64)
  | 2 => (12, 42)
  | 3 => (4, 128)
  | _ => (2, 256)

/-- The order of binary floating-point codes of `w` bits, −0 below +0. -/
def fpKey (w x : Nat) : Int := if 2 ^ (w - 1) ≤ x then -((x - 2 ^ (w - 1) : Nat) : Int) - 1 else x
/-- A NaN code: magnitude above that of infinity. -/
def fpNan (w inf x : Nat) : Bool := decide (inf < x % 2 ^ (w - 1))

/-- 14 R436: two elements combined. -/
def redElem (elem op a b : Nat) : Nat :=
  let w := 8 * (redShape elem).1
  if elem = 3 ∨ elem = 4 then
    let inf := if elem = 3 then 0x7F800000 else 0x7F80
    let nan := if elem = 3 then 0x7FC00000 else 0x7FC0
    if fpNan w inf a || fpNan w inf b then nan
    else if op = 1 then (if fpKey w a < fpKey w b then b else a) else (if fpKey w b < fpKey w a then b else a)
  else match op with
    | 0 => (a + b) % 2 ^ w
    | 1 => if sext w a < sext w b then b else a
    | 2 => if sext w b < sext w a then b else a
    | 3 => a &&& b
    | 4 => a ||| b
    | _ => a ^^^ b

/-- A row combined with a contribution; bytes past the elements stand. -/
def redRow (elem op : Nat) (home row : List Byte) : List Byte :=
  let (n, k) := redShape elem
  ((List.range k).flatMap (fun i => leBytes n (redElem elem op (leAt home (n * i) n) (leAt row (n * i) n)))) ++ home.drop (n * k)

/-- A RED packet combines its rows into their homes; a damaged one is left as it is (14 R430). -/
def Part.doRed (p : Part) (k : Packet) : Part × Nat :=
  let h := k.hdr
  (List.range h.tags).foldl (fun (s : Part × Nat) i =>
    let a := h.addr + 512 * i
    if s.1.failedAt a then (s.1.noteDamaged a, 4)
    else if !s.1.rowGood a then ((s.1.countRead a).homeDamaged a, 4)
    else (((s.1.countRead a).writeRow a (redRow (fld h.arg 0 3) (fld h.arg 3 3) (s.1.rowAt a) (rowOf k i)) 0).bell a 512 none, s.2)) (p, 0)

def rowsAccepted (l : Landing) (p : Part) (h : Hdr) : Bool :=
  h.addr % 512 == 0 && (List.range h.tags).all (fun i => p.accepts (h.addr + 512 * i) 512 l)
def redAccepted (p : Part) (h : Hdr) : Bool := rowsAccepted .add p h && redAllowed (fld h.arg 0 3) (fld h.arg 3 3)
def wordAccepted (l : Landing) (p : Part) (h : Hdr) : Bool := h.addr % 8 == 0 && p.accepts h.addr 8 l

/-- A GET_REQ is answered with its rows, or with a status (14 R422 R430). A repeat on a circuit does not move the last accepted number
(14 R439); its acknowledgement is the GET_RESP with the rows. -/
def Part.serveGet (p : Part) (e : Nat) : Part := match p.take e Pkt.GET_REQ with
  | none => p
  | some (k, p0) =>
    let h := k.hdr
    let n := h.arg % 16
    let p1 := if p0.repeated h then p0 else p0.markSeen h
    if n = 0 ∨ 8 < n then p1.bumpSat (Reg.FAB_DROP_BAD.at []) 1
    else if !p1.jobEnabled h.job then p1.answer e h Pkt.GET_RESP 3 [] 0
    else if !(rowsAccepted .read p1 { h with tags := n }) then p1.answer e h Pkt.GET_RESP 2 [] 0
    else match p1.readSpan h.addr (512 * n) with
    | (p2, some (.damaged a)) => (p2.homeDamaged a).answer e h Pkt.GET_RESP 4 [] 0
    | (p2, some _) => p2.answer e h Pkt.GET_RESP 2 [] 0
    | (p2, none) => p2.answer e h Pkt.GET_RESP 0 (p1.payload h.addr n) n

/-! ### Acknowledgements (14 R430) -/

/-- The packet that an answer names: its xid and the device it went to, one with the answer's address before others. DESIGN CHOICE: xids
of a circuit and of the adaptive channels may be equal, and no rule says which of two packets is answered (log 11). -/
def Part.answered (p : Part) (h : Hdr) : Option Unacked :=
  let mine := fun (u : Unacked) => u.xid.toNat == h.xid && u.pkt.hdr.dst == h.src
  (p.fab.unacked.find? (fun u => mine u && u.pkt.hdr.addr == h.addr)).orElse (fun _ => p.fab.unacked.find? mine)

def Part.dropUnacked (p : Part) (u : Unacked) : Part :=
  { p with fab := { p.fab with unacked := dropFirst (fun x => decide (x = u)) p.fab.unacked } }

/-- The answer's status reaches its descriptor; fenced packets may follow. -/
def Part.settleAck (p : Part) (u : Unacked) (status : Nat) : Part :=
  let p1 := p.dropUnacked u
  match p1.descOf u.desc with
  | none => p1.ni
  | some d => (if status = 0 then p1.fdCheck d.num else p1.failDesc d status none).ni

def Part.ackIn (p : Part) (e : Nat) : Part := match p.take e Pkt.ACK with
  | none => p
  | some (k, p1) =>
    match p1.answered k.hdr with
    | some u => p1.settleAck u (k.hdr.arg % 256)
    | none => p1

/-- Where the rows of a GET_RESP land: at its addr (14 R423), which for one that repeats the addr of its GET_REQ, the far end's own, names the
descriptor's landing rows (14 R427, log 11). -/
def landsAt (h : Hdr) (u : Unacked) : Nat := if h.addr = u.pkt.hdr.addr then u.local_ else 512 * (h.addr / 512)

/-- The rows of a GET_RESP land; a failed tag writes nothing (14 R424). -/
def Part.getIn (p : Part) (e : Nat) : Part := match p.take e Pkt.GET_RESP with
  | none => p
  | some (k, p1) =>
    let h := k.hdr
    match p1.answered h with
    | none => p1
    | some u =>
      let n := h.tags
      let a := landsAt h u
      let owner := (p1.descOf u.desc).bind (·.owner)
      if h.arg % 256 ≠ 0 then p1.settleAck u (h.arg % 256)
      else if !(List.range n).all (tagOk k) || decide (n ≠ u.pkt.hdr.arg % 16) then p1.settleAck u 1
      else match (List.range n).find? (fun i => (p1.writeFault (a + 512 * i) 512).isSome) with
      | some i => (p1.noteFault (p1.writeFault (a + 512 * i) 512)).settleAck u 4
      | none =>
        (forEach (List.range n) (fun i x => (x.writeRow (a + 512 * i) (rowOf k i) 0).bell (a + 512 * i) 512 owner) p1).settleAck u 0

/-- A BREAK at a circuit's origin (14 R440). -/
def Part.breakIn (p : Part) (e : Nat) : Part := match p.take e Pkt.BREAK with
  | none => p
  | some (k, p1) => (p1.loseCircuit (k.hdr.arg % 4096)).ni

/-- Unacknowledged packets of the NI of E-die `e`. -/
def Part.unackedOf (p : Part) (e : Nat) : List Unacked := p.fab.unacked.filter (fun u => u.e == e)

/-- 14 R430: a packet unacknowledged for `FAB_ACK_TMO`. -/
def Part.ackLate (p : Part) (e i : Nat) : Part := match (p.unackedOf e)[i]? with
  | none => p
  | some u =>
    if (p.tim.interval - u.at_).toNat < 1000 * p.regFld (Reg.FAB_ACK_TMO.at []) 0 16 then p
    else match p.descOf u.desc with
    | some d => (p.failDesc d (Config.noStatus).toNat none).ni
    | none => p.dropUnacked u

def execFabricDoorbell (q : Nat) (s : State) : Host.Outcome State Fault Refusal := s.live (·.ringQueue q)
def execFabricDescriptorStart (q : Nat) (s : State) : Host.Outcome State Fault Refusal := s.event (·.startDesc q)
def execPut (e : Nat) (s : State) : Host.Outcome State Fault Refusal :=
  s.live (fun p => p.serve e Pkt.PUT (rowsAccepted .write) Part.doPut)
def execGetReq (e : Nat) (s : State) : Host.Outcome State Fault Refusal := s.live (·.serveGet e)
def execGetResp (e : Nat) (s : State) : Host.Outcome State Fault Refusal := s.event (·.getIn e)
def execSignal (e : Nat) (s : State) : Host.Outcome State Fault Refusal :=
  s.live (fun p => p.serve e Pkt.SIGNAL (wordAccepted .write) (fun q k => q.doSignal false k))
def execSignalAdd (e : Nat) (s : State) : Host.Outcome State Fault Refusal :=
  s.live (fun p => p.serve e Pkt.SIGNAL_ADD (wordAccepted .add) (fun q k => q.doSignal true k))
def execRed (e : Nat) (s : State) : Host.Outcome State Fault Refusal :=
  s.live (fun p => p.serve e Pkt.RED redAccepted Part.doRed)
def execAck (e : Nat) (s : State) : Host.Outcome State Fault Refusal := s.event (·.ackIn e)
def execBrk (e : Nat) (s : State) : Host.Outcome State Fault Refusal := s.event (·.breakIn e)
def execAckTimeout (e i : Nat) (s : State) : Host.Outcome State Fault Refusal := s.event (fun p => p.ackLate e i)

end Sys2Proof.Machine
end

