-- ==== Sys2Proof/Machine/Channels.lean ====
section
/-! DEFINITION. Channel events: messages that arrive, credits, the watchdog, handlers (06 R173 R174 R191, 09 R278 to R286). -/

namespace Sys2Proof.Machine

open Sys2Proof

/-- A message on its way to a queue, past its sender's port, that has come to its beat `b` (09 R260 R278). -/
def isMsgTo (c q b : Nat) : Flight → Bool
  | .msg k i _ due => k == c && i == q && due.any (fun x => decide (x ≤ b))
  | _ => false

/-- A discarded message is counted at its queue (09 R286 R290). -/
def Part.dropMsg (p : Part) (c q : Nat) : Part := p.bump32 (cluReg Reg.CLU_CH_DROP (clusterOf c) [16 * (c % 16) + q]) 1

/-- 09 R279 R285 R286. DESIGN CHOICE: a message that meets 8 messages in its queue waits until an entry is free (credits that come back after a
reset can let a ninth message leave; log 50). -/
def Part.arriveMsg (p : Part) (c q : Nat) : Part := match p.flight.find? (isMsgTo c q (p.beatOf (dieOf c))) with
  | some (.msg _ _ m _) =>
    let p1 : Part := { p with flight := dropFirst (isMsgTo c q (p.beatOf (dieOf c))) p.flight }
    let qu := (p.core c).queue q
    if 2 ≤ p.readerState c then p1.darkSend m.core m.route m.task
    else if m.epoch ≠ qu.epoch then (p1.dropMsg c q).returnCredit m
    else if 8 ≤ qu.msgs.length then p
    else
      ((p1.onCore c (fun k => k.onQueue q (fun y => { y with msgs := y.msgs ++ [m] }))).bump32
        (cluReg Reg.CLU_CH_RX (clusterOf c) [16 * (c % 16) + q]) 1).settle (p.issuer c)
  | _ => p

def isCreditOf (c r : Nat) : Flight → Bool
  | .credit k i => k == c && i == r
  | _ => false

/-- 09 R278 R281: a returned credit, then the ring's head or the waiting SENDs. A route holds at most 8 credits; one in a region held in
reset holds none (15 R472). -/
def Part.creditBack (p : Part) (c r : Nat) : Part :=
  let p1 := if p.flight.any (isCreditOf c r) then
      { p with flight := dropFirst (isCreditOf c r) p.flight }.onRoute c r (fun x =>
        { x with credits := if p.heldDark (clusterOf c) then x.credits else min 8 (x.credits + 1) })
    else p
  p1.pumpRoute c r 24

/-- The watchdog of a route in ns (09 R275). -/
def watchdogNs (w : Nat) : Nat := let n := fld w 31 4; if n = 0 then 100000 else 2 ^ (n - 1) * 10000

/-- The route on which a SEND of thread `t` has been blocked for longer than the watchdog allows, on the interval count (09 R283,
12 R355). -/
def Part.expired (p : Part) (c t : Nat) : Option Nat :=
  (p.core c).moving.findSome? (fun m => match m.what, m.since with
    | .send _ _ r _, some b =>
      if m.thread = t ∧ watchdogNs (p.routeWord c r) < (p.tim.interval - b).toNat then some r else none
    | _, _ => none)

/-- 09 R283. -/
def Part.watchdog (p : Part) (c t : Nat) : Part := match p.expired c t with
  | some r => (p.onRoute c r (fun x => { x with wdog := true })).raiseCore c 0x0072 r 0 0 none
  | none => p

/-- One queue of those that core `c` serves, if its handler can start now: the lowest-numbered IDLE thread takes it. -/
def Part.dispatchOne (c q : Nat) (p : Part) : Part :=
  let (k, i) := queueHome c q
  let qu := (p.core k).queue i
  let w := p.queueWord k i
  if bitOf w 0 && !qu.running && decide (0 < p.unclaimed c q) then
    match (List.range 8).find? (fun t => decide ((p.th c t).st = .idle)) with
    | some t =>
      (p.onCore k (fun x => x.onQueue i (fun y => { y with running := true }))).onTh c t (fun th =>
        { th.ready with ptr := fld w 1 10, handler := true, queue := q, took := false })
    | none => p
  else p

/-- Waiting messages start their handlers, the lowest-numbered queue first, while a task runs on the replica (06 R173 R174). -/
def Part.dispatch (p : Part) (c : Nat) : Part :=
  let i := p.issuer c
  if p.running i then forEach (List.range (if p.paired i then 32 else 16)) (fun q x => x.dispatchOne i q) p else p

def execMessageArrive (c q : Nat) (s : State) : Host.Outcome State Fault Refusal :=
  s.live (fun p => p.onTheCore (p.issuer c) (·.arriveMsg c q))
def execCreditReturn (c r : Nat) (s : State) : Host.Outcome State Fault Refusal := s.coreEvent c (fun p => p.creditBack c r)
def execChannelWatchdog (c t : Nat) (s : State) : Host.Outcome State Fault Refusal :=
  s.coreCmd c (·.watchdog c t)
def execHandlerDispatch (c : Nat) (s : State) : Host.Outcome State Fault Refusal :=
  s.live (fun p => p.onTheCore (p.issuer c) (·.dispatch c))

end Sys2Proof.Machine
end

