-- ==== Sys2Proof/Machine/Starts.lean ====
section
/-! DEFINITION. Starting and stealing, shape records, completion, pre-emption, saves and restores (06 R169, 08 R247 to R253,
10 R303 R310 to R323, 11 R347 R348). -/

namespace Sys2Proof.Machine

open Sys2Proof

/-! ### Shape records (08 R245 to R251) -/

/-- A tag that is reserved, or that no padding may have (02 R37, 08 R249). -/
def padTagBad (t : Nat) : Bool := inList [0x0C, 0x0D, 0x0E, 0x0F, 0x10] t || decide (0x17 ≤ t)

/-- Pattern bits that must be 0 (08 R251). -/
def padBitsBad (t pat : Nat) : Bool :=
  let width := match t with
    | 0x00 | 0x02 | 0x12 => 4
    | 0x03 | 0x04 | 0x13 | 0x14 => 6
    | 0x01 | 0x05 | 0x06 | 0x11 | 0x15 | 0x16 => 8
    | 0x07 | 0x08 => 16
    | _ => 32
  decide (2 ^ width ≤ pat)

/-- 08 R249: words 0 to 15 against the limits M, N, K and F1 × F2 of the scene. -/
def badRecord (w : List Nat) (limits : List Nat) : Bool :=
  let g := fun i => w.getD i 0
  let ctl := g 15
  let f1 := fld (g 3) 0 16
  let f2 := fld (g 3) 16 16
  let size := fun x => x == 0 || decide (2 ^ 24 < x)
  let pad := fun i lo => g i != 0 && (padTagBad (fld ctl lo 5) || padBitsBad (fld ctl lo 5) (g i))
  fld ctl 16 8 != 1 || fld ctl 24 8 != 0 || size (g 0) || size (g 1) || size (g 2) || f1 == 0 || f2 == 0 ||
  decide (limits.getD 0 0 < g 0) || decide (limits.getD 1 0 < g 1) || decide (limits.getD 2 0 < g 2) ||
  decide (limits.getD 3 0 < f1 * f2) || pad 12 0 || pad 13 5 || pad 14 10

/-! ### The choice of a task (10 R309 to R312 R319 R321) -/

/-- Tasks on the callboards of replicas that satisfy `q`. -/
def Part.boardTasks (p : Part) (q : Replica → Bool) : List Task :=
  (p.stg.replicas.filter q).flatMap (fun r => (p.boardOf r.anchor).filterMap p.task)

/-- The candidate sets of a free replica, in order; the flag says whether taking from the set is a local or a remote steal. -/
def Part.candidates (p : Part) (r : Replica) : List (List Task × Nat) :=
  [(p.stg.tasks.filter (fun t => t.claimed == some r.anchor && t.placeDie == r.die && (decide (t.st = .ready) || decide (t.st = .placed))), 0),
   (p.boardTasks (fun x => x.anchor == r.anchor), 0),
   ((p.boardTasks (fun x => x.scene == r.scene && x.die == r.die && x.anchor != r.anchor && !x.dark)).filter (fun t => !t.noSteal), 1),
   (((p.boardTasks (fun x => x.scene == r.scene && x.die != r.die && !x.dark)) ++
      p.stg.tasks.filter (fun t => decide (t.st = .ready) && t.scene == r.scene && t.home != r.die)).filter
      (fun t => !t.noSteal && !t.dieLocal && t.save.isNone), 2)]

/-- The task that a free replica takes, and how. -/
def Part.choose (p : Part) (r : Replica) : Option (Task × Nat) :=
  match (p.candidates r).find? (fun s => !s.1.isEmpty) with
  | some (l, how) => (p.select l).map (fun t => (t, how))
  | none => none

/-- The task leaves the callboard it is on, counted there when stolen (10 R328) and at the thief's die (10 R326). -/
def Part.takeTask (p : Part) (r : Replica) (t : Task) (how : Nat) : Part :=
  let p1 := match t.anchor with
    | some a => (if how = 0 then p else p.bump (cluReg Reg.CLU_CB_STOLEN a []) 1).unboard a t.key
    | none => p
  let p2 := match how with
    | 1 => p1.bump (Reg.STG_STEAL_LOCAL.at [r.die]) 1
    | 2 => p1.bump (Reg.STG_STEAL_REMOTE.at [r.die]) 1
    | _ => p1
  (p2.onTask t.key (fun x => { x with anchor := some r.anchor, claimed := none })).onReplica r.anchor
    (fun x => { x with task := some t.key, preempt := none })

/-! ### The start (06 R169, 07 R202, 10 R318, 11 R329 R337 R344, 02 R581) -/

/-- Core `c` as a task starts on it. -/
def Part.startCore (p : Part) (c : Nat) (sh : List W32) (ptrs : List W48) : Part :=
  let mask := p.startMask c
  let th := (List.range 8).map (fun t =>
    if bitOf mask t then { Thread.reset.ready with ptr := p.entry c t } else Thread.reset)
  p.onCore c (fun k => { k with
    threads := th, sh := sh, ptrs := ptrs, cnt := List.replicate 16 0, wire := 0, xcue := 0, arrivals := []
    sides := k.sides.map (fun s => { s with isOpen := false })
    pads := (sh.drop 12).take 4 })

/-- The curtain nodes of a replica as a task starts: generation 0, or the package node's generation (11 R344). -/
def Part.startCurtains (p : Part) (r : Replica) : Part :=
  let gens : Tab CurtState := forEach (List.range 16) (fun c tab =>
    let d := p.curtDecl r c
    if 3 ≤ d.1 then Tab.put CurtState.reset tab c { gen := (p.pcurt d.2.2).gen, arrived := [] } else tab) []
  (forEach r.clusters (fun cl x => x.onCluster cl (fun k => { k with curts := gens })) p).onReplica r.anchor
    (fun x => { x with curts := gens })

/-- The pointer registers of a starting task. -/
def Part.startPtrs (p : Part) (t : Task) : List W48 :=
  (List.range 8).map (fun i =>
    if i = 6 ∧ t.flag 7 then BitVec.ofNat 48 (p.regN (Reg.STG_SEAT_BLOCK_BASE.at []) + 256 * t.seat)
    else BitVec.ofNat 48 (t.ptrs.getD i 0))

/-- A fresh start: the record is read, then every core starts (08 R247 to R250). -/
def Part.startFresh (p : Part) (r : Replica) (t : Task) : Part :=
  let p1 := (p.onTask t.key (fun x => { x with
      st := .running, charged := p.tim.now, beat0 := p.reg (Reg.TRV_BEAT.at [r.die]), overrun := false })).onReplica r.anchor
    (fun x => { x with st := .running })
  match (if t.shape = 0 then none else p1.readFault t.shape) with
  | some f => p1.rowFault (some t.key) f
  | none =>
    let sc := p1.sceneOf r.scene
    let bytes := if t.shape = 0 then (match sc with | some s => s.shape | none => []) else p1.bytesAt t.shape 64
    let w := (List.range 16).map (fun i => leAt bytes (4 * i) 4)
    let p2 := if t.shape = 0 then p1 else p1.countRead t.shape
    if badRecord w (match sc with | some s => s.limits | none => []) then
      p2.raise ⟨0x0074, 2, r.die, r.origin, 0xFF, 0, some t.key, t.shape, 0⟩ (some 0x11)
    else
      let sh := w.map (BitVec.ofNat 32)
      let ptrs := p2.startPtrs t
      let p3 := forEach r.cores (fun c x => x.startCore c sh ptrs) (p2.startCurtains r)
      forEach r.cores (fun c x => x.dispatch c) p3

/-- A switched-out task waits for its restore, which the lead stage manager serves in request order (10 R320 R321). -/
def Part.askRestore (p : Part) (r : Replica) : Part :=
  let p1 := p.onReplica r.anchor (fun x => { x with st := .restoring })
  { p1 with stg := { p1.stg with saveq := p1.stg.saveq ++ [r.anchor] } }

/-- 10 R310: a free replica takes its next task. -/
def Part.startOn (p : Part) (anchor : Nat) : Part := match p.replicaOf anchor with
  | none => p
  | some r =>
    if r.task.isSome || r.dark || decide (r.st ≠ .free) then p
    else match p.choose r with
    | none => p
    | some (t, how) =>
      let p1 := p.takeTask r t how
      (if t.save.isSome then p1.askRestore r else p1.startFresh r t).place

/-! ### Completion (10 R303, 14 R426) -/

/-- Fabric descriptors that belong to task `k` (14 R426). -/
def Part.fabricOwes (p : Part) (k : TaskKey) : Bool :=
  p.fab.descs.any (fun d => decide (d.owner = some k)) || p.fab.owners.any (fun o => decide (o.2 = some k)) ||
  p.fab.bells.any (fun b => decide (b.owner = some k))

/-- Every unit, queue and move of core `c` is empty. -/
def Part.coreDone (p : Part) (c : Nat) : Bool :=
  let k := p.core c
  k.matq.isEmpty && k.matRun.isEmpty && k.epiq.isEmpty && k.epiRun.isNone && k.vecq.isEmpty && k.vecRun.isNone &&
  k.moveq.isEmpty && k.moving.isEmpty

/-- No request and no transfer of the replica is under way. -/
def Part.movesDone (p : Part) (r : Replica) : Bool :=
  let cs := r.cores
  !p.reqs.any (fun q => cs.elem q.core) && !p.xfers.any (fun q => cs.elem q.core)

/-- A message waits at core `c` for a handler that is still to start in the running task (06 R174). -/
def Part.handlerDue (p : Part) (c : Nat) : Bool :=
  (List.range 16).any (fun q =>
    let i := p.issuer c
    bitOf (p.queueWord c q) 0 && decide (0 < p.unclaimed i (if i = c then q else q + 16)))

/-- 10 R303, 06 R174. -/
def Part.taskDone (p : Part) (r : Replica) (k : TaskKey) : Bool :=
  r.cores.all (fun c => p.coreDone c && !p.handlerDue c && (p.core c).threads.all (fun t => decide (t.st = .idle)) &&
    (p.core c).routes.all (fun x => x.ring.isEmpty)) &&
  p.movesDone r && !p.fabricOwes k

/-- The replica is free. -/
def Part.freeReplica (p : Part) (anchor : Nat) : Part :=
  let p1 := p.onReplica anchor (fun x => { x with st := .free, task := none, preempt := none })
  { p1 with stg := { p1.stg with saveq := p1.stg.saveq.filter (· ≠ anchor) } }

def Part.completeOn (p : Part) (anchor : Nat) : Part := match p.replicaOf anchor with
  | none => p
  | some r => match r.task with
    | none => p
    | some k =>
      if decide (r.st = .running) && p.taskDone r k then (((p.accrue r).freeReplica anchor).finish k 0 0).place else p

/-! ### Requests for pre-emption (10 R319 R320) -/

/-- A request on a replica whose running task may be pre-empted and that has none yet. -/
def Part.askPreempt (p : Part) (anchor : Nat) (claim : Option TaskKey) : Part := match p.replicaOf anchor with
  | none => p
  | some r =>
    let may := match r.task.bind p.task with | some t => !t.noPreempt | none => false
    if !may || r.preempt.isSome || decide (r.st ≠ .running) then p
    else
      let p1 := p.onReplica anchor (fun x => { x with preempt := some ⟨p.reg (Reg.TRV_BEAT.at [r.die]), false, claim⟩ })
      let p2 := match claim with
        | some k => p1.onTask k (fun t => { t with claimed := some anchor })
        | none => p1
      { p2 with stg := { p2.stg with saveq := p2.stg.saveq ++ [anchor] } }

/-- A thread that a switch may find: IDLE, parked, or in a WAIT, RECV or CURT (07 R212). -/
def Thread.switchable (t : Thread) : Bool :=
  decide (t.st = .idle) || (match t.on with
    | .parked => true
    | .wire _ => true
    | .counter _ _ _ => true
    | .queue _ => true
    | .recv _ _ _ _ _ => true
    | .curtain _ => true
    | .rearrive _ _ => true
    | _ => false)

def Part.parked (p : Part) (r : Replica) : Bool := r.cores.all (fun c => (p.core c).threads.all Thread.switchable)

/-- A parked thread runs on behind its INTV. -/
def Thread.unpark (t : Thread) : Thread := match t.on with
  | .parked => t.advance.ready
  | .parking _ => t.advance.ready
  | _ => t

/-- A request is withdrawn, and the task runs on. -/
def Part.withdraw (p : Part) (r : Replica) : Part :=
  let p1 := forEach r.cores (fun c x => x.onCore c (fun k => { k with threads := k.threads.map Thread.unpark })) p
  let p2 := match r.preempt.bind (·.claim) with
    | some k => p1.onTask k (fun t => { t with claimed := none })
    | none => p1
  let p3 := p2.onReplica r.anchor (fun x => { x with preempt := none })
  { p3 with stg := { p3.stg with saveq := p3.stg.saveq.filter (· ≠ r.anchor) } }

/-- 10 R320 step 2: the interval bound has passed and some thread is neither parked nor waiting. -/
def Part.lapse (p : Part) (anchor : Nat) : Part := match p.replicaOf anchor with
  | none => p
  | some r => match r.preempt with
    | none => p
    | some q =>
      let bound := match p.sceneOf r.scene with | some s => s.interval | none => 0
      if decide (r.st ≠ .running) || p.parked r || decide ((p.reg (Reg.TRV_BEAT.at [r.die]) - q.beat).toNat < bound) then p
      else (p.withdraw r).bump (Reg.STG_PREEMPT_LAPSED.at [r.die]) 1

/-! ### Save areas (10 R322 R323) -/

def sectionSize (r : Nat) : Nat := 4096 * ceilDiv (0x12C000 + 512 * r) 4096
def areaSize (clusters r : Nat) : Nat := 4096 + clusters * sectionSize r
def granules (n : Nat) : Nat := ceilDiv n (2 ^ 20)

/-- First fit from the low end of the die's pool, which lies in LPDDR5X. -/
def Part.findArea (p : Part) (d n : Nat) : Option Nat :=
  let base := p.regN (Reg.STG_SAVE_BASE.at [d])
  let size := min (p.regN (Reg.STG_SAVE_SIZE.at [d])) ((p.cap - base) / 2 ^ 20)
  let used := p.stg.areas.filter (fun a => a.1 == d)
  (List.range (size + 1 - n)).find? (fun g => decide (n ≤ size) && used.all (fun a => decide (g + n ≤ a.2.1) || decide (a.2.1 + a.2.2 ≤ g)))

/-- The cluster store save rows of a replica's scene. -/
def Part.saveRows (p : Part) (r : Replica) : Nat := match p.sceneOf r.scene with | some s => s.r | none => 0

/-- No other save or restore runs (10 R320). -/
def Part.switchFree (p : Part) : Bool :=
  p.stg.replicas.all (fun r => decide (r.st ≠ .saving) && (decide (r.st ≠ .restoring) || p.stg.saveq.elem r.anchor))

/-- An entry of the request queue is ready for its save or restore: a restore, or a save whose replica has parked and is idle. -/
def Part.switchReady (p : Part) (anchor : Nat) : Bool := match p.replicaOf anchor with
  | none => false
  | some r => decide (r.st = .restoring) ||
    (decide (r.st = .running) && r.preempt.isSome && p.parked r && r.cores.all p.coreDone && p.movesDone r)

/-- `anchor` is the first ready entry of the queue. -/
def Part.turnOf (p : Part) (anchor : Nat) : Bool := decide (p.stg.saveq.find? p.switchReady = some anchor)

def Part.unqueue (p : Part) (anchor : Nat) : Part := { p with stg := { p.stg with saveq := p.stg.saveq.filter (· ≠ anchor) } }

/-- 10 R320 step 4. -/
def Part.saveBegin (p : Part) (anchor : Nat) : Part := match p.replicaOf anchor with
  | none => p
  | some r =>
    if !(p.switchFree && p.turnOf anchor) || decide (r.st ≠ .running) then p
    else match r.task with
    | none => p
    | some k =>
      let n := granules (areaSize r.clusters.length (p.saveRows r))
      match p.findArea r.die n with
      | none => (p.withdraw r).bump (Reg.STG_PREEMPT_NOSPACE.at [r.die]) 1
      | some g =>
        let p1 := (p.unqueue anchor).onReplica anchor (fun x => { x with st := .saving })
        let p2 := p1.onTask k (fun t => { t with save := some (r.die, g, n) })
        { p2 with stg := { p2.stg with areas := p2.stg.areas ++ [(r.die, g, n)] } }

/-- The header of an area (10 R323). -/
def saveHeader (r : Replica) (k : TaskKey) (psingo : Bool) (rows : Nat) (stamp : W64) : List Byte :=
  let head := leBytes 4 0x56415345 ++ leBytes 2 1 ++ leBytes 2 r.scene ++ leBytes 4 k.id.toNat ++ leBytes 2 k.gen.toNat ++
    leBytes 2 k.child.toNat ++ leBytes 1 r.die ++ leBytes 1 psingo.toNat ++ leBytes 2 r.clusters.length ++ leBytes 2 rows ++
    leBytes 2 0 ++ leBytes 8 stamp.toNat ++ leBytes 4 (sectionSize rows)
  padTo 4096 (padTo 256 head ++ r.clusters.flatMap (fun cl => leBytes 2 (cl % 400)))

/-- A row of the area: its bytes with the tag difference that its source row had. -/
def Part.saveRow (p : Part) (a : Nat) (row : List Byte) (good : Bool) : Part :=
  p.writeRow a row (if good then 0 else 0xFFFFFFFF)

/-- The N8's own state bytes of an area (log 22). -/
def stateRow (uid off : Nat) : List Byte := (List.range 512).map (fun i => Config.stateBlock uid (off + i))

/-- The offsets of an area's rows for core `k` of cluster `i`, with the memory view offset each holds: scratch rows below the
cache, tiles, buffers. -/
def viewRows (scratch : Nat) : List (Nat × Nat) :=
  (List.range scratch).map (fun j => (0x800 + 512 * j, 512 * j)) ++
  (List.range 24).map (fun j => (0xC800 + 512 * j, 0xC000 + 512 * j)) ++
  (List.range 8).map (fun j => (0xF800 + 512 * j, 0xF000 + 512 * j))

/-- A row of the inbound queue part of an area: the messages of queue `q`, head first. -/
def Core.queueRow (k : Core) (q : Nat) : List Byte := padTo 512 ((k.queue q).msgs.flatMap (fun m => padTo 64 m.data))

/-- Core `c` written at `a`, its part of a section. -/
def Part.saveCore (p : Part) (uid off c : Nat) (k : Core) (a : Nat) : Part :=
  let p1 := forEach (List.range 4) (fun j x => x.saveRow (a + 512 * j) (stateRow uid (off + 512 * j)) true) p
  let p2 := forEach (viewRows (scratchRows (p.partition c))) (fun (o, v) x =>
    x.saveRow (a + o) (x.bytesAt (viewAddr c v) 512) (decide (0xC000 ≤ v) || x.rowGood (viewAddr c v))) p1
  forEach (List.range 16) (fun q x => x.saveRow (a + 0x10800 + 512 * q) (k.queueRow q) true) p2

/-- One section of the area: the cores, the cluster's state and its store rows. -/
def Part.saveSection (p : Part) (uid base i cl rows : Nat) (ks : List Core) : Part :=
  let off := 0x1000 + i * sectionSize rows
  let p1 := forEach (List.range 16) (fun k x => x.saveCore uid (off + k * 0x12800) (16 * cl + k) (ks.getD k Core.reset) (base + off + k * 0x12800)) p
  let p2 := forEach (List.range 32) (fun j x => x.saveRow (base + off + 0x128000 + 512 * j) (stateRow uid (off + 0x128000 + 512 * j)) true) p1
  forEach (List.range rows) (fun j x =>
    x.saveRow (base + off + 0x12C000 + 512 * j) (x.bytesAt (storeAddr cl (512 * j)) 512) (x.rowGood (storeAddr cl (512 * j)))) p2

/-- What Psingo mode clears of a core (11 R347). -/
def Core.psingo (k : Core) : Core :=
  { k with
    cnt := List.replicate 16 0, wire := 0, xcue := 0, arrivals := []
    queues := k.queues.map (fun q => { q with msgs := [], epoch := 0 })
    routes := k.routes.map (fun x => { x with ring := [], head := 0, epoch := 0, credits := 8 }) }

/-- The messages that Psingo mode discards at core `c`, counted at their queues and at the readers of their routes (11 R347). -/
def Part.psingoDrops (p : Part) (c : Nat) : Part :=
  let k := p.core c
  let p1 := forEach (List.range 16) (fun q x =>
    x.bump32 (cluReg Reg.CLU_CH_DROP (clusterOf c) [16 * (c % 16) + q]) (k.queue q).msgs.length) p
  forEach (List.range 16) (fun r x => match p.routeTarget c r with
    | some (d, q) => x.bump32 (cluReg Reg.CLU_CH_DROP (clusterOf d) [16 * (d % 16) + q]) (k.route r).ring.length
    | none => x) p1

/-- A core whose task has been switched out: no threads, no messages. -/
def Core.vacate (k : Core) : Core :=
  { k with
    threads := List.replicate 8 Thread.reset
    due := []
    arrivals := []
    queues := k.queues.map (fun q => { q with msgs := [], running := false })
    routes := k.routes.map (fun x => { x with ring := [], head := 0 }) }

/-- Where a task's area starts. -/
def Part.areaBase (p : Part) (d g : Nat) : Nat := p.regN (Reg.STG_SAVE_BASE.at [d]) + g * 2 ^ 20

/-- Everything of the replica goes into the area and into its state blocks, the synchronisation state first as its mode asks
(10 R323, 11 R347). -/
def Part.saveAll (p : Part) (r : Replica) (t : Task) (d g : Nat) : Part :=
  let ps := t.psingo
  let p0 := if ps then forEach r.cores (fun c x => (x.psingoDrops c).onCore c Core.psingo) p else p
  let p1 : Part := if ps then
      (forEach r.clusters (fun cl x => x.onCluster cl (fun k => { k with curts := [] })) p0).onReplica r.anchor (fun x => { x with curts := [] })
    else p0
  let (uid, p2) := p1.fresh
  let sv : Saved := ⟨t.key, uid, r.cores.map p2.core, r.clusters.map (fun cl => (p2.cluster cl).curts),
    if ps then [] else r.curts⟩
  let base := p2.areaBase d g
  let rows := p.saveRows r
  let p3 := forEach ((chunks 512 (saveHeader r t.key ps rows p.tim.now)).zipIdx) (fun (b, i) x => x.saveRow (base + 512 * i) b true) p2
  let p4 := forEach (r.clusters.zipIdx) (fun (cl, i) x =>
    x.saveSection uid base i cl rows ((List.range 16).map (fun k => p2.core (16 * cl + k)))) p3
  let p5 := forEach r.cores (fun c x => x.onCore c Core.vacate) p4
  { p5 with stg := { p5.stg with saved := p5.stg.saved ++ [sv] } }

/-- The offsets of the rows that a restore reads back, and where each goes. -/
def Part.restoreRows (p : Part) (r : Replica) (rows : Nat) : List (Nat × Nat) :=
  (r.clusters.zipIdx).flatMap (fun (cl, i) =>
    let off := 0x1000 + i * sectionSize rows
    (List.range 16).flatMap (fun k =>
      (viewRows (scratchRows (p.partition (16 * cl + k)))).map (fun (o, v) => (off + k * 0x12800 + o, viewAddr (16 * cl + k) v))) ++
    (List.range rows).map (fun j => (off + 0x12C000 + 512 * j, storeAddr cl (512 * j))))

/-- The rows of the area that the save wrote: the header, and in each section every row but those of cache rows. -/
def Part.areaRows (p : Part) (r : Replica) (rows : Nat) : List Nat :=
  (List.range 8).map (512 * ·) ++ (p.restoreRows r rows).map (·.1) ++
  (r.clusters.zipIdx).flatMap (fun (_, i) =>
    let off := 0x1000 + i * sectionSize rows
    (List.range 16).flatMap (fun k =>
      (List.range 4).map (fun j => off + k * 0x12800 + 512 * j) ++ (List.range 16).map (fun j => off + k * 0x12800 + 0x10800 + 512 * j)) ++
    (List.range 32).map (fun j => off + 0x128000 + 512 * j))

/-- What a save meets in the tiles and buffers it reads: a poisoned word, or a residue that does not match (03 R99, 18 R533). -/
def Part.saveFault (p : Part) (r : Replica) : Option RowFault :=
  r.cores.findSome? (fun c => (List.range 32).findSome? (fun j => p.wordFault c (0xC000 + 512 * j)))

/-- A row of a save area lies on a failed channel, which is PACKAGE-FATAL (13 R584, 18 R542). -/
def Part.areaLost (p : Part) (k : TaskKey) (a : Nat) : Part :=
  (p.noteDamaged a).raise { p.rowReport 0x0091 (some k) a with addr := a } none

/-- 10 R320 step 5: SWITCHED_OUT, then READY with the ready stamp; a task of a retiring scene fails (15 R475). -/
def Part.saveComplete (p : Part) (anchor : Nat) : Part := match p.replicaOf anchor with
  | none => p
  | some r =>
    if r.st ≠ .saving then p
    else match r.task.bind p.task with
    | none => p
    | some t => match t.save with
      | none => p
      | some (d, g, _) =>
        let base := p.areaBase d g
        match p.saveFault r, (p.areaRows r (p.saveRows r)).find? (fun o => p.lost (base + o)) with
        | some f, _ => p.rowFault (some t.key) f
        | none, some o => p.areaLost t.key (base + o)
        | none, none =>
          let p1 := ((p.accrue r).saveAll r t d g).bump (Reg.STG_PREEMPTS.at [r.die]) 1
          let p2 := (p1.freeReplica anchor).onTask t.key (fun x => { x with st := .ready, anchor := none })
          let gone := match p.sceneOf r.scene with | some s => s.retiring | none => true
          (if gone then p2.finish t.key 2 0x16 else p2).place

/-! ### Restores (10 R321, 11 R347 R348) -/

def Part.restoreBegin (p : Part) (anchor : Nat) : Part := match p.replicaOf anchor with
  | none => p
  | some r => match r.task with
    | none => p
    | some k =>
      if decide (r.st ≠ .restoring) || !(p.switchFree && p.turnOf anchor) then p
      else (p.unqueue anchor).onTask k (fun t => { t with st := .running, charged := p.tim.now })

/-- Core `c` takes its saved state back; its inbound queues take the bytes of the area, and behind them keep the messages that arrived since
(06 R174); its queues' and routes' own marks stand (10 R321, 04 R106, 06 R188). -/
def Part.restoreCore (p : Part) (c a : Nat) (sv : Core) : Part :=
  p.onCore c (fun k => { k with
    threads := sv.threads, sh := sv.sh, ptrs := sv.ptrs, cnt := sv.cnt, wire := sv.wire, xcue := sv.xcue, sides := sv.sides
    arrivals := sv.arrivals, pads := sv.pads
    lanes := List.replicate 16 (List.replicate 32 0), due := []
    cache := k.cache.map (fun w => (w.1, { w.2 with valid := false }))
    queues := (k.queues.zip sv.queues).zipIdx.map (fun ((q, s), i) => { q with
      msgs := s.msgs.zipIdx.map (fun (m, e) => { m with data := p.bytesAt (a + 0x10800 + 512 * i + 64 * e) 64 }) ++ q.msgs
      epoch := s.epoch
      running := s.running })
    routes := (k.routes.zip sv.routes).map (fun (x, s) => { x with credits := s.credits, ring := s.ring, head := s.head, epoch := s.epoch }) })

/-- The threads of a restored core: parked ones go on behind their INTV, and in Psingo mode those in a CURT arrive again. -/
def Part.resumeCore (p : Part) (c : Nat) (psingo : Bool) : Part :=
  let p1 := p.onCore c (fun k => { k with threads := k.threads.map Thread.unpark })
  if psingo then
    forEach (List.range 8) (fun t x => match (x.th c t).on with
      | .curtain cur => x.arrive c t cur true
      | .rearrive cur w => x.arrive c t cur w
      | _ => x) p1
  else p1

/-- Package curtains whose generation was released while the task was switched out: their release reaches the replica (log 24). -/
def Part.missedReleases (p : Part) (r : Replica) (sv : Saved) : Part :=
  forEach (List.range 16) (fun cur x =>
    let d := x.curtDecl r cur
    if decide (3 ≤ d.1) && decide ((Tab.get CurtState.reset sv.scene cur).gen ≠ (x.pcurt d.2.2).gen) then
      let set_ := fun (n : CurtState) => { n with gen := (x.pcurt d.2.2).gen - 1 }
      (forEach r.clusters (fun cl y => y.onNode cl cur set_) (x.onRNode r.anchor cur set_)).releaseReplica r cur d.2.1
    else x) p

/-- The state blocks and rows of an area go back to the replica. -/
def Part.restoreAll (p : Part) (r : Replica) (t : Task) (sv : Saved) (base rows : Nat) : Part :=
  let p1 := forEach (p.restoreRows r rows) (fun (o, a) x => x.writeRow a (p.bytesAt (base + o) 512) 0) p
  let p2 := forEach ((r.cores.zip sv.cores).zipIdx) (fun ((c, k), i) x =>
    x.restoreCore c (base + 0x1000 + (i / 16) * sectionSize rows + (i % 16) * 0x12800) k) p1
  let p3 := (forEach (r.clusters.zip sv.curts) (fun (cl, ct) x => x.onCluster cl (fun k => { k with curts := ct })) p2).onReplica
    r.anchor (fun x => { x with curts := sv.scene })
  let p4 := if t.psingo then p3.startCurtains r else p3.missedReleases r sv
  forEach r.cores (fun c x => x.resumeCore c t.psingo) p4

/-- 10 R321 R323: a failed tag aborts the task; otherwise every thread resumes and the area is free. -/
def Part.restoreComplete (p : Part) (anchor : Nat) : Part := match p.replicaOf anchor with
  | none => p
  | some r =>
    if decide (r.st ≠ .restoring) || p.stg.saveq.elem anchor then p
    else match r.task.bind p.task with
    | none => p
    | some t => match t.save, p.stg.saved.find? (fun x => decide (x.key = t.key)) with
      | some (d, g, _), some sv =>
        let base := p.areaBase d g
        let rows := p.saveRows r
        let q := forEach (p.areaRows r rows) (fun o x => x.countRead (base + o)) p
        match (p.areaRows r rows).find? (fun o => p.lost (base + o)), (p.areaRows r rows).find? (fun o => (p.readFault (base + o)).isSome) with
        | some o, _ => q.areaLost t.key (base + o)
        | none, some o => (q.noteDamaged (base + o)).raise (q.rowReport 0x0021 (some t.key) (base + o)) none
        | none, none =>
          let p1 := (q.restoreAll r t sv base rows).onReplica anchor (fun x => { x with st := .running })
          let p2 := p1.freeSave t.key
          forEach r.cores (fun c x => (x.settle c).dispatch c) p2
      | _, _ => p

def execTaskStart (anchor : Nat) (s : State) : Host.Outcome State Fault Refusal := s.live (·.startOn anchor)
def execTaskComplete (anchor : Nat) (s : State) : Host.Outcome State Fault Refusal := s.live (·.completeOn anchor)
def execPreemptLapse (anchor : Nat) (s : State) : Host.Outcome State Fault Refusal := s.live (·.lapse anchor)
def execSaveBegin (anchor : Nat) (s : State) : Host.Outcome State Fault Refusal := s.event (·.saveBegin anchor)
def execSaveComplete (anchor : Nat) (s : State) : Host.Outcome State Fault Refusal := s.event (·.saveComplete anchor)
def execRestoreBegin (anchor : Nat) (s : State) : Host.Outcome State Fault Refusal := s.live (·.restoreBegin anchor)
def execRestoreComplete (anchor : Nat) (s : State) : Host.Outcome State Fault Refusal := s.event (·.restoreComplete anchor)

end Sys2Proof.Machine
end

