-- ==== Sys2Proof/Machine/Pace.lean ====
section
/-! DEFINITION. Beat monitors, demand, the pace controller, AVSBus (12 R357 to R372, 10 R319). -/

namespace Sys2Proof.Machine

open Sys2Proof

/-! ### Beat monitors (12 R357 to R359) -/

def bmon (d i : Nat) : Nat := Reg.TRV_BMON.at [d, i]

/-- The rate that a window's loop count gives under a ratio in 8.8 fixed point. -/
def monitorRate (ratio loops : Nat) : Nat :=
  if ratio = 0 then (Config.rawRate loops).toNat else min 0xFFFF (loops * 256 / ratio)

/-- One monitor's report: rate, smallest rate (0 stands for none since the last clear, log 27) and temperature + 40. -/
def Part.monitor (p : Part) (d i loops temp : Nat) : Part :=
  let r := bmon d i
  let rate := monitorRate (p.regFld r 32 16) loops
  let low := p.regFld r 16 16
  ((p.setFld r 0 16 rate).setFld r 16 16 (if low = 0 then rate else min low rate)).setFld r 48 8 temp

/-- The hottest bay: temperature + 40 and bay, the lower bay of equals. -/
def hottest (temps : List Nat) : Nat × Nat :=
  temps.zipIdx.foldl (fun best x => if best.1 < x.1 then x else best) (0, 0)

/-- What a fenced bay of a dark region shows instead of its monitor (15 R472). -/
def Part.bayClamp (p : Part) (d i : Nat) : Option Nat :=
  (p.stg.replicas.find? (fun r => r.dark && r.fenced && r.die == d && r.clusters.any (fun cl => bayOf cl == i))).map (·.clamp.toNat)

def Part.showBay (p : Part) (d i loops temp : Nat) : Part := match p.bayClamp d i with
  | some w => (p.setFld (bmon d i) 0 16 (fld w 2 16)).setFld (bmon d i) 48 8 (fld w 18 8)
  | none => p.monitor d i loops temp

def Part.rail (p : Part) (d : Nat) : Rail := p.pce.rails.getD d Rail.reset
def Part.onRail (p : Part) (d : Nat) (f : Rail → Rail) : Part := { p with pce := { p.pce with rails := modAt p.pce.rails d f } }

/-- 12 R357 R372: every monitor's rate, the measured rate, the hottest bay. -/
def Part.monitorWindow (p : Part) (d : Nat) (loops temps : List Nat) : Part :=
  if 4 ≤ d then p
  else
    let p1 := forEach (List.range 16) (fun i x => x.showBay d i (loops.getD i 0) (temps.getD i 0)) p
    let least := ((List.range 16).map (fun i => p1.regFld (bmon d i) 0 16)).foldl min 0xFFFF
    let hot := hottest ((List.range 16).map (fun i => p1.regFld (bmon d i) 48 8))
    ((p1.setFld (Reg.PCE_DEMAND.at [d]) 16 16 least).setRegN (Reg.PCE_TEMP.at [d]) (hot.1 + hot.2 * 256)).onRail d (fun r =>
      { r with meas := (r.meas.1 + least, r.meas.2 + 1), fresh := true })

def Part.measured (p : Part) (d : Nat) : Nat := p.regFld (Reg.PCE_DEMAND.at [d]) 16 16
/-- `PCE_TEMP_d`: the hottest bay's temperature + 40. -/
def Part.hot (p : Part) (d : Nat) : Nat := p.regFld (Reg.PCE_TEMP.at [d]) 0 8

/-- The pace controller's own CORRECTED error on a rail (12 R358 R371). -/
def Part.paceError (p : Part) (d : Nat) : Part := p.raise ⟨0x0080, 3, d, 0, 0xFF, 0, none, 0, 0⟩ none

/-- A calibration window of the die is due (12 R375). -/
def Part.calDue (p : Part) (d : Nat) : Bool :=
  decide (p.regFld (Reg.PCE_HOUSE.at []) 16 8 * 100000 ≤ (p.tim.interval - (p.rail d).calAt).toNat)

/-- 12 R358 R375: loop cycles over 65,536 beats, once in a calibration period. A window in which a voltage command took effect is
discarded. -/
def Part.calibrate (p : Part) (d : Nat) (loops : List Nat) : Part :=
  if decide (4 ≤ d) || !p.calDue d then p
  else
    let beat := p.reg (Reg.TRV_BEAT.at [d])
    let spoiled := match (p.rail d).took with | some b => decide ((beat - b).toNat < 65536) | none => false
    let p1 := p.onRail d (fun r => { r with calAt := p.tim.interval })
    if spoiled then p1
    else forEach (List.range 16) (fun i x => x.setFld (bmon d i) 32 16 (min 0xFFFF (loops.getD i 0 / 256))) p1

/-- 12 R358: the measured rate of the die, the mean of the period's windows, differs by more than 3 % from the TRV_BEAT rate `b` of the same
10 µs. Monitors without a calibration ratio show no such rate (log 27). -/
def Part.calOff (p : Part) (d b : Nat) : Bool :=
  let m := (p.rail d).meas
  m.2 != 0 && (List.range 16).all (fun i => p.regFld (bmon d i) 32 16 != 0) &&
    (decide (3 * b * m.2 < 100 * (m.1 - b * m.2)) || decide (3 * b * m.2 < 100 * (b * m.2 - m.1)))

/-! ### Rates (12 R366 R372) -/

/-- A point's rate × 1,000, lowered for a bay hotter than at its measurement. -/
def Part.pointRate (p : Part) (d j : Nat) : Nat :=
  let r := Reg.PCE_TABLE.at [d, j]
  p.regFld r 0 16 * (1000 - min 1000 (p.hot d - p.regFld r 16 8))

/-- The rate at a code × 10,000, interpolated between the points. -/
def Part.codeRate (p : Part) (d v : Nat) : Nat :=
  p.pointRate d (v / 10) * (10 - v % 10) + p.pointRate d (v / 10 + 1) * (v % 10)

def Part.railCfg (p : Part) (d lo : Nat) : Nat := p.regFld (Reg.PCE_RAIL_CFG.at [d]) lo 8
def Part.floorCode (p : Part) (d : Nat) : Nat := min 140 (p.railCfg d 0)

/-- 12 R364. -/
def Part.ceiling (p : Part) (d : Nat) : Nat := min (p.railCfg d 8) (min (p.rail d).therm (p.rail d).power)

/-- The voltage of a code in mV, rounded up (12 R370). -/
def codeMv (v : Nat) : Nat := 500 + (5 * v + 1) / 2

def fracLt (a b : Nat × Nat) : Bool := decide (a.1 * b.2 < b.1 * a.2)

/-! ### Demand (12 R361 R362) -/

/-- A task's declared cost in beats (10 R294). -/
def Part.costBeats (p : Part) (t : Task) : Nat :=
  64 * (if t.cost = 0 then (match p.sceneOf t.scene with | some s => s.cost | none => 0) else t.cost)

/-- Beats that the die of a running task has advanced since it started. -/
def Part.ranBeats (p : Part) (t : Task) : Nat := match t.anchor with
  | some a => (p.reg (Reg.TRV_BEAT.at [a / 400]) - t.beat0).toNat
  | none => 0

/-- The remaining work W. -/
def Part.workLeft (p : Part) (t : Task) : Nat :=
  if t.st = .running then max 64 (p.costBeats t - p.ranBeats t) else p.costBeats t

def Part.seatDue (p : Part) (t : Task) : Nat := p.regN (Reg.STG_SEAT_DEADLINE.at [t.seat])

/-- A deadline task of a snapshot, wherever it is. -/
def Part.isDeadline (p : Part) (t : Task) : Bool :=
  t.deadline && t.seatEn && p.regN (Reg.STG_SEAT_CADENCE.at [t.seat]) != 0

/-- The largest demand over a replica's deadline tasks in order, none when one of them is late. -/
def demandOf (now guard : Nat) : Nat → List (Nat × Nat) → Option (Nat × Nat)
  | _, [] => some (0, 1)
  | acc, (due, w) :: rest =>
    if due ≤ now + guard then none
    else match demandOf now guard (acc + w) rest with
    | none => none
    | some m =>
      let here := (1000 * (acc + w), due - now - guard)
      some (if fracLt m here then here else m)

/-- The deadline tasks given, by next deadline and ready stamp, behind `w0` beats of other work. -/
def Part.groupDemand (p : Part) (w0 : Nat) (ts : List Task) : Option (Nat × Nat) :=
  let lt := fun (a b : Task) => decide (p.seatDue a < p.seatDue b) || (decide (p.seatDue a = p.seatDue b) && decide (a.stamp.toNat < b.stamp.toNat))
  demandOf p.tim.now.toNat (p.regFld (Reg.PCE_GUARD.at []) 0 16) w0 ((sortBy lt ts).map (fun t => (p.seatDue t, p.workLeft t)))

/-- The die's demand in Mbeat/s as a fraction, none when the snapshot is late. -/
def Part.dieDemand (p : Part) (d : Nat) : Option (Nat × Nat) :=
  let ts := p.stg.tasks.filter p.isDeadline
  let onReplica := (p.stg.replicas.filter (fun r => r.die == d)).map (fun r =>
    let mine := ts.filter (fun t => t.anchor == some r.anchor && (decide (t.st = .running) || decide (t.st = .placed)))
    let w0 := match r.task.bind p.task with
      | some t => if t.deadline || decide (t.st ≠ .running) then 0 else p.workLeft t
      | none => 0
    p.groupDemand w0 mine)
  let loose := (ts.filter (fun t => decide (t.st = .ready) && t.home == d)).map (fun t => p.groupDemand 0 [t])
  (onReplica ++ loose).foldl (fun m x => match m, x with
    | some a, some b => some (if fracLt a b then b else a)
    | _, _ => none) (some (p.codeRate d (p.floorCode d), 10000))

/-- Running tasks on die `d` that have passed their declared cost, each counted once (12 R361). -/
def Part.overruns (p : Part) (d : Nat) : Part :=
  forEach (p.stg.tasks.filter (fun t => decide (t.st = .running) && !t.overrun &&
      (match t.anchor with | some a => a / 400 == d | none => false) && decide (p.costBeats t < p.ranBeats t)))
    (fun t x => (x.onTask t.key (fun y => { y with overrun := true })).bump (Reg.PCE_OVERRUN.at []) 1) p

/-! ### Pre-emption for a deadline (10 R319) -/

/-- The replica to pre-empt for task `t`: of those of its scene on its home die that run a task that may give way, the one whose
group is least preferred, of equals the lowest anchor. -/
def Part.victim (p : Part) (t : Task) : Option Replica :=
  let rs := p.stg.replicas.filter (fun r => r.scene == t.scene && r.die == t.home && !r.dark)
  if rs.any (fun r => r.task.isNone && decide (r.st = .free)) then none
  else
    let may := rs.filterMap (fun r => match r.task.bind p.task with
      | some v => if v.deadline || v.noPreempt || r.preempt.isSome || decide (r.st ≠ .running) then none else some (r, p.groupOf v)
      | none => none)
    (pickMin (fun a b => p.prefers b.2 a.2 && a.2 != b.2 || (a.2 == b.2 && decide (a.1.anchor < b.1.anchor))) may).map (·.1)

/-- A task with a deadline that waits on its home die (10 R316 R319). -/
def Part.waitsHome (p : Part) (d : Nat) (t : Task) : Bool :=
  t.home == d && p.isDeadline t && t.claimed.isNone &&
  (match t.st with
    | .ready => t.placeDie == d
    | .placed => t.anchor.any (fun a => a / 400 == d) && t.placeDie == d
    | _ => false)

/-- 10 R319, second case, for every waiting deadline task of a die. -/
def Part.deadlinePreempts (p : Part) (d : Nat) : Part :=
  let slack := p.regFld (Reg.STG_PREEMPT_CFG.at [d]) 0 24
  if slack = 0 then p
  else forEach (p.stg.tasks.filter (fun t => p.waitsHome d t && decide (p.seatDue t ≤ p.tim.now.toNat + slack)))
    (fun t x => match x.victim t with
      | some r => x.askPreempt r.anchor (some t.key)
      | none => x) p

/-! ### Commands (12 R365 to R371) -/

/-- `PCE_RAIL_STAT_d` (12 R372). -/
def Part.ackCode (p : Part) (d : Nat) : Nat := p.regFld (Reg.PCE_RAIL_STAT.at [d]) 8 8
def Part.unsteerable (p : Part) (d : Nat) : Bool := bitOf (p.regN (Reg.PCE_RAIL_STAT.at [d])) 16

/-- The needed rate: the largest demand of the period's snapshots, with the margin (12 R363). -/
def Part.needed (p : Part) (d : Nat) : Nat × Nat :=
  let q := (p.rail d).demand
  (q.1 * (1000 + p.regFld (Reg.PCE_CFG.at []) 4 10), q.2 * 1000)

def Part.reaches (p : Part) (d v : Nat) (need : Nat × Nat) : Bool := decide (need.1 * 10000 ≤ p.codeRate d v * need.2)

/-- The lowest code that gives the needed rate and 0.20 Gbeat/s, within the floor and the ceiling (12 R367 R375). -/
def Part.autoTarget (p : Part) (d : Nat) : Nat :=
  let c := p.ceiling d
  let fits := fun v => decide (p.floorCode d ≤ v) && p.reaches d v (p.needed d) && decide (200 * 10000 ≤ p.codeRate d v)
  ((List.range (c + 1)).find? fits).getD c

def Part.paceMode (p : Part) : Nat := p.regFld (Reg.PCE_CFG.at []) 0 2

def Part.target (p : Part) (d : Nat) : Nat := match p.paceMode with
  | 0 => p.autoTarget d
  | 1 => min (p.railCfg d 16) (p.ceiling d)
  | _ => p.ceiling d

/-- The rate at a code is below 0.20 Gbeat/s. -/
def Part.slow (p : Part) (d v : Nat) : Bool := decide (p.codeRate d v < 200 * 10000)

/-- The next code: a step from the acknowledged code toward the target, never above the ceiling, never to a code whose rate is below
0.20 Gbeat/s; a step down follows a measurement since the last one (12 R365 R367 R375). -/
def Part.nextCode (p : Part) (d : Nat) : Nat :=
  let a := p.ackCode d
  let t := p.target d
  let cfg := Reg.PCE_CFG.at []
  let v := if a ≤ t then min t (a + p.regFld cfg 14 4) else if (p.rail d).fresh then min (max t (a - p.regFld cfg 18 4)) (p.ceiling d) else a
  if p.slow d v then a else v

/-- The rail can be commanded: it has had no command for 10 µs, none is under way and it is steered (12 R367 R371). -/
def Part.canSend (p : Part) (d : Nat) : Bool :=
  (match (p.rail d).lastCmd with | some t => decide (10000 ≤ (p.tim.interval - t).toNat) | none => true) &&
  !p.unsteerable d && (p.rail d).sending.isNone && decide (p.phase = .ready)

/-- A command leaves for a rail (12 R367 R370). -/
def Part.command (p : Part) (d v : Nat) : Part :=
  if v = p.ackCode d ∨ !p.canSend d then p
  else
    ((p.setFld (Reg.PCE_RAIL_STAT.at [d]) 0 8 v).onRail d (fun r =>
      { r with lastCmd := some p.tim.interval, sending := some v, tries := 0 })).emit (.avs d 0 (codeMv v))

/-- A rise to code `v`: commanded, or kept until the rail can be commanded (12 R367). -/
def Part.rise (p : Part) (d v : Nat) : Part :=
  let w := min v (p.ceiling d)
  if w ≤ p.ackCode d ∨ p.slow d w then p.onRail d (fun r => { r with rise := none })
  else if p.canSend d then (p.command d w).onRail d (fun r => { r with rise := none })
  else p.onRail d (fun r => { r with rise := some v })

/-- 12 R361 R362 R367: the snapshot, a late one with the rate at the ceiling for its demand, and a rise it calls for in the middle of a
period. -/
def Part.snapshot (p : Part) (d : Nat) : Part :=
  if 4 ≤ d then p
  else
    let p1 := match p.dieDemand d with
      | none =>
        let m := (p.codeRate d (p.ceiling d), 10000)
        (p.onRail d (fun r => { r with late := true, demand := if fracLt r.demand m then m else r.demand })).orReg (Reg.PCE_STAT.at []) 32
      | some m => p.onRail d (fun r => { r with demand := if fracLt r.demand m then m else r.demand })
    let p2 := (p1.overruns d).deadlinePreempts d
    let v := max (p2.nextCode d) ((p2.rail d).rise.getD 0)
    if p2.paceMode = 0 ∧ p2.ackCode d < v then p2.rise d v else p2

/-- The ceilings at the end of a period (12 R364). -/
def Part.moveCeilings (p : Part) (d : Nat) : Part :=
  let th := Reg.PCE_THERM.at []
  let hot := p.hot d
  let cap := decide (p.regFld th 0 8 + 40 ≤ hot)
  let rel := decide (hot < p.regFld th 8 8 + 40)
  let w := p.regFld (Reg.PCE_PACKAGE_W.at []) 0 16
  let over_ := decide (p.pce.limit < w)
  let under := decide (100 * w < 98 * p.pce.limit)
  let p1 := p.onRail d (fun r => { r with
    therm := if cap then r.therm - 1 else if rel then min 140 (r.therm + 1) else r.therm
    power := if over_ then r.power - 1 else if under then min 140 (r.power + 1) else r.power })
  p1.orReg (Reg.PCE_STAT.at []) ((if cap then 2 else 0) + (if over_ then 4 else 0))

/-- One rail at the end of a period: its demand is shown, its next code commanded, its rates compared, its failing periods counted, its next
period begins (12 R358 R367 R371). -/
def Part.steer (p : Part) (d : Nat) : Part :=
  let q := (p.rail d).demand
  let p1 := p.setFld (Reg.PCE_DEMAND.at [d]) 0 16 (if (p.rail d).late then 0xFFFF else min 0xFFFF (q.1 / max 1 q.2))
  let v := p1.nextCode d
  let p2 := if p1.ackCode d < v then p1.rise d v else (p1.command d v).onRail d (fun r => { r with rise := none })
  let at_ := decide (p2.regFld (Reg.PCE_RAIL_STAT.at [d]) 0 8 = p2.ceiling d)
  let beat := p.reg (Reg.TRV_BEAT.at [d])
  let ns := (p.tim.interval - p.pce.lastPeriod).toNat
  let rate := if ns = 0 then (p.rail d).beatRate else (beat - (p.rail d).beatAt).toNat * 1000 / ns
  let fails := if (p.rail d).bad then (p.rail d).fails + 1 else 0
  let p3 := (p2.setFld (Reg.PCE_RAIL_STAT.at [d]) 17 1 at_.toNat).onRail d (fun r => { r with
    demand := (0, 1), late := false, beatAt := beat, beatRate := rate, meas := (0, 0), bad := false, fails := fails, tries := 0 })
  let p4 := if ns ≠ 0 ∧ p.calOff d rate then (p3.orReg (Reg.PCE_STAT.at []) 16).paceError d else p3
  if fails = 10 then (p4.setFld (Reg.PCE_RAIL_STAT.at [d]) 16 1 1).paceError d else p4

/-- The voltage of a steered rail in mV: C-rails 0 to 3, M-rails 4 and 5. -/
def Part.railMv (p : Part) (i : Nat) : Nat := if i < 4 then codeMv (p.ackCode i) else p.pce.mvolts.getD (i - 4) 0

/-- Package power in W over the rails read, with the fixed rails' 360 W (12 R370, 19 R557), and each C-rail's energy. -/
def Part.meter (p : Part) : Part :=
  let uw := fun i => p.railMv i * p.pce.amps.getD i 0
  let ns := (p.tim.interval - p.pce.lastPeriod).toNat
  let w := 360 + ((List.range 6).map uw).sum / 1000000
  forEach (List.range 4) (fun d x =>
    let e := (p.rail d).energy + uw d * ns
    (x.onRail d (fun r => { r with energy := e })).setRegN (Reg.PCE_ENERGY.at [d]) (e / 10 ^ 9))
    (p.setRegN (Reg.PCE_PACKAGE_W.at []) (min 0xFFFF w))

/-- The reads of a period (12 R370). -/
def Part.readRails (p : Part) : Part :=
  forEach (List.range 4) (fun l x =>
    forEach (if l < 2 then [0, 1] else [0]) (fun r y => (y.emit (.avs l 1 r)).emit (.avs l 2 r)) x) p

/-- 12 R363 to R370: the end of a control period. -/
def Part.period (p : Part) : Part :=
  let p1 := forEach (List.range 4) (fun d x => x.moveCeilings d) p.meter
  let short := p1.paceMode = 0 ∧ (List.range 4).any (fun d => !p1.reaches d (p1.ceiling d) (p1.needed d))
  let p2 := if short then (p1.orReg (Reg.PCE_STAT.at []) 1).bump (Reg.PCE_SHORT_COUNT.at []) 1 else p1
  let p3 := forEach (List.range 4) (fun d x => x.steer d) p2
  { p3 with pce := { p3.pce with lastPeriod := p.tim.interval, limit := p.regFld (Reg.PWR_LIMIT.at []) 0 11, reads := [] } }.readRails

/-! ### Rate table and AVSBus (12 R366 R370 R371) -/

/-- The point that a code stands near, if it stands near one. -/
def nearPoint (v : Nat) : Option Nat := if v % 10 ≤ 2 then some (v / 10) else if 8 ≤ v % 10 then some (v / 10 + 1) else none

/-- 12 R366. -/
def Part.refreshPoint (p : Part) (d j : Nat) : Part :=
  if 4 ≤ d ∨ 15 ≤ j ∨ nearPoint (p.ackCode d) ≠ some j ∨ (p.tim.interval - (p.rail d).held).toNat < 10000 then p
  else
    let r := Reg.PCE_TABLE.at [d, j]
    (p.setFld r 0 16 ((3 * p.regFld r 0 16 + p.measured d) / 4)).setFld r 16 8 (p.hot d)

/-- A failed transaction is counted (12 R371). -/
def Part.avsFailed (p : Part) (d : Nat) : Part :=
  let r := Reg.PCE_RAIL_STAT.at [d]
  (p.setFld r 18 8 (min 255 (p.regFld r 18 8 + 1))).orReg (Reg.PCE_STAT.at []) 8

/-- The end of a voltage write on link `d`. A retry stays at or below the ceiling (12 R365 R370 R371). -/
def Part.avsWrite (p : Part) (d : Nat) (ok : Bool) : Part := match (p.rail d).sending with
  | none => p
  | some v =>
    let st := Reg.PCE_RAIL_STAT.at [d]
    if ok then
      let same := decide (nearPoint v = nearPoint (p.ackCode d)) && (nearPoint v).isSome
      ((p.setFld st 8 8 v).bump (Reg.PCE_CMDS.at [d]) 1).onRail d (fun r => { r with
        sending := none, bad := false, took := some (p.reg (Reg.TRV_BEAT.at [d]))
        fresh := r.fresh && decide (p.ackCode d ≤ v), held := if same then r.held else p.tim.interval })
    else
      let p1 := (p.avsFailed d).onRail d (fun r => { r with bad := true })
      let w := min v (p.ceiling d)
      if (p.rail d).tries < 3 ∧ !(w != v && (w == p.ackCode d || p.slow d w)) then
        ((p1.setFld st 0 8 w).onRail d (fun r => { r with tries := r.tries + 1, sending := some w })).emit (.avs d 0 (codeMv w))
      else p1.onRail d (fun r => { r with sending := none })

/-- The end of a read of rail `r` of link `l`: kind 1 current, 2 temperature. -/
def Part.avsRead (p : Part) (l r kind value : Nat) (ok : Bool) : Part :=
  let key := 8 * l + 4 * r + kind
  let i := if r = 0 then l else 4 + l
  if ok then (if kind = 1 then { p with pce := { p.pce with amps := p.pce.amps.set i value } } else p)
  else
    let n := Tab.get 0 p.pce.reads key
    let p1 := p.avsFailed l
    if n < 3 then { p1 with pce := { p1.pce with reads := Tab.put 0 p1.pce.reads key (n + 1) } }.emit (.avs l kind r) else p1

def Part.avsDone (p : Part) (link : Nat) (kind : Avs) (ok : Bool) : Part :=
  if 4 ≤ link then p
  else match kind with
  | .write => p.avsWrite link ok
  | .current rail ma => if rail = 0 ∨ (rail = 1 ∧ link < 2) then p.avsRead link rail 1 ma ok else p
  | .temp rail c => if rail = 0 ∨ (rail = 1 ∧ link < 2) then p.avsRead link rail 2 c ok else p

/-- 12 R371: every rail may be steered again. -/
def Part.clearUnsteerable (p : Part) : Part :=
  forEach (List.range 4) (fun d x => (x.setFld (Reg.PCE_RAIL_STAT.at [d]) 16 1 0).onRail d (fun r => { r with fails := 0 })) p

def execBeatMonitorWindow (d : Nat) (loops temps : List Nat) (s : State) : Host.Outcome State Fault Refusal :=
  s.live (fun p => p.monitorWindow d loops temps)
def execMonitorCalibration (d : Nat) (loops : List Nat) (s : State) : Host.Outcome State Fault Refusal :=
  s.live (fun p => p.calibrate d loops)
def execDemandSnapshot (d : Nat) (s : State) : Host.Outcome State Fault Refusal := s.live (·.snapshot d)
def execControlPeriod (s : State) : Host.Outcome State Fault Refusal := s.live (·.period)
def execRateTableRefresh (d j : Nat) (s : State) : Host.Outcome State Fault Refusal := s.live (fun p => p.refreshPoint d j)
def execAvsTransactionComplete (link : Nat) (kind : Avs) (ok : Bool) (s : State) : Host.Outcome State Fault Refusal :=
  s.live (fun p => p.avsDone link kind ok)

end Sys2Proof.Machine
end

