-- ==== Sys2Proof/Machine/Traverse.lean ====
section
/-! DEFINITION. The traverse network: the entries of cue sheets in one beat, merged reads, what lands in a beat (09 R256 to R271 R291,
log 20). -/

namespace Sys2Proof.Machine

open Sys2Proof

/-- A cue sheet entry (09 R263). -/
structure SheetEntry where
  slot : Nat
  kind : Nat
  unit : Nat
  core : Nat
  peer : Nat
  spine : Nat
  mc : Bool
  group : Nat
  merge : Bool
  rsv : Nat
  deriving DecidableEq, Repr

def sheetEntry (w : Nat) : SheetEntry :=
  ⟨fld w 0 12, fld w 12 2, fld w 14 2, fld w 16 4, fld w 20 9, fld w 29 5, bitOf w 34, fld w 35 4, bitOf w 39, fld w 40 24⟩

/-- Round length and entry count of a cluster's sheet (09 R262). -/
def sheetAddr (cl : Nat) : Nat := cfgAddr cl 0x40000
def Part.sheetRound (p : Part) (cl : Nat) : Nat := p.natAt (sheetAddr cl) 2
def Part.sheetCount (p : Part) (cl : Nat) : Nat := p.natAt (sheetAddr cl + 2) 2
def Part.sheetEntries (p : Part) (cl : Nat) : List SheetEntry :=
  (List.range (p.sheetCount cl)).map (fun e => sheetEntry (p.natAt (sheetAddr cl + 256 + 8 * e) 8))

/-- Clusters of a die that hold a scene, ascending. -/
def Part.sheetClusters (p : Part) (d : Nat) : List Nat :=
  let held := (p.stg.replicas.filter (fun r => r.die == d)).flatMap (·.clusters)
  (List.range 400).filterMap (fun n => if held.elem (400 * d + n) then some (400 * d + n) else none)

/-- The request belongs to the unit of an entry: 0 row-move unit, 1 transfer engine. -/
def Part.ofUnit (p : Part) (r : Req) (unit : Nat) : Bool := match unit with
  | 0 => (p.moveOf r).isSome
  | 1 => (p.moveOf r).isNone
  | _ => false

/-- The store of cluster `cl` holds the address. -/
def Part.inStore (p : Part) (cl : Nat) (a : Option Nat) : Bool := match a with
  | some x => (match p.homeAt x with | .store k _ => k == cl | _ => false)
  | none => false

/-- The oldest read request of a unit whose server is cluster `peer`. -/
def Part.nextRead (p : Part) (core unit peer : Nat) : Option Req :=
  p.reqs.find? (fun r => r.core == core && p.held r && !r.got && !r.landed && decide (r.moved < 2) && p.ofUnit r unit && p.inStore peer r.src)

/-- The oldest write request of a unit to cluster `peer`. -/
def Part.nextWrite (p : Part) (core unit peer : Nat) : Option Req :=
  p.reqs.find? (fun r => r.core == core && p.held r && r.got && !r.landed && decide (r.moved < 2) && p.ofUnit r unit && p.inStore peer r.dst)

/-! ### Movements and when they land (09 R260) -/

def leafOf (n : Nat) : Nat := n / 20
def sameLeaf (a b : Nat) : Bool := leafOf a == leafOf b

/-- The beats from a request's slot to its service (09 R264). -/
def serveDelay (a b : Nat) : Nat := if sameLeaf a b then 2 else 3

/-- The beats from a movement's slot to each of its steps: a write half-row at its slice, and the last step, a read half-row in its place
or an acknowledgement (09 R260). -/
def writeBeats (far : Bool) : Nat := if far then 6 else 4
def lastBeats (far : Bool) : Nat := if far then 9 else 6

def Part.addMove (p : Part) (h : NetMove) : Part := { p with net := p.net ++ [h] }
def Part.netReq (p : Part) (h : NetMove) : Option Req := p.reqs.find? (fun r => r.uid == h.uid && r.idx == h.idx)

/-- The half-rows a port sends are counted (09 R290). -/
def Part.countSent (p : Part) (cl n : Nat) : Part := p.bump (cluReg Reg.CLU_TRV_SENT cl []) n

/-- The request of a half-row leaves for cluster `peer` in the present beat, the lower half first. -/
def Part.sendRead (p : Part) (r : Req) (peer : Nat) (counts : Bool) : Part := match r.src with
  | none => p
  | some a =>
    let d := dieOf r.core
    let n := clusterOf r.core % 400
    (p.onReq r (fun x => { x with moved := x.moved + 1 })).addMove
      { die := d, due := p.beatOf d + serveDelay n (peer % 400), step := .serve, uid := r.uid, idx := r.idx, peer := peer,
        far := !sameLeaf n (peer % 400), addr := a, upper := r.moved == 1, counts := counts, row := [] }

/-- A half-row to be written leaves for cluster `peer` in the present beat, counted at its port. -/
def Part.sendWrite (p : Part) (r : Req) (peer : Nat) : Part := match r.dst with
  | none => p
  | some a =>
    let d := dieOf r.core
    let n := clusterOf r.core % 400
    let far := !sameLeaf n (peer % 400)
    ((p.countSent (clusterOf r.core) 1).onReq r (fun x => { x with moved := x.moved + 1 })).addMove
      { die := d, due := p.beatOf d + writeBeats far, step := .write, uid := r.uid, idx := r.idx, peer := peer, far := far, addr := a,
        upper := r.moved == 1, counts := false, row := r.row }

/-- The serving slice reads: the row leaves with its upper half, or is found bad (09 R264, 13 R391 R395). -/
def Part.netServe (p : Part) (h : NetMove) : Part :=
  let p1 := if h.counts then p.countSent h.peer 1 else p
  match h.upper, p1.netReq h with
  | true, some r => (match p1.readFault h.addr with
    | some f => p1.onTheCore r.core (fun q => (q.reqFault r f).unstall r.core)
    | none => p1.addMove { h with step := .land, due := h.due + lastBeats h.far - (if h.far then 3 else 2), row := p1.rowAt h.addr })
  | _, _ => p1

/-- The upper half of a row lands at its requester. -/
def Part.netLand (p : Part) (h : NetMove) : Part := match p.netReq h with
  | some r => p.onTheCore r.core (fun q => (((q.deliver r h.row).advanceXfer r.uid).settle r.core).unstall r.core)
  | none => p

/-- The row is written with its upper half, for a task that has been aborted since as for one that runs (13 R391). -/
def Part.netWrite (p : Part) (h : NetMove) : Part :=
  if !h.upper then p
  else match p.writeFault h.addr 512, p.netReq h with
  | some f, some r => p.onTheCore r.core (fun q => (q.reqFault r f).unstall r.core)
  | some _, none => p
  | none, _ => (p.writeRow h.addr h.row 0).addMove { h with step := .ack, due := h.due + lastBeats h.far - writeBeats h.far }

/-- The acknowledgement of a row comes back: it has landed at its home. -/
def Part.netAck (p : Part) (h : NetMove) : Part := match p.netReq h with
  | some r => p.onTheCore r.core (fun q => (q.onReq r (fun x => { x with landed := true })).unstall r.core)
  | none => p

def Part.netStep (p : Part) (h : NetMove) : Part := match h.step with
  | .serve => p.netServe h
  | .land => p.netLand h
  | .write => p.netWrite h
  | .ack => p.netAck h

/-- The readers, on die `d`, of messages from the die itself that have come to their beat. -/
def Part.msgsDue (p : Part) (d : Nat) : List (Nat × Nat) :=
  p.flight.filterMap (fun f => match f with
    | .msg c q m (some b) => if dieOf c = d ∧ dieOf m.core = d ∧ b ≤ p.beatOf d then some (c, q) else none
    | _ => none)

/-- What lands in the present beat of die `d`: slices read before they write (09 R271), then messages enter their queues. -/
def Part.landings (p : Part) (d : Nat) : Part :=
  let now := p.net.filter (fun h => h.die == d && h.due == p.beatOf d)
  let p1 : Part := { p with net := p.net.filter (fun h => !(h.die == d && h.due == p.beatOf d)) }
  let p2 := forEach (now.filter (fun h => h.step == .serve) ++ now.filter (fun h => h.step != .serve)) (fun h x => x.netStep h) p1
  forEach (p2.msgsDue d) (fun m x => x.onTheCore (x.issuer m.1) (·.arriveMsg m.1 m.2)) p2

/-- Up to four messages of a core to readers in cluster `peer` leave in beat `b`, oldest first (09 R265). -/
def leaveMsgs (core peer b : Nat) : Nat → List Flight → List Flight
  | 0, l => l
  | _, [] => []
  | n + 1, f :: fs => match f with
    | .msg c q m none =>
      if m.core = core ∧ clusterOf c = peer then
        .msg c q m (some (b + writeBeats (!sameLeaf (clusterOf core % 400) (peer % 400)))) :: leaveMsgs core peer b n fs
      else f :: leaveMsgs core peer b (n + 1) fs
    | _ => f :: leaveMsgs core peer b (n + 1) fs

/-! ### Traffic of the cluster transfer units (09 R263 R265 R583) -/

/-- The cluster of an address, where it lies in one. -/
def Part.clusterHome (p : Part) (a : Option Nat) : Option Nat := match a with
  | some x => (match p.homeAt x with | .store cl _ => some cl | .view c _ => some (c / 16) | _ => none)
  | none => none

/-- The ends of a request's leg that lie on the die of its core: the cluster that its half-rows leave and the one that they enter; none is a
bridge port. -/
def Part.ends (p : Part) (r : Req) : Option Nat × Option Nat :=
  let here := fun (cl : Nat) => cl / 400 == dieOf r.core
  if r.got then (some (clusterOf r.core), (p.clusterHome r.dst).filter here)
  else ((p.clusterHome r.src).filter here, some (clusterOf r.core))

/-- The request has half-rows for the network that its cluster's transfer unit moves. -/
def Part.unitMoves (p : Part) (r : Req) : Bool := p.canDirect r && decide ((p.ends r).1 ≠ (p.ends r).2)

/-- A half-row of a transfer unit's request has come to its end; the row moves with the second. -/
def Part.unitHalf (p : Part) (r : Req) : Part :=
  if r.moved = 0 then p.onReq r (fun x => { x with moved := 1, stage := 0 })
  else p.onTheCore r.core (fun q => ((q.stepDirect r).advanceXfer r.uid).unstall r.core)

/-- A unit 3 entry of cluster `cl`: a request's half-row, a half-row read here for another, a half-row to be written. -/
def Part.carryUnit (p : Part) (cl kind : Nat) : Part :=
  match p.reqs.find? (fun r => p.unitMoves r && (match kind with
    | 0 => !r.got && clusterOf r.core == cl
    | 1 => !r.got && (p.ends r).1 == some cl
    | _ => r.got && clusterOf r.core == cl)) with
  | some r => p.unitHalf r
  | none => p

/-- One house slot for one request: its half-row crosses a stage, two to or from the bridge ports and three between clusters, if no other
half-row of the slot has taken the stage's link of its cluster in its direction. -/
def Part.houseStage (x : Part × List (Nat × Bool × Nat)) (r : Req) : Part × List (Nat × Bool × Nat) :=
  let p := x.1
  match p.reqs.find? (fun y => y.uid == r.uid && y.idx == r.idx) with
  | none => x
  | some r =>
    let (a, b) := p.ends r
    let links := (a.toList.map (fun n => (n, true, r.stage))) ++ (b.toList.map (fun n => (n, false, r.stage)))
    let last := if a.isSome && b.isSome then 2 else 1
    if !p.unitMoves r || links.any x.2.elem then x
    else (if r.stage < last then p.onReq r (fun y => { y with stage := y.stage + 1 }) else p.unitHalf r, x.2 ++ links)

/-- Unscheduled traffic in a house slot of die `d`, the oldest request first (09 R583). -/
def Part.unscheduled (p : Part) (d : Nat) : Part :=
  ((p.reqs.filter (fun r => dieOf r.core == d && p.unitMoves r)).foldl Part.houseStage (p, [])).1

/-! ### The entries of a beat -/

/-- One entry of cluster `cl` that is no merged REQ. -/
def Part.carryEntry (p : Part) (cl : Nat) (e : SheetEntry) : Part :=
  let peer := 400 * (cl / 400) + e.peer
  let core := 16 * cl + e.core
  match e.kind, e.unit with
  | 0, 0 | 0, 1 => if e.merge then p else (match p.nextRead core e.unit peer with
    | some r => p.sendRead r peer true
    | none => p)
  | 2, 0 | 2, 1 => (match p.nextWrite core e.unit peer with
    | some r => p.sendWrite r peer
    | none => p)
  | 2, 2 =>
    let fl := leaveMsgs core peer (p.beatOf (cl / 400)) 4 p.flight
    if fl = p.flight then p else { p with flight := fl }.countSent cl 1
  | k, 3 => p.carryUnit cl k
  | _, _ => p

/-- A member of a merge set with the request it holds. -/
structure Member where
  core : Nat
  req : Option Req
  deriving DecidableEq, Repr

/-- Members by core number. -/
def addMember (m : Member) : List Member → List Member
  | [] => [m]
  | x :: xs => if m.core ≤ x.core then m :: x :: xs else x :: addMember m xs
def sortMembers (ms : List Member) : List Member := ms.foldr addMember []

/-- A merge set served by cluster `peer` (09 R268 R269), its members in ascending order. Those that ask for the half-row of the lowest
member with a request are served by one read; a cluster's deliveries beyond its first, and its requests left pending, are counted. -/
def Part.carryMerge (p : Part) (peer : Nat) (ms : List Member) : Part :=
  match (sortMembers ms).findSome? (·.req) with
  | none => p
  | some lead =>
    let same := fun (r : Req) => r.src == lead.src && r.moved == lead.moved
    let served := ms.filter (fun m => m.req.any same)
    let left := ms.filter (fun m => m.req.any (fun r => !same r))
    let cls := (served.map (fun m => clusterOf m.core)).eraseDups
    let p1 := forEach cls (fun cl x =>
      x.bump (cluReg Reg.CLU_TRV_MERGED cl []) ((served.filter (fun m => clusterOf m.core == cl)).length - 1)) p
    let p2 := forEach left (fun m x => x.bump (cluReg Reg.CLU_TRV_MERGE_MISS (clusterOf m.core) []) 1) p1
    forEach served (fun m x => match m.req with
      | some r => x.sendRead r peer (r.uid == lead.uid && r.idx == lead.idx)
      | none => x) p2

/-- The entries of die `d` whose slot is the present beat, with their clusters; no half-row leaves a dark region (15 R472). -/
def Part.slotEntries (p : Part) (d : Nat) : List (Nat × SheetEntry) :=
  let beat := p.beatOf d
  (p.sheetClusters d).flatMap (fun cl =>
    let r := p.sheetRound cl
    if r = 0 || p.darkCluster cl then []
    else ((p.sheetEntries cl).filter (fun e => e.slot == beat % r)).map (fun e => (cl, e)))

/-- The clusters' clocks run: from the release of RESET_N on, but in blackout and after a trip (09 R258, 15 R470, 19 R568). -/
def Part.clocked (p : Part) : Bool := match p.phase with
  | .off | .aux | .held | .blackout | .tripped => false
  | _ => true

/-- A beat of die `d`, a house slot or another: before READY it is counted, and nothing uses it (09 R258 R259 R291). -/
def State.beat (s : State) (d : Nat) (house : Bool) (f : Part → Part) : Host.Outcome State Fault Refusal :=
  .next (s.act (fun p =>
    if decide (4 ≤ d) || (p.beatOf d % 32 == 31) != house || !p.clocked then p
    else (if p.phase = .ready then (f p).pumpViews else p).bump (Reg.TRV_BEAT.at [d]) 1))

/-- One beat of the traverse network of die `d` that is no house slot (09 R258 R261 R265). -/
def Part.traverseBeat (p0 : Part) (d : Nat) : Part :=
  let p := p0.landings d
  let es := p.slotEntries d
  let merged := es.filter (fun x => x.2.kind == 0 && x.2.merge)
  let peers := (merged.map (fun x => x.2.peer)).eraseDups
  let p1 := forEach peers (fun n x =>
    x.carryMerge (400 * d + n) ((merged.filter (fun y => y.2.peer == n)).map (fun y =>
      ⟨16 * y.1 + y.2.core, x.nextRead (16 * y.1 + y.2.core) y.2.unit (400 * d + n)⟩))) p
  forEach es (fun (cl, e) x => x.carryEntry cl e) p1

def execCueSheetSlot (d : Nat) (s : State) : Host.Outcome State Fault Refusal := s.beat d false (·.traverseBeat d)

end Sys2Proof.Machine
end

