-- ==== Sys2Proof/Machine/RegReads.lean ====
section
/-! DEFINITION. What a register access reads: registers composed from other state, the feature directory, and the accesses that are
refused (00 R12 R13, 16 R489 R502 to R504, 19 R562 R563). -/

namespace Sys2Proof.Machine

open Sys2Proof

/-! ### Cores (06 R196, 09 R289) -/

def Core.unitBits (k : Core) : Nat :=
  (if k.matq.isEmpty && k.matRun.isEmpty then 0 else 2 ^ 9) +
  (if k.vecq.isEmpty && k.vecRun.isNone then 0 else 2 ^ 10) + (if k.epiRun.isNone then 0 else 2 ^ 11) +
  (if k.moveq.isEmpty && k.moving.isEmpty then 0 else 2 ^ 12)

def ThState.code : ThState → Nat
  | .idle => 0
  | .ready => 1
  | .wait => 2
  | .stall => 3

/-- The part is held in reset, or is off: a register reads its Reset column (00 R15). -/
def Part.heldNow (p : Part) : Bool := inList [0, 1, 2] (match p.phase with | .off => 0 | .aux => 1 | .held => 2 | _ => 3)

/-- On a two-hander the odd core's units work with the even core's (06 R190 R191). -/
def Part.coreStatus (p : Part) (c : Nat) : Nat :=
  ((List.range 8).map (fun t => if (p.th c t).st = .idle then 0 else 2 ^ t)).sum + (if p.quiet c && !p.heldNow then 2 ^ 8 else 0) +
  (p.core (p.issuer c)).unitBits + p.xferOut c * 2 ^ 13

def Part.coreThr (p : Part) (c t : Nat) : Nat :=
  let h0 := p.th c t
  let h := if decide (h0.st = .ready) && (p.core c).sendHeld t then { h0 with st := .wait, why := 8 } else h0
  h.ptr % 1024 + h.st.code * 2 ^ 12 + h.why * 2 ^ 14 + h.handler.toNat * 2 ^ 18 + (h.queue % 32) * 2 ^ 19 + p.entry c t * 2 ^ 32

/-- 09 R279: 0 UNUSED while no route targets the queue. -/
def Part.queueState (p : Part) (c q : Nat) : Nat := if (p.senders c q).isEmpty then 0 else p.readerState c

def Part.coreChq (p : Part) (c q : Nat) : Nat :=
  let k := (p.core c).queue q
  k.msgs.length + p.queueState c q * 2 ^ 4 + k.epoch.toNat * 2 ^ 6 + (p.queueWord c q % 2) * 2 ^ 10 + k.running.toNat * 2 ^ 11 +
    (match k.msgs with | m :: _ => m.route % 16 | [] => 0) * 2 ^ 12

/-- A SEND of an ordinary thread waits on route `r` of the core (09 R280 R289). -/
def Core.blockedOn (k : Core) (r : Nat) : Bool :=
  k.moving.any (fun m => m.since.isSome && (match m.what with | .send _ _ x _ => x == r | _ => false))

def Part.coreChr (p : Part) (c r : Nat) : Nat :=
  let k := p.core c
  let x := k.route r
  x.credits + x.ring.length * 2 ^ 4 + (k.blockedOn r).toNat * 2 ^ 9 + x.epoch.toNat * 2 ^ 10 + p.peerState c r * 2 ^ 14 + x.ringFull.toNat * 2 ^ 16 +
    x.wdog.toNat * 2 ^ 17 + x.darkFault.toNat * 2 ^ 18

/-! ### Clusters (09 R290, 10 R328, 11 R349) -/

def Part.cluCurt (p : Part) (cl c : Nat) : Nat :=
  let n := p.curtNode cl c
  n.gen.toNat + n.arrived.length * 2 ^ 8 + (p.participants cl c).length * 2 ^ 13 +
    (match p.replicaAt cl with | some r => (p.curtDecl r c).1 | none => 0) * 2 ^ 18

def Part.cbStatus (p : Part) (cl : Nat) : Nat :=
  (p.boardOf cl).length + (match p.replicaOf cl with
    | some r => 2 ^ 7 + (if p.taskRuns r then 2 ^ 8 else 0) + (if r.st = .saving ∨ (r.st = .restoring ∧ !p.stg.saveq.elem r.anchor) then 2 ^ 9 else 0)
    | none => 0)

def taskWord (k : TaskKey) : Nat := k.id.toNat + k.gen.toNat * 2 ^ 32 + k.child.toNat * 2 ^ 48

def Part.cbRun (p : Part) (cl : Nat) : Nat := match p.replicaOf cl with
  | some r => (match r.task with | some k => if p.taskRuns r then taskWord k else 0 | none => 0)
  | none => 0

def Part.trvSheet (p : Part) (cl : Nat) : Nat := (p.sheetRound cl - 1) + (p.sheetCount cl) * 2 ^ 12

/-! ### Stage manager, power, fabric, memory, configuration -/

/-- 10 R326. -/
def Part.stgStatus (p : Part) (d : Nat) : Nat :=
  let on := fun (f : TaskState → Bool) => (p.stg.tasks.filter (fun t => t.home == d && f t.st)).length
  p.slotsFree d + on (fun x => decide (x = .ready) || decide (x = .placed)) * 2 ^ 16 + on (fun x => decide (x = .running)) * 2 ^ 32

/-- 11 R350. -/
def Part.pcurtStat (p : Part) (k : Nat) : Nat :=
  let n := p.pcurt k
  n.gen.toNat + n.tasks.length * 2 ^ 8 + ((List.range 16).filter (fun i => bitOf n.kids.toNat i)).length * 2 ^ 21

/-- 19 R580. -/
def Part.pwrStat (p : Part) : Nat :=
  let low := fun (f : Rail → Nat) => (List.range 4).any (fun d =>
    decide (f (p.pce.rails.getD d Rail.reset) < p.regFld (Reg.PCE_RAIL_CFG.at [d]) 8 8))
  p.pwr.auxGood.toNat + p.pwr.pwrGood.toNat * 2 + (low (·.power)).toNat * 4 + (low (·.therm)).toNat * 8

/-- 14 R419: a packet not yet taken from a port's receive buffers is still in the router (14 R411 R415). -/
def Part.drained (p : Part) : Bool :=
  p.fab.descs.isEmpty && p.fab.transit.isEmpty && p.fab.inbox.isEmpty && p.fab.ports.all (fun q => q.replay.isEmpty && q.outq.all (·.isEmpty))

def Part.fabStat (p : Part) : Nat :=
  (p.drained && !p.heldNow).toNat + p.fab.active.toNat * 2 + ((List.range 16).map (fun n => if p.portUp' n then 2 ^ (n + 2) else 0)).sum

def Part.niActive (p : Part) (e : Nat) : Nat := (p.fab.descs.filter (fun x => x.q / 32 == e)).length

/-- The depth bytes of a VCQ register with the held high-water marks (14 R447). -/
def Part.vcq (p : Part) (n half : Nat) : Nat :=
  let held := p.regN (portReg (if half = 0 then Reg.FAB_PORT_VCQ_0 else Reg.FAB_PORT_VCQ_1) n)
  ((List.range 4).map (fun v => ((p.port n).depth (4 * half + v) + fld held (16 * v + 8) 8 * 2 ^ 8) * 2 ^ (16 * v))).sum

/-- Load requests that wait behind the one being loaded (15 R471). -/
def Part.waitingLoads (p : Part) : Nat := if p.cfg.staged.isSome then p.cfg.reqs.length else p.cfg.reqs.length - 1

/-- 15 R479. The three bits of `pending` show 7 for 8 requests (log 36). -/
def Part.cfgStat (p : Part) : Nat :=
  p.cfg.st + (if p.chain.fixed then p.chain.pos * 8 + (if p.chain.pos = 0 then 64 else 0) else 0) + (min 7 p.waitingLoads) * 2 ^ 7 +
    p.cfg.busyRefused.toNat * 2 ^ 10

/-! ### The feature directory (16 R502 to R504) -/

/-- A record without its next pointer: id and body, the length a multiple of 8 (log 32). -/
def fdrRecord (id : Nat) (body : List Byte) (next : Nat) : List Byte :=
  let n := 8 * ceilDiv (16 + body.length) 8
  leBytes 2 id ++ leBytes 1 1 ++ leBytes 1 0 ++ leBytes 2 n ++ leBytes 2 0 ++ leBytes 4 next ++ leBytes 4 0 ++ padTo (n - 16) body

def Part.rosterNow (p : Part) (d : Nat) : Nat := p.regFld (Reg.STG_ROSTER_COUNT.at [d]) 16 9
def Part.rosterThen (p : Part) (d : Nat) : Nat := p.regFld (Reg.STG_ROSTER_COUNT.at [d]) 0 9

/-- The bodies of the records in the order of 16 R504. -/
def Part.fdrBodies (p : Part) : List (Nat × List Byte) :=
  let now := fun (d : Nat) => p.rosterNow d
  let total := now 0 + now 1 + now 2 + now 3
  let cfg := p.regN (Reg.MEM_CFG.at [0])
  let rate := match fld cfg 0 2 with | 0 => 6400 | 1 => 7500 | 2 => 8533 | _ => 9600
  let dens := match fld cfg 2 2 with | 0 => 16 | 1 => 24 | _ => 32
  let up := ((List.range 2).map (fun i => if p.portUp i then 2 ^ i else 0)).sum
  let fup := ((List.range 16).map (fun n => if p.portUp' n then 2 ^ n else 0)).sum
  [(0x0001, leBytes 2 0x0008 ++ leBytes 1 8 ++ [p.sec.stepping] ++ leBytes 1 4 ++ leBytes 1 2 ++ leBytes 1 2 ++ leBytes 1 32 ++
      leBytes 2 400 ++ leBytes 2 16),
   (0x0002, leBytes 2 total ++ leBytes 2 (p.rosterThen 0 + p.rosterThen 1 + p.rosterThen 2 + p.rosterThen 3) ++
      (List.range 4).flatMap (fun d => leBytes 2 (now d)) ++ leBytes 4 (16 * total)),
   (0x0003, leBytes 4 0x7E3FFF ++ leBytes 1 7 ++ leBytes 1 10 ++ leBytes 1 3),
   (0x0004, leBytes 8 p.cap ++ leBytes 2 128 ++ leBytes 2 rate ++ leBytes 1 (fld cfg 4 1 + 1) ++ leBytes 1 dens ++ leBytes 2 512),
   (0x0005, leBytes 4 65536 ++ leBytes 2 4096 ++ leBytes 1 64 ++ leBytes 1 64 ++ leBytes 2 32 ++ leBytes 2 512 ++ leBytes 2 4096),
   (0x0006, leBytes 2 1024 ++ leBytes 2 1024 ++ leBytes 1 up ++ leBytes 1 36),
   (0x0007, leBytes 2 16 ++ leBytes 2 fup ++ leBytes 2 16384 ++ leBytes 2 16384 ++ leBytes 2 4096 ++ leBytes 2 256),
   (0x0101, [])]

/-- The records laid out one behind the other from `off` on. -/
def fdrLayout : Nat → List (Nat × List Byte) → List Byte
  | _, [] => []
  | off, (id, body) :: rest =>
    let next := off + 8 * ceilDiv (16 + body.length) 8
    fdrRecord id body (if rest.isEmpty then 0 else next) ++ fdrLayout next rest

def fdrBase : Nat := 0x1000

/-- House firmware places the directory before READY (16 R503): its words are held under their offsets. -/
def Part.placeFdr (p : Part) : Part :=
  let b := fdrLayout fdrBase p.fdrBodies
  forEach (List.range (b.length / 8)) (fun i x => x.setRegN (fdrBase + 8 * i) (leAt b (8 * i) 8)) p

/-- A word of the directory; the ROSTER record, the second, follows `STG_ROSTER_COUNT` at every read. -/
def Part.fdrWord (p : Part) (i : Nat) : Nat :=
  if p.regN fdrBase = 0 then 0
  else if 4 ≤ i ∧ i < 8 then leAt (fdrLayout fdrBase p.fdrBodies) (8 * i) 8
  else p.regN (fdrBase + 8 * i)

/-! ### A read (00 R13) -/

def coreAt (is : List Nat) : Nat := 6400 * is.getD 0 0 + 16 * is.getD 1 0 + is.getD 2 0
def cluAt (is : List Nat) : Nat := 400 * is.getD 0 0 + is.getD 1 0

/-- Bits that read 0: those of write-only registers are never stored. -/
def Part.regRead (p : Part) (off : Nat) : Nat := match findReg off Reg.map with
  | none => if fdrBase ≤ off ∧ off < 0x100000 then p.fdrWord ((off - fdrBase) / 8) / (if off % 8 = 4 then 2 ^ 32 else 1) else 0
  | some (r, is) =>
    let i := is.getD 0 0
    let c := coreAt is
    let cl := cluAt is
    let j := is.getD 3 0
    if r = Reg.CORE_CFG then p.coreCfgWord c % 2 ^ 12
    else if r = Reg.CORE_ID then (if p.regN fdrBase = 0 then 0 else is.getD 1 0 + is.getD 2 0 * 2 ^ 9 + i * 2 ^ 13)
    else if r = Reg.CORE_STATUS then p.coreStatus c
    else if r = Reg.CORE_THR then p.coreThr c j
    else if r = Reg.CORE_SHAPE then ((p.core c).sh.getD j 0).toNat
    else if r = Reg.CORE_CHQ then p.coreChq c j
    else if r = Reg.CORE_CHR then p.coreChr c j
    else if r = Reg.CORE_VCONST then p.vconst c j
    else if r = Reg.CLU_CUE_CNT then ((p.core (16 * cl + is.getD 2 0)).cnt.getD j 0).toNat
    else if r = Reg.CLU_WIRE_PEND then (p.core (16 * cl + is.getD 2 0)).wire.toNat
    else if r = Reg.CLU_XCUE_PEND then (p.core (16 * cl + is.getD 2 0)).xcue.toNat
    else if r = Reg.CLU_WIRE_CFG then p.wireCfg cl (is.getD 2 0)
    else if r = Reg.CLU_CB_STATUS then p.cbStatus cl
    else if r = Reg.CLU_CB_RUN then p.cbRun cl
    else if r = Reg.CLU_TRV_SHEET then p.trvSheet cl
    else if r = Reg.CLU_CURT then p.cluCurt cl (is.getD 2 0)
    else if r = Reg.STG_STATUS then p.stgStatus i
    else if r = Reg.STG_PCURT_CFG then (if i = 0 then p.pcurtCfg (is.getD 1 0) % 2 ^ 18 else 0)
    else if r = Reg.STG_PCURT_STAT then (if i = 0 then p.pcurtStat (is.getD 1 0) else 0)
    else if r = Reg.TIM_NOW then p.tim.now.toNat
    else if r = Reg.PWR_STAT then p.pwrStat
    else if r = Reg.FAB_STAT then p.fabStat
    else if r = Reg.FAB_NI_ACTIVE then p.niActive 0 + p.niActive 1 * 2 ^ 16
    else if r = Reg.FAB_PORT_VCQ_0 then p.vcq i 0
    else if r = Reg.FAB_PORT_VCQ_1 then p.vcq i 1
    else if r = Reg.FAB_RT then p.shadowEntry i
    else if r = Reg.FAB_RTA then p.routeEntry i
    else if r = Reg.MEM_HUB_OUT then p.hubOut i + p.regFld off 16 13 * 2 ^ 16
    else if r = Reg.CFG_STAT then p.cfgStat
    else p.regN off

/-! ### Refused accesses (00 R12, 16 R489, 19 R563) -/

/-- The width of an access fits what lies at its offset: a register of that width, or reserved bytes of a block (log 33). DESIGN CHOICE: the words
of the feature directory's records, whose register width no rule states, are read in aligned accesses of 4 or of 8 bytes (00 R12, 16 R503,
log 33). -/
def widthOk (off width : Nat) : Bool :=
  off % width == 0 && (match findReg off Reg.map with
    | some (r, _) => width == (if r.wide then 8 else 4)
    | none =>
      (width == 4 && (match findReg (off - 4) Reg.map with | some (r, _) => !r.wide || off < 4 | none => true)) ||
      (width == 8 && (findReg (off + 4) Reg.map).isNone))

/-- The domain that holds the registers at an offset is on (log 33); E0's always-on domain is on with AUX_GOOD. -/
def Part.regPowered (p : Part) (off : Nat) : Bool :=
  if off < 0x100000 then p.domainE 0 11
  else if off < 0x200000 then p.domainE 0 0
  else if off < 0x201000 then p.domainE 0 11
  else if off < 0x300000 then p.domainC ((off - 0x201000) / 0x40) 45
  else if off < 0x400000 then p.domainE 0 12
  else if off < 0x700000 then p.pwr.auxGood
  else if off < 0x800000 then p.domainE 0 9
  else if off < 0x1000000 then p.domainM ((off - 0x800000) / 0x400000) 10
  else if off < 0x2000000 then
    let d := (off - 0x1000000) / 0x400000
    let o := off % 0x400000
    if 0x100000 ≤ o then p.domainC 0 44
    else if 0x2100 ≤ o ∧ o < 0x2200 then p.domainC d 47
    else if 0x2000 ≤ o ∧ o < 0x2100 then p.domainC d 46
    else p.domainC d 44
  else
    let d := (off - 0x2000000) / 0x800000
    let n := (off % 0x800000) / 0x4000
    p.domainC d (n / 10)

/-- The access reaches a register or reserved bytes of a block. -/
def Part.accessOk (p : Part) (off width : Nat) : Bool :=
  (width == 4 || width == 8) && inBlock off && widthOk off width && p.regPowered off

/-- An agent can make accesses: a host port that is up, or the house processors. -/
def Part.present (p : Part) : Agent → Bool
  | .host port => p.portUp port
  | .house => p.domainE 0 11

/-- What a refused access leaves: `HST_REFUSE` and its address; house firmware sees a bus error (16 R489). -/
def Part.refusedAccess (p : Part) (by_ : Agent) (off : Nat) (read : Bool) : Part := match by_ with
  | .host port => let q := p.refuse 0 off port; if read then q.emit (.unsupported port) else q
  | .house => (p.refuse 3 off 0).emit .busError

/-- A read that is refused; any other read changes nothing. -/
def Part.refusedRead (p : Part) (by_ : Agent) (off width : Nat) : Part :=
  if !p.present by_ || p.accessOk off width then p else p.refusedAccess by_ off true

def execBar0RefusedRead (by_ : Agent) (off width : Nat) (s : State) : Host.Outcome State Fault Refusal :=
  .next (s.act (fun p => p.refusedRead by_ off width))

end Sys2Proof.Machine
end

