-- ==== Sys2Proof/Machine/LoadRules.lean ====
section
/-! DEFINITION. The load-time rules on element programs, core configurations, cue programs and chain entries, over the configuration
memory that a script would leave (15 R457 R466). A rule answers the named codes of the faults it finds. -/

namespace Sys2Proof.Machine

open Sys2Proof

/-- A named code when a fault is there. -/
def named (bad : Bool) (code : Nat) : List Nat := if bad then [code] else []

/-! ### Element programs (04 R108 to R123) -/

def sourceBad (code : Nat) : Bool := decide (0x2D ≤ code) && decide (code < 0x30)

/-- A modifier or field of a step outside its rule. -/
def ElemStep.bad (s : ElemStep) : Bool :=
  s.sources.any sourceBad ||
  match s.op with
  | 0x00 | 0x01 | 0x03 | 0x04 | 0x05 | 0x06 | 0x12 => s.m != 0
  | 0x02 | 0x0B | 0x0C | 0x0D => decide (3 ≤ s.m)
  | 0x0F => decide (4 ≤ s.m)
  | 0x07 | 0x08 | 0x09 | 0x0A | 0x0E | 0x11 => decide (2 ≤ s.m)
  | 0x10 => decide (0x0A ≤ s.m)
  | 0x13 => decide (3 ≤ s.m)
  | 0x14 => s.m != 0 || decide (s.b < 0x10) || decide (0x13 < s.b)
  | 0x15 => s.m != 0 || decide (4 ≤ s.d)
  | 0x16 => decide (9 ≤ s.m % 16)
  | 0x17 => decide (9 ≤ s.m) || s.c == 0 || decide (5 < s.c)
  | _ => true

/-- Lane registers that steps of one kind write. -/
def redTargets (l : List ElemStep) : List Nat := (l.filter (fun s => s.op == 0x16)).map (·.d)
def laneTargets (l : List ElemStep) : List Nat := (l.filter (fun s => s.op != 0x16 && s.op != 0x15 && s.op != 0)).map (·.d)

/-- The 32 steps of a program against 04 R120. -/
def programBad (l : List ElemStep) : Bool :=
  l.any ElemStep.bad ||
  (l.filter (fun s => s.op == 0x14)).any (fun s => l.any (fun t => t.op == 0x15 && t.d % 4 == s.b - 0x10)) ||
  decide (4 < (redTargets l).length) || !(redTargets l).Nodup || (redTargets l).any (laneTargets l).elem

def Part.programsBad (p : Part) (c : Nat) : Bool :=
  (List.range 16).any (fun pr => programBad ((List.range 32).map (fun i => elemStep (p.elemWord c pr i))))

/-! ### Core configurations (06 R183 R189) -/

def partnerOf (c : Nat) : Nat := if c % 2 = 0 then c + 1 else c - 1

def Part.coreCfgBad (p : Part) (c : Nat) : Bool :=
  let w := p.coreCfgWord c
  p.partition c == 3 || bitOf w 3 || fld w 12 20 != 0 ||
  (p.paired c && (!p.paired (partnerOf c) || p.partition c != 0 ||
    decide (p.bytesAt (coreCfg c 0x2000) 2048 ≠ p.bytesAt (coreCfg (partnerOf c) 0x2000) 2048) || (c % 2 == 1 && p.startMask c != 0)))

/-! ### Cue operations (07 R197 R198 R236) -/

/-- Bits of an operation that are reserved, by opcode: how many low bits must be 0. -/
def reservedBits : Nat → Option Nat
  | 0x00 => some 58 | 0x01 => some 58 | 0x02 => some 50 | 0x03 => some 58 | 0x04 => some 11 | 0x05 => some 7 | 0x06 => some 10
  | 0x08 => some 4 | 0x09 => some 4 | 0x0A => some 24 | 0x0B => some 22 | 0x0C => some 17 | 0x0D => some 14 | 0x0E => some 42
  | 0x0F => some 29 | 0x10 => some 0 | 0x11 => some 3 | 0x12 => some 48 | 0x18 => some 33 | 0x19 => some 33 | 0x1A => some 32
  | 0x1C => some 32 | 0x1D => some 30 | 0x1E => some 53 | _ => none

/-- A format tag that 02 R37 reserves. -/
def tagReserved (t : Nat) : Bool := inList [0x0E, 0x0F, 0x10] t || decide (0x17 ≤ t)

/-- CUE_RESERVED: reserved opcodes, codes and bits, and what only a two-hander has (log 34). -/
def Part.cueReserved (p : Part) (c w : Nat) : Bool :=
  match reservedBits (opcode w) with
  | none => true
  | some n =>
    w % 2 ^ n != 0 ||
    match opcode w with
    | 0x0B => fld w 27 2 == 3
    | 0x10 => let m := matWord w; m.shape == 3 || tagReserved m.atag || tagReserved m.btag
    | 0x11 => decide (5 ≤ (mauxWord w).pat) || (mauxWord w).amap == 3 || (mauxWord w).bmap == 3
    | 0x18 | 0x19 => !p.paired c && decide (8 ≤ fld w 42 4)
    | 0x1A => !p.paired c && (decide (8 ≤ fld w 42 4) || decide (16 ≤ fld w 37 5))
    | 0x1C | 0x1D => fld w 56 2 == 3
    | _ => false

/-- An indexed field whose step is nonzero. -/
def indexed (f : Nat) : Bool := fld f 9 3 != 0

/-- `n` places from an indexed field on: a step on a place that is no row, or a constant place outside the scratch part. -/
def runBad (s f n : Nat) : Bool :=
  if indexed f then decide (0x5F < fld f 0 7) else (placesBad s (fld f 0 7) n).isSome

/-- The same for a field that must name scratchpad rows. -/
def rowsFieldBad (s f n : Nat) : Bool :=
  decide (0x5F < fld f 0 7) || (!indexed f && (rowsBad s (fld f 0 7) n).isSome)

/-- Rows that a MAUX word names for the step bound to it. -/
def mauxRows (x : Maux) (m : MatWord) : List Nat :=
  (if x.pat = 0 then [] else [x.mrow]) ++ (if x.amap = 0 then [] else [x.amrow]) ++ (if x.bmap = 0 then [] else [x.bmrow]) ++
  (if isMx m.atag then [x.asrow] else []) ++ (if isMx m.btag then [x.bsrow] else [])

/-- CUE_PLACE: places and rows outside what they may name (06 R182, 07 R200 R218 to R221 R230). -/
def Part.cuePlace (p : Part) (c w next : Nat) : Bool :=
  let s := scratchRows (p.partition c)
  let g := if p.paired c then 32 else 16
  match opcode w with
  | 0x08 | 0x09 => let l := ldrWord w; runBad s l.place (l.cnt + 1)
  | 0x0A => runBad s (fld w 46 12) (fld w 29 5 + 1) || runBad s (fld w 34 12) (fld w 29 5 + 1)
  | 0x0B => runBad s (fld w 46 12) 1 || rowsFieldBad s (fld w 34 12) g || fld w 34 7 % g != 0
  | 0x0C =>
    runBad s (fld w 46 12) 1 || rowsFieldBad s (fld w 34 12) 1 ||
      (!indexed (fld w 34 12) && decide (s ≤ fld w 34 7 + (g - 1) * fld w 27 7))
  | 0x0D => runBad s (fld w 46 12) (fld w 24 5 + 1) || decide (s ≤ fld w 39 7)
  | 0x0E => decide (s ≤ fld w 51 7)
  | 0x10 => let m := matWord w; rowsFieldBad s m.arow 1 || rowsFieldBad s m.brow 1
  | 0x11 => (mauxRows (mauxWord w) (matWord next)).any (fun r => decide (s ≤ r))
  | 0x18 | 0x19 => rowsFieldBad s (fld w 46 12) 1
  | 0x1A => runBad s (fld w 46 12) 1
  | _ => false

/-- CUE_LOOP: the bodies of a program's loops, as (LOOP's address, last address, level) (07 R208). -/
def loopsOf (ws : List Nat) : List (Nat × Nat × Nat) :=
  (ws.zipIdx.filter (fun x => opcode x.1 == Op.LOOP)).map (fun x => (x.2, (loopWord x.1).stop, (loopWord x.1).lvl))

def loopPairBad (x y : Nat × Nat × Nat) : Bool :=
  let inside := decide (x.1 < y.1) && decide (y.1 ≤ x.2.1)
  inside && (decide (x.2.1 < y.2.1) || decide (y.2.2 ≤ x.2.2))

def loopsBad (ws : List Nat) : Bool :=
  let ls := loopsOf ws
  opcode (ws.getD 1023 0) != Op.END ||
  ls.any (fun x => decide (x.2.1 ≤ x.1) || opcode (ws.getD x.2.1 0) == Op.END || opcode (ws.getD x.2.1 0) == Op.LOOP ||
    ls.any (loopPairBad x))

/-- CUE_AUX: a MAUX and the MAT bound to it (07 R227). -/
def mauxBad (x : Maux) (m : MatWord) : Bool :=
  let static := x.amap == 1 || x.bmap == 1
  decide (4096 < x.count) || (x.count != 0 && !static) || (x.mrow != 0 && x.pat == 0) || (x.amrow != 0 && x.amap == 0) ||
  (x.bmrow != 0 && x.bmap == 0) || (x.asrow != 0 && !isMx m.atag) || (x.bsrow != 0 && !isMx m.btag)

def auxBad (ws : List Nat) (a : Nat) : Bool :=
  let w := ws.getD a 0
  let next := ws.getD (a + 1) 0
  let ls := loopsOf ws
  if opcode w = Op.MAUX then
    !(opcode next == Op.MAT && (matWord next).aux) || ls.any (fun l => l.2.1 == a) || mauxBad (mauxWord w) (matWord next)
  else if opcode w = Op.MAT then
    let m := matWord w
    if m.aux then a == 0 || opcode (ws.getD (a - 1) 0) != Op.MAUX || ls.any (fun l => l.1 + 1 == a)
    else isMx m.atag || isMx m.btag
  else false

/-- The operand pairs of 02 R43. -/
def pairOk (a b : Nat) : Bool :=
  (isNarrow a && isNarrow b) || (inList [7, 8] a && inList [7, 8] b) || (a == 9 && b == 9) || (a == 0x0A && b == 0x0A)

def sixBit (t : Nat) : Bool := inList [0x03, 0x04, 0x13, 0x14] t

/-- CUE_MAT: 07 R224 R226, 08 R237. `x` is the bound MAUX. -/
def Part.matBad (p : Part) (c : Nat) (m : MatWord) (x : Option Maux) : Bool :=
  let fp64 := m.atag == 0x0A
  m.sreg == 15 || !pairOk m.atag m.btag || inList [0x0B, 0x0C, 0x0D] m.atag || inList [0x0B, 0x0C, 0x0D] m.btag ||
  (m.shape == 1 && (m.tile != 0 || m.atag == 9)) || (m.shape == 2 && (m.tile % 2 != 0 || (fp64 && m.tile != 0))) ||
  (fp64 && m.shape != 2) || (!fp64 && (m.slc != 0 || m.tri)) || (m.scan && m.close) ||
  (m.scan && isNarrow m.atag && isNarrow m.btag && !isMx m.atag && !isMx m.btag) ||
  ((m.shape == 2) != p.paired c) ||
  match x with
  | some x =>
    (x.pat != 0 && !inList [0x00, 0x01, 0x02, 0x05, 0x06, 0x11, 0x12, 0x15, 0x16] m.btag) ||
    (x.amap != 0 && sixBit m.atag) || (x.bmap != 0 && sixBit m.btag)
  | none => false

/-- CUE_CACHED (07 R214). -/
def Part.cueCached (p : Part) (c w : Nat) : Bool :=
  (opcode w == Op.LDR || opcode w == Op.STR) && (ldrWord w).cached && p.partition c == 0

/-- CUE_SELECT (07 R219 R220 R233 R234, 09 R277). -/
def Part.cueSelect (p : Part) (c w : Nat) : Bool :=
  match opcode w with
  | 0x0B => !p.paired c && decide (15 < fld w 29 5)
  | 0x0C => !p.paired c && decide (15 < fld w 22 5)
  | 0x0D => decide (127 < fld w 32 7 + fld w 24 5)
  | 0x1C =>
    (match fld w 56 2 with
      | 0 => decide (71 < fld w 49 7)
      | 1 => decide (15 < fld w 49 7)
      | _ => decide (31 < fld w 49 7)) ||
    (fld w 56 2 != 1 && fld w 32 17 != 0)
  | 0x1D => fld w 56 2 != 0 && decide (15 < fld w 50 6)
  | 0x18 | 0x19 => fld (p.routeWord c (fld w 38 4)) 0 2 == 0
  | _ => false

/-! ### Chain entries (05 R142 to R166) -/

/-- The step of a MAT word: what the form of its epilogue needs. -/
def MatWord.step (m : MatWord) : MatStep :=
  { uid := 0, thread := 0, m := 0, n := 0, k := 0, arow := 0, brow := 0, atag := m.atag, btag := m.btag, shape := m.shape, acc := m.acc,
    scan := m.scan, tile := m.tile, chain := m.chain, close := m.close, done := 0, slices := 0, tri := m.tri, aux := none }

def intTag (t : Nat) : Bool := t == 0 || t == 1
def plainFloat (t : Nat) : Bool := decide (2 ≤ t) && decide (t ≤ 6)
def stageTag (fp64 : Bool) (t : Nat) : Bool := inList [7, 8, 9] t || (fp64 && t == 0x0A)
def zeroPointBad (t : Nat) (z : Int) : Bool := t == 0 && (decide (z < -8) || decide (7 < z))

/-- Rows past the scratch part. -/
def pastEnd (s : Nat) (l : List Nat) : Bool := l.any (fun r => decide (s ≤ r))

/-- Rows of the sidecar stream at the scene's K limit, double rows on a two-hander (05 R148 R159). -/
def ChainEntry.sideRows (e : ChainEntry) (units klim : Nat) : List Nat :=
  if e.sidecar then
    let segs := min (e.nseg + 1) (ceilDiv klim (max 1 (16 * e.segLen)))
    (List.range (ceilDiv (256 * segs) (512 * units))).map ((e.streamOf .x).1 + ·)
  else []

/-- The output format is one that the pair and the stages allow (02 R43, 05 R151 R158). -/
def ChainEntry.outOk (e : ChainEntry) (m : MatWord) : Bool :=
  let t := e.outTag
  if e.has .q then decide (0x12 ≤ t) && decide (t ≤ 0x16)
  else if e.epi = 0x12 ∧ t = 0x05 then true
  else if m.atag = 0x0A then t == 0x0A || t == 9
  else inList [7, 8, 9] t || (t == 0x0B && e.epi == 0 && intTag m.atag && intTag m.btag)

/-- The span's form (05 R148 R151). -/
def ChainEntry.spanBad (e : ChainEntry) (m : MatWord) : Bool :=
  let n := e.spanTiles.length
  let shapeBad := match m.shape with
    | 0 => n == 0 || n == 3
    | 1 => !inList [1, 3, 15] e.span
    | _ => if m.atag = 0x0A then e.span != 15 else !inList [3, 12, 15] e.span
  let omits := m.close && (match m.shape with
    | 0 => !bitOf e.span m.tile
    | 1 => false
    | _ => !(m.step.tiles.all (bitOf e.span)))
  let q := e.has .q && (if e.qAxis then m.shape != 2 else if m.shape = 2 then n != 4 else !inList [2, 4] n)
  shapeBad || omits || q

/-- The faults of an entry for one step; `limits` are those of the scene (05 R166). -/
def Part.chainFaults (p : Part) (c : Nat) (m : MatWord) (limits : List Nat) : List Nat :=
  let raw := leNat (p.chainBytes c m.chain)
  let e := chainEntry raw
  let st := m.step
  let fp64 := m.atag == 0x0A
  let mx := isMx m.atag || isMx m.btag
  let s := scratchRows (p.partition c)
  let nlim := limits.getD 1 0
  let klim := limits.getD 2 0
  let cols := (st.spanSize e).2 * (if m.shape = 2 then 2 else 1)
  let osrBad := e.osr && !(inList [7, 8] m.atag || plainFloat m.atag)
  let groups := [(e.st0, true), (e.st1, e.has .b || e.has .a), (e.st2, e.has .g || e.has .s)]
  named ((mx || isWide m.atag || isWide m.btag) && (!e.scans || (mx && !e.mxd))) 0x0101 ++
  named ((e.zp && (!(intTag m.atag && intTag m.btag) || zeroPointBad m.atag e.zpA || zeroPointBad m.btag e.zpB)) || (e.mxd && !mx) ||
    ((e.rs || e.osr) && fp64) || osrBad) 0x0102 ++
  named (decide (2 < e.streams.length)) 0x0103 ++
  named (e.has .n && (decide (64 < nlim) || decide (cols < nlim))) 0x0104 ++
  named (!e.outOk m) 0x0105 ++
  named (if e.final then groups.any (fun g => g.1 != 0)
    else (fp64 && e.st0 != 0x0A) || groups.any (fun g => if g.2 then !stageTag fp64 g.1 else g.1 != 0)) 0x0106 ++
  named ((fp64 && (e.final || !inList [0, 1, 7, 8] e.epi)) || (inList [0x12, 0x13] e.epi && !e.final)) 0x0107 ++
  named (e.spanBad m || pastEnd s (st.outRows e) || pastEnd s (st.auxRows e) || pastEnd s (st.streamRows e) || pastEnd s (e.sideRows (if m.shape = 2 then 2 else 1) klim)) 0x0108 ++
  named (e.partners.any (fun t => decide (3 < t) || bitOf e.span t)) 0x0109 ++
  named (e.sidecar && (decide ((e.nseg + 1) * e.segLen * 16 < klim) || e.segLen == 0 || (e.osr && isNarrow m.atag && e.segLen % 2 == 1))) 0x010A ++
  named (decide (0x14 ≤ e.epi) || e.act == 3 || decide (5 ≤ e.rnd) || tagReserved e.outTag ||
    (decide (1 ≤ e.streams.length) && tagReserved e.s0Tag) || (decide (2 ≤ e.streams.length) && tagReserved e.s1Tag) || fld raw 59 5 != 0 || fld raw 118 10 != 0 || fld raw 192 64 != 0) 0x010B

/-! ### A core's program -/

/-- CURT_SCOPE for a CURT (11 R340): an undeclared curtain, or a core that its mask does not name. -/
def Part.curtUseBad (p : Part) (c : Nat) (decl : List (Nat × Nat × Nat)) (w : Nat) : Bool :=
  let cu := fld w 54 4
  opcode w == Op.CURT && ((decl.getD cu (0, 0, 0)).1 == 0 || !bitOf (p.curtMask (clusterOf c) cu) (c % 16))

/-- The faults of one operation of a program. -/
def Part.opFaults (p : Part) (c : Nat) (sc : Scene) (ws : List Nat) (a : Nat) : List Nat :=
  let w := ws.getD a 0
  let m := matWord w
  let x := if m.aux then some (mauxWord (ws.getD (a - 1) 0)) else none
  let isMat := opcode w == Op.MAT
  named (p.cueReserved c w) 0x0201 ++ named (p.cuePlace c w (ws.getD (a + 1) 0)) 0x0202 ++ named (auxBad ws a) 0x0204 ++
  named (isMat && p.matBad c m x) 0x0205 ++ named (p.cueCached c w) 0x0206 ++ named (p.cueSelect c w) 0x0207 ++
  named (opcode w == Op.FENCE && fld w 51 7 == 0) 0x0208 ++ named (p.curtUseBad c sc.decl w) 0x0502 ++
  (if isMat then p.chainFaults (if p.paired c then c - c % 2 else c) m sc.limits else [])

/-- The faults of a core's configuration under its scene. -/
def Part.coreFaults (p : Part) (sc : Scene) (c : Nat) : List Nat :=
  let ws := (List.range 1024).map (p.cueWord c)
  named (p.programsBad c) 0x0601 ++ named (p.coreCfgBad c) 0x0602 ++ named (loopsBad ws) 0x0203 ++
  (List.range 1024).flatMap (p.opFaults c sc ws)

end Sys2Proof.Machine
end

