-- ==== Sys2Proof/Machine/Sheets.lean ====
section
/-! DEFINITION. The load-time rules on cue sheets, routes, wires and participant masks, over the configuration memory and the replicas that a
script would leave (09 R262 to R268 R274 R277, 11 R336 R340). -/

namespace Sys2Proof.Machine

open Sys2Proof

/-! ### Cue sheets: what a cluster's sheet holds -/

/-- The header of a sheet that has been written; an untouched area holds no sheet. -/
def Part.hasSheet (p : Part) (cl : Nat) : Bool := p.sheetRound cl != 0 || p.sheetCount cl != 0

/-- The entries that fit in a sheet. -/
def Part.entriesIn (p : Part) (cl : Nat) : List SheetEntry :=
  (List.range (min 2016 (p.sheetCount cl))).map (fun e => sheetEntry (p.natAt (sheetAddr cl + 256 + 8 * e) 8))

def Part.group (p : Part) (cl g : Nat) : Nat := p.natAt (sheetAddr cl + 128 + 8 * g) 8
/-- The clusters of a group, as numbers on the die, and its spine (09 R262). -/
def groupMembers (w : Nat) : List Nat := ((List.range 4).filter (fun i => bitOf w (36 + i))).map (fun i => fld w (9 * i) 9)
def groupSpine (w : Nat) : Nat := fld w 40 5

def SheetEntry.reserved (e : SheetEntry) (round : Nat) : Bool :=
  decide (round ≤ e.slot) || e.kind == 3 || e.rsv != 0 || (e.core != 0 && (e.kind == 1 || e.unit == 3)) ||
  (e.mc && (e.kind != 1 || e.peer != 0)) || (e.merge && e.kind != 0)

/-- SHEET_RESERVED. -/
def Part.sheetReserved (p : Part) (cl : Nat) : Bool :=
  let r := p.sheetRound cl
  !((List.range 8).map (fun j => 32 * 2 ^ j)).elem r || decide (2016 < p.sheetCount cl) ||
  (p.bytesAt (sheetAddr cl + 8) 120).any (· ≠ 0) || (List.range 16).any (fun g => fld (p.group cl g) 45 19 != 0) ||
  (p.entriesIn cl).any (fun e => e.reserved r)

/-- The clusters that an entry's half-row or request goes to. -/
def Part.targets (p : Part) (cl : Nat) (e : SheetEntry) : List Nat :=
  if e.mc then groupMembers (p.group cl e.group) else [e.peer]
def Part.spineOf (p : Part) (cl : Nat) (e : SheetEntry) : Nat := if e.mc then groupSpine (p.group cl e.group) else e.spine

/-- Cluster `cl` sends a request to `peer` in slot `s`. -/
def Part.asks (p : Part) (cl peer s : Nat) : Bool :=
  (p.entriesIn cl).any (fun e => e.kind == 0 && e.unit != 3 && e.slot == s && e.peer == peer)

/-- Cluster `cl` serves cluster `n` of its die in slot `s`. -/
def Part.serves (p : Part) (cl n s : Nat) : Bool :=
  (p.entriesIn cl).any (fun e => e.kind == 1 && e.unit != 3 && e.slot == s && (p.targets cl e).elem n)

/-- SHEET_PAIR for one entry of cluster `cl` (09 R264). -/
def Part.pairBad (p : Part) (cl : Nat) (e : SheetEntry) : Bool :=
  let base := 400 * (cl / 400)
  let n := cl % 400
  let r := p.sheetRound cl
  if e.unit = 3 then e.peer != n
  else match e.kind with
  | 0 => p.sheetRound (base + e.peer) != r || !p.serves (base + e.peer) n ((e.slot + serveDelay n e.peer) % r)
  | 1 => (p.targets cl e).isEmpty || (p.targets cl e).any (fun m =>
      p.sheetRound (base + m) != r || !p.asks (base + m) n ((e.slot + r - serveDelay n m) % r))
  | _ => false

/-- SHEET_SPINE. -/
def Part.spineBad (p : Part) (cl : Nat) (e : SheetEntry) : Bool :=
  let sp := p.spineOf cl e
  if e.unit = 3 then decide (20 ≤ sp)
  else if (p.targets cl e).all (sameLeaf (cl % 400)) then sp != 0x1F else decide (20 ≤ sp)

/-- A route of core `c` leads to a reader in cluster `m`, which a scene holds; while a script's replicas are being placed (`early`), its routes
are not known yet. -/
def Part.leadsTo (p : Part) (early : Bool) (c m : Nat) : Bool :=
  (p.replicaAt m).isSome && (early || (List.range 16).any (fun i => (p.routeTarget c i).any (fun x => clusterOf x.1 == m)))

/-- SHEET_SCOPE: a cluster that the entry names lies outside the replica, unless it is a channel entry that leads to another scene's reader. -/
def Part.scopeBad (p : Part) (early : Bool) (r : Replica) (cl : Nat) (e : SheetEntry) : Bool :=
  (p.targets cl e).any (fun m =>
    decide (400 ≤ m) || (!r.holds (400 * r.die + m) && !(e.unit == 2 && p.leadsTo early (16 * cl + e.core) (400 * r.die + m))))

/-! ### Links and ports -/

/-- The use of a link in a beat: 0 the link from a cluster to its leaf, 1 from a leaf to a cluster, 2 from leaf to spine, 3 from spine to
leaf. `half` tells a half-row from a request, `mset` names the merge set of a request. -/
structure LinkUse where
  kind : Nat
  at_ : Nat
  beat : Nat
  round : Nat
  half : Bool
  mset : Option (Nat × Nat)
  deriving DecidableEq, Repr

/-- The links of one entry, one beat after the other (09 R256 R260). A unit 3 entry takes the path to the bridge ports and the path back (09 R263
R583, log 35). -/
def Part.usesOf (p : Part) (cl : Nat) (e : SheetEntry) : List LinkUse :=
  let n := cl % 400
  let r := p.sheetRound cl
  let half := e.kind != 0
  let mset := if e.merge then some (e.slot, e.peer) else none
  let use := fun (k a b : Nat) => ({ kind := k, at_ := a, beat := (e.slot + b) % r, round := r, half := half, mset := mset } : LinkUse)
  let sp := p.spineOf cl e
  if e.unit = 3 then [use 0 n 0, use 2 (20 * leafOf n + sp) 1, use 3 (20 * leafOf n + sp) 0, use 1 n 1]
  else
    let ts := p.targets cl e
    let far := ts.filter (fun m => !sameLeaf n m)
    let span := fun (m : Nat) => if half then writeBeats (!sameLeaf n m) else serveDelay n m
    [use 0 n 0] ++ (if far.isEmpty then [] else [use 2 (20 * leafOf n + sp) 1]) ++
      ((far.map leafOf).eraseDups.map (fun l => use 3 (20 * l + sp) 2)) ++ ts.map (fun m => use 1 m (span m - 1))

def LinkUse.clash (a b : LinkUse) : Bool :=
  a.kind == b.kind && a.at_ == b.at_ && a.beat % min a.round b.round == b.beat % min a.round b.round &&
  !(a.mset.isSome && decide (a.mset = b.mset))

/-- The clash is one of two half-rows at a port: SHEET_PORT; any other is SHEET_LINK. -/
def LinkUse.atPort (a b : LinkUse) : Bool := decide (a.kind < 2) && a.half && b.half

/-- Some pair of uses stands in the relation. -/
def anyPair {α : Type} (f : α → α → Bool) : List α → Bool
  | [] => false
  | x :: xs => xs.any (f x) || anyPair f xs

/-- SHEET_MERGE: the members of a merge set lie in several clusters and no group that serves them holds all of those (09 R268). -/
def Part.mergeBad (p : Part) (d : Nat) (cls : List Nat) : Bool :=
  let members := cls.flatMap (fun cl => ((p.entriesIn cl).filter (fun e => e.kind == 0 && e.merge && e.unit != 3)).map (fun e => (cl % 400, e)))
  let sets := (members.map (fun m => (m.2.slot, m.2.peer))).eraseDups
  sets.any (fun x =>
    let from_ := ((members.filter (fun m => m.2.slot == x.1 && m.2.peer == x.2)).map (·.1)).eraseDups
    let server := 400 * d + x.2
    decide (1 < from_.length) && !(p.entriesIn server).any (fun e =>
      e.kind == 1 && e.mc && from_.all (fun n =>
        (p.targets server e).elem n && e.slot == (x.1 + serveDelay n x.2) % p.sheetRound server)))

/-- A merge set within a cluster: the cores that load in the same slot from the same server. -/
def Part.mergeSets (p : Part) (cl : Nat) : List (List Nat) :=
  let es := (p.entriesIn cl).filter (fun e => e.kind == 0 && e.merge && e.unit != 3)
  ((es.map (fun e => (e.slot, e.peer))).eraseDups).map (fun x =>
    ((es.filter (fun e => e.slot == x.1 && e.peer == x.2)).map (·.core)).eraseDups)

/-- SHEET_MERGE for a T64C cluster (08 R238). DESIGN CHOICE: a cluster runs a T64C tile when its 16 cores all load in merge sets, every set lies
within a block row or a block column, and some set shares along a row and some along a column; its loads stand in common slots when every set
holds the four cores of its row or column, and none of its cores belongs to a two-hander (log 35). -/
def Part.t64cBad (p : Part) (cl : Nat) : Bool :=
  let sets := p.mergeSets cl
  let row := fun (l : List Nat) => (l.map (· / 4)).eraseDups.length == 1
  let col := fun (l : List Nat) => (l.map (· % 4)).eraseDups.length == 1
  let shared := sets.filter (fun l => decide (1 < l.length))
  (List.range 16).all (fun k => sets.any (·.elem k)) && sets.all (fun l => row l || col l) && shared.any row && shared.any col &&
    (sets.any (fun l => l.length != 4) || (List.range 16).any (fun k => p.paired (16 * cl + k)))

/-- The faults of the sheets of die `d` (09 R267): those of the entries of the clusters that `mine` selects, and clashes among the sheets of
every replica on the die. -/
def Part.sheetFaults (p : Part) (early : Bool) (mine : Nat → Bool) (d : Nat) : List Nat :=
  let cls := (p.sheetClusters d).filter p.hasSheet
  let each := (cls.filter mine).flatMap (fun cl => (p.entriesIn cl).map (fun e => (cl, e)))
  let uses := cls.flatMap (fun cl => (p.entriesIn cl).flatMap (p.usesOf cl))
  if cls.any p.sheetReserved then [0x0301]
  else
    named (each.any (fun x => x.2.slot % 32 == 31)) 0x0302 ++ named (each.any (fun x => p.pairBad x.1 x.2)) 0x0303 ++
    named (each.any (fun x => p.spineBad x.1 x.2)) 0x0304 ++ named (anyPair (fun a b => a.clash b && !a.atPort b) uses) 0x0305 ++
    named (anyPair (fun a b => a.clash b && a.atPort b) uses) 0x0306 ++ named (p.mergeBad d cls || (cls.filter mine).any p.t64cBad) 0x0307 ++
    named (each.any (fun x => match p.replicaAt x.1 with | some r => p.scopeBad early r x.1 x.2 | none => true)) 0x0308

/-! ### Routes (09 R274 R277) -/

/-- The spill ring rows of a used route. -/
def Part.ringRows (p : Part) (c r : Nat) : List Nat :=
  let w := p.routeWord c r
  if fld w 0 2 = 0 then [] else (List.range (if bitOf w 30 then 2 else 1)).map (fld w 23 7 + ·)

/-- CHAN_ROUTE for route `r` of core `c`. -/
def Part.routeBad (p : Part) (c r : Nat) : Bool :=
  let w := p.routeWord c r
  let kind := fld w 0 2
  let die := fld w 2 2
  let q := fld w 17 5
  let reader := 6400 * die + 16 * fld w 4 9 + fld w 13 4
  kind == 3 || fld w 35 29 != 0 ||
  (kind != 0 && (decide (400 ≤ fld w 4 9) || (kind == 1) != (die == dieOf c) ||
    (decide (16 ≤ q) && !(reader % 2 == 0 && p.paired reader)) ||
    (p.ringRows c r).any (fun x => decide (scratchRows (p.partition c) ≤ x)) ||
    (List.range 16).any (fun i => i != r && (p.ringRows c i).any (p.ringRows c r).elem)))

/-- The queues that the routes of the loaded replicas lead to. -/
def Part.routedQueues (p : Part) : List (Nat × Nat) :=
  p.stg.replicas.flatMap (fun x => x.cores.flatMap (fun c => (List.range 16).filterMap (p.routeTarget c)))

/-- The faults of one core's routes. -/
def Part.routeFaults (p : Part) (c : Nat) : List Nat := named ((List.range 16).any (p.routeBad c)) 0x0402

/-! ### Wires and participant masks (11 R336 R340) -/

/-- WIRE_SCOPE. -/
def Part.wireBad (p : Part) (r : Replica) (cl w : Nat) : Bool :=
  let x := p.wireCfg cl w
  bitOf x 16 && (decide (400 ≤ fld x 17 9) || !r.holds (400 * r.die + fld x 17 9))

/-- CURT_SCOPE: a mask of a declared or undeclared curtain that names the odd core of a two-hander. -/
def Part.maskBad (p : Part) (cl : Nat) : Bool :=
  (List.range 16).any (fun cu => (List.range 8).any (fun i => bitOf (p.curtMask cl cu) (2 * i + 1) && p.paired (16 * cl + 2 * i + 1)))

/-- The faults of a replica's clusters and cores under its scene. -/
def Part.replicaFaults (p : Part) (sc : Scene) (r : Replica) : List Nat :=
  r.clusters.flatMap (fun cl =>
    named ((List.range 64).any (p.wireBad r cl)) 0x0501 ++ named (p.maskBad cl) 0x0502 ++
    (List.range 16).flatMap (fun k => p.coreFaults sc (16 * cl + k) ++ p.routeFaults (16 * cl + k)))

/-- A nonempty list of named codes is answered by its least. -/
def leastCode : List Nat → Option Nat
  | [] => none
  | x :: xs => match leastCode xs with
    | none => some x
    | some y => some (min x y)

end Sys2Proof.Machine
end

