-- ==== Sys2Proof/Machine/Crypto.lean ====
section
/-! DEFINITION. SHA-256, HMAC-SHA-256, the key derivation of 15 R455, and AES-256-GCM (15 R452 to R457, 17 R513 R514). The algorithms are
those of FIPS 180-4, FIPS 198-1, SP 800-108, FIPS 197 and SP 800-38D, which the manual names. -/

namespace Sys2Proof.Machine

open Sys2Proof

/-! ### SHA-256 -/

/-- The `bits`-bit integer part of the `k`-th root of `n`, bit by bit from the highest. -/
def rootOf (k n : Nat) : Nat → Nat → Nat
  | 0, r => r
  | bits + 1, r => rootOf k n bits (if (r + 2 ^ bits) ^ k ≤ n then r + 2 ^ bits else r)

/-- The first primes, ascending. -/
def primesBelow (n : Nat) : List Nat :=
  (List.range n).filter (fun p => decide (2 ≤ p) && (List.range p).all (fun d => decide (d < 2) || p % d != 0))

/-- The first 32 bits of the fractional parts of the cube roots of the first 64 primes (FIPS 180-4). -/
def shaK : List W32 := (primesBelow 312).map (fun p => BitVec.ofNat 32 (rootOf 3 (p * 2 ^ 96) 36 0))

/-- Those of the square roots of the first 8 primes. -/
def shaH : List W32 := (primesBelow 20).map (fun p => BitVec.ofNat 32 (rootOf 2 (p * 2 ^ 64) 36 0))

/-- A byte list as a number, the first byte highest. -/
def beNat (l : List Byte) : Nat := l.foldl (fun a b => 256 * a + b.toNat) 0

/-- `n` bytes of a number, the highest first. -/
def beBytes (n w : Nat) : List Byte := (leBytes n w).reverse

/-- The message schedule, newest word first. -/
def shaSchedule : Nat → List W32 → List W32
  | 0, w => w
  | n + 1, w =>
    let x15 := w.getD 14 0
    let x2 := w.getD 1 0
    let s0 := x15.rotateRight 7 ^^^ x15.rotateRight 18 ^^^ (x15 >>> 3)
    let s1 := x2.rotateRight 17 ^^^ x2.rotateRight 19 ^^^ (x2 >>> 10)
    shaSchedule n ((w.getD 15 0 + s0 + w.getD 6 0 + s1) :: w)

/-- One round on (a, b, c, d, e, f, g, h). -/
def shaRound (s : List W32) (kw : W32 × W32) : List W32 := match s with
  | [a, b, c, d, e, f, g, h] =>
    let s1 := e.rotateRight 6 ^^^ e.rotateRight 11 ^^^ e.rotateRight 25
    let ch := (e &&& f) ^^^ (~~~ e &&& g)
    let t1 := h + s1 + ch + kw.1 + kw.2
    let s0 := a.rotateRight 2 ^^^ a.rotateRight 13 ^^^ a.rotateRight 22
    let maj := (a &&& b) ^^^ (a &&& c) ^^^ (b &&& c)
    [t1 + (s0 + maj), a, b, c, d + t1, e, f, g]
  | l => l

def shaBlock (h : List W32) (b : List Byte) : List W32 :=
  let w := (chunks 4 b).map (fun x => BitVec.ofNat 32 (beNat x))
  let sched := (shaSchedule 48 w.reverse).reverse
  List.zipWith (· + ·) h ((List.zip shaK sched).foldl shaRound h)

def sha256 (m : List Byte) : List Byte :=
  let zeros := (119 - m.length % 64) % 64
  let padded := m ++ [0x80] ++ List.replicate zeros 0 ++ beBytes 8 (8 * m.length)
  ((chunks 64 padded).foldl shaBlock shaH).flatMap (fun w => beBytes 4 w.toNat)

/-! ### HMAC and key derivation (15 R455) -/

def hmac (k m : List Byte) : List Byte :=
  let k0 := padTo 64 (if 64 < k.length then sha256 k else k)
  sha256 (k0.map (· ^^^ 0x5c) ++ sha256 (k0.map (· ^^^ 0x36) ++ m))

def kdf (k label ctx : List Byte) : List Byte := hmac k (beBytes 4 1 ++ label ++ [0] ++ ctx ++ beBytes 4 256)

/-- The bytes of an ASCII label, given as character codes. -/
def ascii (s : String) : List Byte := s.toList.map (fun c => BitVec.ofNat 8 c.toNat)

/-! ### AES-256 -/

/-- Multiplication by x in GF(2^8). -/
def xtime (b : Nat) : Nat := if b < 128 then 2 * b else (2 * b % 256) ^^^ 0x1b

/-- The S-box, by the powers of the generator 3 and their inverses. -/
def sboxStep : Nat → Nat → Nat → List (Nat × Nat)
  | 0, _, _ => []
  | n + 1, p, q =>
    let p' := p ^^^ xtime p
    let q1 := (q ^^^ (q <<< 1)) % 256
    let q2 := (q1 ^^^ (q1 <<< 2)) % 256
    let q3 := (q2 ^^^ (q2 <<< 4)) % 256
    let q' := if 128 ≤ q3 then q3 ^^^ 0x09 else q3
    let rot := fun (k : Nat) => (q' <<< k) % 256 ^^^ (q' >>> (8 - k))
    (p', q' ^^^ rot 1 ^^^ rot 2 ^^^ rot 3 ^^^ rot 4 ^^^ 0x63) :: sboxStep n p' q'

/-- The S-box sorted by its argument. -/
def sbox : List Byte :=
  let t := sboxStep 255 1 1
  (List.range 256).map (fun i => BitVec.ofNat 8 (if i = 0 then 0x63 else ((t.find? (fun x => x.1 == i)).map (·.2)).getD 0))

def subByte (sb : List Byte) (b : Byte) : Byte := sb.getD b.toNat 0

def xorL (a b : List Byte) : List Byte := List.zipWith (· ^^^ ·) a b

/-- The key schedule: words of 4 bytes, newest first. -/
def keyWords (sb : List Byte) : Nat → Nat → List (List Byte) → List (List Byte)
  | 0, _, w => w
  | n + 1, i, w =>
    let t := w.getD 0 []
    let t1 := if i % 8 = 0 then
        let s := (t.drop 1 ++ t.take 1).map (subByte sb)
        xorL s [BitVec.ofNat 8 (2 ^ (i / 8 - 1)), 0, 0, 0]
      else if i % 8 = 4 then t.map (subByte sb) else t
    keyWords sb n (i + 1) (xorL (w.getD 7 []) t1 :: w)

/-- The 15 round keys of 16 bytes. -/
def roundKeys (key : List Byte) : List (List Byte) :=
  (chunks 4 (keyWords sbox 52 8 (chunks 4 key).reverse).reverse).map (·.flatten)

def mixColumn (c : List Byte) : List Byte :=
  let g := fun (i : Nat) => (c.getD (i % 4) 0).toNat
  (List.range 4).map (fun i => BitVec.ofNat 8 (xtime (g i) ^^^ (xtime (g (i + 1)) ^^^ g (i + 1)) ^^^ g (i + 2) ^^^ g (i + 3)))

/-- Row r of the state, byte r of each column, moves left by r columns. -/
def shiftRows (s : List Byte) : List Byte := (List.range 16).map (fun i => s.getD ((i + 4 * (i % 4)) % 16) 0)

def aesBlock (sb : List Byte) (keys : List (List Byte)) (b : List Byte) : List Byte :=
  let s0 := xorL b (keys.getD 0 [])
  let mid := (List.range 13).foldl (fun s r =>
    xorL ((chunks 4 (shiftRows (s.map (subByte sb)))).flatMap mixColumn) (keys.getD (r + 1) [])) s0
  xorL (shiftRows (mid.map (subByte sb))) (keys.getD 14 [])

/-! ### GCM -/

/-- A product in GF(2^128) of SP 800-38D: bit 0 of a block is its highest bit. -/
def gfMul (x y : Nat) : Nat :=
  ((List.range 128).foldl (fun (zv : Nat × Nat) i =>
    (if bitOf x (127 - i) then zv.1 ^^^ zv.2 else zv.1,
     if zv.2 % 2 = 1 then (zv.2 / 2) ^^^ (0xe1 * 2 ^ 120) else zv.2 / 2)) (0, y)).1

def ghash (h : Nat) (data : List Byte) : Nat :=
  (chunks 16 data).foldl (fun y b => gfMul (y ^^^ beNat (padTo 16 b)) h) 0

def pad16 (l : List Byte) : List Byte := l ++ List.replicate ((16 - l.length % 16) % 16) 0

/-- Counter-mode output for `n` bytes from counter value `c` on. -/
def gctr (sb : List Byte) (keys : List (List Byte)) (iv : List Byte) (c n : Nat) : List Byte :=
  ((List.range (ceilDiv n 16)).flatMap (fun i => aesBlock sb keys (iv ++ beBytes 4 (c + i)))).take n

/-- The tag of a ciphertext under a 96-bit IV. -/
def gcmTag (key iv aad ct : List Byte) : List Byte :=
  let keys := roundKeys key
  let sb := sbox
  let h := beNat (aesBlock sb keys (List.replicate 16 0))
  let s := ghash h (pad16 aad ++ pad16 ct ++ beBytes 8 (8 * aad.length) ++ beBytes 8 (8 * ct.length))
  xorL (beBytes 16 s) (aesBlock sb keys (iv ++ beBytes 4 1))

/-- Encryption and decryption are one counter-mode operation. -/
def gcmCrypt (key iv data : List Byte) : List Byte :=
  xorL data (gctr sbox (roundKeys key) iv 2 data.length)

/-- The ciphertext and its tag. -/
def gcmSeal (key iv aad pt : List Byte) : List Byte × List Byte :=
  let ct := gcmCrypt key iv pt
  (ct, gcmTag key iv aad ct)

/-- The cleartext of a ciphertext whose tag holds. -/
def gcmOpen (key iv aad ct tag : List Byte) : Option (List Byte) :=
  if gcmTag key iv aad ct = tag then some (gcmCrypt key iv ct) else none

end Sys2Proof.Machine
end

