-- ==== Sys2Proof/Machine/Slh.lean ====
section
/-! DEFINITION. SLH-DSA with SHA2 at 16-byte hashes (17 R514, FIPS 205): public keys, verification, and deterministic signing, in pure mode
with an empty context string. A signature is handled as its 16-byte strings. -/

namespace Sys2Proof.Machine

open Sys2Proof

/-- What tells the two parameter sets apart: the layers, the height of a tree of one layer, and the height and number of the FORS trees. -/
structure SlhSet where
  d : Nat
  hp : Nat
  a : Nat
  k : Nat
  deriving DecidableEq, Repr

def slh128s : SlhSet := ⟨7, 9, 12, 14⟩
def slh128f : SlhSet := ⟨22, 3, 6, 33⟩

/-- A hash address: layer, tree, type, and the three words whose meaning the type gives. -/
structure SlhAdr where
  layer : Nat
  tree : Nat
  type : Nat
  w1 : Nat
  w2 : Nat
  w3 : Nat
  deriving DecidableEq, Repr

/-- The compressed form of 22 bytes. -/
def SlhAdr.bytes (x : SlhAdr) : List Byte :=
  beBytes 1 x.layer ++ beBytes 8 x.tree ++ beBytes 1 x.type ++ beBytes 4 x.w1 ++ beBytes 4 x.w2 ++ beBytes 4 x.w3

/-- F, H, T and PRF, which are one function under SHA2 at this size: the seed fills a block of the hash. -/
def slhHash (seed : List Byte) (x : SlhAdr) (m : List Byte) : List Byte := (sha256 (padTo 64 seed ++ x.bytes ++ m)).take 16

/-- MGF1 with SHA-256. -/
def mgf1 (s : List Byte) (n : Nat) : List Byte := ((List.range (ceilDiv n 32)).flatMap (fun i => sha256 (s ++ beBytes 4 i))).take n

/-- The `n` highest digits of `b` bits of a byte string. -/
def digits (l : List Byte) (b n : Nat) : List Nat := (List.range n).map (fun i => (beNat l >>> (8 * l.length - b * (i + 1))) % 2 ^ b)

/-! ### One-time signatures -/

/-- `n` steps of a chain from position `i` on. -/
def slhChain (seed : List Byte) (x : SlhAdr) : Nat → Nat → List Byte → List Byte
  | 0, _, v => v
  | n + 1, i, v => slhChain seed x n (i + 1) (slhHash seed { x with w3 := i } v)

/-- The 35 chain lengths of a message of 16 bytes: its digits, then those of their checksum. -/
def wotsDigits (m : List Byte) : List Nat :=
  let l := digits m 4 32
  l ++ digits (beBytes 2 (16 * (l.map (fun x => 15 - x)).sum)) 4 3

def wotsSecret (sk seed : List Byte) (x : SlhAdr) (i : Nat) : List Byte := slhHash seed { x with type := 5, w2 := i, w3 := 0 } sk

/-- The chains of a key pair run on from position `lo i` by `n i` steps, from what `start` gives. -/
def wotsRun (seed : List Byte) (x : SlhAdr) (lo n : Nat → Nat) (start : Nat → List Byte) : List (List Byte) :=
  (List.range 35).map (fun i => slhChain seed { x with type := 0, w2 := i, w3 := 0 } (n i) (lo i) (start i))

def wotsRoot (seed : List Byte) (x : SlhAdr) (ends : List (List Byte)) : List Byte :=
  slhHash seed { x with type := 1, w2 := 0, w3 := 0 } ends.flatten

def wotsPublic (sk seed : List Byte) (x : SlhAdr) : List Byte :=
  wotsRoot seed x (wotsRun seed x (fun _ => 0) (fun _ => 15) (wotsSecret sk seed x))

def wotsSign (sk seed : List Byte) (x : SlhAdr) (m : List Byte) : List (List Byte) :=
  wotsRun seed x (fun _ => 0) (fun i => (wotsDigits m).getD i 0) (wotsSecret sk seed x)

/-- The public key that a signature of `m` leads to. -/
def wotsFrom (seed : List Byte) (x : SlhAdr) (m : List Byte) (sig : List (List Byte)) : List Byte :=
  let ds := wotsDigits m
  wotsRoot seed x (wotsRun seed x (fun i => ds.getD i 0) (fun i => 15 - ds.getD i 0) (fun i => sig.getD i []))

/-! ### Merkle trees -/

/-- Node `i` at height `z` over the leaves that `leaf` gives; `at_` gives the address of an inner node by height and index. -/
def treeNode (seed : List Byte) (at_ : Nat → Nat → SlhAdr) (leaf : Nat → List Byte) : Nat → Nat → List Byte
  | 0, i => leaf i
  | z + 1, i => slhHash seed (at_ (z + 1) i) (treeNode seed at_ leaf z (2 * i) ++ treeNode seed at_ leaf z (2 * i + 1))

/-- The siblings on the way up from leaf `i`, lowest first. -/
def treePath (seed : List Byte) (at_ : Nat → Nat → SlhAdr) (leaf : Nat → List Byte) (n i : Nat) : List (List Byte) :=
  (List.range n).map (fun j => treeNode seed at_ leaf j ((i / 2 ^ j) ^^^ 1))

/-- The root over a node of index `i` at height `z`, by the siblings above it. -/
def treeRoot (seed : List Byte) (at_ : Nat → Nat → SlhAdr) : Nat → Nat → List Byte → List (List Byte) → List Byte
  | _, _, v, [] => v
  | z, i, v, s :: ss => treeRoot seed at_ (z + 1) (i / 2) (slhHash seed (at_ (z + 1) (i / 2)) (if i % 2 = 0 then v ++ s else s ++ v)) ss

/-! ### One layer of the hypertree -/

def xmssAdr (layer tree : Nat) (z i : Nat) : SlhAdr := ⟨layer, tree, 2, 0, z, i⟩
def wotsAdr (layer tree leaf : Nat) : SlhAdr := ⟨layer, tree, 0, leaf, 0, 0⟩

def xmssNode (sk seed : List Byte) (layer tree z i : Nat) : List Byte :=
  treeNode seed (xmssAdr layer tree) (fun j => wotsPublic sk seed (wotsAdr layer tree j)) z i

def xmssSign (q : SlhSet) (sk seed : List Byte) (layer tree leaf : Nat) (m : List Byte) : List (List Byte) :=
  wotsSign sk seed (wotsAdr layer tree leaf) m ++
    treePath seed (xmssAdr layer tree) (fun j => wotsPublic sk seed (wotsAdr layer tree j)) q.hp leaf

def xmssFrom (seed : List Byte) (layer tree leaf : Nat) (m : List Byte) (sig : List (List Byte)) : List Byte :=
  treeRoot seed (xmssAdr layer tree) 0 leaf (wotsFrom seed (wotsAdr layer tree leaf) m (sig.take 35)) (sig.drop 35)

/-- `n` layers from `layer` up over the message `m`: the signatures of the layers. -/
def hyperSign (q : SlhSet) (sk seed : List Byte) : Nat → Nat → Nat → Nat → List Byte → List (List Byte)
  | 0, _, _, _, _ => []
  | n + 1, layer, tree, leaf, m =>
    xmssSign q sk seed layer tree leaf m ++
      hyperSign q sk seed n (layer + 1) (tree / 2 ^ q.hp) (tree % 2 ^ q.hp) (xmssNode sk seed layer tree q.hp 0)

/-- The root that signatures of `n` layers lead to. -/
def hyperFrom (q : SlhSet) (seed : List Byte) : Nat → Nat → Nat → Nat → List Byte → List (List Byte) → List Byte
  | 0, _, _, _, m, _ => m
  | n + 1, layer, tree, leaf, m, sig =>
    hyperFrom q seed n (layer + 1) (tree / 2 ^ q.hp) (tree % 2 ^ q.hp)
      (xmssFrom seed layer tree leaf m (sig.take (35 + q.hp))) (sig.drop (35 + q.hp))

/-! ### FORS -/

def forsAdr (tree leaf : Nat) (z i : Nat) : SlhAdr := ⟨0, tree, 3, leaf, z, i⟩
def forsSecret (sk seed : List Byte) (tree leaf i : Nat) : List Byte := slhHash seed ⟨0, tree, 6, leaf, 0, i⟩ sk
def forsLeaf (sk seed : List Byte) (tree leaf i : Nat) : List Byte := slhHash seed (forsAdr tree leaf 0 i) (forsSecret sk seed tree leaf i)

/-- The part of tree `j`, whose leaf `x` is opened: leaves are numbered through all trees. -/
def forsPart (q : SlhSet) (sk seed : List Byte) (tree leaf j x : Nat) : List (List Byte) :=
  let i := j * 2 ^ q.a + x
  forsSecret sk seed tree leaf i :: treePath seed (forsAdr tree leaf) (forsLeaf sk seed tree leaf) q.a i

def forsSign (q : SlhSet) (sk seed : List Byte) (tree leaf : Nat) (md : List Nat) : List (List Byte) :=
  (List.range q.k).flatMap (fun j => forsPart q sk seed tree leaf j (md.getD j 0))

def forsRoot (q : SlhSet) (seed : List Byte) (tree leaf j x : Nat) (sig : List (List Byte)) : List Byte :=
  let i := j * 2 ^ q.a + x
  treeRoot seed (forsAdr tree leaf) 0 i (slhHash seed (forsAdr tree leaf 0 i) (sig.getD 0 [])) (sig.drop 1)

def forsFrom (q : SlhSet) (seed : List Byte) (tree leaf : Nat) (md : List Nat) (sig : List (List Byte)) : List Byte :=
  slhHash seed ⟨0, tree, 4, leaf, 0, 0⟩ ((List.range q.k).flatMap (fun j =>
    forsRoot q seed tree leaf j (md.getD j 0) ((sig.drop (j * (q.a + 1))).take (q.a + 1))))

/-! ### Keys, signatures, verification -/

/-- The opened leaves, the tree and the leaf of the lowest layer that a message and its randomiser name. -/
def slhDigest (q : SlhSet) (r pk m : List Byte) : List Nat × Nat × Nat :=
  let h := q.d * q.hp
  let n1 := ceilDiv (q.k * q.a) 8
  let n2 := ceilDiv (h - q.hp) 8
  let n3 := ceilDiv q.hp 8
  let g := mgf1 (r ++ pk.take 16 ++ sha256 (r ++ pk ++ m)) (n1 + n2 + n3)
  (digits (g.take n1) q.a q.k, beNat ((g.drop n1).take n2) % 2 ^ (h - q.hp), beNat (g.drop (n1 + n2)) % 2 ^ q.hp)

/-- What is signed in pure mode with an empty context. -/
def slhPure (m : List Byte) : List Byte := [0, 0] ++ m

/-- The public key of the seeds SK.seed, SK.prf and PK.seed: PK.seed and the root of the top tree. -/
def slhPublicOf (q : SlhSet) (seeds : List Byte) : List Byte :=
  let seed := sliceB seeds 32 16
  seed ++ xmssNode (sliceB seeds 0 16) seed (q.d - 1) 0 q.hp 0

/-- A deterministic signature as its 16-byte strings. -/
def slhParts (q : SlhSet) (seeds m : List Byte) : List (List Byte) :=
  let sk := sliceB seeds 0 16
  let seed := sliceB seeds 32 16
  let pk := slhPublicOf q seeds
  let r := (hmac (sliceB seeds 16 16) (seed ++ slhPure m)).take 16
  let (md, tree, leaf) := slhDigest q r pk (slhPure m)
  let f := forsSign q sk seed tree leaf md
  r :: (f ++ hyperSign q sk seed q.d 0 tree leaf (forsFrom q seed tree leaf md f))

def slhSignWith (q : SlhSet) (seeds m : List Byte) : List Byte := (slhParts q seeds m).flatten

/-- The length of a signature in bytes. -/
def SlhSet.sigBytes (q : SlhSet) : Nat := 16 * (1 + q.k * (q.a + 1) + q.d * (35 + q.hp))

def slhVerifyWith (q : SlhSet) (pk m sig : List Byte) : Bool :=
  let seed := pk.take 16
  let l := chunks 16 sig
  let (md, tree, leaf) := slhDigest q (l.getD 0 []) pk (slhPure m)
  let node := forsFrom q seed tree leaf md ((l.drop 1).take (q.k * (q.a + 1)))
  decide (sig.length = q.sigBytes) && decide (hyperFrom q seed q.d 0 tree leaf node (l.drop (1 + q.k * (q.a + 1))) = pk.drop 16)

/-- Vendor and owner signatures. -/
def slhVerify (pk m sig : List Byte) : Bool := slhVerifyWith slh128s pk m sig

/-- The identity key. -/
def slhPublic (seeds : List Byte) : List Byte := slhPublicOf slh128f seeds
def slhSign (seeds m : List Byte) : List Byte := slhSignWith slh128f seeds m

end Sys2Proof.Machine
end

