-- ==== Sys2Proof/Machine/Scripts.lean ====
section
/-! DEFINITION. Scripts: their form, keys and checks, scene records, placement, translation, and what is kept of them (15 R449 to R466 R476,
17 R520 R521). -/

namespace Sys2Proof.Machine

open Sys2Proof

/-! ### Measurements (17 R520 R521) -/

def Part.slot (p : Part) (m : Nat) : List Byte := (List.range 8).flatMap (fun i => leBytes 4 (p.regN (Reg.SEC_MEAS.at [m, i])))

/-- Slot `m` extended with a digest; its log entry is dropped when the log is full. -/
def Part.measure (p : Part) (m type version : Nat) (digest : List Byte) : Part :=
  let v := sha256 (p.slot m ++ digest)
  let p1 := forEach (List.range 8) (fun i x => x.setRegN (Reg.SEC_MEAS.at [m, i]) (leAt v (4 * i) 4)) p
  let n := p.regFld (Reg.SEC_LOG_COUNT.at []) 0 11
  if 1024 ≤ n then p1.orReg (Reg.SEC_LOG_COUNT.at []) 2048
  else
    let e := leBytes 1 m ++ leBytes 1 type ++ leBytes 2 0 ++ leBytes 4 version ++ leBytes 8 p.tim.now.toNat ++ padTo 32 digest ++ leBytes 16 0
    let p2 := forEach (List.range 8) (fun i x => x.setRegN (Reg.SEC_LOG.at [n, i]) (leAt e (8 * i) 8)) p1
    p2.setFld (Reg.SEC_LOG_COUNT.at []) 0 11 (n + 1)

/-! ### The form of a script (15 R450 to R454) -/

/-- F0 and the length of a script of `n` frames (15 R450). -/
def frameBase (n : Nat) : Nat := 4096 * ceilDiv (256 + 32 * n) 4096
def scriptLength (n : Nat) : Nat := frameBase n + 4096 * n + 8192

/-- The header of a script (15 R451). -/
structure ScriptHead where
  bytes : List Byte
  magic : Nat
  format : Nat
  cls : Nat
  pos : Nat
  kind : Nat
  mib : Nat
  version : Nat
  length : Nat
  frames : Nat
  nonce : List Byte
  bind : List Byte
  deriving DecidableEq, Repr

def scriptHead (b : List Byte) : ScriptHead :=
  { bytes := padTo 256 b, magic := leAt b 0 4, format := leAt b 4 2, cls := leAt b 6 2, pos := leAt b 8 1, kind := leAt b 9 1,
    mib := leAt b 10 2, version := leAt b 12 4, length := leAt b 16 8, frames := leAt b 24 4, nonce := sliceB b 32 8, bind := sliceB b 40 32 }

/-- The context of the key derivations (15 R455). -/
def ScriptHead.ctx (h : ScriptHead) : List Byte := h.nonce ++ leBytes 2 h.cls ++ leBytes 1 h.pos ++ leBytes 4 h.version

/-- 15 R456. -/
def epochKey (k0 ctx : List Byte) : Nat → List Byte
  | 0 => k0
  | e + 1 => kdf (epochKey k0 ctx e) (ascii "NX-ROLL") (ctx ++ leBytes 4 (e + 1))

def frameKey0 (kown ctx : List Byte) : List Byte := kdf kown (ascii "NX-FRAME") ctx

/-- The causes of 15 R470. -/
def causeShort : Nat := 0x06
def causeOrder : Nat := 0x08
def causeReject : Nat := 0x0E

/-- The first fault of a header, 0 without one. -/
def ScriptHead.fault (h : ScriptHead) (base : Bool) (pos : Nat) (identity : List Byte) : Nat :=
  if h.magic ≠ 0x4353584E then 0x02
  else if h.format ≠ 1 then 0x03
  else if h.cls ≠ 8 then 0x04
  else if h.bind.any (· ≠ 0) && decide (h.bind ≠ identity) then 0x05
  else if h.pos ≠ pos || decide (h.kind ≠ if base then 0 else 1) || (if base then decide (h.mib < 64) else h.mib != 0) ||
      h.frames == 0 || decide (131072 < h.frames) || h.length != scriptLength h.frames || leAt h.bytes 28 4 != 0 ||
      (h.bytes.drop 72).any (· ≠ 0) then causeOrder
  else 0

/-- A frame in clear: kind, scene, target and the body bytes in use. -/
abbrev Clear := Nat × Nat × Nat × List Byte

/-- Checks 1 of 15 R457, 0 without a fault. -/
def frameFault (pos i : Nat) (f : List Byte) : Nat :=
  let kind := leAt f 2 1
  let len := leAt f 14 2
  if leAt f 0 2 ≠ 0x4D46 then 0x02
  else if kind = 0 || decide (4 < kind) || leAt f 3 1 != pos || leAt f 4 4 != i || len == 0 || decide (4048 < len) ||
      leAt f 18 2 != 0 || leAt f 24 8 != 0 || (kind != 2 && leAt f 16 2 != 0) || ((kind == 1 || kind == 4) && leAt f 8 6 != 0) then causeOrder
  else 0

/-- The cleartext of frame `i` (15 R453 R456). -/
def openFrame (k0 ctx nonce : List Byte) (i : Nat) (f : List Byte) : Option (List Byte) :=
  gcmOpen (epochKey k0 ctx (i / 256)) (leBytes 4 i ++ nonce) (f.take 32) (sliceB f 32 4048) (sliceB f 4080 16)

def clearOf (f body : List Byte) : Clear := (leAt f 2 1, leAt f 16 2, leAt f 8 6, body.take (leAt f 14 2))

/-- What checking the frames of a script finds: a cause at a frame, or the frames in clear and the last manifest entry. -/
inductive Frames where
  | bad (cause i : Nat)
  | good (l : List Clear) (last : List Byte)
  deriving DecidableEq, Repr

/-- 15 R452 R457: frame after frame, each with its manifest entry. -/
def checkFrames (h : ScriptHead) (k0 : List Byte) : Nat → List Byte → List (List Byte × List Byte) → List Clear → Frames
  | _, prev, [], acc => .good acc.reverse prev
  | i, prev, (f, entry) :: rest, acc =>
    let c := frameFault h.pos i f
    if c ≠ 0 then .bad c i
    else
      let e := sha256 (prev ++ f)
      if e ≠ entry then .bad 0x09 i
      else match openFrame k0 h.ctx h.nonce i f with
      | none => .bad 0x0A i
      | some body =>
        if (crc32c body).toNat ≠ leAt f 20 4 || (body.drop (leAt f 14 2)).any (· ≠ 0) then .bad 0x0B i
        else checkFrames h k0 (i + 1) e rest (clearOf f body :: acc)

/-- The trailer: 15 R454. -/
def trailerFault (signed t ownerHash : List Byte) : Nat :=
  if leAt t 0 4 ≠ 0x4C525458 then 0x02
  else if leAt t 4 4 ≠ 0 || (t.drop 7896).any (· ≠ 0) then causeOrder
  else if sha256 (sliceB t 8 32) ≠ ownerHash || !slhVerify (sliceB t 8 32) signed (sliceB t 40 7856) then 0x0C
  else 0

/-- The frames of a script with their manifest entries. -/
def framePairs (h : ScriptHead) (b : List Byte) : List (List Byte × List Byte) :=
  (List.range h.frames).map (fun i => (sliceB b (frameBase h.frames + 4096 * i) 4096, sliceB b (256 + 32 * i) 32))

/-- Every check but those of the content: the header's have been made. -/
def checkBody (h : ScriptHead) (k0 ownerHash b : List Byte) : Frames :=
  match checkFrames h k0 0 (sha256 h.bytes) (framePairs h b) [] with
  | .bad c i => .bad c i
  | .good l last =>
    let c := trailerFault (b.take (256 + 32 * h.frames)) (sliceB b (h.length - 8192) 8192) ownerHash
    if c ≠ 0 then .bad c 0 else .good l last

/-! ### Scene records (15 R463) -/

structure SceneRec where
  scene : Nat
  op : Nat
  mode : Nat
  old : Nat
  w : Nat
  h : Nat
  n : Nat
  dies : Nat
  r : Nat
  cost : Nat
  interval : Nat
  quiet : Nat
  limits : List Nat
  clamp : Nat
  curts : List Nat
  shape : List Byte
  place : List Nat
  rsv : Bool
  deriving DecidableEq, Repr

def sceneRec (b : List Byte) : SceneRec :=
  { scene := leAt b 0 2, op := leAt b 2 1, mode := leAt b 3 1, old := leAt b 4 2, w := leAt b 6 1, h := leAt b 7 1, n := leAt b 8 1,
    dies := leAt b 9 1, r := leAt b 10 2, cost := leAt b 12 2, interval := leAt b 16 4, quiet := leAt b 20 4,
    limits := (List.range 4).map (fun i => leAt b (24 + 4 * i) 4), clamp := leAt b 40 4,
    curts := (List.range 16).map (fun c => leAt b (44 + 4 * c) 4), shape := sliceB b 108 64,
    place := (List.range 16).map (fun j => leAt b (172 + 2 * j) 2), rsv := leAt b 14 2 != 0 || (b.drop 204).any (· ≠ 0) }

def SceneRec.places (r : SceneRec) : Bool := r.op != 3
def SceneRec.retires (r : SceneRec) : Option Nat := match r.op with
  | 1 => some r.old
  | 3 => some r.scene
  | _ => none

/-- The scene that a record gives. -/
def SceneRec.toScene (r : SceneRec) (script : Nat) : Scene :=
  { num := r.scene, fenced := r.mode == 1, w := r.w, h := r.h, r := r.r, cost := r.cost, interval := r.interval, quiet := r.quiet,
    limits := r.limits, clamp := BitVec.ofNat 32 r.clamp, decl := r.curts.map (fun c => (fld c 0 3, fld c 3 4, fld c 7 6)), shape := r.shape,
    script := script, retiring := false }

/-- A padding of the default shape record has a reserved tag (02 R37); the tag of a padding of pattern 0 is ignored (08 R252). -/
def SceneRec.shapeTagBad (r : SceneRec) : Bool :=
  [(12, 0), (13, 5), (14, 10)].any (fun x => leAt r.shape (4 * x.1) 4 != 0 && !tagKnown (fld (leAt r.shape 60 4) x.2 5))

/-- Fields outside 15 R463. -/
def SceneRec.formBad (r : SceneRec) : Bool :=
  r.rsv || r.scene == 0 || decide (3 < r.op) || decide (1 < r.mode) || decide (15 < r.dies) || r.curts.any (fun c => decide (2 ^ 13 ≤ c)) ||
  r.place.any (fun x => decide (2 ^ 12 ≤ x)) || decide (2 ^ 26 ≤ r.clamp) ||
  (r.places && (r.w == 0 || decide (20 < r.w) || r.h == 0 || decide (20 < r.h) || r.n == 0 || decide (16 < r.n) ||
    (r.dies == 0 && (r.place.take r.n).any (fun x => !bitOf x 11)) || decide (2048 < r.r) || r.curts.any (fun c => decide (4 < fld c 0 3)) ||
    (r.mode == 1 && decide (r.clamp % 4 < 2)) || r.shapeTagBad))

/-- The op does not fit the repertoire `nums` (15 R466). -/
def SceneRec.opBad (r : SceneRec) (base : Bool) (nums : List Nat) : Bool :=
  (base && r.op != 0) || (match r.op with
    | 0 => nums.elem r.scene
    | 1 => !nums.elem r.old || (r.scene != r.old && nums.elem r.scene)
    | _ => !nums.elem r.scene)

/-- The records of a script in order; a scene may have one record (log 36). Answers whether one is at fault. -/
def recordsBad (base : Bool) : List Nat → List Nat → List SceneRec → Bool
  | _, _, [] => false
  | nums, seen, r :: rs =>
    r.formBad || r.opBad base nums || seen.elem r.scene || recordsBad base nums (r.scene :: seen) rs

/-- The record bytes of SCENE frames. -/
def recordBodies (fs : List Clear) : List (List Byte) := ((fs.filter (fun f => f.1 == 1)).map (·.2.2.2)).flatMap (chunks 256)

def recordFormBad (fs : List Clear) : Bool :=
  (fs.filter (fun f => f.1 == 1)).any (fun f => f.2.2.2.length % 256 != 0 || decide (15 < f.2.2.2.length / 256))

/-! ### Frame targets (15 R461 R462 R465) -/

/-- Bytes `o` to `o + n - 1` of a cluster's area are named. -/
def areaNamed (o n : Nat) : Bool :=
  (decide (o < 0x40000) && decide (o % 0x4000 + n ≤ 0x2B14)) || (decide (0x40000 ≤ o) && decide (o + n ≤ 0x44120))

/-- An absolute address in the view: its cluster, or none for the package area. -/
def viewPlace (a n : Nat) : Option (Option Nat) :=
  if pcurtCfgBase ≤ a ∧ a + n ≤ pcurtCfgBase + 256 then some none
  else if a < configBase then none
  else
    let x := a - configBase
    let cl := (x % 0x100000000) / 0x80000
    if x / 0x100000000 < 4 ∧ cl < 400 ∧ areaNamed (x % 0x80000) n = true then some (some (400 * (x / 0x100000000) + cl)) else none

/-- FRAME_TARGET: `recs` are the script's records, `p` the part before the change. -/
def Part.targetBad (p : Part) (recs : List SceneRec) (f : Clear) : Bool :=
  let (kind, scene, a, body) := f
  match kind with
  | 2 =>
    if scene = 0 then (match viewPlace a body.length with
      | none => true
      | some none => false
      | some (some cl) => (match p.replicaAt cl with
        | some r => !recs.any (fun x => x.scene == r.scene || x.retires == some r.scene)
        | none => false))
    else (match recs.find? (fun x => x.places && x.scene == scene) with
      | some r => decide (2 ^ 28 ≤ a) || decide (r.w * r.h ≤ a / 0x80000) || !areaNamed (a % 0x80000) body.length
      | none => false)
  | 3 => a % 512 != 0 || p.inPool a (512 * ceilDiv body.length 512) ||
      (List.range (ceilDiv body.length 512)).any (fun i => match p.homeAt (a + 512 * i) with | .lpddr => false | .staging _ => false | _ => true)
  | _ => false

/-- SCENE_REF of a frame. -/
def refBad (recs : List SceneRec) (f : Clear) : Bool := f.1 == 2 && f.2.1 != 0 && !recs.any (fun r => r.scene == f.2.1)

/-! ### The retained pool (15 R458 R459) -/

def Part.poolBase (p : Part) : Nat := p.regN (Reg.CFG_RETAIN_BASE.at [])
def Part.poolMib (p : Part) : Nat := p.regN (Reg.CFG_RETAIN_SIZE.at [])

/-- MiB of the pool in use, as (first, count). -/
def Part.poolUsed (p : Part) : List (Nat × Nat) :=
  (p.cfg.kept.map (fun k => ((k.base - p.poolBase) / 2 ^ 20, k.mib))) ++
    (match p.cfg.staged with | some s => [((s.base - p.poolBase) / 2 ^ 20, s.mib)] | none => [])

/-- The lowest place in the pool for `n` MiB. -/
def Part.poolFit (p : Part) (n : Nat) : Option Nat :=
  let used := p.poolUsed
  ((List.range (p.poolMib + 1 - n)).find? (fun i => used.all (fun u => !overlaps i n u.1 u.2))).map (fun i => p.poolBase + i * 2 ^ 20)

def Part.setPoolFree (p : Part) : Part :=
  p.setRegN (Reg.CFG_RETAIN_FREE.at []) (p.poolMib - (p.poolUsed.map (·.2)).sum)

/-- The rows of a script written into the pool. -/
def Part.storeScript (p : Part) (base : Nat) (b : List Byte) : Part :=
  forEach ((chunks 512 b).zipIdx) (fun x q => (q.setRow (base + 512 * x.2) x.1 0).countWrite (base + 512 * x.2)) p

/-- The frames of a kept script as they stand in the pool: what opens, with its index (15 R456 R478). -/
def Part.keptFrames (p : Part) (k : Kept) : List (Nat × Option Clear) :=
  let h := scriptHead (p.bytesAt k.base 256)
  (List.range h.frames).map (fun i =>
    let f := p.bytesAt (k.base + frameBase h.frames + 4096 * i) 4096
    (i, match openFrame k.key0 h.ctx h.nonce i f with
      | some body => if (crc32c body).toNat = leAt f 20 4 then some (clearOf f body) else none
      | none => none))

/-- The CONFIG frames of scene `s` in the kept scripts, in the order of their loading: script, frame index, offset, bytes. -/
def Part.sceneFrames (p : Part) (s : Nat) : List (Nat × Nat × Nat × List Byte) :=
  (p.cfg.kept.filter (fun k => k.scenes.elem s)).flatMap (fun k =>
    (p.keptFrames k).filterMap (fun x => match x.2 with
      | some (2, sc, a, body) => if sc = s then some (k.num, x.1, a, body) else none
      | _ => none))

/-! ### Writing and translating a replica's configuration (15 R462) -/

/-- The cluster of relative index `i` of a rectangle. -/
def relCluster (origin w i : Nat) : Nat := origin + 20 * (i / max 1 w) + i % max 1 w

/-- The configuration area of a cluster emptied (log 37). -/
def Part.clearConfig (p : Part) (cl : Nat) : Part :=
  let lo := cfgAddr cl 0
  let out := fun (a : Nat) => !(decide (lo ≤ a) && decide (a < lo + 0x80000))
  { p with mem := p.mem.filter (fun c => out c.1), poison := p.poison.filter (fun c => out (8 * c.1)) }

def Part.setNat (p : Part) (a n v : Nat) : Part := p.setBytes a (leBytes n v)

/-- A route word with its reader resolved: none when its scene or replica is not loaded. -/
def Part.resolveRoute (p : Part) (rep : Replica) (w : Nat) : Option Nat :=
  let s := fld w 35 16
  let at_ := if s = 0 then some rep else p.stg.replicas.find? (fun x => x.scene == s && x.j == fld w 51 4)
  at_.map (fun t =>
    let i := fld w 4 9
    let cl := if i < t.w * t.h then relCluster t.origin t.w i else 511
    let hi := if s = 0 then fld w 35 29 else fld w 55 9 * 2 ^ 20
    fld w 0 2 + t.die * 4 + cl * 2 ^ 4 + fld w 13 22 * 2 ^ 13 + hi * 2 ^ 35)

/-- A cluster number of a sheet or a wire. -/
def relNum (rep : Replica) (i : Nat) : Nat := min 511 (relCluster rep.origin rep.w i)

/-- What a frame of a scene writes: the script, its index, the relative target and the bytes. -/
abbrev SceneFrame := Nat × Nat × Nat × List Byte

/-- A frame writes some of the `n` bytes at offset `o` of cluster `cl` of a replica. -/
def Replica.written (rep : Replica) (fs : List SceneFrame) (cl o n : Nat) : Bool :=
  fs.any (fun f => 400 * rep.die + relCluster rep.origin rep.w (f.2.2.1 / 0x80000) == cl && overlaps (f.2.2.1 % 0x80000) f.2.2.2.length o n)

/-- `fwd_cluster` of every wire that the script configures. -/
def Part.translateWires (p : Part) (rep : Replica) (fs : List SceneFrame) (cl : Nat) : Part :=
  forEach (List.range 64) (fun w x =>
    let v := x.wireCfg cl w
    if rep.written fs cl (0x44000 + 4 * w) 4 then x.setNat (cfgAddr cl (0x44000 + 4 * w)) 4 (v % 2 ^ 17 + relNum rep (fld v 17 9) * 2 ^ 17 + fld v 26 6 * 2 ^ 26) else x) p

def Part.translateSheet (p : Part) (rep : Replica) (cl : Nat) : Part :=
  if !p.hasSheet cl then p
  else
    let p1 := p.setNat (sheetAddr cl + 4) 4 rep.scene
    let p2 := forEach (List.range 16) (fun g x =>
      let w := x.group cl g
      let ns := (List.range 4).map (fun i => if bitOf w (36 + i) then relNum rep (fld w (9 * i) 9) else fld w (9 * i) 9)
      x.setNat (sheetAddr cl + 128 + 8 * g) 8 (((ns.zipIdx).map (fun n => n.1 * 2 ^ (9 * n.2))).sum + fld w 36 28 * 2 ^ 36)) p1
    forEach (List.range (min 2016 (p.sheetCount cl))) (fun e x =>
      let a := sheetAddr cl + 256 + 8 * e
      let w := x.natAt a 8
      if bitOf w 34 then x else x.setNat a 8 (w % 2 ^ 20 + relNum rep (fld w 20 9) * 2 ^ 20 + fld w 29 35 * 2 ^ 29)) p2

/-- The routes of a cluster that the script configures and that resolve; the others stand as the script has them. -/
def Part.translateRoutes (p : Part) (rep : Replica) (fs : List SceneFrame) (cl : Nat) : Part :=
  forEach (List.range 256) (fun i x =>
    let c := 16 * cl + i / 16
    if !rep.written fs cl (0x4000 * (i / 16) + 0x2A00 + 8 * (i % 16)) 8 then x
    else match x.resolveRoute rep (x.routeWord c (i % 16)) with
    | some v => x.setNat (coreCfg c (0x2A00 + 8 * (i % 16))) 8 v
    | none => x) p

/-- The routes of a replica translated. -/
def Part.translateAll (p : Part) (rep : Replica) : Part :=
  let fs := p.sceneFrames rep.scene
  forEach rep.clusters (fun cl x => x.translateRoutes rep fs cl) p

/-- A route whose reader is not loaded. -/
def Part.routeLost (p : Part) (rep : Replica) (cl : Nat) : Bool :=
  (List.range 256).any (fun i => (p.resolveRoute rep (p.routeWord (16 * cl + i / 16) (i % 16))).isNone)

/-- The physical address of a scene-relative target in a replica. -/
def Replica.target (r : Replica) (a : Nat) : Nat := cfgAddr (400 * r.die + relCluster r.origin r.w (a / 0x80000)) (a % 0x80000)

/-- The frames of a replica's scene written to its emptied clusters, wires and sheets translated. -/
def Part.writeConfig (p : Part) (rep : Replica) (fs : List SceneFrame) : Part :=
  let p1 := forEach rep.clusters (fun cl x => x.clearConfig cl) p
  let p2 := forEach fs (fun f x => x.setBytes (rep.target f.2.2.1) f.2.2.2) p1
  forEach rep.clusters (fun cl x => (x.translateWires rep fs cl).translateSheet rep cl) p2

/-! ### Placement (15 R464) -/

/-- The rectangle lies in the grid, on roster clusters that nobody holds, and in FENCED mode alone in its bays. -/
def Part.roomFor (p : Part) (rep : Replica) : Bool :=
  decide (rep.origin < 400) && decide (rep.origin / 20 + rep.h ≤ 20) && decide (rep.origin % 20 + rep.w ≤ 20) &&
  rep.clusters.all (fun cl => p.onRoster cl && (p.replicaAt cl).isNone) &&
  (!rep.fenced || rep.region.all (fun cl => match p.replicaAt cl with | some x => x.scene == rep.scene | none => true))

/-- An address of a route entry in the configuration memory (15 R461). -/
def isRouteCell (a : Nat) : Bool :=
  decide (configBase ≤ a) && decide ((a - configBase) % 0x80000 < 0x40000) && (a - configBase) % 0x4000 / 0x80 == 0x54

/-- With the routes of the script's replicas `raw` that resolve: none has a reader on a die other than its kind says, and none leads to a queue
that a route of another replica leads to (09 R274 R277). -/
def Part.routesFit (p : Part) (raw : List Replica) : Bool :=
  if !p.mem.any (fun c => isRouteCell c.1) then true
  else
    let whole := fun (x : Part) (c i : Nat) => fld (x.routeWord c i) 35 29 == 0
    let ends := fun (x : Part) (r : Replica) => r.cores.flatMap (fun c =>
      (List.range 16).filterMap (fun i => if whole x c i then (x.routeTarget c i).map (fun t => (c, fld (x.routeWord c i) 0 2, t)) else none))
    let q := forEach raw (fun r x => x.translateAll r) p
    let mine := raw.flatMap (ends q)
    let others := (q.stg.replicas.filter (fun r => !raw.elem r)).flatMap (ends q)
    mine.all (fun x => (x.2.1 == 1) == (dieOf x.2.2.1 == dieOf x.1) && !others.any (fun y => decide (y.2.2 = x.2.2)))

/-- The sheets of a replica, written, pass with those of the other replicas of its die, and so do the routes that its place decides. -/
def Part.sheetsFit (p : Part) (rep : Replica) (raw : List Replica) (fs : List SceneFrame) : Bool :=
  let q := ({ p with stg := { p.stg with replicas := p.stg.replicas ++ [rep] } } : Part).writeConfig rep fs
  (!fs.any (fun f => overlaps (f.2.2.1 % 0x80000) f.2.2.2.length 0x40000 0x4000) || q.sheetFaults true rep.holds rep.die == []) &&
    q.routesFit (raw ++ [rep])

/-- Die and origin for a replica: where it is pinned, else the lowest die of the mask with room and there the lowest origin. The routes of the
replicas `raw` have not been translated yet. -/
def Part.placeOf (p : Part) (rep : Replica) (dies : Nat) (pin : Option (Nat × Nat)) (raw : List Replica) (fs : List SceneFrame) :
    Option (Nat × Nat) :=
  let ok := fun (x : Nat × Nat) => p.roomFor { rep with die := x.1, origin := x.2 } && p.sheetsFit { rep with die := x.1, origin := x.2 } raw fs
  match pin with
  | some x => if ok x then some x else none
  | none =>
    ((List.range 4).filter (bitOf dies)).findSome? (fun d => ((List.range 400).find? (fun o => ok (d, o))).map (fun o => (d, o)))

/-- The replica `j` of a record, its place still to be found. -/
def SceneRec.replica (r : SceneRec) (j : Nat) : Replica :=
  { scene := r.scene, j := j, die := 0, origin := 0, w := r.w, h := r.h, fenced := r.mode == 1, clamp := BitVec.ofNat 32 r.clamp, dark := true,
    st := .free, task := none, preempt := none, curts := [] }

/-- Where a record pins replica `j`. -/
def SceneRec.pin (r : SceneRec) (j : Nat) : Option (Nat × Nat) :=
  let x := r.place.getD j 0
  if bitOf x 11 then some (fld x 0 2, fld x 2 9) else none

/-- Replica `j` of a record placed; under RELOAD an unpinned one keeps its place `old` where it still fits (log 36). -/
def Part.placeReplica (p : Part) (r : SceneRec) (old raw : List Replica) (j : Nat) (fs : List SceneFrame) : Option Part :=
  let rep := r.replica j
  let stay := (old.find? (fun x => x.scene == r.scene && x.j == j && x.w == r.w && x.h == r.h)).map (fun x => (x.die, x.origin))
  let place := match r.pin j, stay with
    | none, some x => (p.placeOf rep r.dies (some x) raw fs).orElse (fun _ => p.placeOf rep r.dies none raw fs)
    | pin, _ => p.placeOf rep r.dies pin raw fs
  place.map (fun x =>
    let rep' := { rep with die := x.1, origin := x.2 }
    ({ p with stg := { p.stg with replicas := p.stg.replicas ++ [rep'] } } : Part).writeConfig rep' fs)

/-- All replicas of the records placed, ascending in each record. -/
def Part.placeRecs (names : List Nat) (old : List Replica) : List (SceneRec × Nat) → Part → Option Part
  | [], p => some p
  | (r, j) :: rest, p =>
    match p.placeReplica r old (p.stg.replicas.filter (fun x => names.elem x.scene)) j (p.sceneFrames r.scene) with
    | some q => Part.placeRecs names old rest q
    | none => none

/-! ### The part that a script would leave (15 R457) -/

/-- The scripts kept, once scene `s` is retired. -/
def dropScene (s : Nat) (k : Kept) : Kept := { k with scenes := k.scenes.filter (· ≠ s) }

/-- The scenes that a script's records retire or reload are taken out, the scenes it places are in the repertoire, its replicas placed and
dark, their configuration written. None when a record cannot be placed. -/
def Part.candidate (p : Part) (num base mib : Nat) (k0 : List Byte) (recs : List SceneRec) : Option Part :=
  let gone := recs.filterMap SceneRec.retires
  let placed := recs.filter SceneRec.places
  let names := placed.map (·.scene)
  let out := fun (s : Nat) => gone.elem s || names.elem s
  let old := p.stg.replicas.filter (fun r => names.elem r.scene && !gone.elem r.scene)
  let p1 : Part := { p with
    stg := { p.stg with
      replicas := p.stg.replicas.filter (fun r => !out r.scene)
      scenes := p.stg.scenes.filter (fun s => !out s.num) ++ placed.map (·.toScene num) }
    cfg := { p.cfg with kept := p.cfg.kept.map (fun k => gone.foldl (fun x s => dropScene s x) k) ++ [⟨num, base, mib, names, k0⟩] } }
  let todo := placed.flatMap (fun r => (List.range r.n).map (fun j => (r, j)))
  (Part.placeRecs names old todo p1).map (fun q =>
    forEach (q.stg.replicas.filter (fun r => names.elem r.scene)) (fun r x => x.translateAll r) q)

/-- The replicas of the scenes that a script places. -/
def Part.newReplicas (p : Part) (names : List Nat) : List Replica := p.stg.replicas.filter (fun r => names.elem r.scene)

/-- Golden entries of a replica: one for each range of its frames, with the CRC of the bytes as written (15 R476, log 37). -/
def Part.goldenOf (p : Part) (r : Replica) : List Golden :=
  (p.sceneFrames r.scene).map (fun f =>
    { die := r.die, addr := r.target f.2.2.1, len := f.2.2.2.length,
      crc := crc32c (padTo 4048 (p.bytesAt (r.target f.2.2.1) f.2.2.2.length)), script := f.1, frame := f.2.1 })

/-- Absolute frames of a script (15 R462). -/
def absoluteFrames (fs : List Clear) : List (Nat × Nat × List Byte) :=
  fs.zipIdx.filterMap (fun x => match x.1 with | (2, 0, a, body) => some (x.2, a, body) | _ => none)

def absoluteGolden (num : Nat) (fs : List Clear) : List Golden :=
  (absoluteFrames fs).map (fun f =>
    { die := (f.2.1 - configBase) / 0x100000000, addr := f.2.1, len := f.2.2.length, crc := crc32c (padTo 4048 f.2.2), script := num, frame := f.1 })

/-- The golden entries after a change: those of emptied clusters leave, those of the new replicas and of absolute frames come. -/
def Part.goldenAfter (p : Part) (names : List Nat) (num : Nat) (fs : List Clear) : List Golden :=
  let reps := p.newReplicas names
  let held := p.stg.replicas.flatMap (·.clusters)
  let fresh := reps.flatMap (·.clusters)
  let keep := p.cfg.golden.filter (fun g => match viewPlace g.addr g.len with
    | some (some cl) => held.elem cl && !fresh.elem cl
    | _ => true)
  let abs := absoluteGolden num fs
  keep.filter (fun g => !abs.any (fun a => a.addr == g.addr && a.len == g.len)) ++ reps.flatMap p.goldenOf ++ abs

/-- The clusters that absolute frames write, with the cores or, from 16 on, another part of the cluster's area. -/
def framesIn (fs : List Clear) : List (Nat × Nat) :=
  ((absoluteFrames fs).filterMap (fun f => match viewPlace f.2.1 f.2.2.length with
    | some (some cl) => some (cl, (f.2.1 - configBase) % 0x80000 / 0x4000)
    | _ => none)).eraseDups

/-- What a core that no scene holds is checked against (07 R236): no curtain, no limit. -/
def noScene : Scene :=
  { num := 0, fenced := false, w := 0, h := 0, r := 0, cost := 0, interval := 0, quiet := 0, limits := [], clamp := 0, decl := [], shape := [],
    script := 0, retiring := false }

/-- The named code of a script's content, with the frame at fault: none when every load-time rule is met (15 R457 R466). The codes are
sought in this order: records, targets, references, placement, then the least of all others (log 36). -/
def Part.contentFault (p : Part) (base : Bool) (num pool mib : Nat) (k0 : List Byte) (fs : List Clear) : Option (Nat × Nat) :=
  let recs := (recordBodies fs).map sceneRec
  let placed := recs.filter SceneRec.places
  let at_ := fun (f : Clear → Bool) => (fs.findIdx? f).getD 0
  if recordFormBad fs || recordsBad base (p.stg.scenes.map (·.num)) [] recs then some (0x0603, at_ (fun f => f.1 == 1))
  else if fs.any (p.targetBad recs) then some (0x0606, at_ (p.targetBad recs))
  else if fs.any (refBad placed) then some (0x0605, at_ (refBad placed))
  else match p.candidate num pool mib k0 recs with
  | none =>
    let alone : Part := { p with stg := { p.stg with replicas := [], scenes := [] } }
    match (alone.candidate num pool mib k0 (placed.map (fun r => { r with op := 0 }))) with
    | some _ => some (0x0604, 0)
    | none => some ((leastCode (placed.flatMap (fun r =>
        let rep := { r.replica 0 with die := 0, origin := 0 }
        let kept : Part := { alone with cfg := { alone.cfg with kept := [⟨num, pool, mib, [r.scene], k0⟩] } }
        (({ kept with stg := { kept.stg with replicas := [rep] } } : Part).writeConfig rep (kept.sceneFrames r.scene)).sheetFaults true rep.holds 0))).getD 0x0604, 0)
  | some q0 =>
    let q := forEach (absoluteFrames fs) (fun f x => x.setBytes f.2.1 f.2.2) q0
    let names := placed.map (·.scene)
    let reps := q.newReplicas names
    if reps.any (fun r => r.clusters.any (q.routeLost r)) then some (0x0605, 0)
    else
      let faults := reps.flatMap (fun r => match q.sceneOf r.scene with | some sc => q.replicaFaults sc r | none => []) ++
        (List.range 4).flatMap (q.sheetFaults false (fun cl => reps.any (·.holds cl) || (framesIn fs).any (fun x => x.1 == cl))) ++
        (framesIn fs).flatMap (fun x => if (q.replicaAt x.1).isSome || 16 ≤ x.2 then [] else
          q.coreFaults noScene (16 * x.1 + x.2) ++ q.routeFaults (16 * x.1 + x.2)) ++
        named (!q.routedQueues.Nodup) 0x0401 ++
        named ((List.range 4).any (fun d => decide (32768 < ((q.goldenAfter names num fs).filter (fun g => g.die == d)).length))) 0x0607
      (leastCode faults).map (fun c => (c, 0))

end Sys2Proof.Machine
end

