-- ==== Sys2Proof/Machine/ScriptEvents.lean ====
section
/-! DEFINITION. Loading and committing scripts, and the prompter (15 R457 to R459 R471 to R478, 12 R374 to R376, 09 R258 R259 R583). -/

namespace Sys2Proof.Machine

open Sys2Proof

/-! ### Requests (15 R471) -/

/-- A request for the load of the script at an address. -/
def Part.acceptLoad (p : Part) (addr : Nat) (bell : Option Nat) : Part :=
  if p.phase ≠ .ready then p
  else if 8 ≤ p.waitingLoads ∧ (p.cfg.staged.isSome || !p.cfg.reqs.isEmpty) = true then { p with cfg := { p.cfg with busyRefused := true } }
  else { p with cfg := { p.cfg with
    busyRefused := false, reqs := p.cfg.reqs ++ [⟨addr, bell⟩], st := if p.cfg.st = 0 then 1 else p.cfg.st } }

/-- The address of a script in a request word. -/
def loadAddr (w : Nat) : Nat := fld w 12 36 * 4096

/-- The doorbell word rung first is read. -/
def Part.takeBell (p : Part) : Part := match p.cfg.rung with
  | [] => p
  | w :: ws =>
    let p1 : Part := { p with cfg := { p.cfg with rung := ws } }
    let v := p.natAt w 8
    if bitOf v 63 then p1.acceptLoad (loadAddr v) (some w) else p1

/-- The end of a load: the answer in the doorbell word, then the next request. -/
def Part.endLoad (p : Part) (req : Option LoadReq) (cause named : Nat) : Part :=
  let p1 := match req.bind (·.bell) with
    | some w => p.rmw w (leBytes 8 (2 ^ 62 + named * 2 ^ 8 + cause))
    | none => p
  { p1 with cfg := { p1.cfg with staged := none, st := if p1.cfg.reqs.isEmpty then 0 else 1 } }.setPoolFree

/-- 15 R471: a scene script that fails a check. -/
def Part.refuseScript (p : Part) (req : Option LoadReq) (cause named frame : Nat) : Part :=
  ((((p.setRegN (Reg.CFG_CAUSE.at []) (cause + named * 2 ^ 8)).setRegN (Reg.CFG_CAUSE_FRAME.at []) frame).bump (Reg.CFG_REFUSED.at []) 1)).endLoad
    req cause named

/-! ### Checking (15 R457 R458) -/

/-- Every row of a script can be read from LPDDR5X or a staging store. -/
def Part.scriptThere (p : Part) (a n : Nat) : Bool :=
  (List.range (ceilDiv n 512)).all (fun i =>
    (match p.homeAt (a + 512 * i) with | .lpddr => true | .staging _ => true | _ => false) && (p.readFault (a + 512 * i)).isNone)

def Part.identity (p : Part) : List Byte := sha256 p.sec.idPk

/-- What checking a whole script finds: cause, named code and frame, or the script staged. -/
inductive Verdict where
  | bad (cause named frame : Nat)
  | good (s : Staged)
  deriving DecidableEq, Repr

def mibOf (n : Nat) : Nat := ceilDiv n (2 ^ 20)

/-- The content of a script whose frames open: a named code, or the script staged (15 R457 R466). -/
def Part.contentVerdict (p : Part) (base : Bool) (req : Option LoadReq) (h : ScriptHead) (k0 b : List Byte) (place : Nat) (fs : List Clear)
    (last : List Byte) : Verdict :=
  match (p.storeScript place (b.take h.length)).contentFault base p.cfg.nextNum place (mibOf h.length) k0 fs with
  | some (code, i) => .bad causeReject code i
  | none => .good
    { num := p.cfg.nextNum, req := req, base := place, mib := mibOf h.length, version := BitVec.ofNat 32 h.version, last := last,
      frames := fs, records := recordBodies fs, stage := .checked, at_ := p.tim.interval, old := [] }

/-- The frames and the trailer of a script, then its content. -/
def Part.bodyVerdict (p : Part) (base : Bool) (req : Option LoadReq) (h : ScriptHead) (k0 b : List Byte) (place : Nat) : Verdict :=
  match checkBody h k0 p.sec.ownerHash b with
  | .bad c i => .bad c 0 i
  | .good fs last => p.contentVerdict base req h k0 b place fs last

/-- Every check of 15 R457 on the bytes of a script. -/
def Part.checkScript (p : Part) (base : Bool) (req : Option LoadReq) (b : List Byte) : Verdict :=
  let h := scriptHead b
  let c := h.fault base p.chain.pos p.identity
  if c ≠ 0 then .bad c 0 0
  else if b.length < h.length then .bad causeShort 0 0
  else match p.sec.kown, p.poolFit (mibOf h.length) with
  | none, _ => .bad 0x0D 0 0
  | some _, none => .bad causeReject 0x0608 0
  | some kown, some place => p.bodyVerdict base req h (frameKey0 kown h.ctx) b place

/-- A script that has passed is in the pool and under change. -/
def Part.stage (p : Part) (s : Staged) (b : List Byte) : Part :=
  let p1 := p.storeScript s.base b
  { p1 with cfg := { p1.cfg with staged := some s, nextNum := s.num + 1, st := 2 } }.setPoolFree

/-- The script of the oldest request is staged and checked. -/
def Part.checkNext (p : Part) : Part := match p.cfg.staged, p.cfg.reqs with
  | none, r :: rest =>
    let p1 : Part := { p with cfg := { p.cfg with reqs := rest } }
    if !p.scriptThere r.addr 256 then p1.refuseScript (some r) causeShort 0 0
    else
      let h := scriptHead (p.bytesAt r.addr 256)
      let c := h.fault false p.chain.pos p.identity
      if c ≠ 0 then p1.refuseScript (some r) c 0 0
      else if !p.scriptThere r.addr h.length then p1.refuseScript (some r) causeShort 0 0
      else
        let b := p.bytesAt r.addr h.length
        match p1.checkScript false (some r) b with
        | .bad c n i => p1.refuseScript (some r) c n i
        | .good s => p1.stage s b
  | _, _ => p

/-! ### Committing (15 R472 to R476) -/

def Staged.recs (s : Staged) : List SceneRec := s.records.map sceneRec
def Staged.gone (s : Staged) : List Nat := s.recs.filterMap SceneRec.retires
def Staged.names (s : Staged) : List Nat := (s.recs.filter SceneRec.places).map (·.scene)
def Staged.reloads (s : Staged) : List Nat := (s.recs.filter (fun r => r.op == 2)).map (·.scene)

def Part.onStaged (p : Part) (f : Staged → Staged) : Part := { p with cfg := { p.cfg with staged := p.cfg.staged.map f } }

/-- Step 3: the old scenes refuse new tasks. -/
def Part.setRetiring (p : Part) (l : List Nat) (b : Bool) : Part :=
  { p with stg := { p.stg with scenes := p.stg.scenes.map (fun s => if l.elem s.num then { s with retiring := b } else s) } }

/-- The tasks of a scene in flight (10 R300). -/
def Part.sceneTasks (p : Part) (s : Nat) : List Task := p.stg.tasks.filter (fun t => t.scene == s && t.kind != 2)

/-- The tasks of a scene complete FAILED with cause SCENE, but one whose save is under way (10 R324, 15 R475). -/
def Part.failTasks (p : Part) (s : Nat) : Part :=
  forEach (p.sceneTasks s) (fun t x =>
    match x.stg.replicas.find? (fun r => r.task == some t.key) with
    | some r => if r.st = .saving then x else x.abort t.key (some 0x16)
    | none => x.abort t.key (some 0x16)) p

/-- Recoveries of scenes that a commit retires or reloads are dropped (15 R475). DESIGN CHOICE: with the recovery goes the retirement of the cluster
that held the error (18 R536): it stays on the roster, and the commit stands (log 50). -/
def Part.dropRecoveries (p : Part) (l : List Nat) : Part :=
  let hit := fun (a : Nat) => match p.replicaOf a with | some r => l.elem r.scene | none => false
  { p with err := { p.err with
      scenes := p.err.scenes.filter (fun x => !hit x.1)
      recs := p.err.recs.filter (fun r => match r.anchor with | some a => !(r.cls == 2 && hit a) | none => true) } }

/-- The callboard of a reloaded replica goes with it; where the replica is gone its tasks return to READY. -/
def Part.moveBoards (p : Part) (old : List Replica) : Part :=
  forEach old (fun r x => match x.stg.replicas.find? (fun y => y.scene == r.scene && y.j == r.j) with
    | some y =>
      if y.anchor = r.anchor then x
      else
        let ks := x.boardOf r.anchor
        ((forEach ks (fun k z => z.onTask k (fun t => { t with anchor := some y.anchor })) x).onCluster r.anchor
          (fun c => { c with board := [] })).onCluster y.anchor (fun c => { c with board := ks })
    | none => x.clearBoard r.anchor) p

/-- The clusters held in reset lose what their cores hold but the queues' messages, which the reset at release counts, and the messages that have
not left their ports (15 R472). -/
def Part.holdInReset (p : Part) : Part :=
  let cs := ((p.darkOnes.filter (fun r => !r.fenced)).flatMap (·.region)).eraseDups
  let p1 := forEach (cs.flatMap (fun cl => (List.range 16).map (fun k => 16 * cl + k))) (fun c x =>
    x.onCore c (fun k => { Core.reset with queues := k.queues })) p
  { p1 with flight := p1.flight.filter (fun f => match f with
    | .msg _ _ m none => !cs.elem (clusterOf m.core)
    | _ => true) }

/-- Step 5: running tasks of reloaded scenes are aborted, the retired scenes leave, every region to be written is dark and its bands on. A
record that can no longer be placed refuses the script. -/
def Part.darken (p : Part) (s : Staged) : Part :=
  let old := p.newReplicas s.reloads
  let p1 := forEach old (fun r x => x.onReplica r.anchor (fun y => { y with dark := true })) (p.dropRecoveries (s.gone ++ s.names))
  let p2 := forEach old (fun r x => match r.task with | some k => (x.sendBack r k).place | none => x) p1
  let h := scriptHead (p.bytesAt s.base 256)
  match p2.candidate s.num s.base s.mib (frameKey0 (p.sec.kown.getD []) h.ctx) s.recs with
  | none =>
    let p3 := forEach old (fun r x => x.onReplica r.anchor (fun y => { y with dark := r.dark })) (p2.setRetiring s.gone false)
    p3.refuseScript s.req causeReject 0x0604 0
  | some q =>
    let p3 : Part := { p2 with stg := { p2.stg with replicas := q.stg.replicas, scenes := q.stg.scenes }, cfg := { p2.cfg with kept := q.cfg.kept } }
    let left := p2.newReplicas (s.gone ++ s.names)
    let p4 := forEach ((left ++ p3.newReplicas s.names).flatMap (·.region)) (fun cl x => x.touchBand cl) (p3.moveBoards old)
    let p5 := (p4.setRetiring (s.names.filter (fun n => !s.reloads.elem n)) true).onStaged (fun x =>
      { x with stage := .darkened, at_ := p.tim.interval, old := left.map (fun r => { r with dark := true }) })
    p5.holdInReset

/-- The replicas' frames written and translated, and the absolute frames (15 R462). -/
def Part.writeAll (p : Part) (reps : List Replica) (abs : List (Nat × Nat × List Byte)) : Part :=
  let p1 := forEach reps (fun r x => x.writeConfig r (x.sceneFrames r.scene)) p
  let p2 := forEach reps (fun r x => x.translateAll r) p1
  forEach abs (fun f x => x.setBytes f.2.1 f.2.2) p2

/-- The rows of a DATA frame (15 R465), doorbells among them (14 R425); a row on a failed channel is a damaged row (13 R584). -/
def Part.writeData (p : Part) (a : Nat) (body : List Byte) : Part :=
  forEach ((chunks 512 body).zipIdx) (fun x q =>
    let r := a + 512 * x.2
    if decide (q.homeAt r = .lpddr) && q.chFailed r then (q.noteDamaged r).raise (q.rowReport 0x0031 none r) none
    else (q.writeRow r x.1 0).bell r 512 none) p

/-- Golden entries in use are shown (15 R480). -/
def Part.showGolden (p : Part) : Part :=
  forEach (List.range 4) (fun d x => x.setRegN (Reg.PRM_STAT.at [d]) ((x.cfg.golden.filter (fun g => g.die == d)).length)) p

/-- Scripts that no scene and no golden entry needs any more leave the pool (15 R459, log 36). -/
def Part.prunePool (p : Part) : Part :=
  { p with cfg := { p.cfg with
      kept := p.cfg.kept.filter (fun k => !k.scenes.isEmpty || p.cfg.golden.any (fun g => g.script == k.num)) } }.setPoolFree

/-- Step 7 for one replica: its cores come out of reset, its queues are reset, its region is released. -/
def Part.releaseReplicaRegion (p : Part) (r : Replica) : Part :=
  let p1 := forEach r.cores (fun c x => (x.onCore c (fun k => { Core.reset with queues := k.queues })).resetQueues c) p
  let p2 := forEach r.clusters (fun cl x => x.onCluster cl (fun k => { k with curts := [] })) p1
  p2.onReplica r.anchor (fun x => { x with dark := false, curts := [] })

/-- Routes of a loaded replica start with 8 credits and the epoch of their queue (09 R278 R286). -/
def Part.freshRoutes (p : Part) (r : Replica) : Part :=
  forEach r.cores (fun c x => forEach (List.range 16) (fun i y => match y.routeTarget c i with
    | some (k, q) => y.onCore c (fun z => z.onRoute i (fun _ => { Route.reset with credits := 8, epoch := ((y.core k).queue q).epoch }))
    | none => y) x) p

/-- Step 7. -/
def Part.releaseAll (p : Part) (reps : List Replica) : Part :=
  (forEach reps (fun r x => x.freshRoutes r) (forEach reps (fun r x => x.releaseReplicaRegion r) p)).place

/-- A scene leaves the repertoire and the pool; its tasks complete FAILED with cause SCENE. -/
def Part.retireScene (p : Part) (s : Nat) : Part :=
  let p1 := p.failTasks s
  { p1 with
    stg := { p1.stg with scenes := p1.stg.scenes.filter (fun x => x.num ≠ s) }
    cfg := { p1.cfg with kept := p1.cfg.kept.map (dropScene s) } }

/-- The scene that frame `i` of a script configures. -/
def Part.frameScene (p : Part) (fs : List Clear) (i : Nat) : Option Nat := match fs[i]? with
  | some (2, 0, a, body) => (match viewPlace a body.length with
    | some (some cl) => (p.replicaAt cl).map (·.scene)
    | _ => none)
  | some (2, s, _, _) => some s
  | _ => none

/-- 15 R474: a frame that mismatched twice: its scene is retired, its region stays dark, a SCENE error is logged. -/
def Part.commitMismatch (p : Part) (s : Staged) (i : Nat) : Part :=
  let p1 := (p.setRegN (Reg.CFG_CAUSE.at []) 0x11).setRegN (Reg.CFG_CAUSE_FRAME.at []) i
  match p.frameScene s.frames i with
  | some sc => match p.stg.replicas.find? (fun r => r.scene == sc) with
    | some r => (p1.retireScene sc).logEntry ⟨0x0062, 2, r.die, r.origin, 0xFF, 0, none, 0, 0⟩ 2 2 false false 0 noParent
    | none => p1.retireScene sc
  | none => p1.logEntry ⟨0x0062, 3, 0, 0, 0xFF, 0, none, 0, 0⟩ 2 2 false false 0 noParent

/-- Step 6: frames written and read back, DATA frames written, golden entries recorded. -/
def Part.writeFrames (p : Part) (s : Staged) : Part :=
  let reps := p.newReplicas s.names
  let p1 := p.writeAll reps (absoluteFrames s.frames)
  let p2 := forEach (s.frames.filter (fun f => f.1 == 3)) (fun f x => x.writeData f.2.2.1 f.2.2.2) p1
  let gold := p2.goldenAfter s.names s.num s.frames
  { p2 with cfg := { p2.cfg with golden := gold, mismatch := p2.cfg.mismatch.filter gold.elem } }

/-- Steps 6 and 7 of a scene script; `bad` lists the frames that mismatched twice. -/
def Part.writeStage (p : Part) (s : Staged) (bad : List Nat) : Part :=
  let fails := bad.filter (fun i => match s.frames[i]? with | some f => f.1 == 2 | none => false)
  let p1 := (p.writeFrames s).measure 4 6 s.version.toNat s.last
  let lost := fails.filterMap (p.frameScene s.frames)
  let reps := (p1.newReplicas s.names).filter (fun r => !lost.elem r.scene)
  let p2 := forEach fails (fun i x => x.commitMismatch s i) p1
  let gone := (p1.stg.replicas.filter (fun r => lost.elem r.scene)).flatMap (·.clusters)
  let p3 : Part := { p2 with cfg := { p2.cfg with golden := p2.cfg.golden.filter (fun g => match viewPlace g.addr g.len with
    | some (some cl) => !gone.elem cl
    | _ => true) } }
  let p4 := (p3.releaseAll reps).setRetiring s.names false
  if fails.isEmpty then ((p4.bump (Reg.CFG_LOADS.at []) 1).endLoad s.req 0 0).prunePool.showGolden
  else (p4.endLoad s.req 0x11 0).prunePool.showGolden

/-- The script under change goes one step further (15 R473): 3, 5, or 6 and 7. -/
def Part.commitStep (p : Part) (bad : List Nat) : Part := match p.cfg.staged with
  | none => p
  | some s =>
    if p.phase ≠ .ready then p
    else match s.stage with
    | .checked => ((p.dropRecoveries (s.gone ++ s.names)).setRetiring s.gone true).onStaged (fun x => { x with stage := .draining, at_ := p.tim.interval })
    | .draining => if s.gone.all (fun n => (p.sceneTasks n).isEmpty) then p.darken s else p
    | .darkened => p.writeStage s bad

/-- Step 4: the wait for the old scenes is over. -/
def Part.quietOver (p : Part) : Part := match p.cfg.staged with
  | none => p
  | some s =>
    if s.stage ≠ .draining then p
    else forEach s.recs (fun r x => match r.retires with
      | some n => if r.quiet * 1000 ≤ (p.tim.interval - s.at_).toNat then x.failTasks n else x
      | none => x) p

/-! ### The prompter and the house slot (15 R476 to R478, 12 R374 to R376) -/

/-- The golden entries of a die. -/
def Part.goldenOn (p : Part) (d : Nat) : List Golden := p.cfg.golden.filter (fun g => g.die == d)

/-- The entry's range lies in a dark region. -/
def Part.goldenDark (p : Part) (g : Golden) : Bool := match viewPlace g.addr g.len with
  | some (some cl) => p.darkCluster cl
  | _ => false

def Part.goldenMatches (p : Part) (g : Golden) : Bool :=
  decide (crc32c (padTo 4048 (p.bytesAt g.addr g.len)) = g.crc) &&
    !p.poison.any (fun w => overlaps (8 * w.1) 8 g.addr g.len)

/-- The prompter of die `d` compares its entry `i`; the last entry ends the sweep. -/
def Part.compareGolden (p : Part) (d i : Nat) : Part := match (p.goldenOn d)[i]? with
  | none => p
  | some g =>
    let p0 : Part := if i = 0 then { p with cfg := { p.cfg with sweep := Tab.put 0 p.cfg.sweep d p.tim.interval } } else p
    let p1 := if p.goldenDark g || p.goldenMatches g || p.cfg.mismatch.elem g then p0
      else { p0.setRegN (Reg.PRM_LAST.at [d]) g.addr with cfg := { p0.cfg with mismatch := p0.cfg.mismatch ++ [g] } }
    if i + 1 = (p.goldenOn d).length then
      (p1.bump (Reg.PRM_SWEEPS.at [d]) 1).setRegN (Reg.PRM_SWEEP_US.at [d])
        (((p1.tim.interval - Tab.get 0 p1.cfg.sweep d).toNat / 1000) % 2 ^ 32)
    else p1

/-- Where a word of on-package memory lies, for the log. -/
def Part.scrubReport (p : Part) (source a : Nat) : Report :=
  match p.homeAt a with
  | .config => (match viewPlace (8 * (a / 8)) 8 with
    | some (some cl) => ⟨source, 1, cl / 400, cl % 400, 0xFF, 0, none, a, 0⟩
    | _ => ⟨source, 3, 0, 0, 0xFF, 0, none, a, 0⟩)
  | _ => p.rowReport source none a

/-- The scrub of a house slot: a corrected word is logged, an uncorrectable one poisoned and logged (18 R533 R534). -/
def Part.scrub (p : Part) (s : Scrub) : Part := match s with
  | .clean => p
  | .single a => p.raise (p.scrubReport 0x0001 a) none
  | .double a => { p with poison := Tab.put false p.poison (a / 8) true }.raise (p.scrubReport 0x0002 a) none

/-- A band that is off is not scrubbed (19 R564); a scrub of die `d` reads its own SRAM. -/
def Part.scrubHere (p : Part) (d : Nat) (s : Scrub) : Bool :=
  let here := fun (a : Nat) => match p.homeAt a with
    | .store cl _ => cl / 400 == d && p.domainC d (bandOf cl)
    | .view c _ => dieOf c == d && p.domainC d (bandOf (clusterOf c))
    | .config => decide ((a - configBase) / 0x100000000 = d)
    | .staging _ => true
    | _ => false
  match s with | .clean => true | .single a => here a | .double a => here a

/-- House slots that a scrub sweep takes: a store slice has 256 rows and a slot reads one (01 R36, 12 R375); the 128 rows of a core's SRAM need no
more. -/
def sweepSlots : Nat := 256

/-- The scrub sweep of a die in a house slot (12 R375): one that is due begins, and one under way goes on. -/
def Rail.sweep (now : W64) (period : Nat) (r : Rail) : Rail :=
  if r.sweepLeft ≠ 0 then { r with sweepLeft := r.sweepLeft - 1 }
  else if period ≤ (now - r.sweepAt).toNat then { r with sweepAt := now, sweepLeft := sweepSlots - 1 }
  else r

/-- A scrub takes place in this house slot. -/
def Part.scrubbing (p : Part) (d : Nat) : Bool :=
  (p.rail d).sweepLeft != 0 ||
    decide (p.regFld (Reg.PCE_HOUSE.at []) 0 8 * 10000000 ≤ (p.tim.interval - (p.rail d).sweepAt).toNat)

/-- A house slot of die `d`: a beat whose count mod 32 is 31. -/
def Part.houseBeat (p : Part) (d : Nat) (s : Scrub) (golden : Nat) : Part :=
  let p1 := ((p.landings d).unscheduled d).onRail d (Rail.sweep p.tim.interval (p.regFld (Reg.PCE_HOUSE.at []) 0 8 * 10000000))
  (if p.scrubbing d && p1.scrubHere d s then p1.scrub s else p1).compareGolden d golden

/-- 15 R478: the range rewritten from the retained pool, the replica's task aborted with a CONTAINED error. -/
def Part.repairRange (p : Part) (d : Nat) (g : Golden) : Part :=
  let p0 : Part := { p with cfg := { p.cfg with mismatch := p.cfg.mismatch.filter (fun x => decide (x ≠ g)) } }
  let cl := match viewPlace g.addr g.len with | some (some n) => some n | _ => none
  let rep := cl.bind p.replicaAt
  let report := fun (source : Nat) =>
    (⟨source, if cl.isSome then 1 else 3, d, (cl.getD 0) % 400, 0xFF, 0, rep.bind (·.task), g.addr, 0⟩ : Report)
  match p.cfg.kept.find? (fun k => k.num == g.script) with
  | none => p0
  | some k =>
    let h := scriptHead (p.bytesAt k.base 256)
    let at_ := k.base + frameBase h.frames + 4096 * g.frame
    if (List.range 8).any (fun i => decide (p.homeAt (at_ + 512 * i) = .lpddr) && p.chFailed (at_ + 512 * i)) then p0.raise (report 0x0091) none
    else
      let image := match rep with
        | some r => p0.writeAll [r] []
        | none => match (p.keptFrames k)[g.frame]? with
          | some (_, some f) => p0.setBytes g.addr f.2.2.2
          | _ => p0
      let opened := match (p.keptFrames k)[g.frame]? with | some (_, some _) => true | _ => false
      let bytes := image.bytesAt g.addr g.len
      let p1 := p0.setBytes g.addr bytes
      let p2 : Part := { p1 with poison := p1.poison.filter (fun w => !overlaps (8 * w.1) 8 g.addr g.len) }
      if opened && p2.goldenMatches g then ((p2.bump (Reg.PRM_REPAIRS.at [d]) 1).raise (report 0x0060) none).place
      else (p0.bumpSat (Reg.PRM_ESCALATED.at [d]) 1).raise (report 0x0061) none

/-- The oldest mismatch of a die is repaired. -/
def Part.prompterRepair (p : Part) (d : Nat) : Part := match p.cfg.mismatch.find? (fun g => g.die == d) with
  | some g => p.repairRange d g
  | none => p

def execCfgLoadDoorbell (s : State) : Host.Outcome State Fault Refusal := s.live (·.takeBell)
def execScriptCheck (s : State) : Host.Outcome State Fault Refusal := s.live (·.checkNext)
def execScriptCommit (bad : List Nat) (s : State) : Host.Outcome State Fault Refusal := s.event (·.commitStep bad)
def execSceneQuietTimeout (s : State) : Host.Outcome State Fault Refusal := s.event (·.quietOver)
def execHouseSlot (d : Nat) (scrub : Scrub) (golden : Nat) (s : State) : Host.Outcome State Fault Refusal :=
  s.beat d true (fun p => p.houseBeat d scrub golden)
def execPrompterRepair (d : Nat) (s : State) : Host.Outcome State Fault Refusal := s.live (·.prompterRepair d)

end Sys2Proof.Machine
end

