-- ==== Sys2Proof/Machine/Security.lean ====
section
/-! DEFINITION. The security engine: keys, extends, provisioning, quotes (17 R512 to R525). -/

namespace Sys2Proof.Machine

open Sys2Proof

/-! ### Keys (17 R512 to R514) -/

/-- What the helper data stores beside a root secret (17 R512). -/
def pufCheck (r : List Byte) : List Byte := sha256 (ascii "NX-PUF-CHK" ++ r)

/-- The root secret of the first evaluation that passes its check, and how many were made, of at most 4 (17 R513). -/
def pufFind (syndrome check : List Byte) : Nat → List (List Byte) → Option (List Byte) × Nat
  | n, [] => (none, n)
  | n, x :: xs =>
    let r := Config.pufCorrect x syndrome
    if pufCheck r = check then (some r, n + 1) else pufFind syndrome check (n + 1) xs

def wrapKey (rpuf bind : List Byte) : List Byte := kdf rpuf (ascii "NX-OWNER-WRAP") bind
/-- SK.seed, SK.prf and PK.seed, one behind the other. -/
def identitySeeds (rpuf : List Byte) : List Byte :=
  (kdf rpuf (ascii "NX-ID-SK") []).take 16 ++ (kdf rpuf (ascii "NX-ID-PRF") []).take 16 ++ (kdf rpuf (ascii "NX-ID-PK") []).take 16

/-! ### Write-only registers -/

/-- A 32-bit write-only register of the security block. -/
def Part.hidden (p : Part) (off : Nat) : W32 := Tab.get 0 p.sec.hidden off
def Part.setHidden (p : Part) (off : Nat) (v : W32) : Part := { p with sec := { p.sec with hidden := Tab.put 0 p.sec.hidden off v } }
def Part.hiddenBytes (p : Part) (r : RegRow) : List Byte := (List.range 8).flatMap (fun i => leBytes 4 (p.hidden (r.at [i])).toNat)

/-! ### Extends (17 R522) -/

def Part.extendWrite (p : Part) (v : W32) : Part :=
  let m := fld v.toNat 0 4
  if bitOf v.toNat 31 && decide (8 ≤ m) then p.measure m 7 0 (p.hiddenBytes Reg.SEC_EXTEND_DIGEST) else p

/-! ### Provisioning (17 R518 R519) -/

def Part.provisionWrite (p : Part) (v : W32) : Part :=
  if !bitOf v.toNat 0 then p
  else if p.phase ≠ .provision ∨ p.sec.building = true then p.orReg (Reg.SEC_PROV_STAT.at []) 4
  else { p.setRegN (Reg.SEC_PROV_STAT.at []) 1 with sec := { p.sec with building := true } }

/-- The owner record's first 72 bytes (17 R518). -/
def ownerHead (bind owner : List Byte) : List Byte := leBytes 4 0x574F584E ++ leBytes 2 1 ++ leBytes 2 0 ++ padTo 32 bind ++ padTo 32 owner

/-- The record built with an IV: shown, the key registers erased. -/
def Part.buildOwner (p : Part) (iv : List Byte) : Part :=
  if !p.sec.building || decide (p.phase ≠ .provision) then p
  else
    let head := ownerHead (p.identity) (p.hiddenBytes Reg.SEC_PROV_OWNER)
    let iv := padTo 12 iv
    let (ct, tag) := gcmSeal (p.sec.kwrap.getD []) iv head (p.hiddenBytes Reg.SEC_PROV_KEY)
    let rec_ := padTo 256 (head ++ iv ++ ct ++ tag)
    let p1 := forEach (List.range 64) (fun i x => x.setRegN (Reg.SEC_PROV_REC.at [i]) (leAt rec_ (4 * i) 4)) p
    let p2 := forEach (List.range 8) (fun i x => x.setHidden (Reg.SEC_PROV_KEY.at [i]) 0) p1
    { p2.setRegN (Reg.SEC_PROV_STAT.at []) 2 with sec := { p2.sec with building := false } }

/-! ### Quotes (17 R523 to R525) -/

def quoteRows : Nat := 35

def Part.quoteAddrBad (p : Part) (a : Nat) : Bool :=
  a % 512 != 0 || (List.range quoteRows).any (fun i => match p.homeAt (a + 512 * i) with | .lpddr => false | .staging _ => false | _ => true)

def Part.showQueued (p : Part) : Part := p.setFld (Reg.SEC_QSTAT.at []) 0 3 p.sec.quotes.length

def Part.quoteWrite (p : Part) (v : W32) : Part :=
  let a := p.regN (Reg.SEC_QADDR.at [])
  if !bitOf v.toNat 0 then p
  else if p.phase ≠ .ready ∧ p.phase ≠ .provision then p
  else if 4 ≤ p.sec.quotes.length then p.orReg (Reg.SEC_QSTAT.at []) 16
  else if p.phase = .ready ∧ p.quoteAddrBad a = true then p.orReg (Reg.SEC_QSTAT.at []) 32
  else
    let nonce := (List.range 8).flatMap (fun i => leBytes 4 (p.regN (Reg.SEC_QNONCE.at [i])))
    { p with sec := { p.sec with quotes := p.sec.quotes ++ [(⟨nonce, a, none⟩ : QuoteReq)] } }.showQueued

/-- Bytes 0 to 639 of a quote, captured when its signing starts. -/
def Part.quoteBody (p : Part) (nonce : List Byte) : List Byte :=
  let n := p.regN (Reg.SEC_LOG_COUNT.at [])
  leBytes 4 0x5451584E ++ leBytes 2 1 ++ leBytes 2 8 ++ [p.sec.stepping] ++
  leBytes 1 ((bitOf n 11).toNat + (decide (p.phase = .provision)).toNat * 2) ++ leBytes 2 0 ++ leBytes 4 (fld n 0 11) ++
  leBytes 8 p.tim.now.toNat ++ leBytes 8 0 ++ padTo 32 nonce ++ padTo 32 p.identity ++
  (List.range 16).flatMap p.slot ++ List.replicate 32 0

/-- The signing of the oldest quote starts. -/
def Part.signQuote (p : Part) : Part := match p.sec.quotes with
  | [] => p
  | q :: qs =>
    if q.body.isSome then p
    else
      let body := p.quoteBody q.nonce
      let full := body ++ padTo 17088 (slhSign (p.sec.idSeeds.getD []) body)
      { p with sec := { p.sec with quotes := { q with body := some full } :: qs } }

/-- The quote window replaced whole (17 R524). -/
def Part.setWindow (p : Part) (b : List Byte) : Part :=
  forEach (List.range 4432) (fun i x => x.setRegN (Reg.SEC_QWIN.at [i]) (leAt b (4 * i) 4)) p

/-- A signed quote goes to the window and, but in PROVISION, in whole rows to its buffer. -/
def Part.finishQuote (p : Part) : Part := match p.sec.quotes with
  | [] => p
  | q :: qs => match q.body with
    | none => p
    | some b =>
      let p1 := p.setWindow b
      let p2 := if p.phase = .provision then p1 else p1.writeData q.addr b
      (({ p2 with sec := { p2.sec with quotes := qs } }.showQueued).bump (Reg.SEC_QDONE.at []) 1).event (Reg.SEC_QSTAT.at []) 8

def execOwnerRecordBuilt (iv : List Byte) (s : State) : Host.Outcome State Fault Refusal := .next (s.act (·.buildOwner iv))
def execQuoteSign (s : State) : Host.Outcome State Fault Refusal := .next (s.act (·.signQuote))
def execQuoteComplete (s : State) : Host.Outcome State Fault Refusal := .next (s.act (·.finishQuote))

end Sys2Proof.Machine
end

