-- ==== Sys2Proof/Machine/Boot.lean ====
section
/-! DEFINITION. Power, reset, the boot sequence, the chain link (17 R505 to R521, 15 R449 R459 R467 to R470, 19 R556 R559 to R563 R572,
01 R28 R30). -/

namespace Sys2Proof.Machine

open Sys2Proof

/-! ### Reset (17 R509, 19 R561 R572 R580) -/

/-- The part in reset. What the always-on domain keeps stays: pins, filters, I3C, JTAG, the trip record and what the part has put out. -/
def Part.inReset (p : Part) : Part :=
  let trip := p.regN (Reg.PWR_TRIP.at [])
  let q : Part := { Part.reset with
    pwr := { p.pwr with faultN := true, cfgFailN := true, bandFree := [], hot := [] }
    i3c := p.i3c, jtag := p.jtag, out := p.out
    phase := if p.pwr.auxGood then (if p.pwr.pwrGood then .held else .aux) else .off }
  q.setRegN (Reg.PWR_TRIP.at []) trip

/-- Loss of AUX_GOOD is a loss of power: every register is cleared. -/
def Part.powerOff (p : Part) : Part :=
  { Part.reset with
    pwr := { Power.reset with pwrGood := false, auxGood := false }
    out := p.out
    phase := .off }

def Part.stepReg (p : Part) (j : Nat) : Part :=
  (p.setRegN (Reg.SEC_STEP_US.at [j - 3]) ((p.tim.now.toNat / 1000) % 2 ^ 32)).setFld (Reg.SEC_BOOT_STAT.at []) 0 4 j

/-- Step 3 and 4: mask ROM runs, slot 0 is measured, the chain link runs. A part that has tripped stays off until AUX_GOOD is lost. -/
def Part.startRom (p : Part) : Part :=
  if p.phase ≠ .held ∨ p.pwr.tripped = true ∨ p.pwr.resetN = false then p
  else
    let p1 := (p.setRegN (Reg.PWR_DOM_E.at [0]) 0x3C00).setRegN (Reg.PWR_DOM_E.at [1]) 0x2000
    let p2 := (forEach (List.range 4) (fun d x => x.setRegN (Reg.PWR_DOM_C.at [d]) (2 ^ 49)) p1)
    let p3 := forEach (List.range 2) (fun m x => x.setRegN (Reg.PWR_DOM_M.at [m]) (2 ^ 11)) p2
    (({ p3 with phase := .rom }.stepReg 3).measure 0 1 0 Config.romHash).stepReg 4

def Part.auxAssert (p : Part) (random : W32) : Part :=
  if p.pwr.auxGood then p
  else { p with pwr := { p.pwr with auxGood := true }, i3c := { I3c.reset with pid := random }, phase := .aux }

def Part.pwrAssert (p : Part) : Part :=
  if !p.pwr.auxGood || p.pwr.pwrGood then p
  else { p with pwr := { p.pwr with pwrGood := true }, phase := .held }.startRom

def Part.pwrLoss (p : Part) : Part :=
  if p.pwr.pwrGood then { p with pwr := { p.pwr with pwrGood := false } }.inReset else p

def Part.resetAssert (p : Part) : Part := { p with pwr := { p.pwr with resetN := false } }.inReset

def Part.resetRelease (p : Part) : Part :=
  if p.pwr.resetN then p else { p with pwr := { p.pwr with resetN := true } }.startRom

/-! ### Failure (17 R511) -/

/-- A boot cause and the blackout cause beside it. -/
def Part.bootFail (p : Part) (cause cfg : Nat) : Part := (p.setFld (Reg.SEC_BOOT_STAT.at []) 8 8 cause).blackout cfg 0

/-- The chain link fails or an upstream part has failed: before the boot area is read it stands for an absent one. -/
def Part.chainFail (p : Part) (cfg : Nat) : Part := if p.phase = .rom then p.bootFail 1 cfg else p.blackout cfg 0

/-- The chain runs from mask ROM to READY and after, and in PROVISION. -/
def Part.chainRuns (p : Part) : Bool := match p.phase with
  | .off | .aux | .held | .blackout => false
  | _ => true

/-- The part still waits for its script. -/
def Part.awaitsScript (p : Part) : Bool := p.chainRuns && !(p.chain.fixed && p.chain.pos == 0) && !p.chain.gotScript

/-! ### The boot area (17 R505 R506) -/

def secOff (h : List Byte) (q : Nat) : Nat := leAt h (32 + 8 * q) 4
def secLen (h : List Byte) (q : Nat) : Nat := leAt h (36 + 8 * q) 4
def hasSection (h : List Byte) (q : Nat) : Bool := secOff h q != 0
def fwOff (h : List Byte) : Nat := leAt h 12 4
def fwLen (h : List Byte) : Nat := leAt h 16 4

def areaBad (h : List Byte) : Bool :=
  leAt h 0 4 != 0 || leAt h 4 4 != 0x5442584E || leAt h 8 2 != 1 || leAt h 10 1 == 0 || decide (8 < leAt h 10 1) ||
  decide ((crc32c (h.take 4092)).toNat ≠ leAt h 4092 4)

/-- Positions from `q` on that have a section. -/
def sectionsFrom (h : List Byte) (q : Nat) : List Nat := (List.range 8).filter (fun i => decide (q ≤ i) && hasSection h i)

def helperBad (h : List Byte) : Bool := leAt h 0 4 != 0x4650584E || decide ((crc32c (h.take 4092)).toNat ≠ leAt h 4092 4)

/-! ### The chain link (15 R467 to R469, 17 R507) -/

/-- A block: its type, known, position and payload; none when its CRC fails or it has no block's length. -/
def chainBlock (b : List Byte) : Option (Nat × Bool × Nat × List Byte) :=
  let n := b.length
  let w := leAt b 0 4
  let type := w % 256
  if n < 8 || decide ((crc32c (b.take (n - 4))).toNat ≠ leAt b (n - 4) 4) || n != (if type = 1 then 4104 else 8) then none
  else some (type, bitOf w 11, fld w 8 3, (b.drop 4).take (n - 8))

/-- A block is sent downstream. -/
def Part.chainForward (p : Part) (type : Nat) (payload : List Byte) : Part :=
  let q := p.chainSend type payload
  { q with chain := { q.chain with sentOther := true } }

def Part.chainForwardAll (p : Part) (b : List Byte) : Part := forEach (chunks 4096 b) (fun x q => q.chainForward 1 (padTo 4096 x)) p

/-- A block that fails its CRC fails a part that takes its stream from the chain; any other is noise. -/
def Part.badBlock (p : Part) : Part := if p.chain.fixed && p.chain.pos != 0 && !p.chain.ended then p.chainFail 0x10 else p

/-- A valid block has come. -/
def Part.heard (p : Part) : Part := { p with chain := { p.chain with seen := true, lastBlock := p.tim.interval } }

/-- Boot material comes in order: header, firmware, sections of this and the later positions; all but the own section goes on when a part
follows. -/
def Part.takeBoot (p : Part) (x : List Byte) : Part :=
  let i := p.chain.boot.length / 4096
  let boot := p.chain.boot ++ x
  let h := boot.take 4096
  let fw := ceilDiv (fwLen h) 4096
  let secs := sectionsFrom h p.chain.pos
  let total := 1 + fw + 4 * secs.length
  let own := decide (1 + fw ≤ i) && decide (i < 5 + fw) && hasSection h p.chain.pos
  let more := (sectionsFrom h (p.chain.pos + 1)) != []
  let p1 : Part := { p with chain := { p.chain with boot := boot, gotBoot := i + 1 == total } }
  if more && !own then p1.chainForward 1 x else p1

/-- The stream: the first script of this position is kept, later ones of it are discarded, every other goes on. -/
def Part.takeStream (p : Part) (x : List Byte) : Part :=
  let h := scriptHead x
  let start := p.chain.left == 0
  let left := if start then max 1 (ceilDiv h.length 4096) else p.chain.left
  let mode := if start then (if h.pos = p.chain.pos then (if p.chain.gotScript then 2 else 0) else 1) else p.chain.mode
  let p1 : Part := { p with chain := { p.chain with left := left - 1, mode := mode } }
  match mode with
  | 0 => { p1 with chain := { p1.chain with stream := p1.chain.stream ++ x, gotScript := left == 1 } }
  | 1 => p1.chainForward 1 x
  | _ => p1

def Part.chainDataIn (p : Part) (b : List Byte) : Part :=
  if !p.chainRuns then p
  else match chainBlock b with
  | some (1, _, _, x) =>
    let q := p.heard
    if !q.chain.fixed || q.chain.pos == 0 || q.chain.ended then q
    else if !q.chain.gotBoot then q.takeBoot x else q.takeStream x
  | _ => p.badBlock

/-- The end of the stream goes on; a part without its whole script fails. -/
def Part.chainEndIn (p : Part) (b : List Byte) : Part :=
  if !p.chainRuns then p
  else match chainBlock b with
  | some (2, _, _, _) =>
    let q := p.heard
    if !q.chain.fixed || q.chain.pos == 0 || q.chain.ended then q
    else
      let q1 : Part := { q with chain := { q.chain with ended := true } }
      if q1.chain.gotScript then q1.chainForward 2 [] else q1.chainFail (if q1.chain.stream.isEmpty then 0x07 else causeShort)
  | _ => p.badBlock

def Part.chainAbortIn (p : Part) (b : List Byte) : Part :=
  if !p.chainRuns then p
  else match chainBlock b with
  | some (3, _, _, _) => if p.awaitsScript then p.heard.chainFail 0x0F else p.heard
  | _ => p.badBlock

/-- 15 R468: a known position fixes this part's. -/
def Part.chainIdleIn (p : Part) (b : List Byte) : Part :=
  if !p.chainRuns then p
  else match chainBlock b with
  | some (4, known, pos, _) =>
    let q : Part := { p with chain := { p.chain with seen := true } }
    if !known || q.chain.fixed then q
    else if pos = 7 then q.chainFail 0x10
    else { q with chain := { q.chain with fixed := true, pos := pos + 1, fixedAt := q.tim.interval, lastBlock := q.tim.interval } }
  | _ => p.badBlock

def Part.idleOut (p : Part) : Part :=
  if p.chainRuns then
    let q := p.chainSend 4 []
    { q with chain := { q.chain with lastIdle := q.tim.interval } }
  else p

/-- 20 ms after the start without a valid block. -/
def Part.positionTimeout (p : Part) : Part :=
  if p.phase = .rom ∧ p.chain.fixed = false ∧ p.chain.seen = false ∧ 20000000 ≤ p.tim.interval.toNat then
    { p with chain := { p.chain with fixed := true, pos := 0, fixedAt := p.tim.interval } }
  else p

/-- 200 ms without a known position; 2 s without the own section; 2 s without a DATA or END block while the script is awaited. -/
def Part.upstreamOver (p : Part) : Part :=
  let late := fun (t : W64) => decide (2000000000 ≤ (p.tim.interval - t).toNat)
  let noPos := decide (p.phase = .rom) && !p.chain.fixed && p.chain.seen && decide (200000000 ≤ p.tim.interval.toNat)
  let waits := p.chain.fixed && p.awaitsScript
  if noPos || (waits && ((!p.chain.gotBoot && late p.chain.fixedAt) || late p.chain.lastBlock)) then p.chainFail 0x0F else p

/-! ### Step 5: boot area and PUF -/

/-- The own section of a position-0 part lies in its flash; another part's comes behind the firmware. -/
def Part.bootSection (p : Part) (area : List Byte) : List Byte :=
  let h := area.take 4096
  if p.chain.pos = 0 then sliceB area (secOff h 0) 16384 else sliceB area (4096 + 4096 * ceilDiv (fwLen h) 4096) 16384

def Part.bootArea (p : Part) (flash : Option (List Byte)) (puf : List (List Byte)) : Part :=
  if p.phase ≠ .rom ∨ p.chain.fixed = false then p
  else if p.chain.pos ≠ 0 ∧ p.chain.gotBoot = false then p
  else match (if p.chain.pos = 0 then flash else some p.chain.boot) with
  | none => p.bootFail 1 1
  | some area =>
    let h := padTo 4096 (area.take 4096)
    let sec := p.bootSection area
    if areaBad h || !hasSection h p.chain.pos || secLen h p.chain.pos != 16384 || helperBad (sec.take 4096) then p.bootFail 1 0
    else
      let readings := (List.range 4).map (fun i => puf.getD i [])
      let (r, n) := pufFind (sliceB sec 8 3776) (sliceB sec 3784 32) 0 readings
      let p1 := p.setFld (Reg.SEC_BOOT_STAT.at []) 16 3 n
      match r with
      | none => p1.bootFail 2 0
      | some root =>
        let p2 : Part := { p1 with
          sec := { p1.sec with rpuf := some root, identity := sliceB sec 4096 8192, owner := sliceB sec 12288 256, memRec := sliceB sec 12544 256 }
          phase := .area }
        let later := sectionsFrom h 1
        let p3 := if p.chain.pos = 0 ∧ later ≠ [] then
            forEach later (fun q x => x.chainForwardAll (sliceB area (secOff h q) 16384))
              ((p2.chainForwardAll h).chainForwardAll (sliceB area (fwOff h) (fwLen h)))
          else p2
        p3.stepReg 5

/-! ### Step 6: firmware and identity -/

/-- The image fails 17 R515. -/
def firmwareBad (b : List Byte) : Bool :=
  let n := leAt b 12 4
  let signed := b.take (256 + n)
  let pk := sliceB b (256 + n) 32
  leAt b 0 4 != 0x5746584E || leAt b 4 2 != 1 || leAt b 6 2 != 8 || ((b.take 256).drop 16).any (· ≠ 0) || decide (b.length < n + 8448) ||
  decide (sha256 pk ≠ Config.vendorHash) || !slhVerify pk signed (sliceB b (288 + n) 7856)

/-- 17 R517. -/
def identityBad (rec_ seeds : List Byte) : Bool :=
  let vendor := sliceB rec_ 64 32
  decide (sha256 vendor ≠ Config.vendorHash) || !slhVerify vendor (rec_.take 128) (sliceB rec_ 128 7856) ||
  decide (sliceB rec_ 32 32 ≠ slhPublic seeds)

/-- Every domain on (19 R563). -/
def Part.allDomains (p : Part) : Part :=
  let p1 := forEach (List.range 4) (fun d x => x.setRegN (Reg.PWR_DOM_C.at [d]) (2 ^ 50 - 1)) p
  let p2 := forEach (List.range 2) (fun m x => x.setRegN (Reg.PWR_DOM_M.at [m]) (2 ^ 12 - 1)) p1
  forEach (List.range 2) (fun e x => x.setRegN (Reg.PWR_DOM_E.at [e]) (2 ^ 14 - 1)) p2

def noOwner (rec_ : List Byte) : Bool := rec_.all (· = 0xFF)

def Part.verifyFirmware (p : Part) (image : List Byte) : Part :=
  if p.phase ≠ .area then p
  else
    let b := if p.chain.pos = 0 then image else sliceB p.chain.boot 4096 (fwLen p.chain.boot)
    let seeds := identitySeeds (p.sec.rpuf.getD [])
    if firmwareBad b then p.bootFail 3 0
    else if identityBad p.sec.identity seeds then p.bootFail 4 0
    else
      let pk := sliceB p.sec.identity 32 32
      let bind := sha256 pk
      let p1 : Part := { p.allDomains with
        sec := { p.sec with idSeeds := some seeds, idPk := pk, kwrap := some (wrapKey (p.sec.rpuf.getD []) bind), stepping := p.sec.identity.getD 8 0 }
        phase := .firmware }
      let p2 := forEach (List.range 4) (fun i x => x.setRegN (Reg.SEC_SERIAL.at [i]) (leAt p.sec.identity (16 + 4 * i) 4)) p1
      let p3 := forEach (List.range 8) (fun i x => x.setRegN (Reg.SEC_IDHASH.at [i]) (leAt bind (4 * i) 4)) p2
      let owner := if noOwner p.sec.owner then List.replicate 72 0xFF else p.sec.owner.take 72
      (((p3.measure 1 2 (leAt b 8 4) (sha256 (b.take (256 + leAt b 12 4)))).measure 2 3 0 (sha256 p.sec.memRec)).measure 2 4 0
        (sha256 owner)).stepReg 6

/-! ### Step 7: rehearsal, roster, LPDDR5X -/

def memRecBad (r : List Byte) : Bool :=
  leAt r 0 4 != 0x524D584E || decide ((crc32c (r.take 252)).toNat ≠ leAt r 252 4) || decide (3 < leAt r 4 1) || decide (2 < leAt r 5 1) ||
  decide (1 < leAt r 6 1)

/-- The data capacity of 13 R381. -/
def capacityOf (density ranks1 : Nat) : Nat :=
  let die := (2 + density) * 2 ^ 30
  128 * ((ranks1 + 1) * die / 65536 * 127) * 512

/-- The clusters of each die that passed. -/
def passedCount (m : BitVec 400) : Nat := ((List.range 400).filter (fun n => m.toNat.testBit n)).length
def bayCount (m : BitVec 400) (b : Nat) : Nat := ((List.range 400).filter (fun n => bayOf n == b && m.toNat.testBit n)).length

/-- 01 R28 is not met. -/
def rosterBad (l : List (BitVec 400)) : Bool :=
  decide ((l.map passedCount).sum < 1563) || l.any (fun m => decide (passedCount m < 380) || (List.range 16).any (fun b => decide (bayCount m b < 20)))

def Part.setRoster (p : Part) (d : Nat) (m : BitVec 400) : Part :=
  let p1 := forEach (List.range 7) (fun i x => x.setRegN (Reg.STG_ROSTER.at [d, i]) (fld m.toNat (64 * i) 64)) p
  p1.setRegN (Reg.STG_ROSTER_COUNT.at [d]) (passedCount m + passedCount m * 2 ^ 16 + p1.baysFull d * 2 ^ 32)

/-- The voltage in mV that house firmware gives VCORE_M`m`. -/
def mVolt (m : Nat) : Nat := max 650 (min 800 (Config.mRail m))

/-- The first voltage commands (12 R369, 19 R556): the M-rails, every point of the rate table, and code 80 again. -/
def Part.bootVolts (p : Part) (d : Nat) : Part :=
  let p0 := if d < 2 then p.emit (.avs d 3 (mVolt d)) else p
  let p1 := forEach ((List.range 15).map (10 * ·) ++ [80]) (fun v x => x.emit (.avs d 0 (500 + (5 * v + 1) / 2))) p0
  p1.setRegN (Reg.PCE_RAIL_STAT.at [d]) (80 + 80 * 256)

/-- PROVISION (17 R519, 19 R563). -/
def Part.enterProvision (p : Part) : Part :=
  let p1 := forEach (List.range 4) (fun d x => x.setRegN (Reg.PWR_DOM_C.at [d]) (2 ^ 49)) p
  let p2 := forEach (List.range 2) (fun m x => x.setRegN (Reg.PWR_DOM_M.at [m]) (2 ^ 11)) p1
  let p3 := (p2.setRegN (Reg.PWR_DOM_E.at [0]) (2 ^ 13 + 2 ^ 12 + 2 ^ 11 + 1)).setRegN (Reg.PWR_DOM_E.at [1]) (2 ^ 13)
  let p4 : Part := { p3 with phase := .provision, sec := { p3.sec with rpuf := none } }
  (p4.setFld (Reg.SEC_BOOT_STAT.at []) 0 4 11).ibi 5 0

/-- The trained channels (13 R403). -/
def Part.setTrained (p : Part) (trained : List Bool) : Part :=
  forEach ((List.range 128).filter (fun c => trained.getD c false)) (fun c x => x.orReg (chReg Reg.MEM_CH_STAT c) 1) p

def Part.rehearse (p0 : Part) (passed : List (BitVec 400)) (trained : List Bool) (rates : List (List Nat)) (temps : List Nat) : Part :=
  if p0.phase ≠ .firmware then p0
  else
    let p := p0.setTrained trained
    let r := p.sec.memRec
    let l := (List.range 4).map (fun d => passed.getD d 0)
    if memRecBad r || !(List.range 128).all (fun c => trained.getD c false) then p.bootFail 5 0
    else if rosterBad l then p.bootFail 6 0
    else
      let p1 := forEach (l.zipIdx) (fun x q => q.setRoster x.2 x.1) p
      let cfg := leAt r 4 1 + leAt r 5 1 * 4 + leAt r 6 1 * 16
      let p2 := forEach (List.range 2) (fun m x => (x.setRegN (Reg.MEM_CFG.at [m]) cfg).setRegN (Reg.MEM_CAPACITY.at [m])
        (capacityOf (leAt r 5 1) (leAt r 6 1))) p1
      let p3 := forEach (List.range 4) (fun d x => forEach (List.range 15) (fun j y =>
        y.setRegN (Reg.PCE_TABLE.at [d, j]) ((rates.getD d []).getD j 0 % 2 ^ 16 + (temps.getD d 0 % 256) * 2 ^ 16)) (x.bootVolts d)) p2
      let volts := (List.range 2).map mVolt
      let p4 := (Part.stepReg { p3 with pce := { p3.pce with mvolts := volts }, phase := .rehearsed } 7)
      if noOwner p.sec.owner then p4.enterProvision else p4

/-! ### Step 8: the base script -/

/-- The owner key from the owner record (17 R518). -/
def Part.unwrapOwner (p : Part) : Option (List Byte) :=
  let r := p.sec.owner
  if leAt r 0 4 ≠ 0x574F584E ∨ leAt r 4 2 ≠ 1 ∨ sliceB r 8 32 ≠ p.identity then none
  else gcmOpen (p.sec.kwrap.getD []) (sliceB r 72 12) (r.take 72) (sliceB r 84 32) (sliceB r 116 16)

/-- The scripts of a flash stream as (chain position, bytes); the last flag says that the stream ended before a script did (15 R449). -/
def splitStream : Nat → List Byte → List (Nat × List Byte) × Bool
  | 0, _ => ([], false)
  | n + 1, b =>
    let w := leAt b 0 4
    if b.isEmpty || w == 0 || w == 0xFFFFFFFF then ([], false)
    else
      let len := (scriptHead b).length
      if b.length < len then ([(leAt b 8 1, b)], true)
      else
        let step := 4096 * max 1 (ceilDiv len 4096)
        let (rest, short) := splitStream n (b.drop step)
        ((leAt b 8 1, b.take step) :: rest, short)

/-- The retained pool at the top of LPDDR5X (15 R459). -/
def Part.setPool (p : Part) (mib : Nat) : Part :=
  ((p.setRegN (Reg.CFG_RETAIN_BASE.at []) ((p.cap - mib * 2 ^ 20) / 2 ^ 20 * 2 ^ 20)).setRegN (Reg.CFG_RETAIN_SIZE.at []) mib).setPoolFree

/-- A checked base script committed whole; a frame that mismatches twice is COMMIT (15 R473 R474, 17 R520). -/
def Part.commitBase (p : Part) (s : Staged) (b : List Byte) (bad : List Nat) : Part :=
  let h := scriptHead b
  let p1 := p.stage s b
  match p1.candidate s.num s.base s.mib (frameKey0 (p.sec.kown.getD []) h.ctx) s.recs with
  | none => p1.blackout causeReject 0x0604
  | some q =>
    let p2 : Part := { p1 with stg := { p1.stg with replicas := q.stg.replicas, scenes := q.stg.scenes }, cfg := { p1.cfg with kept := q.cfg.kept } }
    match bad.find? (fun i => match s.frames[i]? with | some f => f.1 == 2 | none => false) with
    | some i => (p2.setRegN (Reg.CFG_CAUSE_FRAME.at []) i).blackout 0x11 0
    | none =>
      let p3 := (p2.writeFrames s).measure 3 5 s.version.toNat s.last
      let p4 := p3.releaseAll (p3.newReplicas s.names)
      ((((p4.bump (Reg.CFG_LOADS.at []) 1).endLoad none 0 0).prunePool.showGolden).stepReg 8)

/-- A base script's bytes: keys, checks, commit. -/
def Part.loadBase (p : Part) (b : List Byte) (bad : List Nat) : Part := match p.unwrapOwner with
  | none => p.blackout 0x0D 0
  | some kown =>
    let h := scriptHead b
    let c := h.fault true p.chain.pos p.identity
    if c ≠ 0 then p.blackout c 0
    else
      let p1 := ({ p with sec := { p.sec with kown := some kown, ownerHash := sliceB p.sec.owner 40 32 } } : Part).setPool h.mib
      match p1.checkScript true none b with
      | .bad c n i => (p1.setRegN (Reg.CFG_CAUSE_FRAME.at []) i).blackout c n
      | .good s =>
        let p2 := p1.commitBase s b bad
        if p2.phase = .blackout then p2 else { p2 with phase := .based }

/-- Position 0 walks the flash stream: scripts before its own go on first, then its own is loaded, then the rest and END go on. -/
def Part.loadFlash (p : Part) (b : List Byte) (bad : List Nat) : Part :=
  let (l, short) := splitStream b.length b
  let before := l.takeWhile (fun x => x.1 != 0)
  let p1 := forEach before (fun x q => q.chainForwardAll x.2) p
  match l.find? (fun x => x.1 == 0) with
  | none => p1.blackout (if short then causeShort else 0x07) 0
  | some own =>
    let p2 := p1.loadBase own.2 bad
    if p2.phase = .blackout then p2
    else
      let rest := (l.drop (before.length + 1)).filter (fun x => x.1 != 0)
      let p3 := (forEach rest (fun x q => q.chainForwardAll x.2) p2).chainForward 2 []
      { p3 with chain := { p3.chain with ended := true } }

def Part.baseScript (p : Part) (stream : Option (List Byte)) (bad : List Nat) : Part :=
  if p.phase ≠ .rehearsed then p
  else if p.chain.pos ≠ 0 then (if p.chain.gotScript then p.loadBase p.chain.stream bad else p)
  else match stream with
  | none => p.blackout 1 0
  | some b => p.loadFlash b bad

/-! ### Steps 9 and 10 -/

/-- A host port that has trained: speed, width, flit mode. -/
def Part.setHostPort (p : Part) (i : Nat) (x : Option (Nat × Nat × Bool)) : Part := match x with
  | some (speed, width, flit) => p.setRegN (Reg.HST_PORT_STAT.at [i]) (speed % 8 + (width % 32) * 8 + 256 + flit.toNat * 512)
  | none => p

/-- READY (17 R508 R513, 19 R563 R577). -/
def Part.becomeReady (p : Part) : Part :=
  let p1 := if p.portUp 1 then p else p.andNotReg (Reg.PWR_DOM_E.at [1]) 1
  let p2 := forEach (List.range 16) (fun n x =>
    if bitOf (x.regN (portReg Reg.FAB_PORT_CFG n)) 0 then x else x.andNotReg (Reg.PWR_DOM_E.at [n / 8]) (2 ^ (n % 8 + 1))) p1
  let p3 : Part := { p2 with
    phase := .ready
    sec := { p2.sec with rpuf := none }
    pwr := { p2.pwr with bandFree := (List.range 160).foldl (fun t i => Tab.put 0 t i p.tim.interval) [] }
    pce := { p2.pce with lastPeriod := p.tim.interval } }
  ((p3.placeFdr).stepReg 10).ibi 1 0

def Part.trainPorts (p : Part) (host : List (Option (Nat × Nat × Bool))) (fabric : List Bool) : Part :=
  match p.phase with
  | .provision => p.setHostPort 0 (host.getD 0 none)
  | .based =>
    let p1 := (p.setHostPort 0 (host.getD 0 none)).setHostPort 1 (host.getD 1 none)
    let p2 := forEach (List.range 16) (fun n x => x.trained n (fabric.getD n false)) p1
    (p2.stepReg 9).becomeReady
  | _ => p

def execPwrGoodAssert (s : State) : Host.Outcome State Fault Refusal := .next (s.act (·.pwrAssert))
def execPwrGoodLoss (s : State) : Host.Outcome State Fault Refusal := .next (s.act (·.pwrLoss))
def execAuxGoodLoss (s : State) : Host.Outcome State Fault Refusal := .next (s.act (·.powerOff))
def execAuxGoodAssert (random : W32) (s : State) : Host.Outcome State Fault Refusal := .next (s.act (·.auxAssert random))
def execResetNAssert (s : State) : Host.Outcome State Fault Refusal := .next (s.act (·.resetAssert))
def execResetNRelease (s : State) : Host.Outcome State Fault Refusal := .next (s.act (·.resetRelease))
def execChainData (b : List Byte) (s : State) : Host.Outcome State Fault Refusal := .next (s.act (·.chainDataIn b))
def execChainEnd (b : List Byte) (s : State) : Host.Outcome State Fault Refusal := .next (s.act (·.chainEndIn b))
def execAbort (b : List Byte) (s : State) : Host.Outcome State Fault Refusal := .next (s.act (·.chainAbortIn b))
def execChainIdle (b : List Byte) (s : State) : Host.Outcome State Fault Refusal := .next (s.act (·.chainIdleIn b))
def execChainIdleSend (s : State) : Host.Outcome State Fault Refusal := .next (s.act (·.idleOut))
def execChainPositionTimeout (s : State) : Host.Outcome State Fault Refusal := .next (s.act (·.positionTimeout))
def execUpstreamTimeout (s : State) : Host.Outcome State Fault Refusal := .next (s.act (·.upstreamOver))
def execBootAreaRead (flash : Option (List Byte)) (puf : List (List Byte)) (s : State) : Host.Outcome State Fault Refusal :=
  .next (s.act (fun p => p.bootArea flash puf))
def execFirmwareVerify (image : List Byte) (s : State) : Host.Outcome State Fault Refusal := .next (s.act (·.verifyFirmware image))
def execRehearsal (passed : List (BitVec 400)) (trained : List Bool) (rates : List (List Nat)) (temps : List Nat) (s : State) :
    Host.Outcome State Fault Refusal := .next (s.act (fun p => p.rehearse passed trained rates temps))
def execBaseScriptLoad (stream : Option (List Byte)) (bad : List Nat) (s : State) : Host.Outcome State Fault Refusal :=
  .next (s.act (fun p => p.baseScript stream bad))
def execBootPortTraining (host : List (Option (Nat × Nat × Bool))) (fabric : List Bool) (s : State) : Host.Outcome State Fault Refusal :=
  .next (s.act (fun p => p.trainPorts host fabric))

end Sys2Proof.Machine
end

