-- ==== Sys2Proof/Machine/RegWrites.lean ====
section
/-! DEFINITION. What a register write does: by the access codes of its row, or by a behaviour of its own (00 R12 R13, 09 R289 R290, 10 R315
R319 R326 R327, 12 R353 R354 R359 R368 R371 to R373, 13 R403 R404, 14 R407 R414 R415 R419 R420 R437 R438 R447, 15 R471, 16 R483 R486 R489
R490 R500, 17 R522 R523 R527, 18 R552, 19 R563 R569 R571). -/

namespace Sys2Proof.Machine

open Sys2Proof

/-- A write by the access codes alone (00 R13). -/
def Part.plainWrite (p : Part) (r : RegRow) (off : Nat) (v : W64) : Part := p.setReg off (r.written (p.reg off) v)

/-- A plain write in which field [lo + len - 1 : lo] keeps its value when `keep` holds of the written one. -/
def Part.keepField (p : Part) (off lo len : Nat) (v : W64) (keep : Nat → Bool) : W64 :=
  let x := fld v.toNat lo len
  if keep x then BitVec.ofNat 64 (v.toNat - x * 2 ^ lo + p.regFld off lo len * 2 ^ lo) else v

/-- A write that leaves the register unchanged unless `ok`. -/
def Part.guardedWrite (p : Part) (r : RegRow) (off : Nat) (v : W64) (ok : Bool) : Part := if ok then p.plainWrite r off v else p

/-! ### Host block (16 R483 R486 R490 R500) -/

/-- A ring's configuration: while en = 1 only en may change; en is not set while its port is down. -/
def Part.ringCfgWrite (p : Part) (r : RegRow) (off : Nat) (v : W64) (portBit : Nat) : Part :=
  if bitOf (p.regN off) 4 then p.setFld off 4 1 (fld v.toNat 4 1)
  else if bitOf v.toNat 4 && !p.portUp (fld v.toNat portBit 1) then p
  else p.plainWrite r off v

def Part.writeHost (p : Part) (r : RegRow) (is : List Nat) (off : Nat) (v : W64) : Option Part :=
  let i := is.getD 0 0
  if r = Reg.HST_WIN then
    some (p.guardedWrite r off v (decide (fld v.toNat 30 18 * 2 ^ 30 + 2 ^ 36 ≤ 0x0F0000000000)))
  else if r = Reg.HST_SQ_BASE then some (p.guardedWrite r off v (!p.sqEnabled i))
  else if r = Reg.HST_CQ_BASE then some (p.guardedWrite r off v (!p.cqEnabled i))
  else if r = Reg.HST_SQ_CFG then some (p.ringCfgWrite r off v 5)
  else if r = Reg.HST_CQ_CFG then
    let q := p.ringCfgWrite r off v 15
    some (if p.cqEnabled i && !q.cqEnabled i then q.dropHeld i else q)
  else if r = Reg.CFG_LOAD then some (if bitOf v.toNat 63 then p.acceptLoad (loadAddr v.toNat) none else p)
  else none

/-! ### Security block (17 R518 R522 R523) -/

def Part.writeSecurity (p : Part) (r : RegRow) (off : Nat) (v : W64) : Option Part :=
  let w := BitVec.ofNat 32 v.toNat
  if r = Reg.SEC_EXTEND_DIGEST ∨ r = Reg.SEC_PROV_KEY ∨ r = Reg.SEC_PROV_OWNER then some (p.setHidden off w)
  else if r = Reg.SEC_EXTEND then some (p.extendWrite w)
  else if r = Reg.SEC_PROV_CTL then some (p.provisionWrite w)
  else if r = Reg.SEC_QCTL then some (p.quoteWrite w)
  else none

/-! ### Time, pace, errors, power (12 R353 R354 R359 R368 R371 R372, 18 R552, 19 R569 R571) -/

/-- A new source of the timebase begins its waits anew (12 R353). -/
def Part.timCfgWrite (p : Part) (v : W64) : Part :=
  let off := Reg.TIM_CFG.at []
  let q := p.plainWrite Reg.TIM_CFG off (p.keepField off 0 2 v (· == 3))
  if q.timSrc = p.timSrc then q
  else { q with tim := { q.tim with ppsLast := q.tim.interval, parentLast := q.tim.interval } }

def Part.paceCfgWrite (p : Part) (v : W64) : Part :=
  let off := Reg.PCE_CFG.at []
  let v1 := p.keepField off 0 2 v (· == 3)
  let v2 := p.keepField off 14 4 v1 (· == 0)
  p.plainWrite Reg.PCE_CFG off (p.keepField off 18 4 v2 (· == 0))

/-- A stuck bit written 1 releases an input whose recognised level is low: it has then been low for 100 ns (19 R570 R571). -/
def Part.releaseInputs (p : Part) (v : W64) : Part :=
  let off := Reg.PWR_IN_STAT.at []
  p.andNotReg off (((List.range 9).map (fun i => if bitOf v.toNat i && !(p.pwr.ins.getD i Input.reset).level then 2 ^ i else 0)).sum)

/-- 12 R359: the smallest rate of the chosen monitors starts anew. -/
def Part.clearMonitors (p : Part) (d : Nat) (v : W64) : Part :=
  forEach ((List.range 16).filter (fun i => bitOf v.toNat i)) (fun i x => x.setFld (bmon d i) 16 16 0) p

def Part.writeTime (p : Part) (r : RegRow) (is : List Nat) (off : Nat) (v : W64) : Option Part :=
  if r = Reg.TIM_CFG then some (p.timCfgWrite v)
  else if r = Reg.TIM_SET then some (p.timSet v)
  else if r = Reg.PCE_CFG then some (p.paceCfgWrite v)
  else if r = Reg.PCE_STAT then
    let q := p.plainWrite r off v
    some (if bitOf v.toNat 3 then q.clearUnsteerable else q)
  else if r = Reg.TRV_BMON_CLR then some (p.clearMonitors (is.getD 0 0) v)
  else if r = Reg.ERR_CFG then some (p.guardedWrite r off v (fld v.toNat 0 8 != 0))
  else if r = Reg.ERR_LOG_RD then
    some (p.guardedWrite r off v (decide (p.regN off ≤ v.toNat) && decide (v.toNat ≤ p.regN (Reg.ERR_SEQ.at []))))
  else if r = Reg.PWR_LIMIT then some (p.guardedWrite r off v (decide (400 ≤ fld v.toNat 0 11) && decide (fld v.toNat 0 11 ≤ 1500)))
  else if r = Reg.PWR_IN_STAT then some (p.releaseInputs v)
  else none

/-! ### Stage manager (10 R315 R319 R326) -/

/-- en = 1 enables a disabled seat with its statistics cleared; en = 0 waits until nothing of the seat is in flight. -/
def Part.seatWrite (p : Part) (s : Nat) (v : W64) : Part :=
  let off := Reg.STG_SEAT_CFG.at [s]
  let was := bitOf (p.regN off) 0
  let q := p.plainWrite Reg.STG_SEAT_CFG off v
  let settle := fun (x : Part) => ({ x with stg := { x.stg with seatOff := x.stg.seatOff.filter (· ≠ s) } } : Part)
  if bitOf v.toNat 0 then
    (if was then settle q
     else (((settle q).setRegN (Reg.STG_SEAT_MISS.at [s]) 0).setRegN (Reg.STG_SEAT_WORST.at [s]) 0).setRegN (Reg.STG_SEAT_DONE.at [s]) 0)
  else if was && p.regN (Reg.STG_SEAT_INFLIGHT.at [s]) != 0 then
    let x := (settle q).setFld off 0 1 1
    { x with stg := { x.stg with seatOff := x.stg.seatOff ++ [s] } }
  else settle q

def Part.writeStageRegs (p : Part) (r : RegRow) (is : List Nat) (off : Nat) (v : W64) : Option Part :=
  let i := is.getD 0 0
  if r = Reg.STG_SHARE_CFG then some (p.plainWrite r off (p.keepField off 0 4 v (· == 0)))
  else if r = Reg.STG_SEAT_CFG then some (p.seatWrite i v)
  else if r = Reg.STG_PREEMPT_REQ then some (if bitOf v.toNat 31 && decide (fld v.toNat 0 9 < 400) then p.askPreempt (400 * i + fld v.toNat 0 9) none else p)
  else if r = Reg.MEM_RETRAIN_CFG then some (p.guardedWrite r off v (decide (10 ≤ fld v.toNat 0 8) && decide (fld v.toNat 0 8 ≤ 200)))
  else none

/-! ### Fabric (14 R407 R415 R419 R420 R437 R438 R447, 19 R563) -/

/-- Refused unless drained when it clears self_valid or changes self while self_valid = 1. -/
def Part.fabCfgStore (p : Part) (v : W64) : Part :=
  let off := Reg.FAB_CFG.at []
  let unsafe_ := bitOf (p.regN off) 14 && (!bitOf v.toNat 14 || fld v.toNat 0 14 != p.regFld off 0 14)
  if unsafe_ && !p.drained then p.orReg (Reg.FAB_EVT.at []) 1 else p.plainWrite Reg.FAB_CFG off v

def Part.swapTables (p : Part) (v : W64) : Part :=
  if !bitOf v.toNat 0 then p
  else if p.drained then { p with fab := { p.fab with active := !p.fab.active } }
  else p.orReg (Reg.FAB_EVT.at []) 1

/-- Injection that is no longer stopped goes on. -/
def Part.injectStopStore (p : Part) (v : W64) : Part :=
  let q := p.plainWrite Reg.FAB_CTL (Reg.FAB_CTL.at []) v
  if bitOf v.toNat 0 then q else q.ni

/-- The shadow table's entry for an address. -/
def Part.routeWrite (p : Part) (j : Nat) (v : W64) : Part :=
  let w := BitVec.ofNat 32 (v.toNat % 2 ^ 22)
  if p.fab.active then { p with fab := { p.fab with rt0 := Tab.put 0 p.fab.rt0 j w } }
  else { p with fab := { p.fab with rt1 := Tab.put 0 p.fab.rt1 j w } }

def slotCount (mask : Nat) : Nat := ((List.range 64).filter (fun k => bitOf mask k)).length

/-- 14 R438: what entry `c` would reserve is reserved, or more than 48 slots of the port would be. -/
def Part.circRefused (p : Part) (c entry slots : Nat) : Bool :=
  if !(circValid entry && !circSink entry) then false
  else
    let others := (List.range 4096).filter (fun k => k != c && reservesOn (p.circEntry k) (circPort entry))
    let used := others.map (fun k => p.regN (Reg.FAB_CIRC_SLOTS.at [k]))
    used.any (fun m => (m &&& slots) != 0) || decide (48 < slotCount slots + (used.map slotCount).sum)

/-- A write of one half of entry `c`; an installed entry counts its packets from 0 (14 R439). -/
def Part.circWrite (p : Part) (c : Nat) (upper : Bool) (v : W64) : Part :=
  let eo := Reg.FAB_CIRC.at [c]
  let so := Reg.FAB_CIRC_SLOTS.at [c]
  let entry := if upper then p.regN eo else v.toNat % 2 ^ 48
  let slots := if upper then v.toNat else p.regN so
  if p.circRefused c entry slots then p.orReg (Reg.FAB_EVT.at []) 16
  else if upper then p.setRegN so slots
  else
    let q := p.setRegN eo entry
    if circValid entry then
      { q with fab := { q.fab with
        circSent := Tab.put 0 q.fab.circSent (q.pairKey c) 0
        circSeen := Tab.put none q.fab.circSeen (q.pairKey c) none
        switched := Tab.put (some c) q.fab.switched c (some c) } }
    else q

/-- enable 0 to 1: the port trains; 1 to 0: it is DISABLED; a DOWN port stays DOWN (14 R407). After READY its domain follows enable. -/
def Part.portCfgWrite (p : Part) (n : Nat) (v : W64) : Part :=
  let off := portReg Reg.FAB_PORT_CFG n
  let was := bitOf (p.regN off) 0
  let on := bitOf v.toNat 0
  let q := p.plainWrite Reg.FAB_PORT_CFG off v
  let dom := Reg.PWR_DOM_E.at [n / 8]
  let bit := 2 ^ (n % 8 + 1)
  if on == was then q
  else
    let q1 := if p.phase ≠ .ready then q else if on then q.orReg dom bit else q.andNotReg dom bit
    if (p.port n).st = 3 then q1 else ((q1.loosen n).onPort n (fun _ => { Port.reset with st := on.toNat })).showPort n

/-- A DOWN port trains again; DESIGN CHOICE: one whose enable bit is 0 is DISABLED instead (log 11). -/
def Part.retrain (p : Part) (n : Nat) : Part :=
  if (p.port n).st = 3 then
    (p.onPort n (fun x => { x with st := p.regFld (portReg Reg.FAB_PORT_CFG n) 0 1, locked := false, cause := 0 })).showPort n
  else p

def Part.clearMarks (p : Part) (n : Nat) : Part :=
  (p.setRegN (portReg Reg.FAB_PORT_VCQ_0 n) 0).setRegN (portReg Reg.FAB_PORT_VCQ_1 n) 0

def Part.portCtlWrite (p : Part) (n : Nat) (v : W64) : Part :=
  let q := if bitOf v.toNat 0 then p.retrain n else p
  if bitOf v.toNat 1 then q.clearMarks n else q

def Part.writeFabric (p : Part) (r : RegRow) (is : List Nat) (v : W64) : Option Part :=
  let i := is.getD 0 0
  if r = Reg.FAB_CFG then some (p.fabCfgStore v)
  else if r = Reg.FAB_SWAP then some (p.swapTables v)
  else if r = Reg.FAB_CTL then some (p.injectStopStore v)
  else if r = Reg.FAB_RT then some (p.routeWrite i v)
  else if r = Reg.FAB_CIRC then some (p.circWrite i false v)
  else if r = Reg.FAB_CIRC_SLOTS then some (p.circWrite i true v)
  else if r = Reg.FAB_PORT_CFG then some (p.portCfgWrite i v)
  else if r = Reg.FAB_PORT_CTL then some (p.portCtlWrite i v)
  else none

/-! ### Clusters and cores (04 R128, 09 R289 R290) -/

/-- The queue that a selector of core `c` names: 16 to 31 are those of a two-hander's odd core (06 R191). -/
def Part.selectedQueue (p : Part) (c q : Nat) : Option ChQueue :=
  if q < 16 then some ((p.core c).queue q)
  else if c % 2 = 0 ∧ p.paired c = true then some ((p.core (c + 1)).queue (q - 16))
  else none

/-- The head message of the selected queue is latched, zeros when there is none. -/
def Part.latchHead (p : Part) (cl k : Nat) (v : W64) : Part :=
  let q := fld v.toNat 0 5
  let data := match (p.selectedQueue (16 * cl + k) q).map (·.msgs) with
    | some (m :: _) => m.data
    | _ => []
  forEach (List.range 8) (fun i x => x.setRegN (cluReg Reg.CLU_CH_HEAD cl [k, i]) (leAt (padTo 64 data) (8 * i) 8))
    (p.setRegN (cluReg Reg.CLU_CH_HSEL cl [k]) q)

def Part.clearRouteFlags (p : Part) (c j : Nat) (v : W64) : Part :=
  p.onCore c (fun k => k.onRoute j (fun x => { x with
    ringFull := x.ringFull && !bitOf v.toNat 16, wdog := x.wdog && !bitOf v.toNat 17, darkFault := x.darkFault && !bitOf v.toNat 18 }))

def Part.writeCluster (p : Part) (r : RegRow) (is : List Nat) (v : W64) : Option Part :=
  if r = Reg.CLU_CH_HSEL then some (p.latchHead (cluAt is) (is.getD 2 0) v)
  else if r = Reg.CORE_CHR then some (p.clearRouteFlags (coreAt is) (is.getD 3 0) v)
  else if r = Reg.CORE_VCONST then some (p.setBytes (coreCfg (coreAt is) (0x2AC0 + 4 * is.getD 3 0)) (leBytes 4 v.toNat))
  else none

/-! ### A write -/

/-- The clusters' registers lie in their bands: an access keeps the band on (19 R563). -/
def Part.touchRegs (p : Part) (off : Nat) : Part :=
  if off < 0x2000000 then p else p.touchBand (400 * ((off - 0x2000000) / 0x800000) + (off % 0x800000) / 0x4000)

/-- The effect of a write that is not refused. -/
def Part.regStore (p : Part) (off : Nat) (v : W64) : Part := match findReg off Reg.map with
  | none => p.touchRegs off
  | some (r, is) =>
    let q := p.touchRegs off
    ((q.writeHost r is off v).orElse fun _ => (q.writeSecurity r off v).orElse fun _ => (q.writeTime r is off v).orElse fun _ =>
      (q.writeStageRegs r is off v).orElse fun _ => (q.writeFabric r is v).orElse fun _ => q.writeCluster r is v).getD (q.plainWrite r off v)

/-- A register write by an agent (16 R489). -/
def Part.regWrite (p : Part) (by_ : Agent) (off width : Nat) (v : W64) : Part :=
  if !p.present by_ then p
  else if p.accessOk off width then p.regStore off (BitVec.ofNat 64 (v.toNat % 2 ^ (8 * width)))
  else p.refusedAccess by_ off false

/-- A write to the register of row `r` at the indices `is`; there is none past its counts. -/
def Part.rowWrite (p : Part) (by_ : Agent) (r : RegRow) (is : List Nat) (v : W64) : Part :=
  if (List.zipWith (fun d i => decide (i < d.2)) r.dims is).all id then p.regWrite by_ (r.at is) (if r.wide then 8 else 4) v else p

def W32.wide (v : W32) : W64 := BitVec.ofNat 64 v.toNat

def execRegisterWrite (by_ : Agent) (off width : Nat) (v : W64) (s : State) : Host.Outcome State Fault Refusal :=
  .next (s.act (fun p => p.regWrite by_ off width v))
def execStgPreemptReq (by_ : Agent) (d : Nat) (v : W32) (s : State) : Host.Outcome State Fault Refusal :=
  .next (s.act (fun p => p.rowWrite by_ Reg.STG_PREEMPT_REQ [d] (W32.wide v)))
def execSeatEnable (by_ : Agent) (seat : Nat) (v : W32) (s : State) : Host.Outcome State Fault Refusal :=
  .next (s.act (fun p => p.rowWrite by_ Reg.STG_SEAT_CFG [seat] (W32.wide (v ||| 1))))
def execSeatDisable (by_ : Agent) (seat : Nat) (v : W32) (s : State) : Host.Outcome State Fault Refusal :=
  .next (s.act (fun p => p.rowWrite by_ Reg.STG_SEAT_CFG [seat] (W32.wide (v &&& ~~~ 1))))
def execStgShareCfg (by_ : Agent) (v : W32) (s : State) : Host.Outcome State Fault Refusal :=
  .next (s.act (fun p => p.rowWrite by_ Reg.STG_SHARE_CFG [] (W32.wide v)))
def execPceStatAvsClear (by_ : Agent) (v : W32) (s : State) : Host.Outcome State Fault Refusal :=
  .next (s.act (fun p => p.rowWrite by_ Reg.PCE_STAT [] (W32.wide v)))
def execTrvBmonClr (by_ : Agent) (d : Nat) (v : W64) (s : State) : Host.Outcome State Fault Refusal :=
  .next (s.act (fun p => p.rowWrite by_ Reg.TRV_BMON_CLR [d] v))
def execTimSet (by_ : Agent) (v : W64) (s : State) : Host.Outcome State Fault Refusal :=
  .next (s.act (fun p => p.rowWrite by_ Reg.TIM_SET [] v))
def execFabSwap (by_ : Agent) (v : W32) (s : State) : Host.Outcome State Fault Refusal :=
  .next (s.act (fun p => p.rowWrite by_ Reg.FAB_SWAP [] (W32.wide v)))
def execInjectStop (by_ : Agent) (v : W32) (s : State) : Host.Outcome State Fault Refusal :=
  .next (s.act (fun p => p.rowWrite by_ Reg.FAB_CTL [] (W32.wide v)))
def execFabCfgWrite (by_ : Agent) (v : W32) (s : State) : Host.Outcome State Fault Refusal :=
  .next (s.act (fun p => p.rowWrite by_ Reg.FAB_CFG [] (W32.wide v)))
def execCircuitTableWrite (by_ : Agent) (c half : Nat) (v : W64) (s : State) : Host.Outcome State Fault Refusal :=
  .next (s.act (fun p => p.rowWrite by_ (if half = 0 then Reg.FAB_CIRC else Reg.FAB_CIRC_SLOTS) [c] v))
def execRetrainPort (by_ : Agent) (n : Nat) (s : State) : Host.Outcome State Fault Refusal :=
  .next (s.act (fun p => p.rowWrite by_ Reg.FAB_PORT_CTL [n] 1))
def execClearHighWater (by_ : Agent) (n : Nat) (s : State) : Host.Outcome State Fault Refusal :=
  .next (s.act (fun p => p.rowWrite by_ Reg.FAB_PORT_CTL [n] 2))
def execCfgLoad (by_ : Agent) (v : W64) (s : State) : Host.Outcome State Fault Refusal :=
  .next (s.act (fun p => p.rowWrite by_ Reg.CFG_LOAD [] v))
def execHstWin (by_ : Agent) (port : Nat) (v : W64) (s : State) : Host.Outcome State Fault Refusal :=
  .next (s.act (fun p => p.rowWrite by_ Reg.HST_WIN [port] v))
def execCluChHsel (by_ : Agent) (cl k : Nat) (v : W32) (s : State) : Host.Outcome State Fault Refusal :=
  .next (s.act (fun p => p.rowWrite by_ Reg.CLU_CH_HSEL [cl / 400, cl % 400, k] (W32.wide v)))
def execMemChWaitMax (by_ : Agent) (ch : Nat) (v : W32) (s : State) : Host.Outcome State Fault Refusal :=
  .next (s.act (fun p => p.rowWrite by_ Reg.MEM_CH_WAIT_MAX [ch / 64, ch % 64] (W32.wide v)))
def execErrLogRd (by_ : Agent) (v : W64) (s : State) : Host.Outcome State Fault Refusal :=
  .next (s.act (fun p => p.rowWrite by_ Reg.ERR_LOG_RD [] v))
def execPwrLimit (by_ : Agent) (v : W32) (s : State) : Host.Outcome State Fault Refusal :=
  .next (s.act (fun p => p.rowWrite by_ Reg.PWR_LIMIT [] (W32.wide v)))
def execStuckRelease (by_ : Agent) (v : W32) (s : State) : Host.Outcome State Fault Refusal :=
  .next (s.act (fun p => p.rowWrite by_ Reg.PWR_IN_STAT [] (W32.wide v)))
def execSecProvCtl (by_ : Agent) (v : W32) (s : State) : Host.Outcome State Fault Refusal :=
  .next (s.act (fun p => p.rowWrite by_ Reg.SEC_PROV_CTL [] (W32.wide v)))
def execSecExtend (by_ : Agent) (v : W32) (s : State) : Host.Outcome State Fault Refusal :=
  .next (s.act (fun p => p.rowWrite by_ Reg.SEC_EXTEND [] (W32.wide v)))
def execSecQctl (by_ : Agent) (v : W32) (s : State) : Host.Outcome State Fault Refusal :=
  .next (s.act (fun p => p.rowWrite by_ Reg.SEC_QCTL [] (W32.wide v)))
def execFabPortCfg (by_ : Agent) (n : Nat) (v : W32) (s : State) : Host.Outcome State Fault Refusal :=
  .next (s.act (fun p => p.rowWrite by_ Reg.FAB_PORT_CFG [n] (W32.wide v)))

end Sys2Proof.Machine
end

