-- ==== Sys2Proof/Machine/Recovery.lean ====
section
/-! DEFINITION. Errors as events, recovery windows, SCENE recovery (18 R536 R542 to R549, 01 R29, 15 R464 R475). -/

namespace Sys2Proof.Machine

open Sys2Proof

/-! ### A detected error (18 R549, 08 R250, 13 R396) -/

/-- The part is out of reset and not in blackout. -/
def Part.awake (p : Part) : Bool := match p.phase with
  | .off | .aux | .held | .blackout => false
  | _ => true

/-- The flag that a failed check leaves beside its log entry: of the vector engine, a residue check when the report carries residues and a
parity check when it carries none (04 R127 R128, log 49); of a cluster's half-rows (09 R266 R290). -/
def Part.noteCheck (p : Part) (e : Report) : Part := match e.source with
  | 0x0012 => if e.die < 4 ∧ e.place < 400 ∧ e.core < 16 then
      p.orReg (coreReg Reg.CORE_VEC_ERR (6400 * e.die + 16 * e.place + e.core) []) (if e.detail = 0 then 2 else 1) else p
  | 0x0022 => if e.die < 4 ∧ e.place < 400 then p.orReg (cluReg Reg.CLU_TRV_ERR (400 * e.die + e.place) []) 1 else p
  | _ => p

/-- An error that a unit reports. The task of a pit fault, of a bad shape record and of a damaged row without a usable mirror completes
FAILED; any other is re-dispatched. -/
def Part.errorEntry (p0 : Part) (e : Report) : Part :=
  let p := p0.noteCheck e
  if !p.awake then p0
  else match e.source with
  | 0x0031 => (match p.repair e.addr with
    | some q => q.raise e none
    | none => p.raise e (some causeData))
  | 0x0040 => p.raise e (some causeData)
  | 0x0074 => p.raise e (some causeShape)
  | _ => p.raise e none

/-- 18 R545: windows that have passed close. -/
def Part.closeWindows (p : Part) : Part := { p with err := { p.err with recs := p.err.recs.filter p.inProgress } }

/-- 18 R542. -/
def Part.clockLost (p : Part) : Part := if p.awake then p.raise ⟨0x0092, 4, 6, 0, 0xFF, 0, none, 0, 0⟩ none else p

/-! ### Scene recovery (18 R543 R544) -/

def Part.keptOf (p : Part) (s : Scene) : Option Kept := p.cfg.kept.find? (fun k => k.num == s.script)

/-- The record of a scene in its kept script. -/
def Part.recordOf (p : Part) (s : Scene) : Option SceneRec :=
  (p.keptOf s).bind (fun k => ((recordBodies ((p.keptFrames k).filterMap (·.2))).map sceneRec).find? (fun r => r.scene == s.num))

/-- A row of a kept script of the scene lies on a failed channel. -/
def Part.poolLost (p : Part) (s : Nat) : Bool :=
  (p.cfg.kept.filter (fun k => k.scenes.elem s)).any (fun k =>
    (List.range (ceilDiv (scriptHead (p.bytesAt k.base 256)).length 512)).any (fun i => p.chFailed (k.base + 512 * i)))

/-- The recovery that `seq` names is over. -/
def Part.endRecovery (p : Part) (seq : W64) : Part :=
  { p with err := { p.err with
      scenes := p.err.scenes.filter (fun x => decide (x.2.2 ≠ seq))
      recs := p.err.recs.filter (fun r => decide (r.seq ≠ seq)) } }

/-- Golden entries of clusters that nobody holds any more leave. -/
def Part.trimGolden (p : Part) : Part :=
  let held := p.stg.replicas.flatMap (·.clusters)
  let keep := fun (g : Golden) => match viewPlace g.addr g.len with
    | some (some cl) => held.elem cl
    | _ => true
  { p with cfg := { p.cfg with golden := p.cfg.golden.filter keep, mismatch := p.cfg.mismatch.filter keep } }.showGolden

/-- No placement: the replica is removed, and with its last replica the scene is retired. -/
def Part.removeReplica (p : Part) (r : Replica) : Part :=
  let p1 := p.clearBoard r.anchor
  let p2 : Part := { p1 with stg := { p1.stg with replicas := p1.stg.replicas.filter (fun x => decide (x.anchor ≠ r.anchor)) } }
  let p3 := if p2.stg.replicas.any (fun x => x.scene == r.scene) then p2 else p2.retireScene r.scene
  p3.trimGolden.prunePool.place

/-- The replica placed anew by the rules of its record, its configuration written; none when there is no place. -/
def Part.replaceReplica (p : Part) (r : Replica) (rec_ : SceneRec) : Option (Part × Replica) :=
  let p1 : Part := { p with stg := { p.stg with replicas := p.stg.replicas.filter (fun x => decide (x.anchor ≠ r.anchor)) } }
  match p1.placeReplica rec_ [r] [] r.j (p1.sceneFrames r.scene) with
  | none => none
  | some q => match q.stg.replicas.find? (fun x => x.scene == r.scene && x.j == r.j) with
    | none => none
    | some n =>
      let q1 := q.translateAll n
      if q1.routedQueues.Nodup then some (q1, n) else none

/-- Steps 4 and 5: frames in place, golden entries renewed, the region released, the callboard's tasks with it. -/
def Part.finishRecovery (p : Part) (r n : Replica) : Part :=
  let p1 := (p.moveBoards [r]).trimGolden
  let fresh := n.clusters
  let p2 : Part := { p1 with cfg := { p1.cfg with
    golden := (p1.cfg.golden.filter (fun g => match viewPlace g.addr g.len with
      | some (some cl) => !fresh.elem cl
      | _ => true)) ++ p1.goldenOf n } }
  let p3 := forEach (r.region ++ n.region) (fun cl x => x.touchBand cl) p2
  (p3.releaseAll [n]).showGolden

/-- The depth of the recovery that `seq` names. -/
def Part.depthOf (p : Part) (seq : W64) : Nat := match p.err.recs.find? (fun x => decide (x.seq = seq)) with | some x => x.depth | none => 0

/-- Steps 2 to 5 for a replica; `mismatched` says that a frame read back wrong, an error nested in this recovery. -/
def Part.recover (p : Part) (r : Replica) (cl : Nat) (seq : W64) (mismatched : Bool) : Part :=
  let p1 := if cl < 1600 then p.retireCluster cl seq (p.depthOf seq) else p
  if p1.poolLost r.scene then p1.raise ⟨0x0091, 3, r.die, r.origin, 0xFF, 0, none, 0, 0⟩ none
  else match ((p1.sceneOf r.scene).bind p1.recordOf).bind (p1.replaceReplica r) with
  | none => (p1.removeReplica r).endRecovery seq
  | some (q, n) =>
    if mismatched then q.raise ⟨0x0062, 2, n.die, n.origin, 0xFF, 0, none, 0, 0⟩ none
    else (q.finishRecovery r n).endRecovery seq

/-- A recovery whose replica an earlier one has moved or removed: its cluster is retired all the same (01 R29, 18 R536). -/
def Part.retireOnly (p : Part) (cl : Nat) (seq : W64) : Part :=
  (if cl < 1600 then p.retireCluster cl seq (p.depthOf seq) else p).endRecovery seq

/-- The script under change is past step 2 and retires or reloads the scene (15 R473 R475). -/
def Part.leaving (p : Part) (s : Nat) : Bool := match p.cfg.staged with
  | some x => decide (x.stage ≠ .checked) && (x.gone ++ x.names).elem s
  | none => false

/-- The oldest SCENE recovery of a die (18 R544); for a scene that a commit retires or reloads it is dropped (15 R475, log 50). -/
def Part.sceneRecover (p : Part) (anchor cluster : Nat) (mismatched : Bool) : Part :=
  match p.err.scenes.find? (fun x => x.1 / 400 == anchor / 400) with
  | none => p
  | some (a, cl, seq) =>
    if a ≠ anchor ∨ (cl < 1600 ∧ cl ≠ cluster) then p
    else match p.replicaOf a with
      | some r => if p.leaving r.scene then p.endRecovery seq else if cl < 1600 ∧ !r.holds cl then p.retireOnly cl seq else p.recover r cl seq mismatched
      | none => p.retireOnly cl seq

def execErrorLogEntry (r : Report) (s : State) : Host.Outcome State Fault Refusal := .next (s.act (fun p => (p.errorEntry r).pumpViews))
def execRecoveryWindowExpiry (s : State) : Host.Outcome State Fault Refusal := .next (s.act (·.closeWindows))
def execSceneRecovery (anchor cluster : Nat) (mismatched : Bool) (s : State) : Host.Outcome State Fault Refusal :=
  s.event (fun p => p.sceneRecover anchor cluster mismatched)
def execRefclkLoss (s : State) : Host.Outcome State Fault Refusal := .next (s.act (·.clockLost))

end Sys2Proof.Machine
end

