-- ==== Sys2Proof/Machine/Pins.lean ====
section
/-! DEFINITION. Thermal trip, band gating and filtered inputs (19 R563 R564 R568 R570 R571). -/

namespace Sys2Proof.Machine

open Sys2Proof

/-! ### Thermal trip (19 R568) -/

/-- The trip: the output asserted, every output disabled, the part halted, the cause recorded. -/
def Part.trip (p : Part) (die sensor celsius : Nat) : Part :=
  let p1 := forEach (List.range 2) (fun i x => x.setRegN (Reg.HST_PORT_STAT.at [i]) 0) p
  let p2 := forEach (List.range 16) (fun n x => if (x.port n).st = 0 then x else (x.onPort n (fun _ => { Port.reset with st := 3 })).showPort n) p1
  let p3 := p2.setRegN (Reg.PWR_TRIP.at []) (die % 8 + (sensor % 16) * 2 ^ 8 + (min 255 (celsius + 40)) * 2 ^ 12 + 2 ^ 20)
  Part.ibi { p3 with phase := .tripped, pwr := { p3.pwr with tripN := false, tripped := true } } 6 die

/-- One sensor's reading of a 1 µs window: bays of the C-dies (dies 0 to 3), sensors 0 to 3 of M0, M1, E0 and E1 (dies 4 to 7). -/
def Part.sense (p : Part) (die sensor celsius : Nat) : Part :=
  let key := 16 * die + sensor
  if !p.awake || p.pwr.tripped || decide (8 ≤ die) || decide ((if die < 4 then 16 else 4) ≤ sensor) then p
  else
    let n := if 115 ≤ celsius then Tab.get 0 p.pwr.hot key + 1 else 0
    let p1 : Part := { p with pwr := { p.pwr with hot := Tab.put 0 p.pwr.hot key n } }
    if 2 ≤ n then p1.trip die sensor celsius else p1

/-! ### Cluster bands (19 R563 R564) -/

/-- No replica holds a cluster of the band, by its rectangle or its region. -/
def Part.bandUnheld (p : Part) (d b : Nat) : Bool :=
  !p.stg.replicas.any (fun r => r.die == d && (r.clusters ++ (if r.dark then r.region else [])).any (fun cl => bandOf cl == b))

/-- A cluster of the band. -/
def inBand (d b cl : Nat) : Bool := cl / 400 == d && bandOf cl == b

/-- An address whose byte lies in the band's SRAM. -/
def bandAddr (cap d b a : Nat) : Bool := match homeOf cap a with
  | .store cl _ => inBand d b cl
  | .view c _ => inBand d b (clusterOf c)
  | .config => (match viewPlace a 1 with | some (some cl) => inBand d b cl | _ => false)
  | _ => false

/-- A register of a cluster of the band. -/
def bandReg (d b off : Nat) : Bool :=
  decide (0x2000000 ≤ off) && decide (off < 0x4000000) && inBand d b (400 * ((off - 0x2000000) / 0x800000) + (off % 0x800000) / 0x4000)

/-- The band's contents are lost: when it is used again they are zero with valid codes and fresh tags. -/
def Part.clearBand (p : Part) (d b : Nat) : Part :=
  let hit := bandAddr p.cap d b
  { p with
    mem := p.mem.filter (fun c => !hit c.1)
    tagErr := p.tagErr.filter (fun c => !hit (512 * c.1))
    poison := p.poison.filter (fun c => !hit (8 * c.1))
    cores := p.cores.filter (fun c => !inBand d b (clusterOf c.1))
    clusters := p.clusters.filter (fun c => !inBand d b c.1)
    regs := p.regs.filter (fun c => !bandReg d b c.1) }

def Part.bandOff (p : Part) (d b : Nat) : Part :=
  if decide (4 ≤ d) || decide (40 ≤ b) || !bitOf (p.regN (Reg.PWR_CFG.at [])) 0 || !p.domainC d b || !p.bandUnheld d b ||
      decide ((p.tim.interval - Tab.get 0 p.pwr.bandFree (40 * d + b)).toNat < 1000000) then p
  else (p.clearBand d b).andNotReg (Reg.PWR_DOM_C.at [d]) (2 ^ b)

/-- An access to an off band powers it on. -/
def Part.bandOn (p : Part) (d b : Nat) : Part :=
  if decide (4 ≤ d) || decide (40 ≤ b) || p.domainC d b then p else p.touchBand (400 * d + 10 * b)

/-! ### Filtered inputs (19 R570 R571) -/

def Part.input (p : Part) (i : Nat) : Input := p.pwr.ins.getD i Input.reset
def Part.onInput (p : Part) (i : Nat) (f : Input → Input) : Part := { p with pwr := { p.pwr with ins := modAt p.pwr.ins i f } }
def Part.stuck (p : Part) (i : Nat) : Bool := bitOf (p.regN (Reg.PWR_IN_STAT.at [])) i

/-- An edge that has been counted and not yet taken is taken before the next one. -/
def Part.takeEdge (p : Part) (i : Nat) : Part := if i = 8 then p.pps else p.cueEdge i

/-- The registers of the filters run out of reset. -/
def Part.filters (p : Part) : Bool := match p.phase with
  | .off | .aux | .held => false
  | _ => true

/-- A raw transition at `start` to `level`, which the input has held for 100 ns or not. A rise that yields no counted edge is coalesced. -/
def Part.filtered (p : Part) (i : Nat) (level : Bool) (start : W64) (held : Bool) : Part :=
  let early := decide (p.tim.now.toNat < start.toNat + 100)
  if decide (9 ≤ i) || p.phase = .off || (p.filters && held && early) then p
  else
    let counted := level && held && p.filters && !(p.input i).level && !p.stuck i
    let p1 := if counted then (p.takeEdge i).onInput i (fun x => { x with edge := some start })
      else if level && p.filters then p.bump (Reg.PWR_IN_COAL.at [i]) 1
      else p
    if held then p1.onInput i (fun x => { x with level := level, since := p.tim.interval - (p.tim.now - start) }) else p1

def Part.maxUs (p : Part) (i : Nat) : Nat := if i = 8 then p.regN (Reg.PWR_IN_CFG_8.at []) else p.regN (Reg.PWR_IN_CFG.at [i])

/-- An input held high for its bound is latched, masked and reported. -/
def Part.stick (p : Part) (i : Nat) : Part :=
  if decide (9 ≤ i) || !p.filters || p.stuck i || !(p.input i).level || p.maxUs i == 0 ||
      decide ((p.tim.interval - (p.input i).since).toNat < p.maxUs i * 1000) then p
  else ((p.orReg (Reg.PWR_IN_STAT.at []) (2 ^ i)).setReg (Reg.PWR_IN_STUCK_AT.at [i]) p.tim.now).ibi 4 i

def execThermalTrip (die sensor celsius : Nat) (s : State) : Host.Outcome State Fault Refusal :=
  .next (s.act (fun p => p.sense die sensor celsius))
def execBandGateOff (d b : Nat) (s : State) : Host.Outcome State Fault Refusal := s.live (fun p => p.bandOff d b)
def execBandPowerUp (d b : Nat) (s : State) : Host.Outcome State Fault Refusal := s.live (fun p => p.bandOn d b)
def execFilteredEdge (i : Nat) (level : Bool) (start : W64) (held : Bool) (s : State) : Host.Outcome State Fault Refusal :=
  .next (s.act (fun p => p.filtered i level start held))
def execStuckInput (i : Nat) (s : State) : Host.Outcome State Fault Refusal := .next (s.act (·.stick i))

end Sys2Proof.Machine
end

