-- ==== Sys2Proof/Machine/Manage.lean ====
section
/-! DEFINITION. Board management: the I3C target and the JTAG port (19 R574 to R578). The shape of CCC answers and the rules of addressing
are those of MIPI I3C Basic (PRESUMED, log 40). -/

namespace Sys2Proof.Machine

open Sys2Proof

/-! ### Register accesses of board management (19 R576) -/

/-- A register access that board management may make: one that BAR0 would not refuse, and no write to the security block. -/
def Part.boardOk (p : Part) (off width : Nat) (write : Bool) : Bool :=
  p.accessOk off width && !(write && decide (0x300000 ≤ off) && decide (off < 0x400000))

/-- While RESET_N is low a write reaches `PWR_TRIP` alone (log 41). -/
def Part.boardWrite (p : Part) (off width : Nat) (v : W64) : Part :=
  if p.filters || decide (off = Reg.PWR_TRIP.at []) then p.regStore off (BitVec.ofNat 64 (v.toNat % 2 ^ (8 * width))) else p

def widthOf (wide : Bool) : Nat := if wide then 8 else 4

/-! ### The I3C target (19 R575 to R577) -/

def Part.onI3c (p : Part) (f : I3c → I3c) : Part := { p with i3c := f p.i3c }

/-- The always-on domain serves I3C and JTAG from AUX_GOOD on. -/
def Part.board (p : Part) (f : Part → Part) : Part := if p.pwr.auxGood then f p else p

/-- A transfer to the dynamic address. -/
def Part.addressed (p : Part) (f : Part → Part) : Part := p.board (fun q => if q.i3c.addr.isSome then f q else q.emit .i3cNack)

def Part.answerI3c (p : Part) (b : List Byte) : Part := p.emit (.i3c b)

/-- Bits [47:33] the manufacturer, bit 32 1, bits [31:0] random. -/
def Part.pid (p : Part) : Nat := Config.mipiId.toNat * 2 ^ 33 + 2 ^ 32 + p.i3c.pid.toNat

/-- The number of a pending interrupt: its mandatory data byte. -/
def Part.pendingIbi (p : Part) : Byte := match p.i3c.raised ++ p.i3c.waiting with
  | e :: _ => e.1
  | [] => 0

/-- The controller takes the oldest raised interrupt; an event of its kind that waits is raised. -/
def Part.takeIbi (p : Part) : Part := match p.i3c.raised with
  | [] => p
  | e :: es =>
    if p.i3c.ibi && p.i3c.addr.isSome then ((p.onI3c (fun i => { i with raised := es })).answerI3c [e.1, e.2]).pumpIbi else p

/-- The status byte and the data of a READ that a private read performs (19 R576). -/
def Part.performRead (p : Part) (off : Nat) (wide : Bool) : List Byte :=
  let n := widthOf wide
  if p.boardOk off n false then 0x00 :: leBytes n (p.regRead off) else 0x01 :: leBytes n (Config.noData 0).toNat

def Part.privateRead (p : Part) : Part :=
  let out := fun (b : List Byte) => p.answerI3c (b.take p.i3c.mrl.toNat)
  match p.i3c.read with
  | some (off, wide) => (out (p.performRead off.toNat wide)).onI3c (fun i => { i with read := none })
  | none => out [p.i3c.status.getD 0x02]

def Part.privateWrite (p : Part) (off : Nat) (wide : Bool) (v : W64) : Part :=
  let n := widthOf wide
  let ok := p.boardOk off n true
  (if ok then p.boardWrite off n v else p).onI3c (fun i => { i with read := none, status := some (if ok then 0x00 else 0x01) })

def execEnec (s : State) : Host.Outcome State Fault Refusal :=
  .next (s.act (·.board (fun p => (p.onI3c (fun i => { i with ibi := true })).pumpIbi)))
def execDisec (s : State) : Host.Outcome State Fault Refusal := .next (s.act (·.board (fun p => p.onI3c (fun i => { i with ibi := false }))))
def execRstdaa (s : State) : Host.Outcome State Fault Refusal := .next (s.act (·.board (fun p => p.onI3c (fun i => { i with addr := none }))))
/-- A target without a dynamic address takes part. -/
def execEntdaa (addr : BitVec 7) (s : State) : Host.Outcome State Fault Refusal :=
  .next (s.act (·.board (fun p => if p.i3c.addr.isSome then p else (p.onI3c (fun i => { i with addr := some addr })).pumpIbi)))
/-- Sent to the static address 0x3C. -/
def execSetdasa (addr : BitVec 7) (s : State) : Host.Outcome State Fault Refusal :=
  .next (s.act (·.board (fun p => if p.i3c.addr.isSome then p.emit .i3cNack else (p.onI3c (fun i => { i with addr := some addr })).pumpIbi)))
def execSetnewda (addr : BitVec 7) (s : State) : Host.Outcome State Fault Refusal :=
  .next (s.act (·.addressed (fun p => p.onI3c (fun i => { i with addr := some addr }))))
def execSetmwl (n : W16) (s : State) : Host.Outcome State Fault Refusal :=
  .next (s.act (·.addressed (fun p => p.onI3c (fun i => { i with mwl := if 16 < n.toNat then 16 else n }))))
def execSetmrl (n : W16) (s : State) : Host.Outcome State Fault Refusal :=
  .next (s.act (·.addressed (fun p => p.onI3c (fun i => { i with mrl := if 9 < n.toNat then 9 else n }))))
def execGetmwl (s : State) : Host.Outcome State Fault Refusal :=
  .next (s.act (·.addressed (fun p => p.answerI3c (beBytes 2 p.i3c.mwl.toNat))))
/-- The read length, and the 2 bytes of an interrupt's payload. -/
def execGetmrl (s : State) : Host.Outcome State Fault Refusal :=
  .next (s.act (·.addressed (fun p => p.answerI3c (beBytes 2 p.i3c.mrl.toNat ++ [2]))))
def execGetpid (s : State) : Host.Outcome State Fault Refusal := .next (s.act (·.addressed (fun p => p.answerI3c (beBytes 6 p.pid))))
def execGetbcr (s : State) : Host.Outcome State Fault Refusal := .next (s.act (·.addressed (fun p => p.answerI3c [0x06])))
def execGetdcr (s : State) : Host.Outcome State Fault Refusal := .next (s.act (·.addressed (fun p => p.answerI3c [0x00])))
def execGetstatus (s : State) : Host.Outcome State Fault Refusal :=
  .next (s.act (·.addressed (fun p => p.answerI3c [0, p.pendingIbi &&& 0x0F])))
def execI3cRead (off : W32) (wide : Bool) (s : State) : Host.Outcome State Fault Refusal :=
  .next (s.act (·.addressed (fun p => p.onI3c (fun i => { i with read := some (off, wide), status := none }))))
def execI3cWrite (off : W32) (wide : Bool) (v : W64) (s : State) : Host.Outcome State Fault Refusal :=
  .next (s.act (·.addressed (fun p => p.privateWrite off.toNat wide v)))
def execI3cPrivateRead (s : State) : Host.Outcome State Fault Refusal := .next (s.act (·.addressed (·.privateRead)))
def execIbiTaken (s : State) : Host.Outcome State Fault Refusal := .next (s.act (·.board (·.takeIbi)))
/-- The target NACKs it. -/
def execUnlistedCcc (_code : Byte) (s : State) : Host.Outcome State Fault Refusal := .next (s.act (·.board (·.emit .i3cNack)))

/-! ### JTAG (19 R578) -/

def Part.onJtag (p : Part) (f : Jtag → Jtag) : Part := { p with jtag := f p.jtag }

/-- An instruction whose outputs are the pins' own, the boundary register's, or released. -/
def Part.instruct (p : Part) (ir : Byte) (drive float : Bool) : Part := p.onJtag (fun j => { j with ir := ir, drive := drive, float := float })

/-- The low `n` bits of `w`, the lowest first. -/
def bitsOut (n w : Nat) : List Bool := (List.range n).map (bitOf w)

/-- A scan of the boundary register: the captured levels go out, the cells given come in; where fewer are shifted the captured ones stay. -/
def Part.boundaryScan (p : Part) (ir : Byte) (drive : Bool) (cells : List Bool) : Part :=
  let (k, q) := p.fresh
  let levels := (List.range Config.boundaryCells).map (Config.pinLevels k)
  let held := levels.zipIdx.map (fun x => cells.getD x.2 x.1)
  ((q.emit (.tdo levels)).instruct ir drive false).onJtag (fun j => { j with bsr := held })

/-- [31:28] stepping, 0 for A; [27:12] 0x5808; [11:1] the manufacturer; [0] 1. -/
def idcode : Nat := 0x5808 * 2 ^ 12 + Config.jedecId.toNat * 2 + 1

/-- A captured status with data, over the fields shifted in. -/
def regaccCapture (dr : BitVec 104) (status : Nat) (data : W64) : BitVec 104 :=
  BitVec.ofNat 104 (data.toNat + fld dr.toNat 64 34 * 2 ^ 64 + status * 2 ^ 100)

/-- Capture-DR shows the last access, Update-DR starts the next. -/
def Part.regAccess (p : Part) (dr : BitVec 104) : Part :=
  let q := (p.emit (.tdo (bitsOut 104 p.jtag.capture.toNat))).instruct 0x20 false false
  let off := fld dr.toNat 64 32
  let write := bitOf dr.toNat 96
  let n := widthOf (bitOf dr.toNat 97)
  let data := BitVec.ofNat 64 dr.toNat
  let show_ := fun (x : Part) (status : Nat) (d : W64) => x.onJtag (fun j => { j with capture := regaccCapture dr status d })
  if !q.boardOk off n write then show_ q 1 (Config.noData 1)
  else if write then show_ (q.boardWrite off n data) 0 (Config.noData 1)
  else show_ q 0 (BitVec.ofNat 64 (q.regRead off))

def execExtest (cells : List Bool) (s : State) : Host.Outcome State Fault Refusal :=
  .next (s.act (·.board (fun p => p.boundaryScan 0x00 true cells)))
def execIdcode (s : State) : Host.Outcome State Fault Refusal :=
  .next (s.act (·.board (fun p => (p.instruct 0x01 false false).emit (.tdo (bitsOut 32 idcode)))))
def execSamplePreload (cells : List Bool) (s : State) : Host.Outcome State Fault Refusal :=
  .next (s.act (·.board (fun p => p.boundaryScan 0x02 false cells)))
def execExtestPulse (cells : List Bool) (s : State) : Host.Outcome State Fault Refusal :=
  .next (s.act (·.board (fun p => p.boundaryScan 0x03 true cells)))
def execExtestTrain (cells : List Bool) (s : State) : Host.Outcome State Fault Refusal :=
  .next (s.act (·.board (fun p => p.boundaryScan 0x04 true cells)))
def execJtagClamp (s : State) : Host.Outcome State Fault Refusal := .next (s.act (·.board (fun p => p.instruct 0x05 true false)))
def execHighz (s : State) : Host.Outcome State Fault Refusal := .next (s.act (·.board (fun p => p.instruct 0x06 false true)))
def execBypass (code : Byte) (s : State) : Host.Outcome State Fault Refusal := .next (s.act (·.board (fun p => p.instruct code false false)))
def execTestLogicReset (s : State) : Host.Outcome State Fault Refusal := .next (s.act (·.board (fun p => p.instruct 0x01 false false)))
def execRegacc (dr : BitVec 104) (s : State) : Host.Outcome State Fault Refusal := .next (s.act (·.board (fun p => p.regAccess dr)))

end Sys2Proof.Machine
end

