-- ==== Sys2Proof/Machine/Dispatch.lean ====
section
/-! DEFINITION. The effect of each command: one arm per constructor. -/

namespace Sys2Proof.Machine

open Sys2Proof

def exec (i : Instr) (s : State) : Host.Outcome State Fault Refusal :=
  match i with
  | .endOp c t => Sys2Proof.Machine.execEndOp c t s
  | .nop c t => Sys2Proof.Machine.execNop c t s
  | .fence c t => Sys2Proof.Machine.execFence c t s
  | .intv c t => Sys2Proof.Machine.execIntv c t s
  | .loop c t => Sys2Proof.Machine.execLoop c t s
  | .shop c t => Sys2Proof.Machine.execShop c t s
  | .adda c t => Sys2Proof.Machine.execAdda c t s
  | .ldr c t => Sys2Proof.Machine.execLdr c t s
  | .str c t => Sys2Proof.Machine.execStr c t s
  | .mov c t => Sys2Proof.Machine.execMov c t s
  | .trd c t => Sys2Proof.Machine.execTrd c t s
  | .srd c t => Sys2Proof.Machine.execSrd c t s
  | .gath c t => Sys2Proof.Machine.execGath c t s
  | .xfer c t => Sys2Proof.Machine.execXfer c t s
  | .cinv c t => Sys2Proof.Machine.execCinv c t s
  | .mat c t => Sys2Proof.Machine.execMat c t s
  | .maux c t => Sys2Proof.Machine.execMaux c t s
  | .run c t => Sys2Proof.Machine.execRun c t s
  | .send c t => Sys2Proof.Machine.execSend c t s
  | .post c t => Sys2Proof.Machine.execPost c t s
  | .recv c t => Sys2Proof.Machine.execRecv c t s
  | .wait c t => Sys2Proof.Machine.execWait c t s
  | .cue c t => Sys2Proof.Machine.execCue c t s
  | .curt c t => Sys2Proof.Machine.execCurt c t s
  | .matrixStepStart c => Sys2Proof.Machine.execMatrixStepStart c s
  | .matrixStepRetire c => Sys2Proof.Machine.execMatrixStepRetire c s
  | .epilogueStart c => Sys2Proof.Machine.execEpilogueStart c s
  | .epilogueEnd c => Sys2Proof.Machine.execEpilogueEnd c s
  | .elementRunStart c => Sys2Proof.Machine.execElementRunStart c s
  | .elementRunEnd c => Sys2Proof.Machine.execElementRunEnd c s
  | .rowMoveStart c => Sys2Proof.Machine.execRowMoveStart c s
  | .rowMoveComplete c uid => Sys2Proof.Machine.execRowMoveComplete c uid s
  | .cacheFillLands c line => Sys2Proof.Machine.execCacheFillLands c line s
  | .transferComplete c uid => Sys2Proof.Machine.execTransferComplete c uid s
  | .rowRead addr link ecc => Sys2Proof.Machine.execRowRead addr link ecc s
  | .rowWrite addr => Sys2Proof.Machine.execRowWrite addr s
  | .partialWrite addr => Sys2Proof.Machine.execPartialWrite addr s
  | .refresh ch rate hot waited => Sys2Proof.Machine.execRefresh ch rate hot waited s
  | .retrain ch ok waited => Sys2Proof.Machine.execRetrain ch ok waited s
  | .taskSubmit house => Sys2Proof.Machine.execTaskSubmit house s
  | .predecessorResolve k => Sys2Proof.Machine.execPredecessorResolve k s
  | .predicateRead k => Sys2Proof.Machine.execPredicateRead k s
  | .taskStart anchor => Sys2Proof.Machine.execTaskStart anchor s
  | .handlerDispatch c => Sys2Proof.Machine.execHandlerDispatch c s
  | .taskComplete anchor => Sys2Proof.Machine.execTaskComplete anchor s
  | .fanListRead k => Sys2Proof.Machine.execFanListRead k s
  | .fanChildCreate k => Sys2Proof.Machine.execFanChildCreate k s
  | .shareTick => Sys2Proof.Machine.execShareTick s
  | .preemptLapse anchor => Sys2Proof.Machine.execPreemptLapse anchor s
  | .saveBegin anchor => Sys2Proof.Machine.execSaveBegin anchor s
  | .saveComplete anchor => Sys2Proof.Machine.execSaveComplete anchor s
  | .restoreBegin anchor => Sys2Proof.Machine.execRestoreBegin anchor s
  | .restoreComplete anchor => Sys2Proof.Machine.execRestoreComplete anchor s
  | .stgPreemptReq by_ d v => Sys2Proof.Machine.execStgPreemptReq by_ d v s
  | .seatEnable by_ seat v => Sys2Proof.Machine.execSeatEnable by_ seat v s
  | .seatDisable by_ seat v => Sys2Proof.Machine.execSeatDisable by_ seat v s
  | .stgShareCfg by_ v => Sys2Proof.Machine.execStgShareCfg by_ v s
  | .cueRemoteAdd c => Sys2Proof.Machine.execCueRemoteAdd c s
  | .wireForward cl => Sys2Proof.Machine.execWireForward cl s
  | .cueInEdge n => Sys2Proof.Machine.execCueInEdge n s
  | .curtainRelease node => Sys2Proof.Machine.execCurtainRelease node s
  | .packageCurtainTimeout p => Sys2Proof.Machine.execPackageCurtainTimeout p s
  | .messageArrive c q => Sys2Proof.Machine.execMessageArrive c q s
  | .creditReturn c r => Sys2Proof.Machine.execCreditReturn c r s
  | .channelWatchdog c t => Sys2Proof.Machine.execChannelWatchdog c t s
  | .cueSheetSlot d => Sys2Proof.Machine.execCueSheetSlot d s
  | .houseSlot d scrub golden => Sys2Proof.Machine.execHouseSlot d scrub golden s
  | .prompterRepair d => Sys2Proof.Machine.execPrompterRepair d s
  | .beatMonitorWindow d loops temps => Sys2Proof.Machine.execBeatMonitorWindow d loops temps s
  | .monitorCalibration d loops => Sys2Proof.Machine.execMonitorCalibration d loops s
  | .demandSnapshot d => Sys2Proof.Machine.execDemandSnapshot d s
  | .controlPeriod => Sys2Proof.Machine.execControlPeriod s
  | .rateTableRefresh d j => Sys2Proof.Machine.execRateTableRefresh d j s
  | .avsTransactionComplete link kind ok => Sys2Proof.Machine.execAvsTransactionComplete link kind ok s
  | .pceStatAvsClear by_ v => Sys2Proof.Machine.execPceStatAvsClear by_ v s
  | .trvBmonClr by_ d v => Sys2Proof.Machine.execTrvBmonClr by_ d v s
  | .timebaseAlign => Sys2Proof.Machine.execTimebaseAlign s
  | .ppsEdge => Sys2Proof.Machine.execPpsEdge s
  | .holdover => Sys2Proof.Machine.execHoldover s
  | .timSet by_ v => Sys2Proof.Machine.execTimSet by_ v s
  | .portTraining n ok => Sys2Proof.Machine.execPortTraining n ok s
  | .portDown n cause => Sys2Proof.Machine.execPortDown n cause s
  | .dataFlit n flit fec => Sys2Proof.Machine.execDataFlit n flit fec s
  | .idleFlit n flit fec => Sys2Proof.Machine.execIdleFlit n flit fec s
  | .nak n flit fec => Sys2Proof.Machine.execNak n flit fec s
  | .timeFlit n flit fec => Sys2Proof.Machine.execTimeFlit n flit fec s
  | .timeFlitSend n => Sys2Proof.Machine.execTimeFlitSend n s
  | .packetForward e => Sys2Proof.Machine.execPacketForward e s
  | .escapeTimeout e n => Sys2Proof.Machine.execEscapeTimeout e n s
  | .fabricDoorbell q => Sys2Proof.Machine.execFabricDoorbell q s
  | .fabricDescriptorStart q => Sys2Proof.Machine.execFabricDescriptorStart q s
  | .put e => Sys2Proof.Machine.execPut e s
  | .getReq e => Sys2Proof.Machine.execGetReq e s
  | .getResp e => Sys2Proof.Machine.execGetResp e s
  | .signal e => Sys2Proof.Machine.execSignal e s
  | .signalAdd e => Sys2Proof.Machine.execSignalAdd e s
  | .red e => Sys2Proof.Machine.execRed e s
  | .ack e => Sys2Proof.Machine.execAck e s
  | .curtArrive n => Sys2Proof.Machine.execCurtArrive n s
  | .curtRelease n => Sys2Proof.Machine.execCurtRelease n s
  | .brk e => Sys2Proof.Machine.execBrk e s
  | .ackTimeout e n => Sys2Proof.Machine.execAckTimeout e n s
  | .fabSwap by_ v => Sys2Proof.Machine.execFabSwap by_ v s
  | .injectStop by_ v => Sys2Proof.Machine.execInjectStop by_ v s
  | .fabCfgWrite by_ v => Sys2Proof.Machine.execFabCfgWrite by_ v s
  | .circuitTableWrite by_ c half v => Sys2Proof.Machine.execCircuitTableWrite by_ c half v s
  | .retrainPort by_ n => Sys2Proof.Machine.execRetrainPort by_ n s
  | .clearHighWater by_ n => Sys2Proof.Machine.execClearHighWater by_ n s
  | .cfgLoad by_ v => Sys2Proof.Machine.execCfgLoad by_ v s
  | .cfgLoadDoorbell => Sys2Proof.Machine.execCfgLoadDoorbell s
  | .scriptCheck => Sys2Proof.Machine.execScriptCheck s
  | .scriptCommit mismatched => Sys2Proof.Machine.execScriptCommit mismatched s
  | .sceneQuietTimeout => Sys2Proof.Machine.execSceneQuietTimeout s
  | .chainData block => Sys2Proof.Machine.execChainData block s
  | .chainEnd block => Sys2Proof.Machine.execChainEnd block s
  | .abort block => Sys2Proof.Machine.execAbort block s
  | .chainIdle block => Sys2Proof.Machine.execChainIdle block s
  | .chainIdleSend => Sys2Proof.Machine.execChainIdleSend s
  | .chainPositionTimeout => Sys2Proof.Machine.execChainPositionTimeout s
  | .upstreamTimeout => Sys2Proof.Machine.execUpstreamTimeout s
  | .submissionDoorbell port ring v => Sys2Proof.Machine.execSubmissionDoorbell port ring v s
  | .ringEntryRead ring entries => Sys2Proof.Machine.execRingEntryRead ring entries s
  | .completionHeadDoorbell port ring v => Sys2Proof.Machine.execCompletionHeadDoorbell port ring v s
  | .completionTimeThreshold ring => Sys2Proof.Machine.execCompletionTimeThreshold ring s
  | .functionLevelReset port => Sys2Proof.Machine.execFunctionLevelReset port s
  | .hstWin by_ port v => Sys2Proof.Machine.execHstWin by_ port v s
  | .bar2Access port off acc => Sys2Proof.Machine.execBar2Access port off acc s
  | .registerWrite by_ off width v => Sys2Proof.Machine.execRegisterWrite by_ off width v s
  | .cluChHsel by_ cl k v => Sys2Proof.Machine.execCluChHsel by_ cl k v s
  | .memChWaitMax by_ ch v => Sys2Proof.Machine.execMemChWaitMax by_ ch v s
  | .errLogRd by_ v => Sys2Proof.Machine.execErrLogRd by_ v s
  | .pwrLimit by_ v => Sys2Proof.Machine.execPwrLimit by_ v s
  | .stuckRelease by_ v => Sys2Proof.Machine.execStuckRelease by_ v s
  | .pwrGoodAssert => Sys2Proof.Machine.execPwrGoodAssert s
  | .pwrGoodLoss => Sys2Proof.Machine.execPwrGoodLoss s
  | .auxGoodLoss => Sys2Proof.Machine.execAuxGoodLoss s
  | .resetNAssert => Sys2Proof.Machine.execResetNAssert s
  | .resetNRelease => Sys2Proof.Machine.execResetNRelease s
  | .bootAreaRead flash puf => Sys2Proof.Machine.execBootAreaRead flash puf s
  | .firmwareVerify image => Sys2Proof.Machine.execFirmwareVerify image s
  | .rehearsal passed trained rates temps => Sys2Proof.Machine.execRehearsal passed trained rates temps s
  | .baseScriptLoad stream mismatched => Sys2Proof.Machine.execBaseScriptLoad stream mismatched s
  | .bootPortTraining host fabric => Sys2Proof.Machine.execBootPortTraining host fabric s
  | .secProvCtl by_ v => Sys2Proof.Machine.execSecProvCtl by_ v s
  | .ownerRecordBuilt iv => Sys2Proof.Machine.execOwnerRecordBuilt iv s
  | .secExtend by_ v => Sys2Proof.Machine.execSecExtend by_ v s
  | .secQctl by_ v => Sys2Proof.Machine.execSecQctl by_ v s
  | .quoteSign => Sys2Proof.Machine.execQuoteSign s
  | .quoteComplete => Sys2Proof.Machine.execQuoteComplete s
  | .errorLogEntry r => Sys2Proof.Machine.execErrorLogEntry r s
  | .recoveryWindowExpiry => Sys2Proof.Machine.execRecoveryWindowExpiry s
  | .sceneRecovery anchor cluster mismatched => Sys2Proof.Machine.execSceneRecovery anchor cluster mismatched s
  | .refclkLoss => Sys2Proof.Machine.execRefclkLoss s
  | .thermalTrip die sensor celsius => Sys2Proof.Machine.execThermalTrip die sensor celsius s
  | .bandGateOff d b => Sys2Proof.Machine.execBandGateOff d b s
  | .bandPowerUp d b => Sys2Proof.Machine.execBandPowerUp d b s
  | .filteredEdge n level start held => Sys2Proof.Machine.execFilteredEdge n level start held s
  | .stuckInput n => Sys2Proof.Machine.execStuckInput n s
  | .enec => Sys2Proof.Machine.execEnec s
  | .disec => Sys2Proof.Machine.execDisec s
  | .rstdaa => Sys2Proof.Machine.execRstdaa s
  | .entdaa addr => Sys2Proof.Machine.execEntdaa addr s
  | .setdasa addr => Sys2Proof.Machine.execSetdasa addr s
  | .setnewda addr => Sys2Proof.Machine.execSetnewda addr s
  | .setmwl n => Sys2Proof.Machine.execSetmwl n s
  | .setmrl n => Sys2Proof.Machine.execSetmrl n s
  | .getmwl => Sys2Proof.Machine.execGetmwl s
  | .getmrl => Sys2Proof.Machine.execGetmrl s
  | .getpid => Sys2Proof.Machine.execGetpid s
  | .getbcr => Sys2Proof.Machine.execGetbcr s
  | .getdcr => Sys2Proof.Machine.execGetdcr s
  | .getstatus => Sys2Proof.Machine.execGetstatus s
  | .i3cRead off wide => Sys2Proof.Machine.execI3cRead off wide s
  | .i3cWrite off wide v => Sys2Proof.Machine.execI3cWrite off wide v s
  | .i3cPrivateRead => Sys2Proof.Machine.execI3cPrivateRead s
  | .extest cells => Sys2Proof.Machine.execExtest cells s
  | .idcode => Sys2Proof.Machine.execIdcode s
  | .samplePreload cells => Sys2Proof.Machine.execSamplePreload cells s
  | .extestPulse cells => Sys2Proof.Machine.execExtestPulse cells s
  | .extestTrain cells => Sys2Proof.Machine.execExtestTrain cells s
  | .jtagClamp => Sys2Proof.Machine.execJtagClamp s
  | .highz => Sys2Proof.Machine.execHighz s
  | .bypass code => Sys2Proof.Machine.execBypass code s
  | .testLogicReset => Sys2Proof.Machine.execTestLogicReset s
  | .regacc dr => Sys2Proof.Machine.execRegacc dr s
  | .auxGoodAssert random => Sys2Proof.Machine.execAuxGoodAssert random s
  | .ibiTaken => Sys2Proof.Machine.execIbiTaken s
  | .unlistedCcc code => Sys2Proof.Machine.execUnlistedCcc code s
  | .msixTableWrite port off v => Sys2Proof.Machine.execMsixTableWrite port off v s
  | .bar0RefusedRead by_ off width => Sys2Proof.Machine.execBar0RefusedRead by_ off width s
  | .fabPortCfg by_ n v => Sys2Proof.Machine.execFabPortCfg by_ n v s

end Sys2Proof.Machine
end

