-- ==== Sys2Proof/Machine/CueWords.lean ====
section
/-! DEFINITION. Cue operation words as a whole: what a 64-bit word spells, and the word of each operation (07 R197 R198 R206 R209 to R213
R217 to R223 R227 R229 R230 R232 to R235). The readers are those the meanings of the cue operations use. -/

namespace Sys2Proof.Machine

open Sys2Proof

/-- A cue operation with its fields. -/
inductive CueWord where
  | endOp
  | nop
  | fence (mask : Nat) (scope : Bool)
  | intv
  | loop (x : LoopWord)
  | shop (x : ShopWord)
  | adda (x : AddaWord)
  | ldr (x : LdrWord)
  | str (x : LdrWord)
  | mov (x : MovWord)
  | trd (x : TrdWord)
  | srd (x : SrdWord)
  | gath (x : GathWord)
  | xfer (drow slot : Nat) (sync : Bool) (done : Nat)
  | cinv (x : CinvWord)
  | mat (x : MatWord)
  | maux (x : Maux)
  | run (prog : Nat) (order : Bool) (done : Nat)
  | send (x : SendWord)
  | post (x : SendWord)
  | recv (x : RecvWord)
  | wait (kind sel : Nat) (consume : Bool) (value : Nat)
  | cue (kind sel k value : Nat)
  | curt (c : Nat) (wait : Bool)
  deriving DecidableEq, Repr

/-- The operation that a word spells; reserved opcodes spell none. -/
def readCue (w : Nat) : Option CueWord := match opcode w with
  | 0x00 => some .endOp
  | 0x01 => some .nop
  | 0x02 => some (.fence (fld w 51 7) (bitOf w 50))
  | 0x03 => some .intv
  | 0x04 => some (.loop (loopWord w))
  | 0x05 => some (.shop (shopWord w))
  | 0x06 => some (.adda (addaWord w))
  | 0x08 => some (.ldr (ldrWord w))
  | 0x09 => some (.str (ldrWord w))
  | 0x0A => some (.mov (movWord w))
  | 0x0B => some (.trd (trdWord w))
  | 0x0C => some (.srd (srdWord w))
  | 0x0D => some (.gath (gathWord w))
  | 0x0E => some (.xfer (fld w 51 7) (fld w 48 3) (bitOf w 47) (fld w 42 5))
  | 0x0F => some (.cinv (cinvWord w))
  | 0x10 => some (.mat (matWord w))
  | 0x11 => some (.maux (mauxWord w))
  | 0x12 => some (.run (fld w 54 4) (bitOf w 53) (fld w 48 5))
  | 0x18 => some (.send (sendWord w))
  | 0x19 => some (.post (sendWord w))
  | 0x1A => some (.recv (recvWord w))
  | 0x1C => some (.wait (fld w 56 2) (fld w 49 7) (bitOf w 48) (fld w 32 16))
  | 0x1D => some (.cue (fld w 56 2) (fld w 50 6) (fld w 46 4) (fld w 30 16))
  | 0x1E => some (.curt (fld w 54 4) (bitOf w 53))
  | _ => none

/-- Fields at their places: (value, lowest bit), added up. -/
def putFields (l : List (Nat × Nat)) : Nat := (l.map (fun x => x.1 * 2 ^ x.2)).sum

/-- The word of an operation: opcode in [63:58], each field at its place, reserved bits 0. -/
def writeCue : CueWord → Nat
  | .endOp => 0
  | .nop => putFields [(Op.NOP, 58)]
  | .fence m s => putFields [(Op.FENCE, 58), (m, 51), (s.toNat, 50)]
  | .intv => putFields [(Op.INTV, 58)]
  | .loop x => putFields [(Op.LOOP, 58), (x.lvl, 56), (x.stop, 46), (x.src.toNat, 45), (x.reg, 41), (x.sh, 36), (x.imm, 11)]
  | .shop x => putFields [(Op.SHOP, 58), (x.d, 54), (x.a, 50), (x.b, 46), (x.fn, 43), (x.bimm.toNat, 42), (x.alc.toNat, 41), (x.lvl, 39), (x.imm, 7)]
  | .adda x => putFields [(Op.ADDA, 58), (x.d, 55), (x.a, 52), (x.b, 48), (x.useb.toNat, 47), (x.sh, 42), (x.imm, 10)]
  | .ldr x => putFields [(Op.LDR, 58), (x.place, 46), (x.preg, 43), (x.off, 23), (x.cnt, 18), (x.lvl, 16), (x.sreg, 12), (x.ix.toNat, 11),
      (x.cached.toNat, 10), (x.sync.toNat, 9), (x.done, 4)]
  | .str x => putFields [(Op.STR, 58), (x.place, 46), (x.preg, 43), (x.off, 23), (x.cnt, 18), (x.lvl, 16), (x.sreg, 12), (x.ix.toNat, 11),
      (x.cached.toNat, 10), (x.sync.toNat, 9), (x.done, 4)]
  | .mov x => putFields [(Op.MOV, 58), (x.dst, 46), (x.src, 34), (x.n - 1, 29), (x.done, 24)]
  | .trd x => putFields [(Op.TRD, 58), (x.dst, 46), (x.row, 34), (x.j, 29), (x.w, 27), (x.done, 22)]
  | .srd x => putFields [(Op.SRD, 58), (x.dst, 46), (x.row, 34), (x.d, 27), (x.s, 22), (x.done, 17)]
  | .gath x => putFields [(Op.GATH, 58), (x.dst, 46), (x.list, 39), (x.e0, 32), (x.preg, 29), (x.n - 1, 24), (x.sh, 20), (x.sync.toNat, 19), (x.done, 14)]
  | .xfer r s y d => putFields [(Op.XFER, 58), (r, 51), (s, 48), (y.toNat, 47), (d, 42)]
  | .cinv x => putFields [(Op.CINV, 58), (x.all.toNat, 57), (x.preg, 54), (x.off, 34), (x.done, 29)]
  | .mat x => putFields [(Op.MAT, 58), (x.arow, 46), (x.brow, 34), (x.atag, 29), (x.btag, 24), (x.shape, 22), (x.acc.toNat, 21), (x.scan.toNat, 20),
      (x.tile, 18), (x.chain, 14), (x.close.toNat, 13), (x.sreg, 9), (x.done, 4), (x.slc, 2), (x.tri.toNat, 1), (x.aux.toNat, 0)]
  | .maux x => putFields [(Op.MAUX, 58), (x.mrow, 51), (x.pat, 48), (x.amap, 46), (x.bmap, 44), (x.amrow, 37), (x.bmrow, 30), (x.asrow, 23),
      (x.bsrow, 16), (x.count, 3)]
  | .run p o d => putFields [(Op.RUN, 58), (p, 54), (o.toNat, 53), (d, 48)]
  | .send x => putFields [(Op.SEND, 58), (x.src, 46), (x.slot, 42), (x.route, 38), (x.done, 33)]
  | .post x => putFields [(Op.POST, 58), (x.src, 46), (x.slot, 42), (x.route, 38), (x.done, 33)]
  | .recv x => putFields [(Op.RECV, 58), (x.dst, 46), (x.slot, 42), (x.q, 37), (x.done, 32)]
  | .wait k s c v => putFields [(Op.WAIT, 58), (k, 56), (s, 49), (c.toNat, 48), (v, 32)]
  | .cue k s n v => putFields [(Op.CUE, 58), (k, 56), (s, 50), (n, 46), (v, 30)]
  | .curt c w => putFields [(Op.CURT, 58), (c, 54), (w.toNat, 53)]

def below (n v : Nat) : Bool := decide (v < 2 ^ n)

/-- Every field fits its bits. -/
def CueWord.fits : CueWord → Bool
  | .endOp | .nop | .intv => true
  | .fence m _ => below 7 m
  | .loop x => below 2 x.lvl && below 10 x.stop && below 4 x.reg && below 5 x.sh && below 25 x.imm
  | .shop x => below 4 x.d && below 4 x.a && below 4 x.b && below 3 x.fn && below 2 x.lvl && below 32 x.imm
  | .adda x => below 3 x.d && below 3 x.a && below 4 x.b && below 5 x.sh && below 32 x.imm
  | .ldr x | .str x => below 12 x.place && below 3 x.preg && below 20 x.off && below 5 x.cnt && below 2 x.lvl && below 4 x.sreg && below 5 x.done
  | .mov x => below 12 x.dst && below 12 x.src && decide (1 ≤ x.n) && decide (x.n ≤ 32) && below 5 x.done
  | .trd x => below 12 x.dst && below 12 x.row && below 5 x.j && below 2 x.w && below 5 x.done
  | .srd x => below 12 x.dst && below 12 x.row && below 7 x.d && below 5 x.s && below 5 x.done
  | .gath x => below 12 x.dst && below 7 x.list && below 7 x.e0 && below 3 x.preg && decide (1 ≤ x.n) && decide (x.n ≤ 32) && below 4 x.sh && below 5 x.done
  | .xfer r s _ d => below 7 r && below 3 s && below 5 d
  | .cinv x => below 3 x.preg && below 20 x.off && below 5 x.done
  | .mat x => below 12 x.arow && below 12 x.brow && below 5 x.atag && below 5 x.btag && below 2 x.shape && below 2 x.tile && below 4 x.chain &&
      below 4 x.sreg && below 5 x.done && below 2 x.slc
  | .maux x => below 7 x.mrow && below 3 x.pat && below 2 x.amap && below 2 x.bmap && below 7 x.amrow && below 7 x.bmrow && below 7 x.asrow &&
      below 7 x.bsrow && below 13 x.count
  | .run p _ d => below 4 p && below 5 d
  | .send x | .post x => below 12 x.src && below 4 x.slot && below 4 x.route && below 5 x.done
  | .recv x => below 12 x.dst && below 4 x.slot && below 5 x.q && below 5 x.done
  | .wait k s _ v => below 2 k && below 7 s && below 16 v
  | .cue k s n v => below 2 k && below 6 s && below 4 n && below 16 v
  | .curt c _ => below 4 c

end Sys2Proof.Machine
end

