-- ==== Sys2Proof/Machine/Flags.lean ====
section
/-! DEFINITION. Event flags: the W1C registers and what a write leaves of them, and the events that MSI-X vector 0 signals (00 R13 R16,
16 R499). The N8 has no condition codes. -/

namespace Sys2Proof.Machine

open Sys2Proof

/-- The flags of the register of row `r` that a write of `v` leaves set. -/
def RegRow.flagsAfter (r : RegRow) (old v : W64) : W64 := r.written old v &&& BitVec.ofNat 64 r.w1c

/-- Rows that hold event flags. -/
def eventRows : List RegRow := Reg.map.filter (fun r => r.w1c != 0)

/-- Rows whose event bits vector 0 of each port signals (16 R499). -/
def signallingRows : List RegRow := [Reg.HST_REFUSE, Reg.HST_RING_STAT, Reg.ERR_STAT]

/-- Whether any event flag of the register at `off` is set. -/
def Part.flagged (p : Part) (off : Nat) : Bool := match findReg off Reg.map with
  | some (r, _) => (p.reg off &&& BitVec.ofNat 64 r.w1c) != 0
  | none => false

end Sys2Proof.Machine
end

