-- ==== Sys2Proof/WellFormed.lean ====
section
/-! DEFINITION. Operands that name something the part has (01 R17 to R24, 06 R167, 09 R275, 10 R298 R315, 11 R334 R340 R344, 12 R359 R366,
13 R382, 14 R406 R419 R425 R437, 16 R485 R490, 19 R563 R570, 17 R575): an ill-formed command names an element that does not exist. -/

namespace Sys2Proof

namespace WellFormed

def coreNum (c : Nat) : Bool := decide (c < 25600)
def thread (t : Nat) : Bool := decide (t < 8)
def cluster (cl : Nat) : Bool := decide (cl < 1600)
def cdie (d : Nat) : Bool := decide (d < 4)
def edie (e : Nat) : Bool := decide (e < 2)
def hostPort (p : Nat) : Bool := decide (p < 2)
def fabricPort (n : Nat) : Bool := decide (n < 16)
def ring (i : Nat) : Bool := decide (i < 1024)
def fabricQueue (q : Nat) : Bool := decide (q < 64)
def channel (ch : Nat) : Bool := decide (ch < 128)
def sixteen (q : Nat) : Bool := decide (q < 16)
def address (a : Nat) : Bool := decide (a < 2 ^ 48)
def seat (s : Nat) : Bool := decide (s < 4096)
def packageCurtain (p : Nat) : Bool := decide (p < 64)
def agent : Agent → Bool
  | .host p => hostPort p
  | .house => true
def width (w : Nat) : Bool := w == 4 || w == 8
def flit (b : List Byte) : Bool := b.length == 256
def dataBlock (b : List Byte) : Bool := b.length == 4104
def shortBlock (b : List Byte) : Bool := b.length == 8

/-- A node names its cluster and one of 16 curtains, or one of 64 package curtains. -/
def node : CurtNode → Bool
  | .cluster cl c => cluster cl && sixteen c
  | .scene a c => cluster a && sixteen c
  | .package p => packageCurtain p

/-- A scrub finds its word at an address. -/
def scrub : Scrub → Bool
  | .clean => true
  | .single a => address a
  | .double a => address a

/-- A link's second rail exists on links 0 and 1 (12 R369). -/
def avs (link : Nat) : Avs → Bool
  | .write => true
  | .current r _ => decide (r = 0) || (decide (r = 1) && decide (link < 2))
  | .temp r _ => decide (r = 0) || (decide (r = 1) && decide (link < 2))

/-- A C-die has 16 thermal sensors, an M-die or E-die four (19 R566). -/
def sensor (die n : Nat) : Bool := if die < 4 then decide (n < 16) else decide (die < 8) && decide (n < 4)

/-- The source codes of 18 R551 lie below 0x94, domains below 5, dies below 8. -/
def report (r : Report) : Bool :=
  decide (r.source < 0x94) && decide (r.domain < 5) && decide (r.die < 8) && decide (r.place < 2 ^ 16) && decide (r.core < 256) &&
  decide (r.unit < 256) && address r.addr

/-- A BAR2 access moves at least one byte. -/
def bar2 : Bar2 → Bool
  | .read n => decide (0 < n)
  | .write b => !b.isEmpty

/-- The CCCs that the target supports (19 R575), by their codes in MIPI I3C Basic (log 40). -/
def listedCcc : List Nat :=
  [0x00, 0x80, 0x01, 0x81, 0x06, 0x07, 0x87, 0x88, 0x09, 0x89, 0x0A, 0x8A, 0x8B, 0x8C, 0x8D, 0x8E, 0x8F, 0x90]

/-- The JTAG codes that select another register than BYPASS (19 R578). -/
def listedJtag : List Nat := [0x00, 0x01, 0x02, 0x03, 0x04, 0x05, 0x06, 0x20]

end WellFormed

open WellFormed

/-- Every operand names something that exists. -/
def Instr.wf : Instr → Bool
  | .endOp c t | .nop c t | .fence c t | .intv c t | .loop c t | .shop c t | .adda c t | .ldr c t | .str c t | .mov c t | .trd c t
  | .srd c t | .gath c t | .xfer c t | .cinv c t | .mat c t | .maux c t | .run c t | .send c t | .post c t | .recv c t | .wait c t
  | .cue c t | .curt c t | .channelWatchdog c t => coreNum c && thread t
  | .matrixStepStart c | .matrixStepRetire c | .epilogueStart c | .epilogueEnd c | .elementRunStart c | .elementRunEnd c
  | .rowMoveStart c | .handlerDispatch c | .cueRemoteAdd c => coreNum c
  | .rowMoveComplete c _ | .cacheFillLands c _ | .transferComplete c _ => coreNum c
  | .messageArrive c q | .creditReturn c q => coreNum c && sixteen q
  | .rowRead a _ _ | .rowWrite a | .partialWrite a => address a
  | .refresh ch _ _ _ | .retrain ch _ _ | .memChWaitMax _ ch _ => channel ch
  | .taskStart a | .taskComplete a | .preemptLapse a | .saveBegin a | .saveComplete a | .restoreBegin a | .restoreComplete a
  | .wireForward a => cluster a
  | .sceneRecovery a cl _ => cluster a && decide (cl ≤ 1600)
  | .stgPreemptReq by_ d _ | .trvBmonClr by_ d _ => agent by_ && cdie d
  | .seatEnable by_ s _ | .seatDisable by_ s _ => agent by_ && seat s
  | .stgShareCfg by_ _ | .pceStatAvsClear by_ _ | .timSet by_ _ | .fabSwap by_ _ | .injectStop by_ _ | .fabCfgWrite by_ _ | .cfgLoad by_ _
  | .errLogRd by_ _ | .pwrLimit by_ _ | .stuckRelease by_ _ | .secProvCtl by_ _ | .secExtend by_ _ | .secQctl by_ _ => agent by_
  | .cueInEdge i => decide (i < 8)
  | .curtainRelease n => node n
  | .packageCurtainTimeout p => packageCurtain p
  | .cueSheetSlot d | .prompterRepair d | .beatMonitorWindow d _ _ | .monitorCalibration d _ | .demandSnapshot d => cdie d
  | .houseSlot d x _ => cdie d && scrub x
  | .rateTableRefresh d j => cdie d && decide (j < 15)
  | .avsTransactionComplete l k _ => cdie l && avs l k
  | .portTraining n _ | .timeFlitSend n | .curtArrive n | .curtRelease n => fabricPort n
  | .portDown n cause => fabricPort n && decide (1 ≤ cause) && decide (cause ≤ 3)
  | .dataFlit n b _ | .idleFlit n b _ | .nak n b _ | .timeFlit n b _ => fabricPort n && flit b
  | .packetForward e | .put e | .getReq e | .getResp e | .signal e | .signalAdd e | .red e | .ack e | .brk e => edie e
  | .escapeTimeout e _ | .ackTimeout e _ => edie e
  | .fabricDoorbell q | .fabricDescriptorStart q => fabricQueue q
  | .circuitTableWrite by_ c half _ => agent by_ && decide (c < 4096) && decide (half < 2)
  | .retrainPort by_ n | .clearHighWater by_ n | .fabPortCfg by_ n _ => agent by_ && fabricPort n
  | .chainData b => dataBlock b
  | .chainEnd b | .abort b | .chainIdle b => shortBlock b
  | .submissionDoorbell p r _ | .completionHeadDoorbell p r _ => hostPort p && ring r
  | .ringEntryRead r _ | .completionTimeThreshold r => ring r
  | .functionLevelReset p => hostPort p
  | .hstWin by_ p _ => agent by_ && hostPort p
  | .bar2Access p _ x => hostPort p && bar2 x
  | .registerWrite by_ _ w _ | .bar0RefusedRead by_ _ w => agent by_ && width w
  | .cluChHsel by_ cl k _ => agent by_ && cluster cl && sixteen k
  | .thermalTrip d n _ => sensor d n
  | .bandGateOff d b | .bandPowerUp d b => cdie d && decide (b < 40)
  | .filteredEdge i _ _ _ | .stuckInput i => decide (i < 9)
  | .errorLogEntry r => report r
  | .ownerRecordBuilt iv => iv.length == 12
  | .unlistedCcc code => !listedCcc.elem code.toNat
  | .bypass code => !listedJtag.elem code.toNat
  | .msixTableWrite p off _ => hostPort p && decide (off < 2 ^ 20)
  | .rehearsal passed _ _ _ => passed.length == 4
  | .taskSubmit (some b) => b.length == 128
  | .taskSubmit none => true
  | .predecessorResolve _ | .predicateRead _ | .fanListRead _ | .fanChildCreate _ | .shareTick | .controlPeriod | .timebaseAlign | .ppsEdge
  | .holdover | .cfgLoadDoorbell | .scriptCheck | .scriptCommit _ | .sceneQuietTimeout | .chainIdleSend | .chainPositionTimeout
  | .upstreamTimeout | .pwrGoodAssert | .pwrGoodLoss | .auxGoodLoss | .resetNAssert | .resetNRelease | .bootAreaRead _ _ | .firmwareVerify _
  | .baseScriptLoad _ _ | .bootPortTraining _ _ | .quoteSign | .quoteComplete | .recoveryWindowExpiry | .refclkLoss | .enec | .disec
  | .rstdaa | .entdaa _ | .setdasa _ | .setnewda _ | .setmwl _ | .setmrl _ | .getmwl | .getmrl | .getpid | .getbcr | .getdcr | .getstatus
  | .i3cRead _ _ | .i3cWrite _ _ _ | .i3cPrivateRead | .extest _ | .idcode | .samplePreload _ | .extestPulse _ | .extestTrain _ | .jtagClamp
  | .highz | .testLogicReset | .regacc _ | .auxGoodAssert _ | .ibiTaken => true

end Sys2Proof
end

