-- ==== Sys2Proof/Safety.lean ====
section
/-! DEFINITION. What statements about a run speak of: storage in canonical form, a running part, well-formed queues. -/

namespace Sys2Proof.Machine

open Sys2Proof

/-- The byte memory is in its canonical form. -/
def State.memOk (s : State) : Bool := Memory.wf s.part.mem

/-- The register file is in its canonical form. -/
def State.regsOk (s : State) : Bool := Tab.wf 0 s.part.regs

/-- The table of cores is in its canonical form. -/
def State.coresOk (s : State) : Bool := Tab.wf Core.reset s.part.cores

/-- READY, neither in blackout nor tripped. -/
def State.running (s : State) : Bool := decide (s.part.phase = .ready)

/-- Every command that waits names things that exist. -/
def State.queueOk (s : State) : Bool := s.pending.all Instr.wf

/-- Thread `t` of core `c` issues an operation of opcode `op` in this beat (06 R170). -/
def State.mayIssue (s : State) (c t op : Nat) : Prop := s.part.phase = .ready ∧ s.part.issues c t op = true

/-- Every byte of memory reads as before. -/
def State.sameBytes (s u : State) : Prop := ∀ a, u.part.byteAt a = s.part.byteAt a

/-- Every register but those of `l` reads as before. -/
def State.sameRegs (s u : State) (l : List Nat) : Prop := ∀ o, o ∉ l → u.part.reg o = s.part.reg o

/-- Every core but those of `l` is as before. -/
def State.sameCores (s u : State) (l : List Nat) : Prop := ∀ c, c ∉ l → u.part.core c = s.part.core c

/-- What one issue on core `c` may change: that core, its issue count, which rises by one, its count of entries into quiescence, which
may rise by one, and the number of operations named. Nothing else of the part changes: no other core, no other register, no byte. -/
def State.issueFrame (s u : State) (c : Nat) : Prop :=
  u = { s with part := { s.part with cores := u.part.cores, regs := u.part.regs, uid := u.part.uid } } ∧
  s.sameCores u [c] ∧ s.sameRegs u [coreReg Reg.CORE_ISSUED c [], coreReg Reg.CORE_SLEEPS c []] ∧
  u.part.reg (coreReg Reg.CORE_ISSUED c []) = s.part.reg (coreReg Reg.CORE_ISSUED c []) + 1 ∧
  (u.part.reg (coreReg Reg.CORE_SLEEPS c []) = s.part.reg (coreReg Reg.CORE_SLEEPS c []) ∨
    u.part.reg (coreReg Reg.CORE_SLEEPS c []) = s.part.reg (coreReg Reg.CORE_SLEEPS c []) + 1) ∧
  s.sameBytes u

/-- A core whose thread `t` has issued: its slot in the beat is taken and it has moved on (06 R170, 07 R199). -/
def Core.stepped (k : Core) (t : Nat) : Core := (k.beat t).onTh t Thread.advance

/-- Core `c`'s thread `t` has issued a row move, and the move stands last in the unit's queue of that core with the values it took at issue
(07 R204 R213): the thread has moved on, or waits for its own move with why = 4 where `sync` is set. Nothing else of the core changes. -/
def State.movesOn (s u : State) (c t : Nat) (what : Move) (done : Nat) (sync : Bool) : Prop :=
  s.issueFrame u c ∧ u.part.uid = s.part.uid + 1 ∧
  u.part.core c = { ((s.part.core c).beat t).onTh t (fun x =>
      if sync then { x.advance with st := .wait, why := 4, on := .oper s.part.uid } else x.advance) with
    moveq := (s.part.core c).moveq ++
      [{ uid := s.part.uid, thread := t, what := what, done := done, sync := sync, looked := false, data := [], since := none }] }

/-- The same state once the accesses to core memory views that need wait no longer are done (06 R194). -/
def State.served (s : State) : State := { s with part := s.part.pumpViews }

/-- The counts of entries into quiescence of core `c`, or of both cores of its two-hander (06 R196). -/
def State.sleeps (s : State) (c : Nat) : List Nat := (s.part.pairOf c).map (fun x => coreReg Reg.CORE_SLEEPS x [])

/-- A command on core `c` whose own effect leaves the part as `q`: its effect `f q` on the threads that it frees, its entries into quiescence,
and the accesses to core memory views that it frees follow (06 R172 R175 R176 R194). -/
def State.after (s : State) (c : Nat) (q : Part) (f : Part → Part) : State :=
  { s with part := (s.part.resting (s.part.pairOf c) (fun _ => f q)).pumpViews }

/-- A command on core `c` that leaves the part as `q`, with entries into quiescence counted (06 R175 R196). -/
def State.rested (s : State) (c : Nat) (q : Part) : State := { s with part := s.part.resting (s.part.pairOf c) (fun _ => q) }

/-- A beat of die `d` that leaves the part as `q`: the accesses to core memory views that it frees follow, and the beat is counted (06 R194, 09 R258). -/
def State.beaten (s : State) (d : Nat) (q : Part) : State := { s with part := q.pumpViews.bump (Reg.TRV_BEAT.at [d]) 1 }

/-- Core `d` is as before but for its side records and what a unit keeps under way. -/
def State.sameCoreBut (s u : State) (d : Nat) (f : Core → Core) : Prop := f { u.part.core d with sides := [] } = f { s.part.core d with sides := [] }

/-- No thread of the core waits or stalls. -/
def Core.calm (k : Core) : Prop := k.threads.length = 8 ∧ ∀ th ∈ k.threads, th.on = .nothing

/-- The counters of a core once a completion field is reached (07 R201). -/
def Core.counted (k : Core) (done : Nat) : List W32 :=
  if bitOf done 4 then k.cnt.set (fld done 0 4) (k.cnt.getD (fld done 0 4) 0 + 1) else k.cnt

/-- The counter that a completion field names stays below 2^32 (11 R330). -/
def Core.countFits (k : Core) (done : Nat) : Prop := bitOf done 4 = true → (k.cnt.getD (fld done 0 4) 0).toNat + 1 < 2 ^ 32

/-- Nothing of the part changes but what is named: the part with its cores, registers, memory with its tags and marks, requests and
transfers taken from `q` is `q`. -/
def Part.sameRest (p q : Part) : Prop :=
  q = { p with cores := q.cores, regs := q.regs, mem := q.mem, tagErr := q.tagErr, poison := q.poison, reqs := q.reqs, xfers := q.xfers,
               uid := q.uid }

/-- The registers that reads of bytes `a` to `a + n - 1` may count in or mark (13 R404, 19 R564). -/
def readMarks (a n : Nat) : List Nat :=
  (List.range ((a + n - 1) / 512 - a / 512 + 1)).map (fun i => chanReg Reg.MEM_CH_RD (512 * (a / 512 + i))) ++
  (List.range 4).map (fun d => Reg.PWR_DOM_C.at [d])

/-- `t'` is the READY task `t`, or that task put on the callboard of a replica whose region is not dark (10 R309, 15 R475). -/
def State.placedOr (s : State) (t t' : Task) : Prop :=
  t' = t ∨ ∃ r ∈ s.part.stg.replicas, r.dark = false ∧ t' = { t with st := .placed, anchor := some r.anchor }

/-- The task's home die, seat and share group exist. -/
def Task.fits (t : Task) : Prop := t.home < 4 ∧ t.seat < 4096 ∧ t.group < 64

/-- An agent that is present makes an access of `width` bytes that is not refused (16 R489). -/
def State.mayAccess (s : State) (by_ : Agent) (off width : Nat) : Prop := s.part.present by_ = true ∧ s.part.accessOk off width = true

/-- The registers of `l` are all that changes. -/
def State.onlyRegs (s u : State) (l : List Nat) : Prop :=
  u = { s with part := { s.part with regs := u.part.regs } } ∧ s.sameRegs u l ∧ s.sameBytes u ∧ s.sameCores u []

/-- The rows whose writes do more or less than their access codes say, each with a rule of its own. -/
def ownWrites : List RegRow :=
  [Reg.HST_WIN, Reg.HST_SQ_BASE, Reg.HST_CQ_BASE, Reg.HST_SQ_CFG, Reg.HST_CQ_CFG, Reg.CFG_LOAD, Reg.SEC_EXTEND_DIGEST, Reg.SEC_PROV_KEY,
   Reg.SEC_PROV_OWNER, Reg.SEC_EXTEND, Reg.SEC_PROV_CTL, Reg.SEC_QCTL, Reg.TIM_CFG, Reg.TIM_SET, Reg.PCE_CFG, Reg.PCE_STAT, Reg.TRV_BMON_CLR,
   Reg.ERR_CFG, Reg.ERR_LOG_RD, Reg.PWR_LIMIT, Reg.PWR_IN_STAT, Reg.STG_SHARE_CFG, Reg.STG_SEAT_CFG, Reg.STG_PREEMPT_REQ, Reg.MEM_RETRAIN_CFG,
   Reg.FAB_CFG, Reg.FAB_SWAP, Reg.FAB_CTL, Reg.FAB_RT, Reg.FAB_CIRC, Reg.FAB_CIRC_SLOTS, Reg.FAB_PORT_CFG, Reg.FAB_PORT_CTL, Reg.CLU_CH_HSEL,
   Reg.CORE_CHR, Reg.CORE_VCONST]

/-- Port `n`, the registers of `l` and what goes out are all that changes. -/
def State.onlyPort (s u : State) (n : Nat) (l : List Nat) : Prop :=
  u = { s with part := { s.part with fab := { s.part.fab with ports := u.part.fab.ports }, regs := u.part.regs, out := u.part.out } } ∧
  (∀ m, m ≠ n → u.part.port m = s.part.port m) ∧ s.sameRegs u l

/-- The ACK of a request with header `h`. -/
def Part.ackTo (p : Part) (h : Hdr) (e status : Nat) : Transit :=
  ⟨⟨({ p.header h.src 2 Pkt.ACK with job := h.job, addr := h.addr, arg := status, xid := h.xid } : Hdr).bytes, [], none⟩, e, 2, p.tim.interval, true⟩

/-- The part has gone into blackout with a cause and a named code: CFG_FAIL_N low, both host ports down, ABORT the last on its chain output
(15 R469 R470). -/
def State.darkFor (s u : State) (cause named : Nat) : Prop :=
  u.part.phase = .blackout ∧ u.part.pwr.cfgFailN = false ∧ u.part.regN (Reg.CFG_CAUSE.at []) = cause + named * 256 ∧ u.part.cfg.st = 3 ∧
  (∀ port < 2, u.part.portUp port = false) ∧
  u.part.out = s.part.out ++ [.chain (s.part.chainHeader 3 ++ leBytes 4 (crc32c (s.part.chainHeader 3)).toNat)]

/-- The chain block of a type and payload that this part sends (15 R467). -/
def Part.blockOut (p : Part) (type : Nat) (x : List Byte) : Output :=
  .chain (p.chainHeader type ++ x ++ leBytes 4 (crc32c (p.chainHeader type ++ x)).toNat)

/-- The part in reset (17 R509, 19 R572): every register but PWR_TRIP at its Reset value, memory, cores, tasks, time, fabric, keys and the chain as
at power-on, in phase `ph`; what it has put out stays. -/
def State.isReset (s u : State) (ph : Phase) : Prop :=
  u.part.phase = ph ∧ (∀ o, o ≠ Reg.PWR_TRIP.at [] → u.part.reg o = resetOf o) ∧ u.part.mem = [] ∧ u.part.cores = [] ∧ u.part.clusters = [] ∧
  u.part.stg = Stage.reset ∧ u.part.tim = Time.reset ∧ u.part.fab = Fabric.reset ∧ u.part.cfg = Script.reset ∧ u.part.sec = Security.reset ∧
  u.part.chain = Chain.reset ∧ u.part.hst = HostPorts.reset ∧ u.part.err = Errors.reset ∧ u.part.out = s.part.out

/-- Mask ROM runs (17 R508, 19 R560): step 4 is reached, slot 0 holds the measurement of mask ROM, E0's house processors and security engine are
on. -/
def State.romRuns (s u : State) : Prop :=
  u.part.phase = .rom ∧ u.part.regFld (Reg.SEC_BOOT_STAT.at []) 0 4 = 4 ∧ u.part.slot 0 = sha256 (s.part.slot 0 ++ Config.romHash) ∧
  u.part.regN (Reg.PWR_DOM_E.at [0]) = 0x3C00 ∧ u.part.mem = s.part.mem ∧ u.part.out = s.part.out

/-- Boot has failed: the boot cause is shown beside the cause of the blackout (17 R511). -/
def State.bootFails (s u : State) (cause cfg : Nat) : Prop := s.darkFor u cfg 0 ∧ u.part.regFld (Reg.SEC_BOOT_STAT.at []) 8 8 = cause

end Sys2Proof.Machine
end

