-- ==== Sys2Proof/Certificates/Slice0/Obligations.lean ====
section
/-! DEFINITION. What is to be proved of the model: one `Prop` for each statement. -/

open Sys2Proof Sys2Proof.Machine

/-! ### Cue operations -/

/-- 07 R198 R227: NOP and MAUX only issue.
07 R211 R212: a FENCE, and an INTV where no pre-emption of the replica is asked for, issue; where operations that a FENCE names
are outstanding its thread waits with why = 5; where a pre-emption is asked for, an INTV's thread waits with why = 5 and its cue
pointer on the INTV.
07 R206 R207: a LOOP sets LC to 0, stores the count, the address after its own and `end`, and the level is active unless the
count is 0, where the thread goes on at `end` + 1.
07 R205: END leaves its thread IDLE with every loop level cleared. It holds for a handler too, whose queue may then dispatch again
(06 R173). -/
def Obligations.ControlOperationsIssue : Prop :=
  (∀ (s : State) (c t : Nat) (i : Instr) (op : Nat), (i, op) ∈ [(Instr.nop c t, Op.NOP), (Instr.maux c t, Op.MAUX)] →
     s.mayIssue c t op →
     ∃ u, exec i s = .next u ∧ s.issueFrame u c ∧ u.part.core c = (s.part.core c).stepped t ∧ u.part.uid = s.part.uid) ∧
  (∀ (s : State) (c t : Nat),
     (s.mayIssue c t Op.FENCE → ∃ u, exec (.fence c t) s = .next u ∧ s.issueFrame u c ∧
       let w := s.part.wordAt c t
       if (List.range 7).all (fun i => !bitOf (fld w 51 7) i || !s.part.pendingKind c t (bitOf w 50) s.part.uid i) then
         u.part.core c = (s.part.core c).stepped t
       else u.part.core c = ((s.part.core c).beat t).onTh t (fun th =>
         { th.advance with st := .wait, why := 5, on := .fence (BitVec.ofNat 7 (fld w 51 7)) (bitOf w 50) s.part.uid })) ∧
     (s.mayIssue c t Op.INTV → ∃ u, exec (.intv c t) s = .next u ∧ s.issueFrame u c ∧
       if (s.part.replicaAt (clusterOf c)).any (fun r => r.preempt.isSome) then
         (u.part.th c t).ptr = (s.part.th c t).ptr ∧ (t < (s.part.core c).threads.length → (u.part.th c t).st = .wait ∧ (u.part.th c t).why = 5)
       else u.part.core c = (s.part.core c).stepped t)) ∧
  (∀ (s : State) (c t : Nat), s.mayIssue c t Op.LOOP →
     let w := s.part.wordAt c t
     let l : LoopWord := { lvl := fld w 56 2, stop := fld w 46 10, src := bitOf w 45, reg := fld w 41 4, sh := fld w 36 5, imm := fld w 11 25 }
     let th := s.part.th c t
     let n : W32 := if l.src then BitVec.ofNat 32 (((((s.part.core c).asOf t).sh.getD l.reg 0).toNat + 2 ^ l.sh - 1) % 2 ^ 33 / 2 ^ l.sh) else BitVec.ofNat 32 l.imm
     ∃ u, exec (.loop c t) s = .next u ∧ s.issueFrame u c ∧
       u.part.core c = ((s.part.core c).beat t).onTh t (fun x =>
         { x with
           loops := x.loops.set l.lvl { lc := 0, count := n, start := (th.ptr + 1) % 1024, stop := l.stop, active := n != 0 }
           ptr := if n = 0 then (l.stop + 1) % 1024 else (th.ptr + 1) % 1024 })) ∧
  (∀ (s : State) (c t : Nat), s.mayIssue c t Op.END →
     ∃ u, exec (.endOp c t) s = .next u ∧
       (t < (s.part.core c).threads.length →
         (u.part.th c t).st = .idle ∧ (u.part.th c t).on = .nothing ∧ (u.part.th c t).handler = false ∧
         (u.part.th c t).loops = List.replicate 4 LoopLevel.reset) ∧
       ((s.part.th c t).handler = false → s.issueFrame u c ∧
         u.part.core c = ((s.part.core c).beat t).onTh t (fun x => x.advance.ended)) ∧
       ((s.part.th c t).handler = true → (s.part.th c t).queue < 16 → (s.part.th c t).queue < (s.part.core c).queues.length →
         ((u.part.core c).queue (s.part.th c t).queue).running = false) ∧
       s.sameBytes u)

/-- 07 R204 R209: the table of shape register arithmetic over the registers as they stood when the beat began; every other register of the
core stands.
07 R204 R210: P[d] = (P[a] + z + imm) mod 2^48, z from a shape register or 0; every other register of the core stands. -/
def Obligations.ShapeAndPointerArithmetic : Prop :=
  (∀ (s : State) (c t : Nat), s.mayIssue c t Op.SHOP →
     let w := s.part.wordAt c t
     let o : ShopWord := { d := fld w 54 4, a := fld w 50 4, b := fld w 46 4, fn := fld w 43 3, bimm := bitOf w 42, alc := bitOf w 41, lvl := fld w 39 2, imm := fld w 7 32 }
     let k := s.part.core c
     let x : W32 := if o.alc then (s.part.th c t).lc o.lvl else (k.asOf t).sh.getD o.a 0
     let y : W32 := if o.bimm then BitVec.ofNat 32 o.imm else (k.asOf t).sh.getD o.b 0
     ∃ u v, exec (.shop c t) s = .next u ∧ s.issueFrame u c ∧
       u.part.core c = { k.stepped t with sh := k.sh.set o.d v } ∧
       (o.fn = 0 → v = x + y) ∧ (o.fn = 1 → v = x - y) ∧ (o.fn = 2 → v.toNat = min x.toNat y.toNat) ∧ (o.fn = 3 → v = y) ∧
       (o.fn = 4 → v.toNat = x.toNat * 2 ^ y.toNat % 2 ^ 32) ∧ (o.fn = 5 → v.toNat = x.toNat / 2 ^ y.toNat) ∧
       (o.fn = 6 → v = x &&& y) ∧ (o.fn = 7 → v.toNat = x.toNat * y.toNat % 2 ^ 32)) ∧
  (∀ (s : State) (c t : Nat), s.mayIssue c t Op.ADDA →
     let w := s.part.wordAt c t
     let o : AddaWord := { d := fld w 55 3, a := fld w 52 3, b := fld w 48 4, useb := bitOf w 47, sh := fld w 42 5, imm := fld w 10 32 }
     let k := s.part.core c
     ∃ u v, exec (.adda c t) s = .next u ∧ s.issueFrame u c ∧
       u.part.core c = { k.stepped t with ptrs := k.ptrs.set o.d v } ∧
       ((v.toNat : Int) = (((k.asOf t).ptrs.getD o.a 0).toNat + (if o.useb then (((k.asOf t).sh.getD o.b 0).toNat : Int) * 2 ^ o.sh else 0) +
         (BitVec.ofNat 32 o.imm).toInt) % 2 ^ 48))

/-- 07 R233, 11 R331 R335: a WAIT whose wire is pending, whose counter has reached its value or whose queue holds a message goes on,
taking the wire's bit, or the value where it consumes (here with no thread of the core waiting and no later thread of the beat at a WAIT or
CUE, whose effect comes before the beat's tests); otherwise its thread waits, with why 1, 2 or 3.
07 R234, 11 R333 R334 R336: a CUE fires a wire at every core of its mask and forwards it where the wire says so; adds to a counter
of its own core (here with no thread of the core waiting and the sum below 2^32); or sends an addition to a core of its cluster.
07 R235, 11 R341 R342: a CURT arrives at its curtain, once; a thread that asked to wait waits with why = 7, and so does one whose
core has an unreleased arrival already. -/
def Obligations.WaitsCuesAndCurtainsIssue : Prop :=
  (∀ (s : State) (c t : Nat), s.mayIssue c t Op.WAIT →
     let w := s.part.wordAt c t
     let sel := fld w 49 7
     let v := fld w 32 16
     let k := s.part.core c
     ∃ u, exec (.wait c t) s = .next u ∧ s.issueFrame u c ∧
       (fld w 56 2 = 0 → u.part.core c =
         if k.pendingWire sel then (k.stepped t).takeWire sel
         else (k.beat t).onTh t (fun x => { x.advance with st := .wait, why := 1, on := .wire sel })) ∧
       (fld w 56 2 = 1 → k.calm →
         (v ≤ (k.cnt.getD sel 0).toNat → (∀ j ∈ (k.beat t).due, opcode (s.part.wordAt c j) ∉ [Op.CUE, Op.WAIT]) → u.part.core c =
           (if bitOf w 48 then { (k.beat t).onTh t (fun x => x.advance.ready) with cnt := modAt k.cnt sel (· - BitVec.ofNat 32 v) }
            else (k.beat t).onTh t (fun x => x.advance.ready))) ∧
         ((k.cnt.getD sel 0).toNat < v → u.part.core c = (k.beat t).onTh t (fun x =>
           { x.advance with st := .wait, why := 2, on := .counter sel (BitVec.ofNat 16 v) (bitOf w 48) }))) ∧
       (2 ≤ fld w 56 2 → u.part.core c =
         if ((s.part.core (queueHome c sel).1).queue (queueHome c sel).2).msgs ≠ [] then k.stepped t
         else (k.beat t).onTh t (fun x => { x.advance with st := .wait, why := 3, on := .queue sel }))) ∧
  (∀ (s : State) (c t : Nat), s.mayIssue c t Op.CUE →
     let w := s.part.wordAt c t
     let sel := fld w 50 6
     let v := fld w 30 16
     let cl := clusterOf c
     let k := s.part.core c
     let cfg := s.part.wireCfg cl sel
     ∃ u, exec (.cue c t) s = .next u ∧
       (fld w 56 2 = 0 → s.sameBytes u ∧
         (∀ d, u.part.core d = (fun x => if clusterOf d = cl ∧ bitOf cfg (d % 16) then x.fire sel else x)
           (if d = c then k.stepped t else s.part.core d)) ∧
         u.part.flight = s.part.flight ++ (if bitOf cfg 16 then [.fire (400 * (cl / 400) + fld cfg 17 9) (fld cfg 26 6)] else [])) ∧
       (fld w 56 2 = 1 → k.calm → (k.cnt.getD (sel % 16) 0).toNat + v < 2 ^ 32 →
         s.issueFrame u c ∧
         u.part.core c = { k.stepped t with cnt := k.cnt.set (sel % 16) (k.cnt.getD (sel % 16) 0 + BitVec.ofNat 32 v) }) ∧
       (2 ≤ fld w 56 2 → s.sameBytes u ∧ u.part.core c = k.stepped t ∧
         u.part.flight = s.part.flight ++ [.add (16 * cl + fld w 46 4) (sel % 16) (BitVec.ofNat 16 v)])) ∧
  (∀ (s : State) (c t : Nat), s.mayIssue c t Op.CURT →
     let w := s.part.wordAt c t
     let cur := fld w 54 4
     let k := s.part.core c
     ∃ u, exec (.curt c t) s = .next u ∧ s.sameBytes u ∧
       if (k.arrival cur).pending then
         s.issueFrame u c ∧ u.part.core c = (k.beat t).onTh t (fun x => { x.advance with st := .wait, why := 7, on := .rearrive cur (bitOf w 53) })
       else
         (u.part.core c).arrival cur = ⟨true, bitOf w 53⟩ ∧ (c % 16) ∈ (u.part.curtNode (clusterOf c) cur).arrived ∧
         (u.part.curtNode (clusterOf c) cur).gen = (s.part.curtNode (clusterOf c) cur).gen ∧
         (u.part.core c).threads = ((k.beat t).onTh t (fun x =>
           if bitOf w 53 then { x.advance with st := .wait, why := 7, on := .curtain cur } else x.advance)).threads)

/-- 07 R213 R214: an LDR or STR whose places and rows are allowed joins the row-move queue with the address that its pointer, offset and
index give, unless the queue is full; a cached LDR looks its lines up, and its queued move says so.
07 R217 to R222: MOV, TRD, SRD, GATH and CINV join the row-move queue with the places, rows and address of their words.
07 R230 to R232: SEND and POST join the row-move queue, a SEND waiting for room on its route unless a handler issues it; a RECV
joins it when its queue holds a message that no earlier RECV claims, and otherwise its thread waits with why = 3. -/
def Obligations.RowMovesJoinTheQueue : Prop :=
  (∀ (s : State) (c t : Nat),
     let o := ldrWord (s.part.wordAt c t)
     let k := s.part.core c
     let th := s.part.th c t
     let addr := (((k.asOf t).ptrs.getD o.preg 0).toNat + 512 * (o.off + if o.ix then (th.lc o.lvl).toNat * ((k.asOf t).sh.getD o.sreg 0).toNat else 0)) % 2 ^ 48
     k.moveq.length < 8 → s.part.placeFault c th o.place (o.cnt + 1) = none → addr % 512 = 0 →
     (∀ i < (o.cnt + 1) * s.part.units c, let h := s.part.homeAt (addr + 512 * i); (if o.cached then h.cacheable else h.movable) = true) →
     (s.mayIssue c t Op.LDR → ∃ u, exec (.ldr c t) s = .next u ∧
       (o.cached = false ∨ k.invalidating = true → s.movesOn u c t (.ldr (th.place o.place) addr (o.cnt + 1) o.cached) o.done o.sync) ∧
       (o.cached = true → k.invalidating = false → s.sameBytes u ∧ s.sameCores u [c] ∧
         (u.part.core c).moveq = k.moveq ++ [{ uid := s.part.uid, thread := t, what := .ldr (th.place o.place) addr (o.cnt + 1) true, done := o.done, sync := o.sync, looked := true, data := [], since := none }])) ∧
     (s.mayIssue c t Op.STR → ∃ u, exec (.str c t) s = .next u ∧
       s.movesOn u c t (.str (th.place o.place) addr (o.cnt + 1) o.cached) o.done o.sync)) ∧
  (∀ (s : State) (c t : Nat), (s.part.core c).moveq.length < 8 →
     let w := s.part.wordAt c t
     let k := s.part.core c
     let th := s.part.th c t
     (s.mayIssue c t Op.MOV → let o := movWord w
       s.part.placeFault c th o.dst o.n = none → s.part.placeFault c th o.src o.n = none →
       ∃ u, exec (.mov c t) s = .next u ∧ s.movesOn u c t (.mov (th.place o.dst) (th.place o.src) o.n) o.done false) ∧
     (s.mayIssue c t Op.TRD → let o := trdWord w
       s.part.placeFault c th o.dst 1 = none → s.part.sourceFault c th o.row 1 (16 * s.part.units c) = none →
       ∃ u, exec (.trd c t) s = .next u ∧ s.movesOn u c t (.trd (th.place o.dst) (th.place o.row) o.j o.w) o.done false) ∧
     (s.mayIssue c t Op.SRD → let o := srdWord w
       s.part.placeFault c th o.dst 1 = none → s.part.sourceFault c th o.row o.d (16 * s.part.units c) = none →
       ∃ u, exec (.srd c t) s = .next u ∧ s.movesOn u c t (.srd (th.place o.dst) (th.place o.row) o.d o.s) o.done false) ∧
     (s.mayIssue c t Op.GATH → let o := gathWord w
       s.part.placeFault c th o.dst o.n = none → o.list < scratchRows (s.part.partition c) →
       ∃ u, exec (.gath c t) s = .next u ∧
         s.movesOn u c t (.gath (th.place o.dst) o.list o.e0 ((k.asOf t).ptrs.getD o.preg 0).toNat o.n o.sh) o.done o.sync) ∧
     (s.mayIssue c t Op.CINV → let o := cinvWord w
       ∃ u, exec (.cinv c t) s = .next u ∧
         s.movesOn u c t (.cinv o.all (((((k.asOf t).ptrs.getD o.preg 0).toNat + 512 * o.off) % 2 ^ 48) / 512)) o.done false)) ∧
  (∀ (s : State) (c t : Nat), (s.part.core c).moveq.length < 8 →
     let w := s.part.wordAt c t
     let th := s.part.th c t
     (s.part.sourceFault c th (sendWord w).src 0 1 = none → let o := sendWord w
       (s.mayIssue c t Op.SEND → ∃ u, exec (.send c t) s = .next u ∧
         s.movesOn u c t (.send (th.place o.src) o.slot o.route (!th.handler)) o.done false) ∧
       (s.mayIssue c t Op.POST → ∃ u, exec (.post c t) s = .next u ∧
         s.movesOn u c t (.send (th.place o.src) o.slot o.route false) o.done false)) ∧
     (s.mayIssue c t Op.RECV → let o := recvWord w
       s.part.placeFault c th o.dst 1 = none → th.handler = false →
       bitOf (s.part.queueWord (queueHome c o.q).1 (queueHome c o.q).2) 0 = false →
       ∃ u, exec (.recv c t) s = .next u ∧
         if 0 < s.part.unclaimed c o.q then s.movesOn u c t (.recv o.q (th.place o.dst) o.slot) o.done false
         else s.issueFrame u c ∧ u.part.core c = ((s.part.core c).beat t).onTh t (fun x =>
           { x.advance with st := .wait, why := 3, on := .recv s.part.uid o.q (th.place o.dst) o.slot o.done })))

/-- 07 R223 R224 R229, 06 R171: a MAT whose operands are in range joins the matrix queue, and a RUN the vector queue, unless they are
full.
07 R221: an XFER whose descriptor row is good and whose descriptor breaks no rule of 13 R390 puts the descriptor in flight; its
thread waits with why = 4 where `sync` is set. -/
def Obligations.MatRunAndXferAreIssued : Prop :=
  (∀ (s : State) (c t : Nat),
     let k := s.part.core c
     let m := s.part.matStep c t
     let o := matWord (s.part.wordAt c t)
     (s.mayIssue c t Op.MAT → k.matq.length < 4 → placeOver o.arow m.arow = false → placeOver o.brow m.brow = false →
       s.part.shapeBad c m = false → (∀ r ∈ m.rowsRead, r < scratchRows (s.part.partition c)) →
       (m.acc = true → ∀ x ∈ m.tiles, (k.side x).refuses m = false) →
       ∃ u, exec (.mat c t) s = .next u ∧ u.part.uid = s.part.uid + 1 ∧ s.sameBytes u ∧
         s.sameRegs u [coreReg Reg.CORE_ISSUED c [], coreReg Reg.CORE_SLEEPS c []] ∧ s.sameCores u (m.cores c) ∧
         (u.part.core c).matq = k.matq ++ [{ m with uid := s.part.uid }] ∧ (u.part.core c).threads = (k.stepped t).threads) ∧
     (s.mayIssue c t Op.RUN → s.part.vecFull c = false → let w := s.part.wordAt c t
       ∃ u, exec (.run c t) s = .next u ∧ s.issueFrame u c ∧ u.part.uid = s.part.uid + 1 ∧
         u.part.core c = { k.stepped t with
           vecq := k.vecq ++ [{ uid := s.part.uid, thread := t, prog := fld w 54 4, order := bitOf w 53, done := fld w 48 5 }] })) ∧
  (∀ (s : State) (c t : Nat), s.mayIssue c t Op.XFER → s.part.xferOut c < 32 →
     let w := s.part.wordAt c t
     let a := viewAddr c (512 * fld w 51 7)
     let bytes := s.part.bytesAt (a + 64 * fld w 48 3) 64
     let d := descOf bytes
     fld w 51 7 < scratchRows (s.part.partition c) → s.part.rowGood a = true → s.part.descBad d = false → s.part.descInside d = true →
     (s.part.readList d).2 = none →
     ∃ u, exec (.xfer c t) s = .next u ∧ s.sameBytes u ∧
       u.part.xfers = s.part.xfers ++ [{ uid := s.part.uid, core := c, thread := t, done := fld w 42 5, sync := bitOf w 47, desc := bytes, writing := !d.reshapes, submits := 0, task := s.part.taskOf c }] ∧
       u.part.uid = s.part.uid + 1 ∧ s.sameCores u [c] ∧
       u.part.core c = ((s.part.core c).beat t).onTh t (fun x =>
         if bitOf w 47 then { x.advance with st := .wait, why := 4, on := .oper s.part.uid } else x.advance))

/-! ### Engines, row moves, memory -/

/-- 03 R79: a matrix step that its tiles do not hold back, whose rows are good and whose operands break no rule of 03 R89 R93 and 02 R52
leaves the matrix queue and is under way; threads, shape registers, pointers and counters stand. At its retirement it leaves the engine and
its epilogue is queued when it closes (05 R141); then its completion field is reached (07 R226) and stalled threads may issue (06 R172).
07 R201, 11 R330 R332: a completion field adds 1 to the counter it names; with no thread of the core waiting nothing else changes. -/
def Obligations.MatrixStepsStartAndRetire : Prop :=
  (∀ (p : Part) (c done : Nat), (p.core c).calm → (p.core c).countFits done →
    p.completed c done = (if bitOf done 4 then p.setCore c { p.core c with cnt := (p.core c).counted done } else p) ∧
    ((p.completed c done).core c).cnt = (p.core c).counted done) ∧
  ∀ (s : State) (c : Nat) (m : MatStep) (ms : List MatStep), s.part.phase = .ready →
    let k := s.part.core c
    let e := s.part.chainOf c m.chain
    let recs := if e.sidecar && !m.acc then (List.range m.m).map (s.part.sidecar c e m.k) else []
    let o := s.part.operands c m (if e.osr && (e.sidecar && !m.acc) then recs else [])
    (k.matq = m :: ms → s.part.stepReady c m = true → (∀ r ∈ s.part.rowsTouched c m o.live, s.part.placePoisoned c r = false) →
      o.bad = false → (∀ t ∈ m.targets c, s.part.wild m o t = false) →
      ∃ u : State, exec (.matrixStepStart c) s = .next (s.after c u.part (·.unstall c)) ∧ s.part.sameRest u.part ∧ s.sameRegs u [] ∧
        (u.part.core c).matq = ms ∧ (u.part.core c).matRun = k.matRun ++ [m] ∧ (u.part.core c).threads = k.threads ∧
        (u.part.core c).sh = k.sh ∧ (u.part.core c).ptrs = k.ptrs ∧ (u.part.core c).cnt = k.cnt) ∧
    (k.matRun = m :: ms →
      exec (.matrixStepRetire c) s = .next (s.after c
        (s.part.setCore c { k with matRun := ms, epiq := if m.close then k.epiq ++ [m] else k.epiq })
        (fun q => (q.completed c m.done).unstall c)))

/-- 02 R42 R46, 03 R79: an overwrite step of integer operands in T16 leaves in each element inside M × N the sum of the products of its
lines, and 0 in every other element of its tile; every byte outside the tile reads as before. -/
def Obligations.IntegerStepLeavesTheSums : Prop :=
  ∀ (s : State) (c : Nat) (m : MatStep) (ms : List MatStep), s.part.phase = .ready →
    let e := s.part.chainOf c m.chain
    let o := s.part.operands c m []
    (s.part.core c).matq = m :: ms → s.part.stepReady c m = true →
    (∀ r ∈ s.part.rowsTouched c m o.live, s.part.placePoisoned c r = false) → o.bad = false →
    m.shape = 0 → m.acc = false → m.scan = false → e.sidecar = false → m.kind e.osr = .plain →
    ∃ u : State, exec (.matrixStepStart c) s = .next (s.after c u.part (·.unstall c)) ∧
      (∀ i < 256, u.part.bytesAt (xAddr c m.tile i) 12 = leBytes 12 (wrapInt 96
        (if i / 16 < m.m ∧ i % 16 < m.n then
          (((o.a.getD (i / 16) []).zip (o.b.getD (i % 16) [])).zip o.live).foldr (fun x acc => (if x.2 then x.1.1.n * x.1.2.n else 0) + acc) 0
         else 0))) ∧
      (∀ a, a < xAddr c m.tile 0 ∨ xAddr c m.tile 256 ≤ a → u.part.byteAt a = s.part.byteAt a)

/-- 05 R141 R163: an epilogue that nothing holds back and that meets no bad row or tile starts: its results are held, and no byte changes.
When it ends every row it writes lies in its place, the last written of one place standing, no other byte changes, and waiting threads are
tested. -/
def Obligations.EpiloguesStartAndEnd : Prop :=
  ∀ (s : State) (c : Nat) (m : MatStep) (ms : List MatStep), s.part.phase = .ready →
    let k := s.part.core c
    let e := s.part.chainOf c m.chain
    (k.epiq = m :: ms → k.epiRun = none → s.part.clear c m.uid none ((e.spanTiles ++ e.partners).map .tile) [] = true →
      (s.part.epiFault c m e).isNone = true →
      exec (.epilogueStart c) s = .next (s.after c (s.part.setCore c { k with epiq := ms, epiRun := some m, epiOut := s.part.epiRows c m }) id)) ∧
    (k.epiRun = some m →
      ∃ u : State, exec (.epilogueEnd c) s = .next (s.after c u.part (·.settle c)) ∧ s.part.sameRest u.part ∧ s.sameRegs u [] ∧
        (u.part.core c).epiRun = none ∧ (u.part.core c).epiOut = [] ∧
        (∀ d, s.sameCoreBut u d (fun x => { x with epiRun := none, epiOut := [] })) ∧
        (∀ l r b, k.epiOut = l ++ [(r, b)] → u.part.half (c + r / 128) (r % 128) = padTo 512 b) ∧
        (∀ a, (∀ x ∈ k.epiOut, a < viewAddr (c + x.1 / 128) (placeOff (x.1 % 128)) ∨ viewAddr (c + x.1 / 128) (placeOff (x.1 % 128)) + 512 ≤ a) →
          u.part.byteAt a = s.part.byteAt a))

/-- 04 R105 R109 R128, 07 R229: an element program run whose tiles and buffers are free and that reads no bad word leaves the queue and runs,
its number and order in the CORE_VEC_STATUS of every core it runs on; at its end the run is counted there, the status is idle, and its
completion field is reached. -/
def Obligations.ElementRunsStartAndEnd : Prop :=
  ∀ (s : State) (c : Nat) (v : VecRun) (vs : List VecRun), s.part.phase = .ready →
    let k := s.part.core c
    let prog := s.part.program c v.prog
    let st := fun (x : Nat) => coreReg Reg.CORE_VEC_STATUS x []
    let runs := fun (x : Nat) => coreReg Reg.CORE_VEC_RUNS x []
    (k.vecq = v :: vs → k.vecRun = none →
      s.part.clear c v.uid none (prog.flatMap ElemStep.bufReads) (prog.flatMap ElemStep.bufWrites) = true → s.part.vecPoison c prog = none →
      s.part.vecResid c prog = none →
      ∃ u : State, exec (.elementRunStart c) s = .next (s.after c u.part (·.unstall c)) ∧ (u.part.core c).vecq = vs ∧ (u.part.core c).vecRun = some v ∧
        (u.part.core c).threads = k.threads ∧ (u.part.core c).matq = k.matq ∧ (u.part.core c).moveq = k.moveq ∧ s.sameCores u (s.part.pairOf c) ∧
        s.sameRegs u ((s.part.pairOf c).map st) ∧ (∀ x ∈ s.part.pairOf c, u.part.regN (st x) = vecStatus v true 0 % 2 ^ 64)) ∧
    (k.vecRun = some v →
      ∃ u : State, exec (.elementRunEnd c) s = .next (s.after c u.part (·.completed c v.done)) ∧ s.part.sameRest u.part ∧ s.sameBytes u ∧
        s.sameCores u [c] ∧ u.part.core c = { k with vecRun := none } ∧ s.sameRegs u ((s.part.pairOf c).flatMap (fun x => [st x, runs x])) ∧
        (c < 25600 → ∀ x ∈ s.part.pairOf c, u.part.regN (st x) = vecStatus v false 7 % 2 ^ 64 ∧ u.part.regN (runs x) = (s.part.regN (runs x) + 1) % 2 ^ 32))

/-- 07 R215 to R219, 06 R180 R181: a MOV of one place, a TRD or an SRD at the head of the row-move queue whose places are free and good
starts with the bytes it read; when it completes its destination holds them, on a two-hander one half at each core, no other byte has
changed, and its completion field is reached.
06 R180 R190: byte `q` of the result of a transposed read of segment `j` in elements of 2^w bytes over the `n` rows from `row` on is
byte 32 j + 2^w k + y of row `row + i`, where q = (n k + i) 2^w + y with i below `n` and y below 2^w. -/
def Obligations.RowMovesStartAndComplete : Prop :=
  (∀ (s : State) (c : Nat) (m : MoveOp) (ms : List MoveOp) (pl : Nat) (b : List Byte), s.part.phase = .ready →
     let k := s.part.core c
     (k.moveq = m :: ms →
       ((∃ src, m.what = .mov pl src 1 ∧ b = s.part.placeBytes c src) ∨
         (∃ r j w, m.what = .trd pl r j w ∧ b = s.part.transposed c r j w) ∨ (∃ r d x, m.what = .srd pl r d x ∧ b = s.part.strided c r d x)) →
       s.part.clear c m.uid none ((m.what.reads (s.part.paired c)).map placeRes) (m.what.writes.map placeRes) = true →
       (∀ r ∈ m.what.reads (s.part.paired c), (s.part.placeTrouble c r).isNone = true) →
       ∃ u : State, exec (.rowMoveStart c) s = .next (s.after c u.part (·.unstall c)) ∧ s.part.sameRest u.part ∧ s.sameBytes u ∧ s.sameCores u [c] ∧
         u.part.core c = { k with moveq := ms, moving := k.moving ++ [{ m with data := [(pl, b)] }] }) ∧
     (k.moving.find? (fun x => x.uid == m.uid) = some { m with data := [(pl, b)] } → (∀ q x y, m.what ≠ .recv q x y) →
       (∀ x y z w, m.what ≠ .send x y z w) → (∀ r ∈ s.part.reqs, r.uid ≠ m.uid) → pl < 128 →
       ∃ u : State, exec (.rowMoveComplete c m.uid) s = .next (s.after c u.part (fun q => (q.completed c m.done).unstall c)) ∧
         s.part.sameRest u.part ∧ s.sameRegs u [] ∧ (u.part.core c).moving = k.moving.filter (fun y => y.uid ≠ m.uid) ∧
         (∀ d, s.sameCoreBut u d (fun x => { x with moving := [] })) ∧
         (if s.part.paired c then u.part.half c pl = padTo 512 (b.take 512) ∧ u.part.half (c + 1) pl = padTo 512 (b.drop 512)
          else u.part.half c pl = padTo 512 b) ∧
         (∀ a, (∀ x ∈ s.part.pairOf c, a < viewAddr x (placeOff pl) ∨ viewAddr x (placeOff pl) + 512 ≤ a) → u.part.byteAt a = s.part.byteAt a))) ∧
  (∀ (p : Part) (c row j w k i y : Nat), w ≤ 3 → j < 16 → k < 32 / 2 ^ w → i < 16 → y < 2 ^ w → p.paired c = false →
     (p.transposed c row j w).getD ((16 * k + i) * 2 ^ w + y) 0 = (p.placeBytes c (row + i)).getD (32 * j + 2 ^ w * k + y) 0)

/-- 06 R185: a fill whose row has been read lands: its way holds the row and is valid, and no other byte changes; then waiting threads are
tested and lines still missing are asked for.
13 R395 R404: a good row that a channel reads for a load lands in its place; the read and its link corrections are counted, the request
has landed, and no other byte changes.
13 R392, 07 R221: a transfer all of whose rows have landed leaves the engine, writes its signal value where its descriptor asks for
one, and reaches its completion field. -/
def Obligations.FillsReadsAndTransfersLand : Prop :=
  (∀ (s : State) (c line slot : Nat) (r : Req), s.part.phase = .ready →
     s.part.reqs.find? (fun x => x.core == c && x.fill.isSome && x.src == some (512 * line)) = some r → (∀ x ∈ s.part.reqs, x.uid = r.uid → x = r) →
     r.fill = some slot → r.got = true → r.dst = none →
     let row := scratchRows (s.part.partition c) + slot
     ∃ u : State, exec (.cacheFillLands c line) s = .next (s.after c u.part (fun q => ((q.settle c).refillWaiting c).unstall c)) ∧
       u.part.reqs = s.part.reqs.filter (fun x => x.uid ≠ r.uid) ∧ s.sameCores u [c] ∧ s.sameRegs u [] ∧
       ((u.part.core c).way slot).valid = true ∧ ((u.part.core c).way slot).filling = false ∧
       ((u.part.core c).way slot).line = ((s.part.core c).way slot).line ∧
       u.part.bytesAt (512 * (viewAddr c (512 * row) / 512)) 512 = padTo 512 r.row ∧
       (∀ a, a < 512 * (viewAddr c (512 * row) / 512) ∨ 512 * (viewAddr c (512 * row) / 512) + 512 ≤ a → u.part.byteAt a = s.part.byteAt a)) ∧
  (∀ (s : State) (a ecc : Nat) (r : Req) (m : MoveOp) (pl ad n : Nat), s.part.phase = .ready →
     a % 512 = 0 → s.part.readerOf a = some r → s.part.xferOf r.uid = none → s.part.homeAt a = .lpddr → s.part.chFailed a = false →
     s.part.rowGood a = true → s.part.moveOf r = some m → m.what = .ldr pl ad n false →
     let d := s.part.landingPlace r pl
     let v := viewAddr d.1 (placeOff d.2)
     ∃ u : State, exec (.rowRead a .clean ecc) s = .next (s.after r.core u.part (·.unstall r.core)) ∧ u.part.half d.1 d.2 = s.part.bytesAt a 512 ∧
       u.part.reqs = s.part.reqs.map (fun x => if x.uid = r.uid ∧ x.idx = r.idx then { x with got := true, landed := true } else x) ∧
       u.part.reg (chanReg Reg.MEM_CH_RD a) = s.part.reg (chanReg Reg.MEM_CH_RD a) + 1 ∧
       u.part.reg (chanReg Reg.MEM_CH_LECC a) = satAdd32 (s.part.reg (chanReg Reg.MEM_CH_LECC a)) ecc ∧
       (∀ x, x < 512 * (v / 512) ∨ 512 * (v / 512) + 512 ≤ x → u.part.byteAt x = s.part.byteAt x)) ∧
  (∀ (s : State) (c : Nat) (x : Xfer), s.part.phase = .ready → s.part.xferOf x.uid = some x → x.core = c →
     x.writing = true → (descOf x.desc).kind ≠ 4 → (∀ r ∈ s.part.reqs, r.uid = x.uid → r.got = true ∧ r.landed = true) →
     let d := descOf x.desc
     (d.sig = true → s.part.sigWaits d.sigAddr = false ∧ s.part.homeAt d.sigAddr = .lpddr ∧ (s.part.writeFault d.sigAddr 8).isNone = true ∧
       s.part.rowGood d.sigAddr = true) →
     ∃ u : State, exec (.transferComplete c x.uid) s = .next (s.after c u.part (fun q => (q.completed c x.done).unstall c)) ∧
       u.part.xfers = s.part.xfers.filter (fun y => y.uid ≠ x.uid) ∧ u.part.reqs = s.part.reqs.filter (fun y => y.uid ≠ x.uid) ∧ s.sameCores u [] ∧
       (d.sig = true → u.part.natAt d.sigAddr 8 = d.sigVal % 2 ^ 64) ∧
       (∀ a, d.sig = false ∨ a < d.sigAddr ∨ d.sigAddr + 8 ≤ a → u.part.byteAt a = s.part.byteAt a))

/-- 13 R391 R394 R404: a row held for its write is written to its channel and counted; a partial write is read, merged and written, with a
read and a write counted. Neither changes any other byte.
13 R398 R399 R400 R404: a refresh of a working channel that is not newly hot keeps the longest wait and shows the rate; a retraining run
counts one and keeps the longest wait. Neither changes a byte, a core, or a register of another channel. -/
def Obligations.ChannelsWriteAndAreKept : Prop :=
  (∀ (s : State) (a : Nat), s.part.phase = .ready → s.part.homeAt a = .lpddr → s.part.chFailed a = false →
     (∀ r : Req, a % 512 = 0 → s.part.writerOf a = some r → s.part.reqs.filter (fun x => x.uid == r.uid && x.idx == r.idx) = [r] →
       s.part.xferOf r.uid = none → r.got = true → r.dst = some a → r.core < 25600 → s.part.inPool a 512 = false →
       ∃ u : State, exec (.rowWrite a) s = .next (s.after r.core u.part (·.unstall r.core)) ∧ u.part.bytesAt a 512 = padTo 512 r.row ∧
         u.part.rowGood a = true ∧
         u.part.reqs = s.part.reqs.map (fun x => if x.uid = r.uid ∧ x.idx = r.idx then { x with landed := true } else x) ∧
         u.part.reg (chanReg Reg.MEM_CH_WR a) = s.part.reg (chanReg Reg.MEM_CH_WR a) + 1 ∧
         (∀ x, x < a ∨ a + 512 ≤ x → u.part.byteAt x = s.part.byteAt x)) ∧
     (∀ (q : Partial) (qs : List Partial), s.part.partials = q :: qs → q.addr = a → a % 512 + q.data.length ≤ 512 → s.part.rowGood a = true →
       ∃ u, exec (.partialWrite a) s = .next u ∧ u.part.bytesAt a q.data.length = q.data ∧ u.part.partials = qs ∧
         u.part.reg (chanReg Reg.MEM_CH_RD a) = s.part.reg (chanReg Reg.MEM_CH_RD a) + 1 ∧
         u.part.reg (chanReg Reg.MEM_CH_WR a) = s.part.reg (chanReg Reg.MEM_CH_WR a) + 1 ∧
         (∀ x, x < a ∨ a + q.data.length ≤ x → u.part.byteAt x = s.part.byteAt x))) ∧
  (∀ (s : State) (ch rate ns : Nat), s.part.phase = .ready → s.part.chAlive ch = true →
     let st := chReg Reg.MEM_CH_STAT ch
     let wm := chReg Reg.MEM_CH_WAIT_MAX ch
     let rt := chReg Reg.MEM_CH_RETRAINS ch
     (∃ u, exec (.refresh ch rate false ns) s = .next u ∧ s.sameBytes u ∧ s.sameCores u [] ∧ s.sameRegs u [st, wm] ∧
       u.part.regFld st 3 2 = min rate 2 ∧ u.part.regFld st 2 1 = 0 ∧ u.part.regN wm = max (s.part.regN wm) (min ns 0xFFFFFFFF)) ∧
     (∀ ok, (ok = false → Tab.get 0 s.part.retrainFails ch < 2) →
       ∃ u, exec (.retrain ch ok ns) s = .next u ∧ s.sameBytes u ∧ s.sameCores u [] ∧ s.sameRegs u [rt, wm] ∧
         u.part.regN rt = (s.part.regN rt + 1) % 2 ^ 32 ∧ u.part.regN wm = max (s.part.regN wm) (min ns 0xFFFFFFFF) ∧
         Tab.get 0 u.part.retrainFails ch = (if ok then 0 else Tab.get 0 s.part.retrainFails ch + 1)))

/-! ### Tasks, pre-emption, seats -/

/-- 10 R297 to R301: a descriptor of house firmware that breaks nothing takes a slot on its home die, counts for its seat, and waits for the
predecessors that are in flight; the rows of its overflow list are read. One that breaks a rule leaves its name and the lowest code of its
faults in STG_LAST_REFUSE and no task. -/
def Obligations.SubmissionTakesASlotOrIsRefused : Prop :=
  ∀ (s : State) (b : List Byte), s.part.phase = .ready → s.part.stg.inbox = [] → b.length = 128 →
    let d := taskDesc b
    let marks := if d.ovf then readMarks d.ovfPtr (8 + 8 * s.part.ovfCount d) else []
    let seat := Reg.STG_SEAT_INFLIGHT.at [d.seat]
    (∀ h, s.part.refusalCode d = 0 → s.part.homeDie d = some h → (s.part.newTask d .house h).preds ≠ [] →
      ∃ u, exec (.taskSubmit (some b)) s = .next u ∧ s.sameBytes u ∧ s.sameCores u [] ∧
        u.part.stg = { s.part.stg with tasks := s.part.stg.tasks ++ [s.part.newTask d .house h] } ∧
        s.sameRegs u (marks ++ if d.flag 5 then [seat] else []) ∧ (d.flag 5 = true → u.part.reg seat = s.part.reg seat + 1)) ∧
    (s.part.refusalCode d ≠ 0 →
      ∃ u, exec (.taskSubmit (some b)) s = .next u ∧ u.part.stg = s.part.stg ∧ s.sameBytes u ∧ s.sameCores u [] ∧
        (s.part.refusalCode d ≠ 7 → s.sameRegs u [Reg.STG_LAST_REFUSE.at [0]]) ∧
        u.part.regN (Reg.STG_LAST_REFUSE.at [0]) = d.id + d.gen * 2 ^ 32 + s.part.refusalCode d * 2 ^ 48)

/-- 10 R301 R302 R309: a task whose predecessors have all resolved is READY with the time as its stamp, and placed where a replica takes it;
a fan is EXPANDING; one with a predicate asks for its word. When the word has been read the task goes on where the predicate holds; otherwise it
completes SKIPPED. -/
def Obligations.ResolvedTasksGoOn : Prop :=
  ∀ (s : State) (k : TaskKey) (t : Task), s.part.phase = .ready → s.part.task k = some t → t.st = .waiting →
    let on := fun (x : Task) (u : State) => ∃ t', u.part.task k = some t' ∧
      if t.kind = 1 then t' = { x with st := .expanding } else s.placedOr { x with st := .ready, stamp := s.part.tim.now } t'
    (t.preds = [] → t.askPred = false → t.predFailed = false → t.predSkipped = false → t.kind ≠ 2 →
      ∃ u, exec (.predecessorResolve k) s = .next u ∧ s.sameBytes u ∧ s.sameCores u [] ∧ s.sameRegs u [] ∧
        if predCond t.pred.toNat ≠ 0 then u.part.task k = some { t with askPred := true } else on t u) ∧
    (t.askPred = true →
      let a := predAddr t.pred.toNat
      (s.part.readSpan a 8).2 = none →
      (predHolds t.pred.toNat (s.part.natAt a 8) = true → t.kind ≠ 2 →
        ∃ u, exec (.predicateRead k) s = .next u ∧ s.sameBytes u ∧ s.sameCores u [] ∧ s.sameRegs u (readMarks a 8) ∧ on { t with askPred := false } u) ∧
      (predHolds t.pred.toNat (s.part.natAt a 8) = false →
        ∃ u, exec (.predicateRead k) s = .next u ∧ s.sameBytes u ∧ s.sameCores u [] ∧
          (t.fits → k.child = 0xFFFF → u.part.stg.tasks.length + 1 = s.part.stg.tasks.length ∧
            u.part.reg (Reg.STG_SKIPPED.at [t.home]) = s.part.reg (Reg.STG_SKIPPED.at [t.home]) + 1)))

/-- 10 R318, 06 R169, 08 R247: a free replica that takes a fresh task runs it: on each of its cores the shape registers hold the words of the
task's record or of the scene's, the pointer registers the descriptor's and the seat block's, the counters 0, and each thread of the start mask is
ready at its entry. 10 R321: a task that has a save area waits for its restore instead.
06 R173 R174: the lowest queue that names a handler, runs none and holds a message that no RECV has claimed starts it on the lowest IDLE thread; the
message stays, and no thread that is not IDLE is touched.
10 R303 R325: a running task all of whose operations are over leaves its replica free and counts as DONE at its home die. -/
def Obligations.TasksHandlersAndReplicasRun : Prop :=
  (∀ (s : State) (a how : Nat) (r : Replica) (t : Task) (sc : Scene), s.part.phase = .ready →
     s.part.replicaOf a = some r → r.task = none → r.dark = false → r.st = .free → s.part.choose r = some (t, how) →
     s.part.sceneOf r.scene = some sc →
     let w := (List.range 16).map (fun i => leAt (if t.shape = 0 then sc.shape else s.part.bytesAt t.shape 64) (4 * i) 4)
     (t.save.isSome = true ∨ ((t.shape = 0 ∨ s.part.readFault t.shape = none) ∧ badRecord w sc.limits = false)) →
     ∃ u r', exec (.taskStart a) s = .next u ∧
       s.sameBytes u ∧ u.part.replicaOf a = some r' ∧ r'.task = some t.key ∧ s.sameCores u (r.cores ++ r.cores.map s.part.issuer) ∧
       if t.save.isSome then r'.st = .restoring ∧ u.part.stg.saveq = s.part.stg.saveq ++ [a]
       else r'.st = .running ∧
         ∀ c ∈ r.cores, (u.part.core c).sh = w.map (BitVec.ofNat 32) ∧ (u.part.core c).cnt = List.replicate 16 0 ∧
           (u.part.core c).ptrs = (List.range 8).map (fun i => BitVec.ofNat 48 (if i = 6 ∧ t.flag 7 = true
             then s.part.regN (Reg.STG_SEAT_BLOCK_BASE.at []) + 256 * t.seat else t.ptrs.getD i 0)) ∧
           ∀ j < 8, bitOf (s.part.startMask c) j = true → (u.part.th c j).st = .ready ∧ (u.part.th c j).ptr = s.part.entry c j) ∧
  (∀ (s : State) (c q t : Nat), s.part.phase = .ready →
     let i := s.part.issuer c
     let home := queueHome i
     let can := fun (x : Nat) => bitOf (s.part.queueWord (home x).1 (home x).2) 0 && !((s.part.core (home x).1).queue (home x).2).running &&
       decide (0 < s.part.unclaimed i x)
     s.part.running i = true → q < (if s.part.paired i then 32 else 16) → can q = true → (∀ x < q, can x = false) →
     t < 8 → (s.part.th i t).st = .idle → (∀ j < t, (s.part.th i j).st ≠ .idle) →
     t < (s.part.core i).threads.length → (home q).2 < (s.part.core (home q).1).queues.length →
     ∃ u, exec (.handlerDispatch c) s = .next u ∧ s.sameBytes u ∧ s.sameCores u (s.part.pairOf i) ∧ s.sameRegs u (s.sleeps i) ∧
       (u.part.th i t).st = .ready ∧ (u.part.th i t).ptr = fld (s.part.queueWord (home q).1 (home q).2) 1 10 ∧ (u.part.th i t).handler = true ∧
       (u.part.th i t).queue = q ∧ ((u.part.core (home q).1).queue (home q).2).running = true ∧
       ((u.part.core (home q).1).queue (home q).2).msgs = ((s.part.core (home q).1).queue (home q).2).msgs ∧
       ∀ j, (s.part.th i j).st ≠ .idle → u.part.th i j = s.part.th i j) ∧
  (∀ (s : State) (a : Nat) (r : Replica) (k : TaskKey) (t : Task), s.part.phase = .ready → s.part.replicaOf a = some r → r.task = some k →
     r.st = .running → s.part.taskDone r k = true → s.part.task k = some t →
     ∃ u r', exec (.taskComplete a) s = .next u ∧ s.sameBytes u ∧ s.sameCores u [] ∧ u.part.replicaOf a = some r' ∧ r'.st = .free ∧
       r'.task = none ∧ r'.preempt = none ∧
       (t.fits → k.child = 0xFFFF → u.part.stg.tasks.length + 1 = s.part.stg.tasks.length ∧
         u.part.reg (Reg.STG_DONE.at [t.home]) = s.part.reg (Reg.STG_DONE.at [t.home]) + 1))

/-- 10 R305 R306 R309: an expanding fan whose list is good takes its entries; each child it creates is READY, or placed where a replica takes it,
in a slot of the fan's home die, named by the fan's id and gen and its own index, and points at its entry with its last pointer; with the last
child the fan is HOLDING. -/
def Obligations.FansMakeTheirChildren : Prop :=
  ∀ (s : State) (k : TaskKey) (t : Task), s.part.phase = .ready → s.part.task k = some t → t.st = .expanding →
    let a := t.ptrs.getD 7 0
    let n := 4 + 4 * s.part.natAt a 4
    (t.listRead = false → s.part.readFault a = none → (s.part.readSpan a n).2 = none →
      s.part.fanEntries a ≠ [] → (s.part.fanEntries a).length ≤ t.fanMax →
      ∃ u, exec (.fanListRead k) s = .next u ∧ s.sameBytes u ∧ s.sameCores u [] ∧ s.sameRegs u (readMarks a n) ∧
        u.part.task k = some { t with listRead := true, list := s.part.fanEntries a }) ∧
    (∀ j x rest, t.listRead = true → t.list = (j, x) :: rest → s.part.slotsFree t.home ≠ 0 →
      ∃ u f c, exec (.fanChildCreate k) s = .next u ∧ s.sameBytes u ∧ s.sameCores u [] ∧
        s.sameRegs u (if t.seatEn then [Reg.STG_SEAT_INFLIGHT.at [t.seat]] else []) ∧
        u.part.task k = some f ∧ f.list = rest ∧ f.nextChild = t.nextChild + 1 ∧ f.children = t.children + 1 ∧ (rest = [] → f.st = .holding) ∧
        c ∈ u.part.stg.tasks ∧ c.key = { t.key with child := BitVec.ofNat 16 t.nextChild } ∧ (c.st = .ready ∨ c.st = .placed) ∧ c.home = t.home ∧
        c.kind = 0 ∧ c.stamp = s.part.tim.now ∧ c.ptrs = t.ptrs.take 7 ++ [(a + 4 + 4 * j) % 2 ^ 48] ∧
        c.shape = if t.shape = 0 then 0 else (t.shape + 64 * x) % 2 ^ 48)

/-- 10 R314: at the end of a tick every running task is charged; then each balance loses its part by 2^d and takes the group's charge, which is
then 0. Within a tick nothing changes. The charge of a running task is 16 for each cluster of its replica on the roster and each nanosecond since its
last, added to the group's use and to its charge. -/
def Obligations.SharesAreBroughtUpToDate : Prop :=
  (∀ (s : State), s.part.phase = .ready →
     let q := s.part.stg.replicas.foldl (fun (x : Part) r => x.accrue r) s.part
     (s.part.tickOver = false → exec .shareTick s = .next s) ∧
     (s.part.tickOver = true →
       ∃ u, exec .shareTick s = .next u ∧ u.part.stg = { q.stg with charge := [], tickAt := s.part.tim.now } ∧ s.sameBytes u ∧ s.sameCores u [] ∧
         s.sameRegs u (((List.range 64).map (fun g => Reg.STG_SHARE_BAL.at [0, g])) ++
           s.part.stg.tasks.map (fun t => Reg.STG_SHARE_USED.at [0, s.part.groupOf t])) ∧
         ∀ g < 64, let b := q.regN (Reg.STG_SHARE_BAL.at [0, g])
           u.part.regN (Reg.STG_SHARE_BAL.at [0, g]) =
             (b - b / 2 ^ max 1 (s.part.regFld (Reg.STG_SHARE_CFG.at []) 0 4) + Tab.get 0 q.stg.charge g) % 2 ^ 64)) ∧
  (∀ (p : Part) (r : Replica) (t : Task), r.task.bind p.task = some t → t.st = .running →
     let g := p.groupOf t
     let n := 16 * (r.clusters.filter p.onRoster).length * (p.tim.now - t.charged).toNat
     Tab.get 0 (p.accrue r).stg.charge g = Tab.get 0 p.stg.charge g + n ∧
     (p.accrue r).reg (Reg.STG_SHARE_USED.at [0, g]) = p.reg (Reg.STG_SHARE_USED.at [0, g]) + BitVec.ofNat 64 n ∧
     (p.accrue r).task t.key = some { t with charged := p.tim.now })

/-- 10 R320: a request whose bound has passed while a thread is not parked lapses and is counted, and the replica runs on without it; a
save whose turn it is begins with an area of the die's pool that no other task holds, and is counted as refused where there is none.
10 R320 to R323: a save that ends, no row of its area on a failed channel and no word or residue it reads bad, leaves the replica free and its task
READY with its stamp and its area, or placed again; a restore that begins runs its task; one that ends on good rows leaves the replica running and
the area free, where no counter is so near 2^32 that the releases it missed take it past (11 R330). -/
def Obligations.PreemptionSavesAndRestores : Prop :=
  (∀ (s : State) (a : Nat) (r : Replica) (k : TaskKey), s.part.phase = .ready → s.part.replicaOf a = some r → r.st = .running → r.task = some k →
     (∀ q sc, r.preempt = some q → s.part.sceneOf r.scene = some sc → s.part.parked r = false →
       sc.interval ≤ (s.part.reg (Reg.TRV_BEAT.at [r.die]) - q.beat).toNat →
       ∃ u r', exec (.preemptLapse a) s = .next u ∧ s.sameBytes u ∧ u.part.replicaOf a = some r' ∧ r'.preempt = none ∧ r'.task = r.task ∧
         r'.st = .running ∧ a ∉ u.part.stg.saveq ∧ s.sameRegs u [Reg.STG_PREEMPT_LAPSED.at [r.die]] ∧
         u.part.reg (Reg.STG_PREEMPT_LAPSED.at [r.die]) = s.part.reg (Reg.STG_PREEMPT_LAPSED.at [r.die]) + 1) ∧
     (s.part.switchFree = true → s.part.turnOf a = true →
       let n := granules (areaSize r.clusters.length (s.part.saveRows r))
       ∃ u : State, exec (.saveBegin a) s = .next u.served ∧ s.sameBytes u ∧ a ∉ u.part.stg.saveq ∧
         (∀ g, s.part.findArea r.die n = some g → u.part.replicaOf a = some { r with st := .saving } ∧
           u.part.stg.areas = s.part.stg.areas ++ [(r.die, g, n)] ∧ s.sameCores u [] ∧ s.sameRegs u [] ∧
           ∀ t, s.part.task k = some t → u.part.task k = some { t with save := some (r.die, g, n) }) ∧
         (s.part.findArea r.die n = none → s.sameRegs u [Reg.STG_PREEMPT_NOSPACE.at [r.die]] ∧
           u.part.reg (Reg.STG_PREEMPT_NOSPACE.at [r.die]) = s.part.reg (Reg.STG_PREEMPT_NOSPACE.at [r.die]) + 1))) ∧
  (∀ (s : State) (a : Nat) (r : Replica) (k : TaskKey) (t : Task) (d g n : Nat), s.part.phase = .ready →
     s.part.replicaOf a = some r → r.task = some k → s.part.task k = some t → t.save = some (d, g, n) →
     let rows := s.part.areaRows r (s.part.saveRows r)
     let base := s.part.areaBase d g
     (∀ sc, r.st = .saving → s.part.sceneOf r.scene = some sc → sc.retiring = false → s.part.saveFault r = none →
       (∀ o ∈ rows, s.part.lost (base + o) = false) →
       ∃ (u : State) (r' : Replica) (t' : Task) (v : Saved), exec (.saveComplete a) s = .next u.served ∧ u.part.replicaOf a = some r' ∧
         r'.st = .free ∧ r'.task = none ∧ u.part.task k = some t' ∧ t'.save = some (d, g, n) ∧ t'.stamp = t.stamp ∧
         ((t'.st = .ready ∧ t'.anchor = none) ∨ (t'.st = .placed ∧ t'.anchor.isSome = true)) ∧ v ∈ u.part.stg.saved ∧ v.key = k) ∧
     (r.st = .restoring → s.part.switchFree = true → s.part.turnOf a = true →
       ∃ u, exec (.restoreBegin a) s = .next u ∧ s.sameBytes u ∧ s.sameCores u [] ∧ s.sameRegs u [] ∧ a ∉ u.part.stg.saveq ∧
         u.part.task k = some { t with st := .running, charged := s.part.tim.now }) ∧
     (∀ v, r.st = .restoring → a ∉ s.part.stg.saveq → s.part.stg.saved.find? (fun x => decide (x.key = k)) = some v →
       (∀ x ∈ v.cores ++ r.cores.map s.part.core, ∀ y ∈ x.cnt, y.toNat + 24 < 2 ^ 32) →
       (∀ o ∈ rows, s.part.readFault (base + o) = none) →
       ∃ (u : State) (r' : Replica) (t' : Task), exec (.restoreComplete a) s = .next u.served ∧ u.part.replicaOf a = some r' ∧ r'.st = .running ∧
         r'.task = some k ∧ u.part.task k = some t' ∧ t'.save = none ∧ (d, g, n) ∉ u.part.stg.areas))

/-! ### Cue wires, curtains, channels, the traverse beat, the prompter -/

/-- 11 R330 R333 R334 R336 R338 R339: a remote addition reaches its counter, and waiting threads are tested; a forwarded firing sets the wire's
pending bit in, or wakes the threads of, every core of its mask and goes no further; an external edge stamps the time, counts, and reaches every
core of the roster. -/
def Obligations.WireAndCounterEventsArrive : Prop :=
  ∀ (s : State),
    (∀ (c i : Nat) (v : W16), s.part.phase = .ready →
      let here := fun (f : Flight) => match f with | .add k _ _ => k == c | _ => false
      s.part.flight.find? here = some (.add c i v) → ((s.part.core c).cnt.getD i 0).toNat + v.toNat < 2 ^ 32 →
      ∃ u : State, exec (.cueRemoteAdd c) s = .next (s.rested c (u.part.settle c)) ∧ u.part.flight = dropFirst here s.part.flight ∧ s.sameBytes u ∧
        s.sameCores u [c] ∧ s.sameRegs u [] ∧
        u.part.core c = { s.part.core c with cnt := (s.part.core c).cnt.set i ((s.part.core c).cnt.getD i 0 + v.setWidth 32) }) ∧
    (∀ (cl w : Nat), s.part.phase = .ready →
      let here := fun (f : Flight) => match f with | .fire k _ => k == cl | _ => false
      s.part.flight.find? here = some (.fire cl w) →
      ∃ u, exec (.wireForward cl) s = .next u ∧ u.part.flight = dropFirst here s.part.flight ∧ s.sameBytes u ∧ s.sameRegs u [] ∧
        ∀ d, u.part.core d = if d / 16 = cl ∧ bitOf (s.part.wireCfg cl w) (d % 16) = true then (s.part.core d).fire w else s.part.core d) ∧
    (∀ (i : Nat) (t : W64), i < 8 → (s.part.pwr.ins.getD i Input.reset).edge = some t →
      ∃ u, exec (.cueInEdge i) s = .next u ∧ s.sameBytes u ∧ s.sameRegs u [Reg.TIM_CUE_STAMP.at [i], Reg.TIM_CUE_COUNT.at [i]] ∧
        u.part.reg (Reg.TIM_CUE_STAMP.at [i]) = t ∧ u.part.reg (Reg.TIM_CUE_COUNT.at [i]) = s.part.reg (Reg.TIM_CUE_COUNT.at [i]) + 1 ∧
        ∀ d, u.part.core d = if d < 25600 ∧ s.part.onRoster (d / 16) = true then (s.part.core d).fire (64 + i) else s.part.core d)

/-- 11 R341 R342: a cluster curtain whose participants have all arrived releases: its generation advances, each core's arrival is over and every
thread that waits at it goes on, or the notify counter counts where none waits; with no thread waiting to arrive again the arrivals are cleared.
A complete node of a wider curtain arrives at the replica's node, and a complete node of the replica for a package curtain at the package's (11 R344).
11 R345: a package curtain whose first arrival is older than its timeout counts one timeout and aborts each running task that waits at it; the
time from which the next is counted is the present (log 24, the model's choice). -/
def Obligations.CurtainsReleaseOrPassUp : Prop :=
  (∀ (s : State) (cl cur : Nat) (r : Replica), s.part.phase = .ready → s.part.replicaAt cl = some r →
     let d := s.part.curtDecl r cur
     let core := fun (k : Nat) => s.part.core (16 * cl + k)
     let again := fun (k : Nat) => ∃ th ∈ (core k).threads, ∃ w, th.on = .rearrive cur w
     (s.part.curtNode cl cur).complete (s.part.participants cl cur) = true →
     (d.1 = 1 → (∀ k < 16, ((core k).arrival cur).pending = true → ((core k).arrival cur).waits = false → ((core k).cnt.getD d.2.1 0).toNat + 1 < 2 ^ 32) →
       ∃ u, exec (.curtainRelease (.cluster cl cur)) s = .next u ∧ s.sameBytes u ∧
         (u.part.curtNode cl cur).gen = (s.part.curtNode cl cur).gen + 1 ∧
         ((∀ k < 16, ¬ again k) → (u.part.curtNode cl cur).arrived = []) ∧
         ∀ k < 16, ((core k).arrival cur).pending = true →
           (¬ again k → ((u.part.core (16 * cl + k)).arrival cur).pending = false) ∧
           (((core k).arrival cur).waits = true → ∀ t < (core k).threads.length, ((core k).th t).on = .curtain cur →
             (u.part.th (16 * cl + k) t).st = .ready ∧ (u.part.th (16 * cl + k) t).on = .nothing) ∧
           (((core k).arrival cur).waits = false → (core k).calm → d.2.1 < (core k).cnt.length →
             (u.part.core (16 * cl + k)).cnt = (core k).cnt.set d.2.1 ((core k).cnt.getD d.2.1 0 + 1))) ∧
     (d.1 ≠ 1 →
       ∃ u r', exec (.curtainRelease (.cluster cl cur)) s = .next u ∧ s.sameBytes u ∧ s.sameCores u [] ∧ s.sameRegs u [] ∧
         u.part.replicaOf r.anchor = some r' ∧ cl ∈ (r'.node cur).arrived)) ∧
  (∀ (s : State) (a cur : Nat) (r : Replica) (k : TaskKey), s.part.phase = .ready → s.part.replicaOf a = some r → r.task = some k →
     (r.node cur).complete (s.part.partClusters r cur) = true → 3 ≤ (s.part.curtDecl r cur).1 →
     let n := (s.part.curtDecl r cur).2.2
     ∃ u, exec (.curtainRelease (.scene a cur)) s = .next u ∧ s.sameBytes u ∧ s.sameCores u [] ∧ s.sameRegs u [] ∧
       u.part.pcurt n = (s.part.pcurt n).arrive k s.part.tim.interval) ∧
  (∀ (s : State) (k : Nat) (f : W64), s.part.phase = .ready → (s.part.pcurt k).first = some f → fld (s.part.pcurtCfg k) 14 4 ≠ 0 →
     2 ^ (fld (s.part.pcurtCfg k) 14 4 - 1) * 100000 < (s.part.tim.interval - f).toNat →
     ∃ u : State, exec (.packageCurtainTimeout k) s = .next (u.act (fun p =>
         forEach (s.part.stg.replicas.filter (fun r => s.part.taskRuns r && s.part.waitsOn r k))
           (fun r x => x.raise ⟨0x0075, 2, r.die, r.origin, 0xFF, 0, r.task, 0, 0⟩ none) p)).served ∧ u.pending = s.pending ∧
       s.sameBytes u ∧ s.sameCores u [] ∧ s.sameRegs u [Reg.STG_PCURT_TIMEOUTS.at [0, k]] ∧
       u.part.reg (Reg.STG_PCURT_TIMEOUTS.at [0, k]) = satAdd32 (s.part.reg (Reg.STG_PCURT_TIMEOUTS.at [0, k])) 1 ∧
       u.part.pcurt k = { s.part.pcurt k with first := some s.part.tim.interval })

/-- 09 R278 R279: a message of the queue's epoch that has come to its beat joins the tail of an ACTIVE queue with room and is counted; then waiting
threads are tested. 09 R278 R281: a credit comes back to its route, at most 8, and then ring messages and blocked SENDs may go on; with none of
either nothing else follows.
09 R283, 12 R355: a SEND that has been blocked for longer than its route's watchdog allows, on the interval count, sets the route's flag and is an
error of source 0x0072. -/
def Obligations.ChannelEvents : Prop :=
  ∀ (s : State) (c q : Nat), s.part.phase = .ready →
    (∀ (m : Msg) (due : Option Nat), s.part.flight.find? (isMsgTo c q (s.part.beatOf (dieOf c))) = some (.msg c q m due) →
      s.part.readerState c = 1 → m.epoch = ((s.part.core c).queue q).epoch → ((s.part.core c).queue q).msgs.length < 8 → q < (s.part.core c).queues.length →
      let rx := cluReg Reg.CLU_CH_RX (clusterOf c) [16 * (c % 16) + q]
      let i := s.part.issuer c
      ∃ u : State, exec (.messageArrive c q) s = .next (s.rested i (u.part.settle i)) ∧
        u.part.flight = dropFirst (isMsgTo c q (s.part.beatOf (dieOf c))) s.part.flight ∧ s.sameBytes u ∧ s.sameCores u [c] ∧
        s.sameRegs u [rx] ∧ u.part.regN rx = (s.part.regN rx + 1) % 2 ^ 32 ∧
        ((u.part.core c).queue q).msgs = ((s.part.core c).queue q).msgs ++ [m] ∧ ∀ j, j ≠ q → (u.part.core c).queue j = (s.part.core c).queue j) ∧
    (s.part.flight.any (isCreditOf c q) = true → s.part.heldDark (clusterOf c) = false →
      ∃ u : State, exec (.creditReturn c q) s = .next (s.after c u.part (fun p => (p.pumpRoute c q 24).unstall c)) ∧
        u.part.flight = dropFirst (isCreditOf c q) s.part.flight ∧ s.sameBytes u ∧ s.sameCores u [c] ∧ s.sameRegs u [] ∧
        u.part.core c = (s.part.core c).onRoute q (fun x => { x with credits := min 8 (x.credits + 1) }) ∧
        (((s.part.core c).route q).ring = [] → (∀ m ∈ (s.part.core c).moving, ∀ x y w, m.what ≠ .send x y q w) → u.part.pumpRoute c q 24 = u.part)) ∧
    (∀ t m b pl sl w, m ∈ (s.part.core c).moving → m.what = .send pl sl q w → m.thread = t → m.since = some b →
      (∀ x ∈ (s.part.core c).moving, x.thread = t → x.since.isSome = true → x = m) →
      watchdogNs (s.part.routeWord c q) < (s.part.tim.interval - b).toNat → q < (s.part.core c).routes.length →
      ∃ u : State, exec (.channelWatchdog c t) s = .next (s.after c u.part (·.raiseCore c 0x0072 q 0 0 none)) ∧ s.sameBytes u ∧ s.sameCores u [c] ∧
        s.sameRegs u [] ∧ u.part.core c = (s.part.core c).onRoute q (fun x => { x with wdog := true }) ∧ ((u.part.core c).route q).wdog = true)

/-- 09 R258 R260 R264 R265 R290: a beat of the traverse network advances TRV_BEAT by one. Where nothing lands in it and one entry of the beat is a
row-move unit's or transfer engine's, its oldest request to the entry's cluster sends a half-row: a read is served 2 or 3 beats later, a write is
done 4 or 6 beats later and counted as sent. An entry for messages lets up to four leave for the peer cluster, with one half-row counted when any
leaves.
15 R476: a house slot advances the beat too, and compares the golden entry it is given: one that matches changes nothing, and the last entry of
the die ends a sweep. -/
def Obligations.TraverseBeats : Prop :=
  ∀ (s : State) (d : Nat), s.part.phase = .ready → d < 4 → (∀ h ∈ s.part.net, h.die = d → h.due ≠ s.part.beatOf d) → s.part.msgsDue d = [] →
    (s.part.beatOf d % 32 ≠ 31 →
      (s.part.slotEntries d = [] → exec (.cueSheetSlot d) s = .next (s.beaten d s.part)) ∧
      (∀ cl e, s.part.slotEntries d = [(cl, e)] →
        let core := 16 * cl + e.core
        let peer := 400 * (cl / 400) + e.peer
        let n := cluReg Reg.CLU_TRV_SENT cl []
        let far := !sameLeaf (clusterOf core % 400) (peer % 400)
        (e.kind = 2 → e.unit = 2 →
          let fl := leaveMsgs core peer (s.part.beatOf (cl / 400)) 4 s.part.flight
          ∃ u : State, exec (.cueSheetSlot d) s = .next (s.beaten d u.part) ∧ s.sameBytes u ∧ s.sameCores u [] ∧ s.sameRegs u [n] ∧
            u.part.flight = fl ∧ u.part.reg n = if fl = s.part.flight then s.part.reg n else s.part.reg n + 1) ∧
        (∀ r a, e.kind = 0 → e.unit < 2 → e.merge = false → s.part.nextRead core e.unit peer = some r → r.src = some a →
          ∃ u : State, exec (.cueSheetSlot d) s = .next (s.beaten d u.part) ∧ s.sameBytes u ∧ s.sameCores u [] ∧ s.sameRegs u [] ∧
            u.part.reqs = s.part.reqs.map (fun x => if x.uid = r.uid ∧ x.idx = r.idx then { x with moved := x.moved + 1 } else x) ∧
            u.part.net = s.part.net ++ [⟨dieOf core, s.part.beatOf (dieOf core) + (if far then 3 else 2), .serve, r.uid, r.idx, peer, far, a, r.moved == 1, true, []⟩]) ∧
        (∀ r a, e.kind = 2 → e.unit < 2 → s.part.nextWrite core e.unit peer = some r → r.dst = some a →
          ∃ u : State, exec (.cueSheetSlot d) s = .next (s.beaten d u.part) ∧ s.sameBytes u ∧ s.sameCores u [] ∧ s.sameRegs u [n] ∧
            u.part.reg n = s.part.reg n + 1 ∧
            u.part.reqs = s.part.reqs.map (fun x => if x.uid = r.uid ∧ x.idx = r.idx then { x with moved := x.moved + 1 } else x) ∧
            u.part.net = s.part.net ++ [⟨dieOf core, s.part.beatOf (dieOf core) + (if far then 6 else 4), .write, r.uid, r.idx, peer, far, a, r.moved == 1, false, r.row⟩]))) ∧
    (∀ i g, s.part.beatOf d % 32 = 31 → (∀ r ∈ s.part.reqs, dieOf r.core = d → s.part.unitMoves r = false) → (s.part.goldenOn d)[i]? = some g →
      s.part.goldenDark g = true ∨ s.part.goldenMatches g = true →
      let n := Reg.PRM_SWEEPS.at [d]
      ∃ u : State, exec (.houseSlot d .clean i) s = .next (s.beaten d u.part) ∧ s.sameBytes u ∧ s.sameCores u [] ∧ s.sameRegs u [n, Reg.PRM_SWEEP_US.at [d]] ∧
        u.part.cfg.mismatch = s.part.cfg.mismatch ∧
        u.part.reg n = if i + 1 = (s.part.goldenOn d).length then s.part.reg n + 1 else s.part.reg n)

/-- 15 R478: the oldest mismatch of a die, in package-wide configuration, is rewritten from its frame in the retained pool, and counted as a
repair when the range then matches its golden entry; an error of source 0x0060 is logged. -/
def Obligations.PrompterRepairsFromThePool : Prop :=
  ∀ (s : State) (d : Nat) (g : Golden) (k : Kept) (f : Clear) (x : Nat), s.part.phase = .ready → d < 4 →
    s.part.cfg.mismatch.find? (fun y => y.die == d) = some g → viewPlace g.addr g.len = some none →
    s.part.cfg.kept.find? (fun y => y.num == g.script) = some k → (s.part.keptFrames k)[g.frame]? = some (x, some f) →
    (List.range 8).any (fun i => let a := k.base + frameBase (scriptHead (s.part.bytesAt k.base 256)).frames + 4096 * g.frame + 512 * i
      decide (s.part.homeAt a = .lpddr) && s.part.chFailed a) = false →
    f.2.2.2.length = g.len → crc32c (padTo 4048 f.2.2.2) = g.crc →
    ∃ u : State, exec (.prompterRepair d) s = .next { s with part := (u.part.raise ⟨0x0060, 3, d, 0, 0xFF, 0, none, g.addr, 0⟩ none).place } ∧
      u.part.bytesAt g.addr g.len = f.2.2.2 ∧ (∀ a, a < g.addr ∨ g.addr + g.len ≤ a → u.part.byteAt a = s.part.byteAt a) ∧ s.sameCores u [] ∧
      s.sameRegs u [Reg.PRM_REPAIRS.at [d]] ∧ u.part.reg (Reg.PRM_REPAIRS.at [d]) = s.part.reg (Reg.PRM_REPAIRS.at [d]) + 1 ∧
      u.part.cfg.mismatch = s.part.cfg.mismatch.filter (fun y => decide (y ≠ g))

/-! ### Register accesses -/

/-- 00 R13: bit `i` of a register whose writes have no rule of their own takes the written bit where it is RW, is cleared where it is W1C and
written 1, and otherwise stands. Nothing else changes but, for a register of a cluster band, that band's power state (19 R563). -/
def Obligations.RegisterWriteFollowsAccessCodes : Prop :=
  ∀ (s : State) (by_ : Agent) (off width : Nat) (v : W64) (r : RegRow) (is : List Nat),
    s.mayAccess by_ off width → findReg off Reg.map = some (r, is) → r ∉ ownWrites →
    let w := v.toNat % 2 ^ (8 * width)
    ∃ u, exec (.registerWrite by_ off width v) s = .next u ∧
      (∀ i < 64, (u.part.reg off).getLsbD i =
        if r.w1c.testBit i then (s.part.reg off).getLsbD i && !w.testBit i
        else if r.rw.testBit i then w.testBit i else (s.part.reg off).getLsbD i) ∧
      (off < 0x2000000 → s.onlyRegs u [off]) ∧
      (0x2000000 ≤ off → u = { s with part := { s.part with regs := u.part.regs, pwr := u.part.pwr } } ∧
        s.sameRegs u [off, Reg.PWR_DOM_C.at [(off - 0x2000000) / 0x800000]] ∧ s.sameBytes u ∧ s.sameCores u [])

/-- 16 R489: a refused access, read or write, changes no register but HST_REFUSE, where it sets its bit, and HST_REFUSE_ADDR, which takes its
offset and its port. No byte and no core changes. -/
def Obligations.RefusedAccessesLeaveTheirAddress : Prop :=
  ∀ (s : State) (by_ : Agent) (off width : Nat) (v : W64) (i : Instr),
    i ∈ [Instr.registerWrite by_ off width v, Instr.bar0RefusedRead by_ off width] →
    s.part.present by_ = true → s.part.accessOk off width = false →
    let bit : Nat := match by_ with | .host _ => 1 | .house => 8
    let port : Nat := match by_ with | .host p => p % 2 | .house => 0
    ∃ u, exec i s = .next u ∧ s.sameRegs u [Reg.HST_REFUSE.at [], Reg.HST_REFUSE_ADDR.at []] ∧ s.sameBytes u ∧ s.sameCores u [] ∧
      u.part.reg (Reg.HST_REFUSE.at []) = s.part.reg (Reg.HST_REFUSE.at []) ||| BitVec.ofNat 64 bit ∧
      u.part.regN (Reg.HST_REFUSE_ADDR.at []) = off % 2 ^ 48 + port * 2 ^ 48

/-- 16 R486, 18 R552, 19 R569 R571, 13 R404, 10 R326, 12 R359 R371: registers whose writes keep to rules of their own.
12 R354: a value of TIM_SET at or above the count becomes the count, in every copy; a lower one sets TIM_STAT.set_refused.
09 R289 R290: a write of CLU_CH_HSEL latches the head message of the queue it selects, or zeros when the queue is empty. -/
def Obligations.GuardedRegisterWrites : Prop :=
  (∀ (s : State) (by_ : Agent) (v : W64) (w : W32),
     (∀ port < 2, let o := Reg.HST_WIN.at [port];
       s.mayAccess by_ o 8 → ∃ u, exec (.hstWin by_ port v) s = .next u ∧ s.onlyRegs u [o] ∧
         u.part.reg o = if fld v.toNat 30 18 * 2 ^ 30 + 2 ^ 36 ≤ 0x0F0000000000 then Reg.HST_WIN.written (s.part.reg o) v else s.part.reg o) ∧
     (let o := Reg.ERR_LOG_RD.at [];
       s.mayAccess by_ o 8 → ∃ u, exec (.errLogRd by_ v) s = .next u ∧ s.onlyRegs u [o] ∧
         u.part.reg o = if s.part.regN o ≤ v.toNat ∧ v.toNat ≤ s.part.regN (Reg.ERR_SEQ.at []) then v else s.part.reg o) ∧
     (let o := Reg.PWR_LIMIT.at [];
       s.mayAccess by_ o 4 → ∃ u, exec (.pwrLimit by_ w) s = .next u ∧ s.onlyRegs u [o] ∧
         u.part.regFld o 0 11 = (if 400 ≤ fld w.toNat 0 11 ∧ fld w.toNat 0 11 ≤ 1500 then fld w.toNat 0 11 else s.part.regFld o 0 11) ∧
         (s.part.phase = .ready → ∃ x, exec .controlPeriod u = .next x ∧ x.part.pce.limit = u.part.regFld o 0 11)) ∧
     (∀ ch < 128, let o := Reg.MEM_CH_WAIT_MAX.at [ch / 64, ch % 64];
       s.mayAccess by_ o 4 → ∃ u, exec (.memChWaitMax by_ ch w) s = .next u ∧ s.onlyRegs u [o] ∧ u.part.regFld o 0 32 = w.toNat) ∧
     (let o := Reg.STG_SHARE_CFG.at [];
       s.mayAccess by_ o 4 → ∃ u, exec (.stgShareCfg by_ w) s = .next u ∧ s.onlyRegs u [o] ∧ u.part.regFld o 4 3 = fld w.toNat 4 3 ∧
         u.part.regFld o 0 4 = if fld w.toNat 0 4 = 0 then s.part.regFld o 0 4 else fld w.toNat 0 4) ∧
     (let o := Reg.PWR_IN_STAT.at [];
       s.mayAccess by_ o 4 → ∃ u, exec (.stuckRelease by_ w) s = .next u ∧ s.onlyRegs u [o] ∧
         ∀ i < 9, bitOf (u.part.regN o) i = (bitOf (s.part.regN o) i && !(bitOf w.toNat i && !(s.part.pwr.ins.getD i Input.reset).level))) ∧
     (∀ d < 4, s.mayAccess by_ (Reg.TRV_BMON_CLR.at [d]) 8 →
       ∃ u, exec (.trvBmonClr by_ d v) s = .next u ∧ s.onlyRegs u ((List.range 16).map (bmon d)) ∧
         ∀ i < 16, u.part.regN (bmon d i) = if bitOf v.toNat i then s.part.regN (bmon d i) - s.part.regFld (bmon d i) 16 16 * 2 ^ 16 else s.part.regN (bmon d i)) ∧
     (let o := Reg.PCE_STAT.at [];
       s.mayAccess by_ o 4 → ∃ u, exec (.pceStatAvsClear by_ w) s = .next u ∧ s.sameBytes u ∧ s.sameCores u [] ∧
         u.part.reg o = s.part.reg o &&& ~~~ (w.setWidth 64 &&& 0x3F) ∧ s.sameRegs u (o :: (List.range 4).map (fun d => Reg.PCE_RAIL_STAT.at [d])) ∧
         ∀ d < 4, bitOf w.toNat 3 = true → s.part.pce.rails.length = 4 → u.part.regFld (Reg.PCE_RAIL_STAT.at [d]) 16 1 = 0 ∧ (u.part.rail d).fails = 0)) ∧
  (∀ (s : State) (by_ : Agent) (v : W64), s.mayAccess by_ (Reg.TIM_SET.at []) 8 →
     ∃ u, exec (.timSet by_ v) s = .next u ∧
       if v.toNat < s.part.tim.now.toNat then
         s.onlyRegs u [Reg.TIM_STAT.at []] ∧ u.part.reg (Reg.TIM_STAT.at []) = s.part.reg (Reg.TIM_STAT.at []) ||| 4
       else u = { s with part := { s.part with tim := { s.part.tim with now := v, copies := List.replicate 7 v } } }) ∧
  (∀ (s : State) (by_ : Agent) (cl k : Nat) (v : W32), cl < 1600 → k < 16 → s.mayAccess by_ (cluReg Reg.CLU_CH_HSEL cl [k]) 4 → fld v.toNat 0 5 < 16 →
     let sel := cluReg Reg.CLU_CH_HSEL cl [k]
     let q := (s.part.core (16 * cl + k)).queue (fld v.toNat 0 5)
     ∃ u, exec (.cluChHsel by_ cl k v) s = .next u ∧ s.sameBytes u ∧ s.sameCores u [] ∧ u.part.regN sel = fld v.toNat 0 5 ∧
       s.sameRegs u (sel :: Reg.PWR_DOM_C.at [cl / 400] :: (List.range 8).map (fun i => cluReg Reg.CLU_CH_HEAD cl [k, i])) ∧
       ∀ i < 8, u.part.regN (cluReg Reg.CLU_CH_HEAD cl [k, i]) = match q.msgs with
         | m :: _ => leAt (padTo 64 m.data) (8 * i) 8
         | [] => 0)

/-- 10 R315 R319: enabling a disabled seat clears its statistics; disabling one that has tasks in flight waits, the seat still enabled;
a pre-emption asked for with `go` set is pending at its replica, in the order of requests. -/
def Obligations.SeatsAndPreemptionRequests : Prop :=
  ∀ (s : State) (by_ : Agent) (v : W32),
    (∀ seat < 4096, let o := Reg.STG_SEAT_CFG.at [seat];
      s.mayAccess by_ o 4 →
      (∃ u, exec (.seatEnable by_ seat v) s = .next u ∧ s.sameBytes u ∧ s.sameCores u [] ∧ seat ∉ u.part.stg.seatOff ∧
        u.part.reg o = Reg.STG_SEAT_CFG.written (s.part.reg o) (BitVec.ofNat 64 (v ||| 1).toNat) ∧
        (bitOf (s.part.regN o) 0 = true → s.sameRegs u [o]) ∧
        (bitOf (s.part.regN o) 0 = false →
          s.sameRegs u [o, Reg.STG_SEAT_MISS.at [seat], Reg.STG_SEAT_WORST.at [seat], Reg.STG_SEAT_DONE.at [seat]] ∧
          u.part.reg (Reg.STG_SEAT_MISS.at [seat]) = 0 ∧ u.part.reg (Reg.STG_SEAT_WORST.at [seat]) = 0 ∧ u.part.reg (Reg.STG_SEAT_DONE.at [seat]) = 0)) ∧
      (∃ u, exec (.seatDisable by_ seat v) s = .next u ∧ s.sameBytes u ∧ s.sameCores u [] ∧ s.sameRegs u [o] ∧
        (let waits := bitOf (s.part.regN o) 0 && s.part.regN (Reg.STG_SEAT_INFLIGHT.at [seat]) != 0;
         (bitOf (u.part.regN o) 0 = waits) ∧ (seat ∈ u.part.stg.seatOff ↔ waits = true)))) ∧
    (∀ d r k t, d < 4 → s.mayAccess by_ (Reg.STG_PREEMPT_REQ.at [d]) 4 → bitOf v.toNat 31 = true →
      s.part.replicaOf (400 * d + fld v.toNat 0 9) = some r → r.task = some k → s.part.task k = some t → t.noPreempt = false →
      r.preempt = none → r.st = .running →
      ∃ u, exec (.stgPreemptReq by_ d v) s = .next u ∧ s.sameBytes u ∧ s.sameCores u [] ∧ s.sameRegs u [] ∧
        u.part.stg.saveq = s.part.stg.saveq ++ [r.anchor] ∧ u.part.stg.tasks = s.part.stg.tasks ∧
        u.part.replicaOf r.anchor = some { r with preempt := some ⟨s.part.reg (Reg.TRV_BEAT.at [r.die]), false, none⟩ })

/-- Every register of the map is found at its offset, at every index below its counts: no two registers share an offset (00 R11 R12). -/
def Obligations.RegisterOffsetsNameOneRegister : Prop :=
  ∀ r ∈ Reg.map, ∀ is : List Nat, is.length = r.dims.length → (∀ x ∈ r.dims.zip is, x.2 < x.1.2) → findReg (r.at is) Reg.map = some (r, is)

/-! ### The fabric -/

/-- 14 R407 R415 R419 R437 R438 R439 R447: the registers that act on routing, circuits and ports. A DOWN port whose enable bit is 0 does not train
again but is DISABLED, and an enable written to a DOWN port leaves it DOWN (the model's choice, log 11). -/
def Obligations.FabricRegisterWrites : Prop :=
  ∀ (s : State) (by_ : Agent) (v : W32) (x : W64),
    let evt := Reg.FAB_EVT.at []
    (s.mayAccess by_ (Reg.FAB_SWAP.at []) 4 → bitOf v.toNat 0 = true →
      ∃ u, exec (.fabSwap by_ v) s = .next u ∧
        if s.part.drained then u = { s with part := { s.part with fab := { s.part.fab with active := !s.part.fab.active } } }
        else s.onlyRegs u [evt] ∧ u.part.reg evt = s.part.reg evt ||| 1) ∧
    (s.mayAccess by_ (Reg.FAB_CTL.at []) 4 →
      ∃ u : State, exec (.injectStop by_ v) s = .next (u.act (fun p => if bitOf v.toNat 0 then p else p.ni)) ∧ s.onlyRegs u [Reg.FAB_CTL.at []] ∧
        bitOf (u.part.regN (Reg.FAB_CTL.at [])) 0 = bitOf v.toNat 0) ∧
    (let o := Reg.FAB_CFG.at [];
     s.mayAccess by_ o 4 →
      let stays := bitOf (s.part.regN o) 14 && (!bitOf v.toNat 14 || fld v.toNat 0 14 != s.part.regFld o 0 14) && !s.part.drained
      ∃ u, exec (.fabCfgWrite by_ v) s = .next u ∧
        if stays then s.onlyRegs u [evt] ∧ u.part.reg evt = s.part.reg evt ||| 1
        else s.onlyRegs u [o] ∧ u.part.fabSelf = fld v.toNat 0 14 ∧ u.part.fabValid = bitOf v.toNat 14 ∧ u.part.fabTtl = fld v.toNat 16 8) ∧
    (∀ c < 4096, let eo := Reg.FAB_CIRC.at [c]; let so := Reg.FAB_CIRC_SLOTS.at [c];
      (s.mayAccess by_ eo 8 → ∃ u, exec (.circuitTableWrite by_ c 0 x) s = .next u ∧
        if s.part.circRefused c (x.toNat % 2 ^ 48) (s.part.regN so) then s.onlyRegs u [evt] ∧ u.part.reg evt = s.part.reg evt ||| 16
        else s.sameBytes u ∧ s.sameCores u [] ∧ s.sameRegs u [eo] ∧ u.part.circEntry c = x.toNat % 2 ^ 48 ∧
          (circValid x.toNat = true → Tab.get 0 u.part.fab.circSent (u.part.pairKey c) = 0)) ∧
      (s.mayAccess by_ so 8 → ∃ u, exec (.circuitTableWrite by_ c 1 x) s = .next u ∧
        if s.part.circRefused c (s.part.regN eo) x.toNat then s.onlyRegs u [evt] ∧ u.part.reg evt = s.part.reg evt ||| 16
        else s.onlyRegs u [so] ∧ u.part.reg so = x)) ∧
    (∀ n < 16, n < s.part.fab.ports.length →
      (s.mayAccess by_ (portReg Reg.FAB_PORT_CTL n) 4 →
        (let on := s.part.regFld (portReg Reg.FAB_PORT_CFG n) 0 1;
         (s.part.port n).st = 3 → ∃ u, exec (.retrainPort by_ n) s = .next u ∧ s.onlyPort u n [portReg Reg.FAB_PORT_STAT n] ∧
          u.part.port n = { s.part.port n with st := on, locked := false, cause := 0 } ∧ u.part.regN (portReg Reg.FAB_PORT_STAT n) = on) ∧
        (∃ u, exec (.clearHighWater by_ n) s = .next u ∧ s.onlyRegs u [portReg Reg.FAB_PORT_VCQ_0 n, portReg Reg.FAB_PORT_VCQ_1 n] ∧
          u.part.regN (portReg Reg.FAB_PORT_VCQ_0 n) = 0 ∧ u.part.regN (portReg Reg.FAB_PORT_VCQ_1 n) = 0)) ∧
      (let o := portReg Reg.FAB_PORT_CFG n;
       s.mayAccess by_ o 4 →
        ∃ u, exec (.fabPortCfg by_ n v) s = .next u ∧ s.sameBytes u ∧ s.sameCores u [] ∧ u.part.regFld o 0 3 = fld v.toNat 0 3 ∧
          if bitOf v.toNat 0 = bitOf (s.part.regN o) 0 then s.onlyRegs u [o]
          else s.sameRegs u [o, portReg Reg.FAB_PORT_STAT n, Reg.PWR_DOM_E.at [n / 8]] ∧
            (∀ m, m ≠ n → { u.part.port m with curtIn := [] } = { s.part.port m with curtIn := [] }) ∧
            if (s.part.port n).st = 3 then u.part.port n = s.part.port n
            else u.part.port n = { Port.reset with st := (bitOf v.toNat 0).toNat } ∧ u.part.regN (portReg Reg.FAB_PORT_STAT n) = (bitOf v.toNat 0).toNat))

/-- 14 R407 R411 R412 R445: a port that trains is UP with 32 credits on every channel, keeps its waiting packets and its peer's last times, and sends
what it may; one that fails is DOWN with cause 4. An UP port that loses alignment, has replayed a flit 8 times or has waited 20 µs for an
acknowledgement is DOWN with its cause, keeps only the curtain packets not yet acknowledged or sent, FAB_EVT tells and an error is logged; then the
circuits through it break (14 R440). -/
def Obligations.PortsTrainAndGoDown : Prop :=
  ∀ (s : State) (n : Nat), s.part.phase = .ready → n < 16 → n < s.part.fab.ports.length →
    let q := s.part.port n
    let st := portReg Reg.FAB_PORT_STAT n
    (q.st = 1 →
      (∃ u : State, exec (.portTraining n true) s = .next (u.act (·.pump n)) ∧ s.onlyPort u n [st] ∧ u.part.regN st = 6 ∧ u.part.out = s.part.out ∧
        u.part.port n = { Port.reset with
          st := 2, locked := true, credits := List.replicate 8 32, outq := q.outq, slot := q.slot, curtIn := q.curtIn,
          peerSent := q.peerSent, peerAt := q.peerAt, ackAt := s.part.tim.interval } ∧
        ((∀ l ∈ q.outq, l = []) → u.part.pump n = u.part)) ∧
      (∃ u, exec (.portTraining n false) s = .next u ∧ s.onlyPort u n [st] ∧ u.part.port n = { q with st := 3, cause := 4 } ∧
        u.part.regN st = 3 + q.locked.toNat * 4 + 32)) ∧
    (∀ cause, q.st = 2 → (cause = 1 ∨ (cause = 2 ∧ q.replay.any (fun x => decide (8 ≤ x.tries)) = true) ∨ (cause = 3 ∧ s.part.ackStalled n = true)) →
      let cs := (List.range 4096).filter (fun c => circValid (s.part.circEntry c) && circPort (s.part.circEntry c) == n && !circSink (s.part.circEntry c))
      ∃ u : State, exec (.portDown n cause) s = .next (u.act (fun p => forEach cs (fun c x => x.breakAt n c) p)).served ∧ u.pending = s.pending ∧
        (u.part.port n).st = 3 ∧ (u.part.port n).cause = cause ∧ (u.part.port n).replay = [] ∧
        (u.part.port n).outq.getD 0 [] = (q.replay.filter (fun x => x.vc == 0)).flatMap (·.ends) ++ q.outq.getD 0 [] ∧
        (∀ v, 0 < v → (u.part.port n).outq.getD v [] = []) ∧ (u.part.port n).curtIn.map (fun k => (k.head, k.body)) = q.curtIn.map (fun k => (k.head, k.body)) ∧
        (u.part.port n).peerSent = q.peerSent ∧ (u.part.port n).peerAt = q.peerAt ∧
        (∀ m, m ≠ n → { u.part.port m with curtIn := [] } = { s.part.port m with curtIn := [] }) ∧ s.sameBytes u ∧ s.sameCores u [] ∧
        u.part.regN st = 3 + cause * 8 ∧ bitOf (u.part.regN (Reg.FAB_EVT.at [])) 1 = true ∧
        u.part.reg (Reg.ERR_SEQ.at []) = s.part.reg (Reg.ERR_SEQ.at []) + 1)

/-- 14 R408 to R412, 12 R353: a damaged flit is dropped with a NAK; a good one brings acknowledgement and credits, and then the port sends what it
may; a DATA flit in order brings its packets and is acknowledged at once, one out of order brings nothing; a NAK sends every unacknowledged flit
again; a TIME flit carries the exchange of times. -/
def Obligations.FlitsAreTakenOrRefused : Prop :=
  ∀ (s : State) (n : Nat) (b : List Byte) (k : Nat), s.part.phase = .ready → n < 16 → n < s.part.fab.ports.length → (s.part.port n).st = 2 →
    let q := s.part.port n
    let f := flitOf b
    let q1 := (q.acked f.ack s.part.tim.interval).credit f.cvc f.credits
    let fc := portReg Reg.FAB_PORT_FEC_CORR n
    let fu := portReg Reg.FAB_PORT_FEC_UNCORR n
    let rp := portReg Reg.FAB_PORT_REPLAY n
    (∀ i ∈ [Instr.dataFlit n b none, Instr.idleFlit n b none, Instr.nak n b none, Instr.timeFlit n b none],
      ∃ u, exec i s = .next u ∧ s.onlyPort u n [fu] ∧ u.part.reg fu = s.part.reg fu + 1 ∧
        u.part.out = s.part.out ++ [.flit n (flitBytes 0 (q.rxSeq + 4095) 2 0 q.oweVc (min 32 (q.owe.getD q.oweVc 0)) [])] ∧
        (u.part.port n).rxSeq = q.rxSeq ∧ (u.part.port n).rx = q.rx ∧ (u.part.port n).replay = q.replay) ∧
    (flitGood b = true →
      (∀ x ∈ [(Instr.idleFlit n b (some k), 1), (Instr.dataFlit n b (some k), 0)], f.kind = x.2 → (x.2 = 0 → f.seq ≠ q.rxSeq) →
        ∃ u : State, exec x.1 s = .next (u.act (·.pump n)) ∧ s.onlyPort u n [fc] ∧ u.part.out = s.part.out ∧ u.part.port n = q1 ∧
          u.part.reg fc = s.part.reg fc + BitVec.ofNat 64 k) ∧
      (∀ pk rest, f.kind = 0 → f.seq = q.rxSeq → f.fvc ≠ 0 → takePackets 64 (q.rx.getD f.fvc [] ++ f.payload) = ([pk], rest) → packetOk pk f.fvc = true →
        s.part.fabValid = true →
        let got : Packet := { pk with held := some (n, f.fvc, q.rxFlits.getD f.fvc 0 + if rest = [] then 1 else 0) }
        ∃ u : State, exec (.dataFlit n b (some k)) s = .next (u.act (·.ackFlit n)) ∧
          u.part.fab.transit = s.part.fab.transit ++ [⟨got, n / 8, f.fvc, s.part.tim.interval, false⟩] ∧
          (u.part.port n).rxSeq = (q.rxSeq + 1) % 4096 ∧ (u.part.port n).credits = q1.credits ∧ (u.part.port n).replay = q1.replay ∧
          (u.part.port n).owe = q1.owe.set f.fvc (q1.owe.getD f.fvc 0) ∧ u.part.out = s.part.out ∧
          s.sameBytes u ∧ s.sameCores u [] ∧ s.sameRegs u [fc, portReg Reg.FAB_PORT_PKT_RX n, portReg Reg.FAB_PORT_BYTE_RX n] ∧
          u.part.regN (portReg Reg.FAB_PORT_PKT_RX n) = (s.part.regN (portReg Reg.FAB_PORT_PKT_RX n) + 1) % 2 ^ 48) ∧
      (f.kind = 2 →
        ∃ (u : State) (l : List Output), exec (.nak n b (some k)) s = .next (u.act (·.pump n)) ∧ s.onlyPort u n [fc, rp] ∧ u.part.out = s.part.out ++ l ∧
          l.length = q1.replay.length ∧ (u.part.port n).replay = q1.replay.map (fun x => { x with tries := x.tries + 1 }) ∧
          ((∀ v, q.owe.getD v 0 = 0) → l = q1.replay.map (fun x => .flit n (flitBytes x.seq (q.rxSeq + 4095) 0 x.vc 0 0 x.payload))) ∧
          u.part.reg rp = if q1.replay = [] then s.part.reg rp else s.part.reg rp + 1) ∧
      (f.kind = 3 →
        let t3 := leAt f.payload 0 8; let t1 := leAt f.payload 8 8; let t2 := leAt f.payload 16 8;
        let e : Int := ((s.part.tim.now.toNat : Int) - t3 - ((t2 : Int) - t1)) / 2;
        let parent := s.part.timSrc = 2 ∧ s.part.regFld (Reg.TIM_CFG.at []) 2 4 = n;
        ∃ u : State, exec (.timeFlit n b (some k)) s = .next (u.act (·.pump n)) ∧ u.part.out = s.part.out ∧
          u.part.port n = { q1 with peerSent := BitVec.ofNat 64 t3, peerAt := s.part.tim.now } ∧ (¬ parent → s.onlyPort u n [fc]) ∧
          (parent → t1 ≠ 0 → 0 ≤ e → e < 2 ^ 31 →
            u.part.regN (Reg.TIM_OFFSET.at []) = e.toNat ∧ u.part.tim.slew = e * 2 ^ 32 ∧ u.part.tim.now = s.part.tim.now ∧
            bitOf (u.part.regN (Reg.TIM_STAT.at [])) 0 = false))) ∧
    (∃ u, exec (.timeFlitSend n) s = .next u ∧ s.onlyPort u n [] ∧
      u.part.out = s.part.out ++ [.flit n (flitBytes 0 (q.rxSeq + 4095) 3 0 q.oweVc (min 32 (q.owe.getD q.oweVc 0))
        (leBytes 8 s.part.tim.now.toNat ++ leBytes 8 q.peerSent.toNat ++ leBytes 8 q.peerAt.toNat))])

/-- 14 R411 R414 to R418: a packet for this part is delivered, one without a route is dropped and counted, one with a way out joins the output queue
of its port and channel; the buffers of both are free, and the port sends what it may. A packet that has waited 64 router cycles for an adaptive
channel takes the escape channel. 14 R409 R410: an UP port whose one packet fits a flit sends it, takes a credit and keeps it for replay. -/
def Obligations.PacketsTakeTheirRoute : Prop :=
  (∀ (s : State) (e : Nat) (t : Transit) (ts : List Transit), s.part.phase = .ready → s.part.fab.transit = t :: ts → t.e = e →
    let h := t.pkt.hdr
    let w := s.part.routeEntry h.dst
    let free := s.part.freed t.pkt
    (h.circ = false → h.dst = s.part.fabSelf →
      ∃ u, exec (.packetForward e) s = .next u ∧
        u = { s with part := { s.part with fab := { s.part.fab with transit := ts, inbox := s.part.fab.inbox ++ [(e, t.pkt)] } } }) ∧
    (h.circ = false → h.dst ≠ s.part.fabSelf → (bitOf w 21 = false ∨ (t.own = false ∧ h.ttl ≤ 1)) →
      ∃ u, exec (.packetForward e) s = .next u ∧
        u = { s with part := { free with fab := { free.fab with transit := ts }, regs := u.part.regs } } ∧ s.sameRegs u [Reg.FAB_DROP_ROUTE.at []] ∧
        u.part.reg (Reg.FAB_DROP_ROUTE.at []) = satAdd32 (s.part.reg (Reg.FAB_DROP_ROUTE.at [])) 1) ∧
    (∀ n v, s.part.hop t = .out n v → v < 7 → n < 16 → n < s.part.fab.ports.length → v < (s.part.port n).outq.length →
      ∃ u : State, exec (.packetForward e) s = .next (u.act (·.pump n)) ∧ u.part.fab.transit = ts ∧ s.sameBytes u ∧ s.sameCores u [] ∧
        s.sameRegs u [portReg Reg.FAB_PORT_VCQ_0 n, portReg Reg.FAB_PORT_VCQ_1 n] ∧ u.part.out = free.out ∧
        (u.part.port n).outq = (s.part.port n).outq.set v ((s.part.port n).outq.getD v [] ++ [{ t.sent with held := none }]) ∧
        ∀ m, m ≠ n → u.part.port m = free.port m) ∧
    (t.vc < 4 → s.part.hop t = .wait → bitOf w 20 = true → 52 ≤ (s.part.tim.interval - t.since).toNat →
      ∃ u, exec (.escapeTimeout e 0) s = .next u ∧
        u = { s with part := { s.part with fab := { s.part.fab with transit := { t with vc := 4 } :: ts } } })) ∧
  (∀ (p : Part) (n v : Nat) (k : Packet), n < 16 → n < p.fab.ports.length → v < 7 → (p.port n).st = 2 → (p.port n).replay.length < 512 →
    (p.port n).outq = (List.replicate 8 []).set v [k] → (p.port n).part.getD v 0 = 0 → (p.port n).credits.getD v 0 ≠ 0 → k.bytes.length ≤ 244 →
    (((p.pump n).port n).replay = (p.port n).replay ++ [⟨(p.port n).txSeq, v, padTo 244 k.bytes, 0, [k]⟩]) ∧
    ((p.pump n).port n).credits = (p.port n).credits.set v ((p.port n).credits.getD v 0 - 1) ∧
    ((p.pump n).port n).txSeq = ((p.port n).txSeq + 1) % 4096 ∧ (p.pump n).out.length = p.out.length + 1 ∧ ∀ m, m ≠ n → (p.pump n).port m = p.port m)

/-- 14 R425 R426 R428 R429: a doorbell moves its queue's tail; the descriptor at the head of an enabled queue becomes active, and the NI sends
what it may; one that breaks a rule, or that cannot be read, is refused with FAB_Q_STAT and an error.
14 R421 R423: a packet of an active descriptor that neither its fence nor injection control holds goes out with its header and its rows, and waits
for its answer. -/
def Obligations.FabricQueuesRun : Prop :=
  (∀ (s : State) (q : Nat), s.part.phase = .ready → q < 64 →
    (∀ b, s.part.fab.bells.find? (fun x => x.q == q) = some b →
      ∃ u, exec (.fabricDoorbell q) s = .next u ∧ u.part.fab.bells = dropFirst (fun x => x.q == q) s.part.fab.bells ∧
        u.part.qTail q = b.tail % s.part.qSize q ∧ s.sameBytes u ∧ s.sameCores u [] ∧ s.sameRegs u [] ∧ ∀ r, r ≠ q → u.part.qTail r = s.part.qTail r) ∧
    (let i := s.part.qHead q; let a := s.part.regN (Reg.FAB_Q_BASE.at [q]) + 64 * i; let b := s.part.bytesAt a 64;
     let next := (i + 1) % s.part.qSize q; let owner := Tab.get none s.part.fab.owners (entryKey q i); let head := Reg.FAB_Q_HEAD.at [q];
     let map := ceilDiv (fdRows b) 8;
     bitOf (s.part.regN (Reg.FAB_Q_CFG.at [q])) 4 = true → s.part.fabValid = true → i ≠ s.part.qTail q →
     Tab.get false s.part.fab.dropped (entryKey q i) = false → (s.part.fab.descs.filter (fun d => d.q / 32 == q / 32)).length < 256 →
      ((s.part.readSpan a 64).2 = none → s.part.fdBad q b = false → (fdFlag b 2 = true → (s.part.readSpan (fdMap b) map).2 = none) →
        ∃ u : State, exec (.fabricDescriptorStart q) s = .next (u.act (·.ni)).served ∧ u.pending = s.pending ∧ s.sameBytes u ∧ s.sameCores u [] ∧
          s.sameRegs u (head :: readMarks a 64 ++ if fdFlag b 2 then readMarks (fdMap b) map else []) ∧
          u.part.qHead q = next ∧ u.part.fab.transit = s.part.fab.transit ∧ Tab.get none u.part.fab.owners (entryKey q i) = none ∧
          u.part.fab.descs = s.part.fab.descs ++ [⟨s.part.fab.nextDesc, q, i, b, owner, s.part.fdPackets b, false⟩]) ∧
      (s.part.fdBad q b = true ∨ (s.part.readSpan a 64).2 ≠ none →
        ∃ u : State, exec (.fabricDescriptorStart q) s =
            .next (u.act (fun p => p.raise ⟨0x0073, 4, 6 + q / 32, q, 0xFF, 0, owner, a, 0⟩ none)).served ∧ u.pending = s.pending ∧
          s.sameBytes u ∧ s.sameCores u [] ∧ u.part.fab.descs = s.part.fab.descs ∧ u.part.qHead q = next ∧
          bitOf (u.part.regN (Reg.FAB_Q_STAT.at [q])) 1 = true))) ∧
  (∀ (p : Part) (d : FabDesc) (r n dst : Nat) (rest : List (Nat × Nat)), d.todo = (r, n) :: rest → fdFlag d.bytes 1 = false →
    (n ≠ 0 ∨ fdSignal d.bytes = true) → bitOf (p.regN (Reg.FAB_CTL.at [])) 0 = false → p.fabValid = true → p.castOf (p.qJob d.q) (fdRank d.bytes) = some dst →
    (d.fenced = true → p.fenceHeld d dst = false) →
    let kind := fdKind d.bytes
    let carries := kind = 0 ∨ kind = 2
    let src := fdLocal d.bytes + 512 * r
    (carries → (p.readSpan src (512 * n)).2 = none) →
    let h : Hdr := { p.header dst (if kind = 1 then 1 else 3) (fdType kind) with
      fence := d.fenced, job := p.qJob d.q, length := if carries then 129 * n else 0, tags := if carries then n else 0,
      addr := fdRemote d.bytes + 512 * r, xid := p.fab.nextXid.toNat,
      arg := if kind = 1 then n else if kind = 2 then fdElem d.bytes + fdOp d.bytes * 8 else if kind = 3 ∨ kind = 4 then leAt d.bytes 32 8 else 0 }
    let k : Packet := ⟨h.bytes, if carries then p.payload src n else [], none⟩
    ∃ v, p.trySend d = some v ∧ v.fab.transit = p.fab.transit ++ [⟨k, d.q / 32, if kind = 1 then 1 else 3, p.tim.interval, true⟩] ∧
      v.fab.unacked = p.fab.unacked ++ [⟨d.q / 32, p.fab.nextXid, d.num, k, p.tim.interval, none, src⟩] ∧ v.fab.nextXid = p.fab.nextXid + 1 ∧
      v.mem = p.mem ∧ v.cores = p.cores ∧
      v.fab.descs = p.fab.descs.map (fun x => if x.num = d.num then { x with todo := x.todo.drop 1, begun := true } else x))

/-- 14 R422 R424 R430 R431 R433 R436: what a request packet that is accepted does to its home rows or word in LPDDR5X, and its answer from a part
that is an endpoint; a request of a job that is not enabled is answered with status 3 and changes no byte; a repeat on a circuit is only
acknowledged (14 R439). -/
def Obligations.RequestPacketsAreServed : Prop :=
  ∀ (s : State) (e : Nat) (k : Packet) (v : Part) (i : Instr) (type : Nat), s.part.phase = .ready →
    (i, type) ∈ [(Instr.put e, Pkt.PUT), (.signal e, Pkt.SIGNAL), (.signalAdd e, Pkt.SIGNAL_ADD), (.red e, Pkt.RED), (.getReq e, Pkt.GET_REQ)] →
    s.part.take e type = some (k, v) →
    let h := k.hdr
    let a := h.addr
    let acks := fun (st : Nat) => if s.part.fabValid = true then [s.part.ackTo h e st] else []
    (v.mem = s.part.mem ∧ v.cores = s.part.cores ∧ v.regs = s.part.regs ∧ v.fab.transit = s.part.fab.transit) ∧
    (type ≠ Pkt.GET_REQ →
      (s.part.repeated h = true → exec i s = .next { s with part := { v with fab := { v.fab with transit := v.fab.transit ++ acks 0 } } }) ∧
      (h.circ = false → s.part.jobEnabled h.job = false →
        exec i s = .next { s with part := { v with fab := { v.fab with transit := v.fab.transit ++ acks 3 } } })) ∧
    (h.circ = false → s.part.jobEnabled h.job = true →
      (type = Pkt.PUT → a % 512 = 0 →
        (∀ j < h.tags, tagOk k j = true ∧ s.part.homeAt (a + 512 * j) = .lpddr ∧ s.part.chFailed (a + 512 * j) = false ∧ s.part.inPool (a + 512 * j) 512 = false) →
        ∃ u, exec i s = .next u ∧ (∀ j < h.tags, u.part.bytesAt (a + 512 * j) 512 = padTo 512 (rowOf k j)) ∧
          (∀ x, x < a ∨ a + 512 * h.tags ≤ x → u.part.byteAt x = s.part.byteAt x) ∧ s.sameCores u [] ∧
          s.sameRegs u ((List.range h.tags).map (fun j => chanReg Reg.MEM_CH_WR (a + 512 * j))) ∧
          u.part.fab.inbox = v.fab.inbox ∧ u.part.fab.transit = s.part.fab.transit ++ acks 0) ∧
      (type = Pkt.GET_REQ → a % 512 = 0 → 1 ≤ h.arg % 16 → h.arg % 16 ≤ 8 →
        (∀ j < h.arg % 16, s.part.homeAt (a + 512 * j) = .lpddr ∧ s.part.chFailed (a + 512 * j) = false ∧ s.part.rowGood (a + 512 * j) = true) →
        let n := h.arg % 16
        let r : Hdr := { s.part.header h.src 2 Pkt.GET_RESP with job := h.job, length := 129 * n, tags := n, addr := a, xid := h.xid }
        ∃ u, exec i s = .next u ∧ s.sameBytes u ∧ s.sameCores u [] ∧ s.sameRegs u ((List.range n).map (fun j => chanReg Reg.MEM_CH_RD (a + 512 * j))) ∧
          u.part.fab.inbox = v.fab.inbox ∧
          u.part.fab.transit = s.part.fab.transit ++
            if s.part.fabValid = true then [⟨⟨r.bytes, s.part.payload a n, none⟩, e, 2, s.part.tim.interval, true⟩] else []) ∧
      (s.part.homeAt a = .lpddr → s.part.chFailed a = false → s.part.rowGood a = true →
        (type = Pkt.RED → h.tags = 1 → tagOk k 0 = true → a % 512 = 0 → s.part.inPool a 512 = false → fld h.arg 0 3 = 0 → fld h.arg 3 3 = 0 →
          ∃ u, exec i s = .next u ∧
            (∀ j < 128, u.part.natAt (a + 4 * j) 4 = (s.part.natAt (a + 4 * j) 4 + leAt (rowOf k 0) (4 * j) 4) % 2 ^ 32) ∧
            (∀ x, x < a ∨ a + 512 ≤ x → u.part.byteAt x = s.part.byteAt x) ∧ s.sameCores u [] ∧
            u.part.fab.inbox = v.fab.inbox ∧ u.part.fab.transit = s.part.fab.transit ++ acks 0) ∧
        (type = Pkt.SIGNAL ∨ type = Pkt.SIGNAL_ADD → h.tags = 0 → a % 8 = 0 → s.part.inPool a 8 = false →
          ∃ u, exec i s = .next u ∧ u.part.natAt a 8 = (if type = Pkt.SIGNAL then h.arg else (s.part.natAt a 8 + h.arg) % 2 ^ 64) ∧
            (∀ y, y < a ∨ a + 8 ≤ y → u.part.byteAt y = s.part.byteAt y) ∧ s.sameCores u [] ∧
            u.part.fab.inbox = v.fab.inbox ∧ u.part.fab.transit = s.part.fab.transit ++ acks 0)))

/-- 14 R430: an answer of status 0 that is the last of its descriptor completes it, with its local signal; then the NI sends what it may.
14 R423 R427: the rows of a GET_RESP land where its address says (log 11 where it repeats the far address), and it is such an answer.
14 R430 R432: a packet unacknowledged too long fails its descriptor: an error is logged, and a host's stops its queue and has its local signal.
14 R440: a BREAK moves a circuit in use to its installed understudy. -/
def Obligations.AnswersReachTheirDescriptors : Prop :=
  (∀ (p : Part) (x : Unacked) (d : FabDesc), p.descOf x.desc = some d → d.todo = [] →
    let left := dropFirst (fun y => decide (y = x)) p.fab.unacked
    (∀ y ∈ left, y.desc ≠ d.num) → d.q < 64 →
    let la := fdLsigAddr d.bytes; let ls := fdLsig d.bytes; let done := Reg.FAB_Q_DONE.at [d.q]
    (ls = true → p.homeAt la = .lpddr ∧ p.writeFault la 8 = none ∧ p.rowGood la = true) →
    ∃ v : Part, p.settleAck x 0 = v.ni ∧ v.fab.descs = p.fab.descs.filter (fun y => y.num != d.num) ∧ v.fab.unacked = left ∧ v.cores = p.cores ∧
      v.reg done = p.reg done + 1 ∧ (ls = true → v.natAt la 8 = fdLsigVal d.bytes) ∧
      ∀ y, ls = false ∨ y < la ∨ la + 8 ≤ y → v.byteAt y = p.byteAt y) ∧
  (∀ (s : State) (e : Nat) (k : Packet) (v : Part), s.part.phase = .ready →
    let h := k.hdr
    (∀ x, s.part.take e Pkt.ACK = some (k, v) → s.part.answered h = some x →
      exec (.ack e) s = .next ({ s with part := v.settleAck x (h.arg % 256) } : State).served) ∧
    (∀ x, s.part.take e Pkt.GET_RESP = some (k, v) → s.part.answered h = some x → h.arg % 256 = 0 → h.tags = x.pkt.hdr.arg % 16 →
      let a := landsAt h x
      (∀ j < h.tags, tagOk k j = true ∧ s.part.homeAt (a + 512 * j) = .lpddr ∧ s.part.writeFault (a + 512 * j) 512 = none) → a % 512 = 0 →
      ∃ u : State, exec (.getResp e) s = .next (u.act (·.settleAck x 0)).served ∧ u.pending = s.pending ∧ s.sameCores u [] ∧
        (∀ j < h.tags, u.part.bytesAt (a + 512 * j) 512 = padTo 512 (rowOf k j)) ∧ u.part.fab.unacked = s.part.fab.unacked ∧
        u.part.fab.descs = s.part.fab.descs ∧ ∀ y, y < a ∨ a + 512 * h.tags ≤ y → u.part.byteAt y = s.part.byteAt y) ∧
    (∀ c w, s.part.take e Pkt.BREAK = some (k, v) → c = h.arg % 4096 → circValid (s.part.circEntry c) = true → circOrigin (s.part.circEntry c) = true →
      s.part.fab.switched.find? (fun x => decide (x.2 = some c)) = none → s.part.circNow c = some c → s.part.understudy (s.part.circEntry c) = some w →
      ∃ u : State, exec (.brk e) s = .next (u.act (·.ni)).served ∧ u.pending = s.pending ∧ u.part.circNow c = some w ∧ u.part.fab.inbox = v.fab.inbox ∧
        s.sameBytes u ∧ s.sameCores u [] ∧ bitOf (u.part.regN (Reg.FAB_EVT.at [])) 2 = true ∧
        u.part.reg (Reg.ERR_SEQ.at []) = s.part.reg (Reg.ERR_SEQ.at []) + 1)) ∧
  (∀ (s : State) (e i : Nat) (d : FabDesc) (x : Unacked), s.part.phase = .ready → (s.part.unackedOf e)[i]? = some x →
    1000 * s.part.regFld (Reg.FAB_ACK_TMO.at []) 0 16 ≤ (s.part.tim.interval - x.at_).toNat → s.part.descOf x.desc = some d → d.q < 64 →
    let rep : Report := ⟨0x0050, 4, 6 + d.q / 32, d.q, 0xFF, 0, d.owner, 0, 0⟩
    let signal := fun (p : Part) => if d.owner = none ∧ fdLsig d.bytes = true then p.writeWord (fdLsigAddr d.bytes) (2 ^ 63 + Config.noStatus.toNat) none else p
    ∃ u : State, exec (.ackTimeout e i) s = .next (u.act (fun p => (signal (p.raise rep none)).ni)).served ∧ u.pending = s.pending ∧ s.sameBytes u ∧
      s.sameCores u [] ∧ u.part.fab.descs = s.part.fab.descs.filter (fun y => y.num != d.num) ∧ (∀ y ∈ u.part.fab.unacked, y.desc ≠ d.num) ∧
      (d.owner ≠ none → s.sameRegs u []) ∧
      (d.owner = none → s.sameRegs u [Reg.FAB_Q_CFG.at [d.q], Reg.FAB_Q_STAT.at [d.q], Reg.FAB_Q_LAST.at [d.q]] ∧
        bitOf (u.part.regN (Reg.FAB_Q_CFG.at [d.q])) 4 = false ∧ bitOf (u.part.regN (Reg.FAB_Q_STAT.at [d.q])) 0 = true ∧
        u.part.regFld (Reg.FAB_Q_LAST.at [d.q]) 8 16 = d.index % 2 ^ 16))

/-- 14 R443 R444, 11 R345 R346: a child's arrival for the current generation of a fabric tree's curtain is noted, the parent's release advances the
generation, and a packet of another generation is counted as a mismatch. -/
def Obligations.CurtainPacketsCountOrRelease : Prop :=
  ∀ (s : State) (n c g : Nat) (v : Part) (i : Instr) (ty : Nat), s.part.phase = .ready → n < 16 → n < s.part.fab.ports.length →
    (i, ty) ∈ [(Instr.curtArrive n, Pkt.CURT_ARRIVE), (Instr.curtRelease n, Pkt.CURT_RELEASE)] → s.part.takeCurt n ty = some (c, g, v) →
    let mm := Reg.STG_PCURT_MISMATCH.at [0, c]
    let x := s.part.pcurt c
    let taken := (v.port n).curtIn
    (taken = dropFirst (fun k => k.hdr.type == ty) (s.part.port n).curtIn ∧ v.mem = s.part.mem ∧ v.cores = s.part.cores ∧ v.regs = s.part.regs ∧
      v.stg = s.part.stg) ∧
    (g ≠ x.gen.toNat →
      ∃ u, exec i s = .next u ∧ u = { s with part := { v with regs := u.part.regs } } ∧ s.sameRegs u [mm] ∧ u.part.reg mm = satAdd32 (s.part.reg mm) 1) ∧
    (g = x.gen.toNat → bitOf (s.part.pcurtCfg c) 13 = true →
      (ty = Pkt.CURT_ARRIVE → n ∈ s.part.curtKids c →
        ∃ u, exec i s = .next u ∧ s.sameBytes u ∧ s.sameCores u [] ∧ s.sameRegs u [] ∧ (u.part.port n).curtIn = taken ∧
          u.part.pcurt c = { x with kids := x.kids ||| BitVec.ofNat 16 (2 ^ n), first := some (x.first.getD s.part.tim.interval) }) ∧
      (ty = Pkt.CURT_RELEASE → bitOf (s.part.fabCurt c) 4 = true → fld (s.part.fabCurt c) 0 4 = n →
        ∃ u, exec i s = .next u ∧ s.sameBytes u ∧ (u.part.port n).curtIn = taken ∧
          u.part.pcurt c = { gen := x.gen + 1, tasks := [], kids := 0, sentUp := false, first := none }))

/-! ### Scripts and the chain -/

/-- 15 R471: a load is requested by CFG_LOAD or by a doorbell word, while fewer than 8 wait; a script whose header is not there or has a fault is
refused with its cause and counted; one that passes every check is under change.
15 R473 R475: a checked script whose records retire scenes makes them refuse new tasks, and drops the recoveries of scenes that it retires or
reloads; while a task of a retiring scene is in flight it waits; one without records writes its absolute frame, extends slot 4 with its last
manifest entry and counts as loaded; a wait that is over fails the waiting task of the scene with cause SCENE. -/
def Obligations.ScriptsAreCheckedAndCommitted : Prop :=
  (∀ (s : State), s.part.phase = .ready →
     let full := 8 ≤ s.part.waitingLoads ∧ (s.part.cfg.staged.isSome || !s.part.cfg.reqs.isEmpty) = true
     (∀ (by_ : Agent) (v : W64), s.mayAccess by_ (Reg.CFG_LOAD.at []) 8 → bitOf v.toNat 63 = true →
       ∃ u, exec (.cfgLoad by_ v) s = .next u ∧ s.sameBytes u ∧ s.sameCores u [] ∧ s.sameRegs u [] ∧
         (full → u.part.cfg.busyRefused = true ∧ u.part.cfg.reqs = s.part.cfg.reqs) ∧
         (¬ full → u.part.cfg.busyRefused = false ∧ u.part.cfg.reqs = s.part.cfg.reqs ++ [⟨loadAddr v.toNat, none⟩])) ∧
     (∀ w ws, s.part.cfg.rung = w :: ws → bitOf (s.part.natAt w 8) 63 = true → ¬ full →
       ∃ u, exec .cfgLoadDoorbell s = .next u ∧ s.sameBytes u ∧ s.sameCores u [] ∧ s.sameRegs u [] ∧ u.part.cfg.rung = ws ∧
         u.part.cfg.reqs = s.part.cfg.reqs ++ [⟨loadAddr (s.part.natAt w 8), some w⟩]) ∧
     (∀ r rest, s.part.cfg.staged = none → s.part.cfg.reqs = r :: rest →
       let h := scriptHead (s.part.bytesAt r.addr 256)
       let c := if s.part.scriptThere r.addr 256 then h.fault false s.part.chain.pos s.part.identity else 6
       let q : Part := { s.part with cfg := { s.part.cfg with reqs := rest } }
       (c ≠ 0 → (∀ w, r.bell = some w → s.part.homeAt w = .lpddr ∧ s.part.rowGood w = true) →
         ∃ u, exec .scriptCheck s = .next u ∧ u.part.cfg.staged = none ∧ u.part.cfg.reqs = rest ∧ s.sameCores u [] ∧
           u.part.regN (Reg.CFG_CAUSE.at []) = c ∧ u.part.reg (Reg.CFG_REFUSED.at []) = s.part.reg (Reg.CFG_REFUSED.at []) + 1 ∧
           (∀ w, r.bell = some w → u.part.natAt w 8 = 2 ^ 62 + c) ∧
           (r.bell = none → s.sameBytes u)) ∧
       (∀ g, c = 0 → s.part.scriptThere r.addr h.length = true → q.checkScript false (some r) (s.part.bytesAt r.addr h.length) = .good g →
         ∃ u, exec .scriptCheck s = .next u ∧ u.part.cfg.staged = some g ∧ u.part.cfg.reqs = rest ∧ u.part.cfg.st = 2 ∧ s.sameCores u [] ∧
           u.part.stg = s.part.stg))) ∧
  (∀ (s : State) (g : Staged), s.part.phase = .ready → s.part.cfg.staged = some g →
     (∀ bad, g.stage = .checked →
       ∃ u : State, exec (.scriptCommit bad) s = .next u.served ∧ s.sameBytes u ∧ s.sameCores u [] ∧ s.sameRegs u [] ∧
         u.part.cfg.staged = some { g with stage := .draining, at_ := s.part.tim.interval } ∧ u.part.stg.tasks = s.part.stg.tasks ∧
         u.part.stg.scenes = s.part.stg.scenes.map (fun x => if x.num ∈ g.gone then { x with retiring := true } else x) ∧
         (∀ x ∈ u.part.err.scenes, x ∈ s.part.err.scenes ∧ ∀ r, s.part.replicaOf x.1 = some r → r.scene ∉ g.gone ++ g.names)) ∧
     (∀ bad n (t : Task), g.stage = .draining → n ∈ g.gone → t ∈ s.part.stg.tasks → t.scene = n → t.kind ≠ 2 →
       exec (.scriptCommit bad) s = .next s.served) ∧
     (∀ a body, g.stage = .darkened → g.records = [] → g.frames = [(2, 0, a, body)] → g.req.bind (·.bell) = none →
       ∃ u : State, exec (.scriptCommit []) s = .next u.served ∧ s.sameCores u [] ∧ u.part.cfg.staged = none ∧ u.part.bytesAt a body.length = body ∧
         (∀ x, x < a ∨ a + body.length ≤ x → u.part.byteAt x = s.part.byteAt x) ∧
         u.part.reg (Reg.CFG_LOADS.at []) = s.part.reg (Reg.CFG_LOADS.at []) + 1 ∧ u.part.slot 4 = sha256 (s.part.slot 4 ++ g.last)) ∧
     (∀ r n (t : Task), g.stage = .draining → g.recs = [r] → r.retires = some n → r.quiet * 1000 ≤ (s.part.tim.interval - g.at_).toNat →
       s.part.stg.tasks = [t] → t.scene = n → t.kind ≠ 2 → t.fits → t.key.child = 0xFFFF →
       (∀ x ∈ s.part.stg.replicas, x.task ≠ some t.key) →
       ∃ u : State, exec .sceneQuietTimeout s = .next u.served ∧ s.sameBytes u ∧ s.sameCores u [] ∧ u.part.stg.tasks = [] ∧
         u.part.reg (Reg.STG_FAILED.at [t.home]) = s.part.reg (Reg.STG_FAILED.at [t.home]) + 1 ∧
         u.part.regFld (Reg.STG_LAST_FAIL.at [t.home]) 48 8 = 0x16))

/-- 15 R467 R468: IDLE blocks fix this part's position, and it sends its own; with no block for 20 ms it is the first; a block that fails its CRC,
or position 7 before it, is a failure of the link.
15 R469: a part keeps the first script of its own position, forwards every other and the end of the stream, and fails with NO_SCRIPT, SHORT or
UPSTREAM when its script does not come. -/
def Obligations.ChainCarriesTheStream : Prop :=
  (∀ (s : State) (b : List Byte), s.part.chainRuns = true →
     (∀ pos x, chainBlock b = some (4, true, pos, x) → s.part.chain.fixed = false →
       (pos ≠ 7 → ∃ u, exec (.chainIdle b) s = .next u ∧ u.part.chain.fixed = true ∧ u.part.chain.pos = pos + 1 ∧
         u = { s with part := { s.part with chain := u.part.chain } }) ∧
       (pos = 7 → ∃ u, exec (.chainIdle b) s = .next u ∧ s.darkFor u 0x10 0)) ∧
     (∃ u, exec .chainIdleSend s = .next u ∧ u.part.out = s.part.out ++ [s.part.blockOut 4 []] ∧ u.part.chain.lastIdle = s.part.tim.interval ∧
       u = { s with part := { s.part with chain := u.part.chain, out := u.part.out } }) ∧
     (s.part.phase = .rom → s.part.chain.fixed = false → s.part.chain.seen = false → 20000000 ≤ s.part.tim.interval.toNat →
       ∃ u, exec .chainPositionTimeout s = .next u ∧ u.part.chain.fixed = true ∧ u.part.chain.pos = 0 ∧
         u = { s with part := { s.part with chain := u.part.chain } }) ∧
     (chainBlock b = none → s.part.chain.fixed = true → s.part.chain.pos ≠ 0 → s.part.chain.ended = false →
       ∀ i ∈ [Instr.chainData b, Instr.chainEnd b, Instr.abort b, Instr.chainIdle b], ∃ u, exec i s = .next u ∧ s.darkFor u 0x10 0)) ∧
  (∀ (s : State) (b x : List Byte) (known : Bool) (pos : Nat), s.part.chainRuns = true → s.part.chain.fixed = true → s.part.chain.pos ≠ 0 →
     (chainBlock b = some (1, known, pos, x) → s.part.chain.ended = false → s.part.chain.gotBoot = true → s.part.chain.left = 0 →
       (scriptHead x).length ≤ 4096 →
       ((scriptHead x).pos = s.part.chain.pos → s.part.chain.gotScript = false →
         ∃ u, exec (.chainData b) s = .next u ∧ u.part.chain.stream = s.part.chain.stream ++ x ∧ u.part.chain.gotScript = true ∧
           u = { s with part := { s.part with chain := u.part.chain } }) ∧
       ((scriptHead x).pos ≠ s.part.chain.pos →
         ∃ u, exec (.chainData b) s = .next u ∧ u.part.chain.stream = s.part.chain.stream ∧ u.part.out = s.part.out ++ [s.part.blockOut 1 x] ∧
           u = { s with part := { s.part with chain := u.part.chain, out := u.part.out } })) ∧
     (chainBlock b = some (2, known, pos, x) → s.part.chain.ended = false →
       (s.part.chain.gotScript = true → ∃ u, exec (.chainEnd b) s = .next u ∧ u.part.chain.ended = true ∧ u.part.out = s.part.out ++ [s.part.blockOut 2 []] ∧
         u = { s with part := { s.part with chain := u.part.chain, out := u.part.out } }) ∧
       (s.part.chain.gotScript = false → ∃ u, exec (.chainEnd b) s = .next u ∧ s.darkFor u (if s.part.chain.stream = [] then 7 else 6) 0)) ∧
     (chainBlock b = some (3, known, pos, x) → s.part.chain.gotScript = false → ∃ u, exec (.abort b) s = .next u ∧ s.darkFor u 0x0F 0) ∧
     (s.part.chain.gotScript = false → 2000000000 ≤ (s.part.tim.interval - s.part.chain.lastBlock).toNat →
       ∃ u, exec .upstreamTimeout s = .next u ∧ s.darkFor u 0x0F 0))

/-! ### The host ports -/

/-- 16 R491 to R493 R495 R497 to R499: doorbells, entries, records and signals of the rings. -/
def Obligations.HostRingsRun : Prop :=
  ∀ (s : State) (port i : Nat) (v : W32), i < 1024 → port < 2 → s.part.portUp port = true → s.part.phase ≠ .provision →
    let cfg := Reg.HST_SQ_CFG.at [i]
    let st := Reg.HST_RING_STAT.at [i]
    (s.part.sqEnabled i = true → s.part.sqPort i = port →
      let k := s.part.sqNext i; let n := (v.toNat + s.part.sqSize i - k) % s.part.sqSize i;
      (v.toNat < s.part.sqSize i → 0 < n → k + n ≤ s.part.sqSize i →
        ∃ u, exec (.submissionDoorbell port i v) s = .next u ∧ (u.part.ring i).tail = v.toNat ∧
          u.part.out = s.part.out ++ [.hostRead port (s.part.regN (Reg.HST_SQ_BASE.at [i]) + 128 * k) (128 * n)] ∧
          s.sameBytes u ∧ s.sameCores u [] ∧ s.sameRegs u []) ∧
      (s.part.sqSize i ≤ v.toNat →
        ∃ u, exec (.submissionDoorbell port i v) s = .next u ∧ u.part.ring i = s.part.ring i ∧ s.sameRegs u [st] ∧ u.part.reg st = s.part.reg st ||| 1) ∧
      (s.part.sqLeft i ≠ 0 →
        (∀ b, ∃ u, exec (.ringEntryRead i (some [b])) s = .next u ∧
          u = { s with part := { s.part with stg := { s.part.stg with inbox := s.part.stg.inbox ++ [⟨.ring i, padTo 128 b⟩] } } }) ∧
        (∃ u, exec (.ringEntryRead i none) s = .next u ∧ s.sameRegs u [cfg, st] ∧ u.part.sqEnabled i = false ∧ u.part.reg st = s.part.reg st ||| 4 ∧
          u.part.stg = s.part.stg))) ∧
    (s.part.sqEnabled i = false ∨ s.part.sqPort i ≠ port →
      ∃ u, exec (.submissionDoorbell port i v) s = .next u ∧ u.part.ring i = s.part.ring i ∧
        s.sameRegs u [Reg.HST_REFUSE.at [], Reg.HST_REFUSE_ADDR.at []] ∧ u.part.reg (Reg.HST_REFUSE.at []) = s.part.reg (Reg.HST_REFUSE.at []) ||| 16) ∧
    (s.part.cqEnabled i = true → s.part.cqPort i = port →
      ((s.part.ring i).held = [] →
        ∃ u, exec (.completionHeadDoorbell port i v) s = .next u ∧ u.part.ring i = { s.part.ring i with cqHead := v.toNat } ∧
          s.sameRegs u [] ∧ s.sameBytes u ∧ s.sameCores u [] ∧ u.part.out = s.part.out) ∧
      (∀ r, (s.part.ring i).held = [r] → (s.part.cqTail i + 1) % s.part.cqSize i ≠ v.toNat % s.part.cqSize i →
        ∃ u, exec (.completionHeadDoorbell port i v) s = .next u ∧ (u.part.ring i).held = [] ∧ s.sameRegs u [Reg.HST_CQ_TAIL.at [i]] ∧
          u.part.cqTail i = (if s.part.cqSize i ≤ s.part.cqTail i + 1 then 0 else s.part.cqTail i + 1) ∧
          .hostWrite port (s.part.regN (Reg.HST_CQ_BASE.at [i]) + 32 * s.part.cqTail i)
            (patch r 11 [BitVec.ofNat 8 (fld (s.part.regN (Reg.HST_CQ_TAIL.at [i])) 16 1)]) ∈ u.part.out)) ∧
    (∀ t, (s.part.ring i).oldest = some t → fld (s.part.cqCfg i) 24 8 ≠ 0 → fld (s.part.cqCfg i) 24 8 * 1000 ≤ (s.part.tim.interval - t).toNat →
      s.part.cqPort i = port →
      let vec := fld (s.part.cqCfg i) 5 10;
      ∃ u, exec (.completionTimeThreshold i) s = .next u ∧ u.part.ring i = { s.part.ring i with fresh := 0, oldest := none } ∧ s.sameRegs u [] ∧
        if (s.part.msixDword port (4 * vec + 3)).toNat % 2 = 1 then u.part.out = s.part.out ∧ Tab.get false u.part.hst.pba (1024 * port + vec) = true
        else u.part.out = s.part.out ++ [.msix port vec])

/-- 16 R485 R489 R499 R500, 13 R394: the window, the vector table and function level reset. -/
def Obligations.HostWindowVectorsAndReset : Prop :=
  ∀ (s : State) (port off : Nat), port < 2 → s.part.portUp port = true →
    let a := s.part.bar2Addr port off
    (s.part.phase = .ready → (∀ q ∈ s.part.partials, q.addr / 512 ≠ a / 512) → s.part.homeAt a = .lpddr →
      (∀ n, 0 < n → a % 512 + n ≤ 512 → off + n ≤ 2 ^ 36 →
        (s.part.chFailed a = false → s.part.rowGood a = true → s.part.inPool a n = false →
          ∃ u, exec (.bar2Access port off (.read n)) s = .next u ∧ s.sameBytes u ∧ s.sameCores u [] ∧ s.sameRegs u [chanReg Reg.MEM_CH_RD a] ∧
            u.part.out = s.part.out ++ [.readData port (s.part.bytesAt a n) false]) ∧
        (s.part.chFailed a = true ∨ s.part.inPool a n = true →
          ∃ u, exec (.bar2Access port off (.read n)) s = .next u ∧ s.sameBytes u ∧ s.sameCores u [] ∧
            bitOf (u.part.regN (Reg.HST_REFUSE.at [])) 1 = true ∧ u.part.out.getLast? = some (.unsupported port))) ∧
      (∀ l : List Byte, 0 < l.length → a % 512 + l.length ≤ 512 → off + l.length ≤ 2 ^ 36 → s.part.chFailed a = false → s.part.inPool a l.length = false →
        ∃ u, exec (.bar2Access port off (.write l)) s = .next u ∧ s.sameCores u [] ∧
          if l.length = 512 then u.part.bytesAt a 512 = l ∧ u.part.rowGood a = true ∧ (∀ x, x < a ∨ a + 512 ≤ x → u.part.byteAt x = s.part.byteAt x)
          else u = { s with part := { s.part with partials := s.part.partials ++ [⟨a, l, port⟩] } })) ∧
    (∀ i v, i < 4096 → off = 0x80000 + 4 * i →
      ∃ u, exec (.msixTableWrite port off v) s = .next u ∧ u.part.msixDword port i = v ∧ (∀ j, j ≠ i → j < 4096 → u.part.msixDword port j = s.part.msixDword port j) ∧
        s.sameBytes u ∧ s.sameCores u [] ∧ s.sameRegs u [] ∧
        (i % 4 = 3 → v.toNat % 2 = 0 → Tab.get false s.part.hst.pba (1024 * port + i / 4) = true →
          u.part.out = s.part.out ++ [.msix port (i / 4)] ∧ Tab.get false u.part.hst.pba (1024 * port + i / 4) = false)) ∧
    (∃ u, exec (.functionLevelReset port) s = .next u ∧ s.sameBytes u ∧ s.sameCores u [] ∧ u.part.stg = s.part.stg ∧
      (∀ o, o < 0x100000 ∨ 0x200000 ≤ o → u.part.reg o = s.part.reg o) ∧ u.part.reg (Reg.HST_WIN.at [port]) = 0 ∧
      (∀ i < 1024, s.part.sqPort i = port → u.part.sqEnabled i = false) ∧ (∀ i < 1024, s.part.cqPort i = port → u.part.cqEnabled i = false) ∧
      (∀ i < 1024, s.part.sqPort i ≠ port → u.part.sqCfg i = s.part.sqCfg i) ∧ (∀ i < 1024, s.part.cqPort i ≠ port → u.part.cqCfg i = s.part.cqCfg i) ∧
      (∀ i < 4096, u.part.msixDword port i = if i % 4 = 3 then 1 else 0))

/-! ### Power, boot, security -/

/-- 17 R509, 19 R559 to R561 R572: AUX_GOOD brings up the always-on domain with a new random part of the provisioned identifier, PWR_GOOD and
RESET_N start mask ROM unless the part has tripped; the loss of PWR_GOOD and a low RESET_N reset everything but PWR_TRIP, the loss of AUX_GOOD that
too. -/
def Obligations.PowerAndResetPins : Prop :=
  ∀ (s : State) (r : W32),
    (s.part.pwr.auxGood = false → ∃ u, exec (.auxGoodAssert r) s = .next u ∧
      u = { s with part := { s.part with pwr := { s.part.pwr with auxGood := true }, i3c := { I3c.reset with pid := r }, phase := .aux } }) ∧
    (s.part.pwr.auxGood = true → s.part.pwr.pwrGood = false →
      (s.part.pwr.resetN = false → ∃ u, exec .pwrGoodAssert s = .next u ∧
        u = { s with part := { s.part with pwr := { s.part.pwr with pwrGood := true }, phase := .held } }) ∧
      (s.part.pwr.resetN = true → s.part.pwr.tripped = false → ∃ u, exec .pwrGoodAssert s = .next u ∧ s.romRuns u ∧ u.part.pwr.pwrGood = true)) ∧
    (s.part.pwr.pwrGood = true → ∃ u, exec .pwrGoodLoss s = .next u ∧ s.isReset u (if s.part.pwr.auxGood then .aux else .off) ∧
      u.part.reg (Reg.PWR_TRIP.at []) = s.part.reg (Reg.PWR_TRIP.at []) ∧ u.part.pwr.pwrGood = false) ∧
    (∃ u, exec .auxGoodLoss s = .next u ∧ s.isReset u .off ∧ u.part.reg (Reg.PWR_TRIP.at []) = resetOf (Reg.PWR_TRIP.at []) ∧
      u.part.pwr.auxGood = false ∧ u.part.pwr.tripped = false ∧ u.part.i3c = I3c.reset) ∧
    (s.part.pwr.auxGood = true → s.part.pwr.pwrGood = true → ∃ u, exec .resetNAssert s = .next u ∧ s.isReset u .held ∧
      u.part.reg (Reg.PWR_TRIP.at []) = s.part.reg (Reg.PWR_TRIP.at []) ∧ u.part.pwr.resetN = false ∧ u.part.i3c = s.part.i3c) ∧
    (s.part.phase = .held → s.part.pwr.resetN = false →
      (s.part.pwr.tripped = false → ∃ u, exec .resetNRelease s = .next u ∧ s.romRuns u ∧ u.part.pwr.resetN = true) ∧
      (s.part.pwr.tripped = true → ∃ u, exec .resetNRelease s = .next u ∧
        u = { s with part := { s.part with pwr := { s.part.pwr with resetN := true } } }))

/-- 17 R505 R506 R511 to R517: the boot area is read at position 0, from flash; one that is not there or is bad, a root secret that cannot be
found, bad firmware and a bad identity end the boot with their causes; otherwise steps 5 and 6 are reached. What the free function of log 9 and the
signatures of 17 R514 R515 answer decides which clause applies. -/
def Obligations.BootAreaAndFirmware : Prop :=
  ∀ (s : State) (puf : List (List Byte)),
    (s.part.phase = .rom → s.part.chain.fixed = true → s.part.chain.pos = 0 →
      (∃ u, exec (.bootAreaRead none puf) s = .next u ∧ s.bootFails u 1 1) ∧
      (∀ area, let h := padTo 4096 (area.take 4096); let sec := sliceB area (secOff (area.take 4096) 0) 16384;
        let bad := areaBad h || !hasSection h 0 || secLen h 0 != 16384 || helperBad (sec.take 4096);
        let found := pufFind (sliceB sec 8 3776) (sliceB sec 3784 32) 0 ((List.range 4).map (fun i => puf.getD i []));
        ∃ u, exec (.bootAreaRead (some area) puf) s = .next u ∧
          (bad = true → s.bootFails u 1 0) ∧ (bad = false → found.1 = none → s.bootFails u 2 0) ∧
          (∀ root, bad = false → found.1 = some root → u.part.phase = .area ∧ u.part.sec.rpuf = some root ∧ u.part.sec.identity = sliceB sec 4096 8192 ∧
            u.part.sec.owner = sliceB sec 12288 256 ∧ u.part.sec.memRec = sliceB sec 12544 256 ∧ u.part.regFld (Reg.SEC_BOOT_STAT.at []) 0 4 = 5 ∧
            s.sameBytes u ∧ s.sameCores u []))) ∧
    (∀ b, s.part.phase = .area → s.part.chain.pos = 0 →
      let seeds := identitySeeds (s.part.sec.rpuf.getD [])
      ∃ u, exec (.firmwareVerify b) s = .next u ∧
        (firmwareBad b = true → s.bootFails u 3 0) ∧
        (firmwareBad b = false → identityBad s.part.sec.identity seeds = true → s.bootFails u 4 0) ∧
        (firmwareBad b = false → identityBad s.part.sec.identity seeds = false →
          u.part.phase = .firmware ∧ u.part.regFld (Reg.SEC_BOOT_STAT.at []) 0 4 = 6 ∧ u.part.sec.idSeeds = some seeds ∧
          (∀ i < 4, u.part.regN (Reg.SEC_SERIAL.at [i]) = leAt s.part.sec.identity (16 + 4 * i) 4) ∧
          u.part.slot 1 = sha256 (s.part.slot 1 ++ sha256 (b.take (256 + leAt b 12 4))) ∧ s.sameBytes u ∧ s.sameCores u []))

/-- 17 R508 R511 R519, 01 R28 R30, 13 R381 R403: a rehearsal with a channel that does not train or too few clusters ends the boot; otherwise the
roster, the capacity and the rate tables are set and step 7 is reached, or PROVISION where the part has no owner. When the ports have trained a
part with its base script is READY. -/
def Obligations.RehearsalAndReady : Prop :=
  ∀ (s : State) (passed : List (BitVec 400)) (trained : List Bool) (rates : List (List Nat)) (temps : List Nat),
    (s.part.phase = .firmware →
      let r := s.part.sec.memRec
      let l := (List.range 4).map (fun d => passed.getD d 0)
      let badMem := memRecBad r || !(List.range 128).all (fun c => trained.getD c false)
      ∃ u, exec (.rehearsal passed trained rates temps) s = .next u ∧
        (badMem = true → s.bootFails u 5 0) ∧ (badMem = false → rosterBad l = true → s.bootFails u 6 0) ∧
        (badMem = false → rosterBad l = false → s.sameBytes u ∧ s.sameCores u [] ∧
          (∀ m < 2, u.part.regN (Reg.MEM_CAPACITY.at [m]) = capacityOf (leAt r 5 1) (leAt r 6 1)) ∧
          (∀ d < 4, ∀ i < 7, u.part.regN (Reg.STG_ROSTER.at [d, i]) = fld (l.getD d 0).toNat (64 * i) 64) ∧
          (∀ d < 4, ∀ j < 15, u.part.regFld (Reg.PCE_TABLE.at [d, j]) 0 16 = (rates.getD d []).getD j 0 % 2 ^ 16) ∧
          (noOwner s.part.sec.owner = false → u.part.phase = .rehearsed ∧ u.part.regFld (Reg.SEC_BOOT_STAT.at []) 0 4 = 7) ∧
          (noOwner s.part.sec.owner = true → u.part.phase = .provision ∧ u.part.regFld (Reg.SEC_BOOT_STAT.at []) 0 4 = 11 ∧ u.part.sec.rpuf = none))) ∧
    (∀ host fabric, s.part.phase = .based →
      ∃ u, exec (.bootPortTraining host fabric) s = .next u ∧ u.part.phase = .ready ∧ u.part.sec.rpuf = none ∧
        u.part.regFld (Reg.SEC_BOOT_STAT.at []) 0 4 = 10 ∧ s.sameBytes u ∧ s.sameCores u [] ∧
        ∀ port < 2, ∀ speed width flit, host.getD port none = some (speed, width, flit) →
          u.part.regN (Reg.HST_PORT_STAT.at [port]) = speed % 8 + (width % 32) * 8 + 256 + flit.toNat * 512)

/-- 15 R449 R457 R470, 17 R518 R520: a base script that cannot be read, is not there, whose owner key does not unwrap or that fails a check puts the
part into blackout with its cause; one without records that passes is committed, measured in slot 3 and counted. -/
def Obligations.BaseScriptLoadsOrFails : Prop :=
  ∀ (s : State), s.part.phase = .rehearsed →
    (s.part.chain.pos = 0 →
      (∃ u, exec (.baseScriptLoad none []) s = .next u ∧ s.darkFor u 1 0) ∧
      (∀ b, splitStream b.length b = ([], false) → ∃ u, exec (.baseScriptLoad (some b) []) s = .next u ∧ s.darkFor u 7 0)) ∧
    (s.part.chain.pos ≠ 0 → s.part.chain.gotScript = true →
      let b := s.part.chain.stream; let h := scriptHead b; let c := h.fault true s.part.chain.pos s.part.identity;
      ∃ u, exec (.baseScriptLoad none []) s = .next u ∧
        (s.part.unwrapOwner = none → s.darkFor u 0x0D 0) ∧
        (∀ key, s.part.unwrapOwner = some key → c ≠ 0 → s.darkFor u c 0) ∧
        (∀ key, s.part.unwrapOwner = some key → c = 0 →
          let q := ({ s.part with sec := { s.part.sec with kown := some key, ownerHash := sliceB s.part.sec.owner 40 32 } } : Part).setPool h.mib
          (∀ cause named frame, q.checkScript true none b = .bad cause named frame → s.darkFor u cause named) ∧
          (∀ g a body, q.checkScript true none b = .good g → g.records = [] → g.frames = [(2, 0, a, body)] →
            u.part.phase = .based ∧ u.part.bytesAt a body.length = body ∧ u.part.regFld (Reg.SEC_BOOT_STAT.at []) 0 4 = 8 ∧
            u.part.reg (Reg.CFG_LOADS.at []) = s.part.reg (Reg.CFG_LOADS.at []) + 1 ∧ u.part.slot 3 = sha256 (s.part.slot 3 ++ g.last))))

/-- 17 R518 R519 R522 to R525: extends, provisioning and quotes. -/
def Obligations.SecurityEngineActs : Prop :=
  ∀ (s : State) (by_ : Agent) (v : W32),
    (s.mayAccess by_ (Reg.SEC_EXTEND.at []) 4 → bitOf v.toNat 31 = true → 8 ≤ fld v.toNat 0 4 →
      let m := fld v.toNat 0 4; let n := s.part.regFld (Reg.SEC_LOG_COUNT.at []) 0 11;
      ∃ u, exec (.secExtend by_ v) s = .next u ∧ s.sameBytes u ∧ s.sameCores u [] ∧
        u.part.slot m = sha256 (s.part.slot m ++ s.part.hiddenBytes Reg.SEC_EXTEND_DIGEST) ∧ (∀ j < 16, j ≠ m → u.part.slot j = s.part.slot j) ∧
        (n < 1024 → u.part.regFld (Reg.SEC_LOG_COUNT.at []) 0 11 = n + 1) ∧
        (1024 ≤ n → bitOf (u.part.regN (Reg.SEC_LOG_COUNT.at [])) 11 = true)) ∧
    (s.mayAccess by_ (Reg.SEC_PROV_CTL.at []) 4 → bitOf v.toNat 0 = true →
      let st := Reg.SEC_PROV_STAT.at []
      ∃ u, exec (.secProvCtl by_ v) s = .next u ∧ s.sameBytes u ∧ s.sameCores u [] ∧ s.sameRegs u [st] ∧
        if s.part.phase = .provision ∧ s.part.sec.building = false then u.part.sec.building = true ∧ u.part.reg st = 1
        else s.onlyRegs u [st] ∧ u.part.reg st = s.part.reg st ||| 4) ∧
    (∀ iv, s.part.sec.building = true → s.part.phase = .provision →
      let head := ownerHead s.part.sec.identity (s.part.hiddenBytes Reg.SEC_PROV_OWNER)
      ∃ u, exec (.ownerRecordBuilt iv) s = .next u ∧ s.sameBytes u ∧ s.sameCores u [] ∧ u.part.sec.building = false ∧
        u.part.regN (Reg.SEC_PROV_STAT.at []) = 2 ∧ (∀ i < 8, u.part.hidden (Reg.SEC_PROV_KEY.at [i]) = 0) ∧
        (∀ i < 18, u.part.regN (Reg.SEC_PROV_REC.at [i]) = leAt head (4 * i) 4)) ∧
    (s.mayAccess by_ (Reg.SEC_QCTL.at []) 4 → s.part.phase = .ready → bitOf v.toNat 0 = true →
      let a := s.part.regN (Reg.SEC_QADDR.at []); let st := Reg.SEC_QSTAT.at []; let n := s.part.sec.quotes.length;
      ∃ u, exec (.secQctl by_ v) s = .next u ∧ s.sameBytes u ∧ s.sameCores u [] ∧ s.sameRegs u [st] ∧
        (4 ≤ n → u.part.sec = s.part.sec ∧ u.part.reg st = s.part.reg st ||| 16) ∧
        (n < 4 → s.part.quoteAddrBad a = true → u.part.sec = s.part.sec ∧ u.part.reg st = s.part.reg st ||| 32) ∧
        (n < 4 → s.part.quoteAddrBad a = false → u.part.regFld st 0 3 = n + 1 ∧
          ∃ q, u.part.sec.quotes = s.part.sec.quotes ++ [q] ∧ q.addr = a ∧ q.body = none ∧
            q.nonce = (List.range 8).flatMap (fun i => leBytes 4 (s.part.regN (Reg.SEC_QNONCE.at [i]))))) ∧
    (∀ q qs, s.part.sec.quotes = q :: qs →
      (q.body = none → ∃ u, exec .quoteSign s = .next u ∧
        u = { s with part := { s.part with sec := { s.part.sec with quotes := { q with body := some (s.part.quoteBody q.nonce ++ padTo 17088 (slhSign (s.part.sec.idSeeds.getD []) (s.part.quoteBody q.nonce))) } :: qs } } }) ∧
      (∀ b, q.body = some b → b.length = 17728 → s.part.phase = .ready → q.addr % 512 = 0 →
        (∀ i < 35, s.part.homeAt (q.addr + 512 * i) = .lpddr ∧ s.part.chFailed (q.addr + 512 * i) = false) →
        ∃ u, exec .quoteComplete s = .next u ∧ u.part.sec.quotes = qs ∧ u.part.bytesAt q.addr 17728 = b ∧ s.sameCores u [] ∧
          u.part.reg (Reg.SEC_QDONE.at []) = s.part.reg (Reg.SEC_QDONE.at []) + 1 ∧ bitOf (u.part.regN (Reg.SEC_QSTAT.at [])) 3 = true ∧
          ∀ i < 4432, u.part.regN (Reg.SEC_QWIN.at [i]) = leAt b (4 * i) 4))

/-! ### Errors, power, filtered inputs -/

/-- 18 R536 R542 R548 R549 R551: a CORRECTED error takes the next entry of the log and its count and changes no byte and no core; a PACKAGE-FATAL
one, as the loss of the reference clock is, puts the part into blackout; a program error returns its task to READY with one abort more; windows that
have passed close. -/
def Obligations.ErrorsAreLoggedAndActedOn : Prop :=
  ∀ (s : State) (e : Report), s.part.awake = true →
    let seq := Reg.ERR_SEQ.at []
    let n := s.part.reg seq
    let fatal := fun (u : State) => u.part.phase = .blackout ∧ u.part.pwr.faultN = false ∧ u.part.pwr.cfgFailN = false ∧
      u.part.regN (Reg.CFG_CAUSE.at []) = 0x20 ∧ u.part.reg (Reg.ERR_FATAL.at []) = n ∧ u.part.reg seq = n + 1
    (e.source = 0x0001 → n.toNat - s.part.regN (Reg.ERR_LOG_RD.at []) < 4096 →
      ∃ u : State, exec (.errorLogEntry e) s = .next u.served ∧ s.sameBytes u ∧ s.sameCores u [] ∧ u.part.stg = s.part.stg ∧
        u.part.phase = s.part.phase ∧ u.part.reg seq = n + 1 ∧ u.part.reg (Reg.ERR_COUNT.at [0]) = s.part.reg (Reg.ERR_COUNT.at [0]) + 1 ∧
        bitOf (u.part.regN (Reg.ERR_STAT.at [])) 0 = true ∧
        ∀ i < 8, u.part.regN (Reg.ERR_LOG.at [n.toNat % 4096, i]) = leAt (entryBytes n s.part.tim.now e 0 0 false false 0 noParent) (8 * i) 8) ∧
    (e.source = 0x0091 → ∃ u, exec (.errorLogEntry e) s = .next u ∧ fatal u) ∧
    (∃ u, exec .refclkLoss s = .next u ∧ fatal u) ∧
    (∀ (r : Replica) (k : TaskKey) (t : Task), e.source = 0x0070 → e.task = some k →
      s.part.stg.replicas.find? (fun x => x.task == some k) = some r → s.part.task k = some t → t.fits → r.die < 4 →
      t.aborts < fld (s.part.regN (Reg.STG_CFG.at [t.home])) 0 2 →
      ∃ (u : State) (t' : Task), exec (.errorLogEntry e) s = .next (u.act (·.place)).served ∧ s.sameBytes u ∧ u.part.task k = some t' ∧ t'.st = .ready ∧
        t'.aborts = t.aborts + 1 ∧ t'.anchor = none ∧ t'.save = none ∧
        (∀ q ∈ u.part.stg.replicas, q.anchor = r.anchor → q.task = none ∧ q.st = .free) ∧
        u.part.reg (Reg.STG_ABORTS.at [r.die]) = s.part.reg (Reg.STG_ABORTS.at [r.die]) + 1 ∧ u.part.reg seq = n + 1) ∧
    (∃ u, exec .recoveryWindowExpiry s = .next u ∧
      u = { s with part := { s.part with err := { s.part.err with recs := s.part.err.recs.filter s.part.inProgress } } })

/-- 18 R543 R544, 15 R464, 01 R29: a SCENE recovery without a place removes its replica, and with its last replica the scene, and retires the
cluster at fault; one with a place ends with the replica in it, its region released; the cluster is retired too where an earlier recovery has
moved or removed its replica. 15 R475: a recovery of a scene that a commit retires or reloads is dropped; that its retirement goes with it is the
model's choice (log 50). -/
def Obligations.SceneRecoveryPlacesOrRemoves : Prop :=
  ∀ (s : State) (a cl c : Nat) (seq : W64), s.part.phase = .ready →
    s.part.err.scenes.find? (fun x => x.1 / 400 == a / 400) = some (a, cl, seq) → (cl < 1600 → cl = c) →
    let p := if cl < 1600 then s.part.retireCluster cl seq (s.part.depthOf seq) else s.part
    let closed := fun (u : State) => (∀ x ∈ u.part.err.scenes, x.2.2 ≠ seq) ∧ (∀ x ∈ u.part.err.recs, x.seq ≠ seq)
    (∀ bad, s.part.replicaOf a = none → ∃ u : State, exec (.sceneRecovery a c bad) s = .next u.served ∧ closed u ∧
      u.part.stg.replicas = s.part.stg.replicas ∧ (cl < 1600 → u.part.onRoster cl = false)) ∧
    (∀ r, s.part.replicaOf a = some r →
      (∀ bad, s.part.leaving r.scene = true → ∃ u : State, exec (.sceneRecovery a c bad) s = .next u.served ∧ closed u ∧
        u = { s with part := { s.part with err := u.part.err } }) ∧
      (∀ bad, s.part.leaving r.scene = false → cl < 1600 → r.holds cl = false → ∃ u : State, exec (.sceneRecovery a c bad) s = .next u.served ∧ closed u ∧
        u.part.stg.replicas = s.part.stg.replicas ∧ u.part.onRoster cl = false) ∧
      (s.part.leaving r.scene = false → (cl < 1600 → r.holds cl = true) → p.poolLost r.scene = false →
        (((p.sceneOf r.scene).bind p.recordOf).bind (p.replaceReplica r) = none → (∀ t ∈ s.part.stg.tasks, t.fits) →
          ∃ u : State, exec (.sceneRecovery a c false) s = .next u.served ∧ closed u ∧ (∀ x ∈ u.part.stg.replicas, x.anchor ≠ a) ∧
            ((∀ x ∈ s.part.stg.replicas, x.anchor ≠ a → x.scene ≠ r.scene) → ∀ x ∈ u.part.stg.scenes, x.num ≠ r.scene) ∧
            (cl < 1600 → u.part.onRoster cl = false)) ∧
        (∀ q m, ((p.sceneOf r.scene).bind p.recordOf).bind (p.replaceReplica r) = some (q, m) →
          (∀ x ∈ s.part.stg.replicas, x.anchor = m.anchor → x.anchor = a) →
          ∃ (u : State) (m' : Replica), exec (.sceneRecovery a c false) s = .next u.served ∧ closed u ∧ u.part.replicaOf m.anchor = some m' ∧
            m'.dark = false ∧ m'.scene = m.scene ∧ m'.j = m.j ∧ (cl < 1600 → u.part.onRoster cl = false))))

/-- 19 R563 R564 R568: the second reading in a row at or above 115 °C trips the part; a band that nobody holds is gated after 1 ms, its contents
lost, and an access powers it on. -/
def Obligations.TripAndBandGating : Prop :=
  ∀ (s : State),
    (∀ die sensor c, s.part.awake = true → s.part.pwr.tripped = false → die < 8 → sensor < (if die < 4 then 16 else 4) → 115 ≤ c →
      (Tab.get 0 s.part.pwr.hot (16 * die + sensor) = 0 → ∃ u, exec (.thermalTrip die sensor c) s = .next u ∧
        u = { s with part := { s.part with pwr := { s.part.pwr with hot := u.part.pwr.hot } } } ∧ Tab.get 0 u.part.pwr.hot (16 * die + sensor) = 1) ∧
      (Tab.get 0 s.part.pwr.hot (16 * die + sensor) = 1 → ∃ u, exec (.thermalTrip die sensor c) s = .next u ∧ u.part.phase = .tripped ∧
        u.part.pwr.tripN = false ∧ u.part.pwr.tripped = true ∧ (∀ port < 2, u.part.portUp port = false) ∧
        u.part.regN (Reg.PWR_TRIP.at []) = die + sensor * 2 ^ 8 + (min 255 (c + 40)) * 2 ^ 12 + 2 ^ 20)) ∧
    (∀ d b, d < 4 → b < 40 → s.part.phase = .ready → s.memOk = true → s.regsOk = true → s.coresOk = true →
      (bitOf (s.part.regN (Reg.PWR_CFG.at [])) 0 = true → s.part.domainC d b = true → s.part.bandUnheld d b = true →
        1000000 ≤ (s.part.tim.interval - Tab.get 0 s.part.pwr.bandFree (40 * d + b)).toNat →
        ∃ u, exec (.bandGateOff d b) s = .next u ∧ u.part.domainC d b = false ∧ (∀ j < 50, j ≠ b → u.part.domainC d j = s.part.domainC d j) ∧
          (∀ x, u.part.byteAt x = if bandAddr s.part.cap d b x then 0 else s.part.byteAt x) ∧
          (∀ k, clusterOf k / 400 = d ∧ bandOf (clusterOf k) = b → u.part.core k = Core.reset) ∧
          (∀ k, ¬ (clusterOf k / 400 = d ∧ bandOf (clusterOf k) = b) → u.part.core k = s.part.core k) ∧ u.part.stg = s.part.stg) ∧
      (s.part.domainC d b = false → ∃ u, exec (.bandPowerUp d b) s = .next u ∧ u.part.domainC d b = true ∧
        (∀ j < 50, j ≠ b → u.part.domainC d j = s.part.domainC d j) ∧ s.sameBytes u ∧ s.sameCores u [] ∧ s.sameRegs u [Reg.PWR_DOM_C.at [d]]))

/-- 19 R570 R571: a rise that the input holds for 100 ns is recognised and counted at its start, one that it does not hold is coalesced; an input held
high for its bound is latched as stuck at its time. -/
def Obligations.FilteredInputsCountAndStick : Prop :=
  ∀ (s : State) (i : Nat) (t : W64), i < 9 → i < s.part.pwr.ins.length → s.part.filters = true → s.part.stuck i = false →
    let coal := Reg.PWR_IN_COAL.at [i]
    ((s.part.input i).level = false → (s.part.input i).edge = none → t.toNat + 100 ≤ s.part.tim.now.toNat →
      ∃ u, exec (.filteredEdge i true t true) s = .next u ∧ u.part.input i = { level := true, since := s.part.tim.interval - (s.part.tim.now - t), edge := some t } ∧
        u = { s with part := { s.part with pwr := { s.part.pwr with ins := u.part.pwr.ins } } } ∧ ∀ j, j ≠ i → u.part.input j = s.part.input j) ∧
    (∃ u, exec (.filteredEdge i true t false) s = .next u ∧ s.onlyRegs u [coal] ∧ u.part.reg coal = s.part.reg coal + 1) ∧
    (s.part.phase ≠ .off → t.toNat + 100 ≤ s.part.tim.now.toNat →
      ∃ u, exec (.filteredEdge i false t true) s = .next u ∧ (u.part.input i).level = false ∧ (u.part.input i).edge = (s.part.input i).edge ∧ s.sameRegs u []) ∧
    ((s.part.input i).level = true → s.part.maxUs i ≠ 0 → s.part.maxUs i * 1000 ≤ (s.part.tim.interval - (s.part.input i).since).toNat →
      ∃ u, exec (.stuckInput i) s = .next u ∧ u.part.stuck i = true ∧ u.part.reg (Reg.PWR_IN_STUCK_AT.at [i]) = s.part.tim.now ∧
        s.sameRegs u [Reg.PWR_IN_STAT.at [], Reg.PWR_IN_STUCK_AT.at [i]] ∧ s.sameBytes u ∧ s.sameCores u [] ∧ u.part.pwr = s.part.pwr ∧
        (BitVec.ofNat 8 4, BitVec.ofNat 8 i) ∈ u.part.i3c.raised ++ u.part.i3c.waiting)

/-! ### Board management -/

/-- 19 R575 R577: the CCCs of the target with AUX_GOOD up. The form of their answers is that of MIPI I3C Basic (log 40, the model's presumption).
19 R576: a READ is performed by the private read that follows and answers status 0 and the register's value; a WRITE is performed at once; an access
that board management may not make answers status 1 and changes no register. -/
def Obligations.I3cTargetAnswers : Prop :=
  (∀ (s : State) (a x : BitVec 7) (n : W16) (code : Byte), s.part.pwr.auxGood = true →
     let i := s.part.i3c
     let sets := fun (u : State) (j : I3c) => u = { s with part := { s.part with i3c := j } }
     let tells := fun (u : State) (o : Output) => u = { s with part := { s.part with out := s.part.out ++ [o] } }
     (∃ u, exec .disec s = .next u ∧ sets u { i with ibi := false }) ∧ (∃ u, exec .rstdaa s = .next u ∧ sets u { i with addr := none }) ∧
     (∃ u, exec (.unlistedCcc code) s = .next u ∧ tells u .i3cNack) ∧
     (i.raised = [] → i.waiting = [] → ∃ u, exec .enec s = .next u ∧ sets u { i with ibi := true }) ∧
     (∀ e, i.raised = [] → i.waiting = [e] → i.addr = some a → ∃ u, exec .enec s = .next u ∧ sets u { i with ibi := true, raised := [e], waiting := [] }) ∧
     (∀ e es, i.raised = e :: es → i.waiting = [] → i.ibi = true → i.addr = some a →
       ∃ u, exec .ibiTaken s = .next u ∧ u = { s with part := { s.part with i3c := { i with raised := es }, out := s.part.out ++ [.i3c [e.1, e.2]] } }) ∧
     (i.addr = none → i.ibi = false →
       (∃ u, exec (.entdaa x) s = .next u ∧ sets u { i with addr := some x }) ∧ (∃ u, exec (.setdasa x) s = .next u ∧ sets u { i with addr := some x }) ∧
       (∀ c ∈ [Instr.getpid, Instr.getbcr, Instr.getdcr, Instr.getstatus, Instr.getmwl, Instr.getmrl, Instr.setnewda x, Instr.setmwl n, Instr.setmrl n],
         ∃ u, exec c s = .next u ∧ tells u .i3cNack)) ∧
     (i.addr = some a →
       (∃ u, exec (.setnewda x) s = .next u ∧ sets u { i with addr := some x }) ∧
       (∃ u, exec (.setmwl n) s = .next u ∧ sets u { i with mwl := if 16 < n.toNat then 16 else n }) ∧
       (∃ u, exec (.setmrl n) s = .next u ∧ sets u { i with mrl := if 9 < n.toNat then 9 else n }) ∧
       (∃ u, exec .getmwl s = .next u ∧ tells u (.i3c (beBytes 2 i.mwl.toNat))) ∧
       (∃ u, exec .getmrl s = .next u ∧ tells u (.i3c (beBytes 2 i.mrl.toNat ++ [2]))) ∧
       (∃ u, exec .getpid s = .next u ∧ tells u (.i3c (beBytes 6 (Config.mipiId.toNat * 2 ^ 33 + 2 ^ 32 + i.pid.toNat)))) ∧
       (∃ u, exec .getbcr s = .next u ∧ tells u (.i3c [0x06])) ∧ (∃ u, exec .getdcr s = .next u ∧ tells u (.i3c [0x00])) ∧
       (i.raised = [] → i.waiting = [] → ∃ u, exec .getstatus s = .next u ∧ tells u (.i3c [0, 0])))) ∧
  (∀ (s : State) (off : W32) (wide : Bool) (v : W64), s.part.pwr.auxGood = true → s.part.i3c.addr.isSome = true → s.part.i3c.mrl = 9 →
     let n := widthOf wide
     (∃ u, exec (.i3cRead off wide) s = .next u ∧
       u = { s with part := { s.part with i3c := { s.part.i3c with read := some (off, wide), status := none } } }) ∧
     (s.part.i3c.read = some (off, wide) →
       ∃ u d, exec .i3cPrivateRead s = .next u ∧
         u = { s with part := { s.part with i3c := { s.part.i3c with read := none }, out := s.part.out ++ [.i3c d] } } ∧
         d.length = n + 1 ∧ (s.part.boardOk off.toNat n false = true → d = 0x00 :: leBytes n (s.part.regRead off.toNat)) ∧
         (s.part.boardOk off.toNat n false = false → d.head? = some 0x01)) ∧
     (∀ x, s.part.i3c.read = none → s.part.i3c.status = some x → ∃ u, exec .i3cPrivateRead s = .next u ∧
       u = { s with part := { s.part with out := s.part.out ++ [.i3c [x]] } }) ∧
     (s.part.boardOk off.toNat n true = false → ∃ u, exec (.i3cWrite off wide v) s = .next u ∧
       u = { s with part := { s.part with i3c := { s.part.i3c with read := none, status := some 0x01 } } }) ∧
     (∀ r is, s.part.boardOk off.toNat n true = true → s.part.filters = true → findReg off.toNat Reg.map = some (r, is) → r ∉ ownWrites → off.toNat < 0x2000000 →
       ∃ u, exec (.i3cWrite off wide v) s = .next u ∧ u.part.i3c = { s.part.i3c with read := none, status := some 0x00 } ∧
         u.part.reg off.toNat = r.written (s.part.reg off.toNat) (BitVec.ofNat 64 (v.toNat % 2 ^ (8 * n))) ∧
         s.sameRegs u [off.toNat] ∧ s.sameBytes u ∧ s.sameCores u []))

/-- 19 R578: each JTAG instruction selects its register and its pins; a boundary scan shifts the captured levels out and the given cells in; REGACC
shows the last access and makes the next. The boundary cells are free values (log 41). -/
def Obligations.JtagInstructions : Prop :=
  ∀ (s : State) (cells : List Bool) (code : Byte) (dr : BitVec 104), s.part.pwr.auxGood = true →
    let j := s.part.jtag
    let sets := fun (u : State) (k : Jtag) => u = { s with part := { s.part with jtag := k } }
    (∀ x ∈ [(Instr.extest cells, (0x00 : Byte), true), (Instr.samplePreload cells, 0x02, false), (Instr.extestPulse cells, 0x03, true),
        (Instr.extestTrain cells, 0x04, true)],
      ∃ u o, exec x.1 s = .next u ∧ u.part.out = s.part.out ++ [.tdo o] ∧ o.length = Config.boundaryCells ∧
        u.part.jtag.ir = x.2.1 ∧ u.part.jtag.drive = x.2.2 ∧ u.part.jtag.float = false ∧ u.part.jtag.bsr.length = Config.boundaryCells ∧
        (∀ m < Config.boundaryCells, u.part.jtag.bsr[m]? = (cells[m]?).or o[m]?) ∧
        u = { s with part := { s.part with jtag := u.part.jtag, out := u.part.out, uid := u.part.uid } }) ∧
    (∃ u, exec .jtagClamp s = .next u ∧ sets u { j with ir := 0x05, drive := true, float := false }) ∧
    (∃ u, exec .highz s = .next u ∧ sets u { j with ir := 0x06, drive := false, float := true }) ∧
    (∃ u, exec (.bypass code) s = .next u ∧ sets u { j with ir := code, drive := false, float := false }) ∧
    (∃ u, exec .testLogicReset s = .next u ∧ sets u { j with ir := 0x01, drive := false, float := false }) ∧
    (∃ u o, exec .idcode s = .next u ∧ o.length = 32 ∧ (∀ m < 32, o[m]? = some (bitOf (0x5808 * 2 ^ 12 + Config.jedecId.toNat * 2 + 1) m)) ∧
      u = { s with part := { s.part with jtag := { j with ir := 0x01, drive := false, float := false }, out := s.part.out ++ [.tdo o] } }) ∧
    (let off := fld dr.toNat 64 32; let n := widthOf (bitOf dr.toNat 97);
     (bitOf dr.toNat 96 = false → s.part.boardOk off n false = true →
       ∃ u, exec (.regacc dr) s = .next u ∧ fld u.part.jtag.capture.toNat 100 4 = 0 ∧ fld u.part.jtag.capture.toNat 0 64 = s.part.regRead off % 2 ^ 64 ∧
         u.part.out = s.part.out ++ [.tdo (bitsOut 104 j.capture.toNat)] ∧ u.part.jtag.ir = 0x20 ∧
         u = { s with part := { s.part with jtag := u.part.jtag, out := u.part.out } }) ∧
     (s.part.boardOk off n (bitOf dr.toNat 96) = false →
       ∃ u, exec (.regacc dr) s = .next u ∧ fld u.part.jtag.capture.toNat 100 4 = 1 ∧
         u = { s with part := { s.part with jtag := u.part.jtag, out := u.part.out } }))

/-! ### Pace and time -/

/-- 12 R357 R358 R359 R366, 15 R472: a window shows every monitor's rate under its ratio, its smallest rate and its temperature, or the clamp of a
fenced bay, the least rate and the hottest bay; a calibration that is due sets the ratios outside a voltage change; a point of the rate table near
which the code has stood for 10 µs is refreshed. -/
def Obligations.MonitorsCalibrateAndReport : Prop :=
  ∀ (s : State) (d : Nat) (loops temps : List Nat), s.part.phase = .ready → d < 4 →
    let regsAndRails := fun (u : State) (l : List Nat) =>
      u = { s with part := { s.part with regs := u.part.regs, pce := { s.part.pce with rails := u.part.pce.rails } } } ∧ s.sameRegs u l
    (let rate := fun i => match s.part.bayClamp d i with
       | some w => fld w 2 16
       | none => monitorRate (s.part.regFld (bmon d i) 32 16) (loops.getD i 0)
     let temp := fun i => match s.part.bayClamp d i with | some w => fld w 18 8 | none => temps.getD i 0 % 256
     let dem := Reg.PCE_DEMAND.at [d]; let tmp := Reg.PCE_TEMP.at [d];
     ∃ u, exec (.beatMonitorWindow d loops temps) s = .next u ∧ regsAndRails u (dem :: tmp :: (List.range 16).map (bmon d)) ∧
       (∀ i < 16, u.part.regFld (bmon d i) 0 16 = rate i ∧ u.part.regFld (bmon d i) 48 8 = temp i ∧
         (s.part.bayClamp d i = none → u.part.regFld (bmon d i) 16 16 =
           (if s.part.regFld (bmon d i) 16 16 = 0 then rate i else min (s.part.regFld (bmon d i) 16 16) (rate i))) ∧
         u.part.regFld dem 16 16 ≤ rate i ∧ temp i ≤ u.part.regFld tmp 0 8) ∧
       (∃ i < 16, u.part.regFld dem 16 16 = rate i) ∧
       (∃ i < 16, u.part.regFld tmp 8 8 = i ∧ u.part.regFld tmp 0 8 = temp i ∧ ∀ j < i, temp j < u.part.regFld tmp 0 8)) ∧
    (s.part.calDue d = true → (∀ b, (s.part.rail d).took = some b → 65536 ≤ (s.part.reg (Reg.TRV_BEAT.at [d]) - b).toNat) →
      ∃ u, exec (.monitorCalibration d loops) s = .next u ∧ regsAndRails u ((List.range 16).map (bmon d)) ∧
        (d < s.part.pce.rails.length → (u.part.rail d).calAt = s.part.tim.interval) ∧
        ∀ i < 16, u.part.regFld (bmon d i) 32 16 = min 0xFFFF (loops.getD i 0 / 256)) ∧
    (∀ b, (s.part.rail d).took = some b → (s.part.reg (Reg.TRV_BEAT.at [d]) - b).toNat < 65536 →
      ∃ u, exec (.monitorCalibration d loops) s = .next u ∧ regsAndRails u []) ∧
    (s.part.calDue d = false → exec (.monitorCalibration d loops) s = .next s) ∧
    (∀ j < 15, nearPoint (s.part.ackCode d) = some j → 10000 ≤ (s.part.tim.interval - (s.part.rail d).held).toNat →
      let r := Reg.PCE_TABLE.at [d, j]
      ∃ u, exec (.rateTableRefresh d j) s = .next u ∧ s.onlyRegs u [r] ∧
        u.part.regFld r 0 16 = (3 * s.part.regFld r 0 16 + s.part.measured d) / 4 ∧ u.part.regFld r 16 8 = s.part.hot d)

/-- 12 R361 to R365 R367 R370 R371: a snapshot keeps the largest demand of its period, a late one the rate at the ceiling; a control period meters the
package, moves the ceilings and begins anew, its commanded codes at or below the ceilings, its failing periods counted; a voltage write is
acknowledged or tried again, never above the ceiling, and a current read is kept. -/
def Obligations.PaceIsControlled : Prop :=
  ∀ (s : State) (d : Nat), s.part.phase = .ready → d < 4 → s.part.pce.rails.length = 4 →
    let x := s.part.rail d
    let st := Reg.PCE_RAIL_STAT.at [d]
    let flag := Reg.PCE_STAT.at []
    (∃ u, exec (.demandSnapshot d) s = .next u ∧
      (s.part.dieDemand d = none → (u.part.rail d).late = true ∧ bitOf (u.part.regN flag) 5 = true ∧
        let m := (s.part.codeRate d (s.part.ceiling d), 10000)
        (u.part.rail d).demand = if fracLt x.demand m then m else x.demand) ∧
      (∀ m, s.part.dieDemand d = some m → (u.part.rail d).late = x.late ∧ (u.part.rail d).demand = if fracLt x.demand m then m else x.demand)) ∧
    (let w := 360 + ((List.range 6).map (fun i => s.part.railMv i * s.part.pce.amps.getD i 0)).sum / 1000000;
     let shown := min 0xFFFF w; let th := Reg.PCE_THERM.at [];
     ∃ u, exec .controlPeriod s = .next u ∧ s.sameBytes u ∧ s.sameCores u [] ∧ u.part.stg = s.part.stg ∧ u.part.regN (Reg.PCE_PACKAGE_W.at []) = shown ∧
       u.part.pce.lastPeriod = s.part.tim.interval ∧ u.part.pce.limit = s.part.regFld (Reg.PWR_LIMIT.at []) 0 11 ∧
       (u.part.rail d).demand = (0, 1) ∧ (u.part.rail d).late = false ∧ (u.part.rail d).bad = false ∧ (u.part.rail d).tries = 0 ∧
       (u.part.rail d).fails = (if x.bad then x.fails + 1 else 0) ∧
       (u.part.rail d).therm = (if s.part.regFld th 0 8 + 40 ≤ s.part.hot d then x.therm - 1
         else if s.part.hot d < s.part.regFld th 8 8 + 40 then min 140 (x.therm + 1) else x.therm) ∧
       (u.part.rail d).power = (if s.part.pce.limit < shown then x.power - 1 else if 100 * shown < 98 * s.part.pce.limit then min 140 (x.power + 1) else x.power) ∧
       (u.part.regFld st 0 8 = s.part.regFld st 0 8 ∨ u.part.regFld st 0 8 ≤ u.part.ceiling d)) ∧
    (∀ v, x.sending = some v →
      (∃ u, exec (.avsTransactionComplete d .write true) s = .next u ∧ s.sameRegs u [st, Reg.PCE_CMDS.at [d]] ∧ u.part.ackCode d = v % 256 ∧
        u.part.reg (Reg.PCE_CMDS.at [d]) = s.part.reg (Reg.PCE_CMDS.at [d]) + 1 ∧ (u.part.rail d).sending = none ∧ (u.part.rail d).bad = false ∧
        s.sameBytes u ∧ s.sameCores u []) ∧
      (let w := min v (s.part.ceiling d)
       ∃ u, exec (.avsTransactionComplete d .write false) s = .next u ∧ s.sameRegs u [st, flag] ∧ u.part.ackCode d = s.part.ackCode d ∧
         u.part.regFld st 18 8 = min 255 (s.part.regFld st 18 8 + 1) ∧ bitOf (u.part.regN flag) 3 = true ∧ (u.part.rail d).bad = true ∧
         (x.tries < 3 → w = v ∨ (w ≠ s.part.ackCode d ∧ s.part.slow d w = false) →
           (u.part.rail d).tries = x.tries + 1 ∧ (u.part.rail d).sending = some w ∧ u.part.out = s.part.out ++ [.avs d 0 (codeMv w)]) ∧
         (3 ≤ x.tries → (u.part.rail d).sending = none ∧ u.part.out = s.part.out))) ∧
    (∀ ma, d < s.part.pce.amps.length → ∃ u, exec (.avsTransactionComplete d (.current 0 ma) true) s = .next u ∧
      u = { s with part := { s.part with pce := { s.part.pce with amps := s.part.pce.amps.set d ma } } })

/-- 12 R352 to R356: a nanosecond of the reference clock advances an uncorrected timebase by one (the model runs it when no command waits, log 1); an
edge of PPS_IN is stamped and, as source, corrects the offset: what is ahead is slewed, what is far behind steps; a source that stays away means
holdover; the copies follow E0's count. -/
def Obligations.TimebaseKeepsTime : Prop :=
  ∀ (s : State),
    let t := s.part.tim
    let st := Reg.TIM_STAT.at []
    (s.pending = [] → s.part.phase = .ready → t.slew = 0 → t.frac = 0 → ∃ u, step s = .next u ∧
      u = { s with part := { s.part with tim := { t with now := t.now + 1, interval := t.interval + 1, copies := t.copies.map (· + 1) } } }) ∧
    (∃ u, exec .timebaseAlign s = .next u ∧ u = { s with part := { s.part with tim := { t with copies := List.replicate 7 t.now } } }) ∧
    (∀ e, (s.part.pwr.ins.getD 8 Input.reset).edge = some e → s.part.pwr.ins.length = 9 →
      ∃ u, exec .ppsEdge s = .next u ∧ s.sameBytes u ∧ s.sameCores u [] ∧ u.part.reg (Reg.TIM_PPS_STAMP.at []) = e ∧ (u.part.pwr.ins.getD 8 Input.reset).edge = none ∧
        u.part.tim.ppsLast = t.interval ∧
        (s.part.timSrc ≠ 1 → s.sameRegs u [Reg.TIM_PPS_STAMP.at []] ∧ u.part.tim.now = t.now ∧ u.part.tim.slew = t.slew) ∧
        (s.part.timSrc = 1 → 0 ≤ ppsOffset e.toNat → bitOf (u.part.regN st) 0 = false ∧ u.part.tim.now = t.now ∧
          u.part.tim.slew = ppsOffset e.toNat * 2 ^ 32 ∧ u.part.regN (Reg.TIM_OFFSET.at []) = (ppsOffset e.toNat).toNat) ∧
        (s.part.timSrc = 1 → ppsOffset e.toNat < 0 → s.part.regN (Reg.TIM_STEP_MAX.at []) < (ppsOffset e.toNat).natAbs →
          bitOf (s.part.regN (Reg.TIM_CFG.at [])) 6 = true →
          u.part.tim.now = t.now + BitVec.ofNat 64 (ppsOffset e.toNat).natAbs ∧ u.part.tim.slew = 0 ∧ bitOf (u.part.regN st) 1 = true)) ∧
    (s.part.timSrc = 1 → 1500000000 ≤ (t.interval - t.ppsLast).toNat →
      ∃ u, exec .holdover s = .next u ∧ s.onlyRegs u [st] ∧ u.part.reg st = s.part.reg st ||| 1) ∧
    (s.part.timSrc = 2 → 10000000 ≤ (t.interval - t.parentLast).toNat →
      ∃ u, exec .holdover s = .next u ∧ s.onlyRegs u [st] ∧ u.part.reg st = s.part.reg st ||| 9)

/-! ### The machine as a whole -/

/-- A step takes the command at the front of the queue and is that command's effect on the part with the queue's rest. -/
def Obligations.StepRunsTheFrontCommand : Prop :=
  ∀ (s : State) (c : Instr) (cs : List Instr), s.pending = c :: cs → step s = exec c { s with pending := cs }

/-- Every command answers a next state, and none touches the queue: no command of the part stops it (the errors of 18 R536 are effects). -/
def Obligations.EveryCommandAnswersAndKeepsTheQueue : Prop :=
  ∀ (i : Instr) (s : State), ∃ p, exec i s = .next { s with part := p }

/-- Every step keeps the byte memory in its canonical form, from every state in which it is (log 4). -/
def Obligations.EveryStepKeepsMemoryCanonical : Prop :=
  ∀ s u : State, s.memOk = true → step s = .next u → u.memOk = true

/-- Every step keeps the register file and the table of cores in their canonical form, from every state in which they are (log 4). -/
def Obligations.EveryStepKeepsTablesCanonical : Prop :=
  ∀ s u : State, s.regsOk = true → s.coresOk = true → step s = .next u → u.regsOk = true ∧ u.coresOk = true

/-- 00 R15, 06 R196, 10 R292, 12 R352, 17 R508 R509, 19 R572: the part in reset holds every register at its Reset value, no task, no replica, no
script, every thread IDLE and the timebase 0, and its memory is in canonical form. -/
def Obligations.ResetIsAsTheSpecSays : Prop :=
  State.reset.memOk = true ∧ State.reset.regsOk = true ∧ State.reset.pending = [] ∧ State.reset.part.phase = .held ∧
  (∀ r ∈ Reg.map, ∀ is, findReg (r.at is) Reg.map = some (r, is) → State.reset.part.regN (r.at is) = r.reset) ∧
  (∀ c t, (State.reset.part.th c t).st = .idle) ∧ State.reset.part.stg.tasks = [] ∧ State.reset.part.stg.replicas = [] ∧
  State.reset.part.cfg.kept = [] ∧ State.reset.part.tim.now = 0

/-- 07 R197 to R235: the word of every cue operation, each field at every value its bits admit, fits in 64 bits and reads back as that operation.
07 R236 and its worked example: words written out from the encodings spell the operations they stand for; a reserved opcode spells none. -/
def Obligations.CueWordsReadBack : Prop :=
  (∀ i : CueWord, i.fits = true → writeCue i < 2 ^ 64 ∧ readCue (writeCue i) = some i) ∧
  readCue 0x1002800000001000 = some (.loop { lvl := 0, stop := 10, src := false, reg := 0, sh := 0, imm := 2 }) ∧
  readCue 0x20080000083CE900 = some (.ldr { place := 32, preg := 0, off := 16, cnt := 15, lvl := 0, sreg := 14, ix := true, cached := false, sync := false, done := 16 }) ∧
  (∃ m, readCue 0x400800C0A5203910 = some (.mat m) ∧ m.arow = 32 ∧ m.brow = 48 ∧ m.atag = 5 ∧ m.btag = 5 ∧ m.acc = true ∧ m.close = true ∧ m.sreg = 12 ∧ m.done = 17) ∧
  readCue 0 = some .endOp ∧ (∀ w, opcode w ∈ [0x07, 0x13, 0x17, 0x1B, 0x1F, 0x3F] → readCue w = none)
end

