-- ==== Sys2Proof/Laws/State.lean ====
section
/-! SUPPORT. What each named update of the part leaves in each field it does not write: true by unfolding, one lemma per field. -/

namespace Sys2Proof.Machine

open Sys2Proof

variable (p : Part)

@[simp] theorem Part.setReg_mem (o : Nat) (v : W64) : (p.setReg o v).mem = p.mem := rfl
@[simp] theorem Part.setReg_tagErr (o : Nat) (v : W64) : (p.setReg o v).tagErr = p.tagErr := rfl
@[simp] theorem Part.setReg_poison (o : Nat) (v : W64) : (p.setReg o v).poison = p.poison := rfl
@[simp] theorem Part.setReg_cores (o : Nat) (v : W64) : (p.setReg o v).cores = p.cores := rfl
@[simp] theorem Part.setReg_clusters (o : Nat) (v : W64) : (p.setReg o v).clusters = p.clusters := rfl
@[simp] theorem Part.setReg_reqs (o : Nat) (v : W64) : (p.setReg o v).reqs = p.reqs := rfl
@[simp] theorem Part.setReg_xfers (o : Nat) (v : W64) : (p.setReg o v).xfers = p.xfers := rfl
@[simp] theorem Part.setReg_partials (o : Nat) (v : W64) : (p.setReg o v).partials = p.partials := rfl
@[simp] theorem Part.setReg_views (o : Nat) (v : W64) : (p.setReg o v).views = p.views := rfl
@[simp] theorem Part.setReg_flight (o : Nat) (v : W64) : (p.setReg o v).flight = p.flight := rfl
@[simp] theorem Part.setReg_net (o : Nat) (v : W64) : (p.setReg o v).net = p.net := rfl
@[simp] theorem Part.setReg_retrainFails (o : Nat) (v : W64) : (p.setReg o v).retrainFails = p.retrainFails := rfl
@[simp] theorem Part.setReg_stg (o : Nat) (v : W64) : (p.setReg o v).stg = p.stg := rfl
@[simp] theorem Part.setReg_tim (o : Nat) (v : W64) : (p.setReg o v).tim = p.tim := rfl
@[simp] theorem Part.setReg_pce (o : Nat) (v : W64) : (p.setReg o v).pce = p.pce := rfl
@[simp] theorem Part.setReg_fab (o : Nat) (v : W64) : (p.setReg o v).fab = p.fab := rfl
@[simp] theorem Part.setReg_cfg (o : Nat) (v : W64) : (p.setReg o v).cfg = p.cfg := rfl
@[simp] theorem Part.setReg_chain (o : Nat) (v : W64) : (p.setReg o v).chain = p.chain := rfl
@[simp] theorem Part.setReg_hst (o : Nat) (v : W64) : (p.setReg o v).hst = p.hst := rfl
@[simp] theorem Part.setReg_sec (o : Nat) (v : W64) : (p.setReg o v).sec = p.sec := rfl
@[simp] theorem Part.setReg_err (o : Nat) (v : W64) : (p.setReg o v).err = p.err := rfl
@[simp] theorem Part.setReg_pwr (o : Nat) (v : W64) : (p.setReg o v).pwr = p.pwr := rfl
@[simp] theorem Part.setReg_i3c (o : Nat) (v : W64) : (p.setReg o v).i3c = p.i3c := rfl
@[simp] theorem Part.setReg_jtag (o : Nat) (v : W64) : (p.setReg o v).jtag = p.jtag := rfl
@[simp] theorem Part.setReg_phase (o : Nat) (v : W64) : (p.setReg o v).phase = p.phase := rfl
@[simp] theorem Part.setReg_out (o : Nat) (v : W64) : (p.setReg o v).out = p.out := rfl
@[simp] theorem Part.setReg_uid (o : Nat) (v : W64) : (p.setReg o v).uid = p.uid := rfl

@[simp] theorem Part.setRegN_mem (o v : Nat) : (p.setRegN o v).mem = p.mem := rfl
@[simp] theorem Part.setRegN_tagErr (o v : Nat) : (p.setRegN o v).tagErr = p.tagErr := rfl
@[simp] theorem Part.setRegN_poison (o v : Nat) : (p.setRegN o v).poison = p.poison := rfl
@[simp] theorem Part.setRegN_cores (o v : Nat) : (p.setRegN o v).cores = p.cores := rfl
@[simp] theorem Part.setRegN_clusters (o v : Nat) : (p.setRegN o v).clusters = p.clusters := rfl
@[simp] theorem Part.setRegN_reqs (o v : Nat) : (p.setRegN o v).reqs = p.reqs := rfl
@[simp] theorem Part.setRegN_xfers (o v : Nat) : (p.setRegN o v).xfers = p.xfers := rfl
@[simp] theorem Part.setRegN_partials (o v : Nat) : (p.setRegN o v).partials = p.partials := rfl
@[simp] theorem Part.setRegN_views (o v : Nat) : (p.setRegN o v).views = p.views := rfl
@[simp] theorem Part.setRegN_flight (o v : Nat) : (p.setRegN o v).flight = p.flight := rfl
@[simp] theorem Part.setRegN_net (o v : Nat) : (p.setRegN o v).net = p.net := rfl
@[simp] theorem Part.setRegN_retrainFails (o v : Nat) : (p.setRegN o v).retrainFails = p.retrainFails := rfl
@[simp] theorem Part.setRegN_stg (o v : Nat) : (p.setRegN o v).stg = p.stg := rfl
@[simp] theorem Part.setRegN_tim (o v : Nat) : (p.setRegN o v).tim = p.tim := rfl
@[simp] theorem Part.setRegN_pce (o v : Nat) : (p.setRegN o v).pce = p.pce := rfl
@[simp] theorem Part.setRegN_fab (o v : Nat) : (p.setRegN o v).fab = p.fab := rfl
@[simp] theorem Part.setRegN_cfg (o v : Nat) : (p.setRegN o v).cfg = p.cfg := rfl
@[simp] theorem Part.setRegN_chain (o v : Nat) : (p.setRegN o v).chain = p.chain := rfl
@[simp] theorem Part.setRegN_hst (o v : Nat) : (p.setRegN o v).hst = p.hst := rfl
@[simp] theorem Part.setRegN_sec (o v : Nat) : (p.setRegN o v).sec = p.sec := rfl
@[simp] theorem Part.setRegN_err (o v : Nat) : (p.setRegN o v).err = p.err := rfl
@[simp] theorem Part.setRegN_pwr (o v : Nat) : (p.setRegN o v).pwr = p.pwr := rfl
@[simp] theorem Part.setRegN_i3c (o v : Nat) : (p.setRegN o v).i3c = p.i3c := rfl
@[simp] theorem Part.setRegN_jtag (o v : Nat) : (p.setRegN o v).jtag = p.jtag := rfl
@[simp] theorem Part.setRegN_phase (o v : Nat) : (p.setRegN o v).phase = p.phase := rfl
@[simp] theorem Part.setRegN_out (o v : Nat) : (p.setRegN o v).out = p.out := rfl
@[simp] theorem Part.setRegN_uid (o v : Nat) : (p.setRegN o v).uid = p.uid := rfl

@[simp] theorem Part.setFld_mem (o lo len v : Nat) : (p.setFld o lo len v).mem = p.mem := rfl
@[simp] theorem Part.setFld_tagErr (o lo len v : Nat) : (p.setFld o lo len v).tagErr = p.tagErr := rfl
@[simp] theorem Part.setFld_poison (o lo len v : Nat) : (p.setFld o lo len v).poison = p.poison := rfl
@[simp] theorem Part.setFld_cores (o lo len v : Nat) : (p.setFld o lo len v).cores = p.cores := rfl
@[simp] theorem Part.setFld_clusters (o lo len v : Nat) : (p.setFld o lo len v).clusters = p.clusters := rfl
@[simp] theorem Part.setFld_reqs (o lo len v : Nat) : (p.setFld o lo len v).reqs = p.reqs := rfl
@[simp] theorem Part.setFld_xfers (o lo len v : Nat) : (p.setFld o lo len v).xfers = p.xfers := rfl
@[simp] theorem Part.setFld_partials (o lo len v : Nat) : (p.setFld o lo len v).partials = p.partials := rfl
@[simp] theorem Part.setFld_views (o lo len v : Nat) : (p.setFld o lo len v).views = p.views := rfl
@[simp] theorem Part.setFld_flight (o lo len v : Nat) : (p.setFld o lo len v).flight = p.flight := rfl
@[simp] theorem Part.setFld_net (o lo len v : Nat) : (p.setFld o lo len v).net = p.net := rfl
@[simp] theorem Part.setFld_retrainFails (o lo len v : Nat) : (p.setFld o lo len v).retrainFails = p.retrainFails := rfl
@[simp] theorem Part.setFld_stg (o lo len v : Nat) : (p.setFld o lo len v).stg = p.stg := rfl
@[simp] theorem Part.setFld_tim (o lo len v : Nat) : (p.setFld o lo len v).tim = p.tim := rfl
@[simp] theorem Part.setFld_pce (o lo len v : Nat) : (p.setFld o lo len v).pce = p.pce := rfl
@[simp] theorem Part.setFld_fab (o lo len v : Nat) : (p.setFld o lo len v).fab = p.fab := rfl
@[simp] theorem Part.setFld_cfg (o lo len v : Nat) : (p.setFld o lo len v).cfg = p.cfg := rfl
@[simp] theorem Part.setFld_chain (o lo len v : Nat) : (p.setFld o lo len v).chain = p.chain := rfl
@[simp] theorem Part.setFld_hst (o lo len v : Nat) : (p.setFld o lo len v).hst = p.hst := rfl
@[simp] theorem Part.setFld_sec (o lo len v : Nat) : (p.setFld o lo len v).sec = p.sec := rfl
@[simp] theorem Part.setFld_err (o lo len v : Nat) : (p.setFld o lo len v).err = p.err := rfl
@[simp] theorem Part.setFld_pwr (o lo len v : Nat) : (p.setFld o lo len v).pwr = p.pwr := rfl
@[simp] theorem Part.setFld_i3c (o lo len v : Nat) : (p.setFld o lo len v).i3c = p.i3c := rfl
@[simp] theorem Part.setFld_jtag (o lo len v : Nat) : (p.setFld o lo len v).jtag = p.jtag := rfl
@[simp] theorem Part.setFld_phase (o lo len v : Nat) : (p.setFld o lo len v).phase = p.phase := rfl
@[simp] theorem Part.setFld_out (o lo len v : Nat) : (p.setFld o lo len v).out = p.out := rfl
@[simp] theorem Part.setFld_uid (o lo len v : Nat) : (p.setFld o lo len v).uid = p.uid := rfl

@[simp] theorem Part.orReg_mem (o m : Nat) : (p.orReg o m).mem = p.mem := rfl
@[simp] theorem Part.orReg_tagErr (o m : Nat) : (p.orReg o m).tagErr = p.tagErr := rfl
@[simp] theorem Part.orReg_poison (o m : Nat) : (p.orReg o m).poison = p.poison := rfl
@[simp] theorem Part.orReg_cores (o m : Nat) : (p.orReg o m).cores = p.cores := rfl
@[simp] theorem Part.orReg_clusters (o m : Nat) : (p.orReg o m).clusters = p.clusters := rfl
@[simp] theorem Part.orReg_reqs (o m : Nat) : (p.orReg o m).reqs = p.reqs := rfl
@[simp] theorem Part.orReg_xfers (o m : Nat) : (p.orReg o m).xfers = p.xfers := rfl
@[simp] theorem Part.orReg_partials (o m : Nat) : (p.orReg o m).partials = p.partials := rfl
@[simp] theorem Part.orReg_views (o m : Nat) : (p.orReg o m).views = p.views := rfl
@[simp] theorem Part.orReg_flight (o m : Nat) : (p.orReg o m).flight = p.flight := rfl
@[simp] theorem Part.orReg_net (o m : Nat) : (p.orReg o m).net = p.net := rfl
@[simp] theorem Part.orReg_retrainFails (o m : Nat) : (p.orReg o m).retrainFails = p.retrainFails := rfl
@[simp] theorem Part.orReg_stg (o m : Nat) : (p.orReg o m).stg = p.stg := rfl
@[simp] theorem Part.orReg_tim (o m : Nat) : (p.orReg o m).tim = p.tim := rfl
@[simp] theorem Part.orReg_pce (o m : Nat) : (p.orReg o m).pce = p.pce := rfl
@[simp] theorem Part.orReg_fab (o m : Nat) : (p.orReg o m).fab = p.fab := rfl
@[simp] theorem Part.orReg_cfg (o m : Nat) : (p.orReg o m).cfg = p.cfg := rfl
@[simp] theorem Part.orReg_chain (o m : Nat) : (p.orReg o m).chain = p.chain := rfl
@[simp] theorem Part.orReg_hst (o m : Nat) : (p.orReg o m).hst = p.hst := rfl
@[simp] theorem Part.orReg_sec (o m : Nat) : (p.orReg o m).sec = p.sec := rfl
@[simp] theorem Part.orReg_err (o m : Nat) : (p.orReg o m).err = p.err := rfl
@[simp] theorem Part.orReg_pwr (o m : Nat) : (p.orReg o m).pwr = p.pwr := rfl
@[simp] theorem Part.orReg_i3c (o m : Nat) : (p.orReg o m).i3c = p.i3c := rfl
@[simp] theorem Part.orReg_jtag (o m : Nat) : (p.orReg o m).jtag = p.jtag := rfl
@[simp] theorem Part.orReg_phase (o m : Nat) : (p.orReg o m).phase = p.phase := rfl
@[simp] theorem Part.orReg_out (o m : Nat) : (p.orReg o m).out = p.out := rfl
@[simp] theorem Part.orReg_uid (o m : Nat) : (p.orReg o m).uid = p.uid := rfl

@[simp] theorem Part.andNotReg_mem (o m : Nat) : (p.andNotReg o m).mem = p.mem := rfl
@[simp] theorem Part.andNotReg_tagErr (o m : Nat) : (p.andNotReg o m).tagErr = p.tagErr := rfl
@[simp] theorem Part.andNotReg_poison (o m : Nat) : (p.andNotReg o m).poison = p.poison := rfl
@[simp] theorem Part.andNotReg_cores (o m : Nat) : (p.andNotReg o m).cores = p.cores := rfl
@[simp] theorem Part.andNotReg_clusters (o m : Nat) : (p.andNotReg o m).clusters = p.clusters := rfl
@[simp] theorem Part.andNotReg_reqs (o m : Nat) : (p.andNotReg o m).reqs = p.reqs := rfl
@[simp] theorem Part.andNotReg_xfers (o m : Nat) : (p.andNotReg o m).xfers = p.xfers := rfl
@[simp] theorem Part.andNotReg_partials (o m : Nat) : (p.andNotReg o m).partials = p.partials := rfl
@[simp] theorem Part.andNotReg_views (o m : Nat) : (p.andNotReg o m).views = p.views := rfl
@[simp] theorem Part.andNotReg_flight (o m : Nat) : (p.andNotReg o m).flight = p.flight := rfl
@[simp] theorem Part.andNotReg_net (o m : Nat) : (p.andNotReg o m).net = p.net := rfl
@[simp] theorem Part.andNotReg_retrainFails (o m : Nat) : (p.andNotReg o m).retrainFails = p.retrainFails := rfl
@[simp] theorem Part.andNotReg_stg (o m : Nat) : (p.andNotReg o m).stg = p.stg := rfl
@[simp] theorem Part.andNotReg_tim (o m : Nat) : (p.andNotReg o m).tim = p.tim := rfl
@[simp] theorem Part.andNotReg_pce (o m : Nat) : (p.andNotReg o m).pce = p.pce := rfl
@[simp] theorem Part.andNotReg_fab (o m : Nat) : (p.andNotReg o m).fab = p.fab := rfl
@[simp] theorem Part.andNotReg_cfg (o m : Nat) : (p.andNotReg o m).cfg = p.cfg := rfl
@[simp] theorem Part.andNotReg_chain (o m : Nat) : (p.andNotReg o m).chain = p.chain := rfl
@[simp] theorem Part.andNotReg_hst (o m : Nat) : (p.andNotReg o m).hst = p.hst := rfl
@[simp] theorem Part.andNotReg_sec (o m : Nat) : (p.andNotReg o m).sec = p.sec := rfl
@[simp] theorem Part.andNotReg_err (o m : Nat) : (p.andNotReg o m).err = p.err := rfl
@[simp] theorem Part.andNotReg_pwr (o m : Nat) : (p.andNotReg o m).pwr = p.pwr := rfl
@[simp] theorem Part.andNotReg_i3c (o m : Nat) : (p.andNotReg o m).i3c = p.i3c := rfl
@[simp] theorem Part.andNotReg_jtag (o m : Nat) : (p.andNotReg o m).jtag = p.jtag := rfl
@[simp] theorem Part.andNotReg_phase (o m : Nat) : (p.andNotReg o m).phase = p.phase := rfl
@[simp] theorem Part.andNotReg_out (o m : Nat) : (p.andNotReg o m).out = p.out := rfl
@[simp] theorem Part.andNotReg_uid (o m : Nat) : (p.andNotReg o m).uid = p.uid := rfl

@[simp] theorem Part.bump_mem (o n : Nat) : (p.bump o n).mem = p.mem := rfl
@[simp] theorem Part.bump_tagErr (o n : Nat) : (p.bump o n).tagErr = p.tagErr := rfl
@[simp] theorem Part.bump_poison (o n : Nat) : (p.bump o n).poison = p.poison := rfl
@[simp] theorem Part.bump_cores (o n : Nat) : (p.bump o n).cores = p.cores := rfl
@[simp] theorem Part.bump_clusters (o n : Nat) : (p.bump o n).clusters = p.clusters := rfl
@[simp] theorem Part.bump_reqs (o n : Nat) : (p.bump o n).reqs = p.reqs := rfl
@[simp] theorem Part.bump_xfers (o n : Nat) : (p.bump o n).xfers = p.xfers := rfl
@[simp] theorem Part.bump_partials (o n : Nat) : (p.bump o n).partials = p.partials := rfl
@[simp] theorem Part.bump_views (o n : Nat) : (p.bump o n).views = p.views := rfl
@[simp] theorem Part.bump_flight (o n : Nat) : (p.bump o n).flight = p.flight := rfl
@[simp] theorem Part.bump_net (o n : Nat) : (p.bump o n).net = p.net := rfl
@[simp] theorem Part.bump_retrainFails (o n : Nat) : (p.bump o n).retrainFails = p.retrainFails := rfl
@[simp] theorem Part.bump_stg (o n : Nat) : (p.bump o n).stg = p.stg := rfl
@[simp] theorem Part.bump_tim (o n : Nat) : (p.bump o n).tim = p.tim := rfl
@[simp] theorem Part.bump_pce (o n : Nat) : (p.bump o n).pce = p.pce := rfl
@[simp] theorem Part.bump_fab (o n : Nat) : (p.bump o n).fab = p.fab := rfl
@[simp] theorem Part.bump_cfg (o n : Nat) : (p.bump o n).cfg = p.cfg := rfl
@[simp] theorem Part.bump_chain (o n : Nat) : (p.bump o n).chain = p.chain := rfl
@[simp] theorem Part.bump_hst (o n : Nat) : (p.bump o n).hst = p.hst := rfl
@[simp] theorem Part.bump_sec (o n : Nat) : (p.bump o n).sec = p.sec := rfl
@[simp] theorem Part.bump_err (o n : Nat) : (p.bump o n).err = p.err := rfl
@[simp] theorem Part.bump_pwr (o n : Nat) : (p.bump o n).pwr = p.pwr := rfl
@[simp] theorem Part.bump_i3c (o n : Nat) : (p.bump o n).i3c = p.i3c := rfl
@[simp] theorem Part.bump_jtag (o n : Nat) : (p.bump o n).jtag = p.jtag := rfl
@[simp] theorem Part.bump_phase (o n : Nat) : (p.bump o n).phase = p.phase := rfl
@[simp] theorem Part.bump_out (o n : Nat) : (p.bump o n).out = p.out := rfl
@[simp] theorem Part.bump_uid (o n : Nat) : (p.bump o n).uid = p.uid := rfl

@[simp] theorem Part.bump32_mem (o n : Nat) : (p.bump32 o n).mem = p.mem := rfl
@[simp] theorem Part.bump32_tagErr (o n : Nat) : (p.bump32 o n).tagErr = p.tagErr := rfl
@[simp] theorem Part.bump32_poison (o n : Nat) : (p.bump32 o n).poison = p.poison := rfl
@[simp] theorem Part.bump32_cores (o n : Nat) : (p.bump32 o n).cores = p.cores := rfl
@[simp] theorem Part.bump32_clusters (o n : Nat) : (p.bump32 o n).clusters = p.clusters := rfl
@[simp] theorem Part.bump32_reqs (o n : Nat) : (p.bump32 o n).reqs = p.reqs := rfl
@[simp] theorem Part.bump32_xfers (o n : Nat) : (p.bump32 o n).xfers = p.xfers := rfl
@[simp] theorem Part.bump32_partials (o n : Nat) : (p.bump32 o n).partials = p.partials := rfl
@[simp] theorem Part.bump32_views (o n : Nat) : (p.bump32 o n).views = p.views := rfl
@[simp] theorem Part.bump32_flight (o n : Nat) : (p.bump32 o n).flight = p.flight := rfl
@[simp] theorem Part.bump32_net (o n : Nat) : (p.bump32 o n).net = p.net := rfl
@[simp] theorem Part.bump32_retrainFails (o n : Nat) : (p.bump32 o n).retrainFails = p.retrainFails := rfl
@[simp] theorem Part.bump32_stg (o n : Nat) : (p.bump32 o n).stg = p.stg := rfl
@[simp] theorem Part.bump32_tim (o n : Nat) : (p.bump32 o n).tim = p.tim := rfl
@[simp] theorem Part.bump32_pce (o n : Nat) : (p.bump32 o n).pce = p.pce := rfl
@[simp] theorem Part.bump32_fab (o n : Nat) : (p.bump32 o n).fab = p.fab := rfl
@[simp] theorem Part.bump32_cfg (o n : Nat) : (p.bump32 o n).cfg = p.cfg := rfl
@[simp] theorem Part.bump32_chain (o n : Nat) : (p.bump32 o n).chain = p.chain := rfl
@[simp] theorem Part.bump32_hst (o n : Nat) : (p.bump32 o n).hst = p.hst := rfl
@[simp] theorem Part.bump32_sec (o n : Nat) : (p.bump32 o n).sec = p.sec := rfl
@[simp] theorem Part.bump32_err (o n : Nat) : (p.bump32 o n).err = p.err := rfl
@[simp] theorem Part.bump32_pwr (o n : Nat) : (p.bump32 o n).pwr = p.pwr := rfl
@[simp] theorem Part.bump32_i3c (o n : Nat) : (p.bump32 o n).i3c = p.i3c := rfl
@[simp] theorem Part.bump32_jtag (o n : Nat) : (p.bump32 o n).jtag = p.jtag := rfl
@[simp] theorem Part.bump32_phase (o n : Nat) : (p.bump32 o n).phase = p.phase := rfl
@[simp] theorem Part.bump32_out (o n : Nat) : (p.bump32 o n).out = p.out := rfl
@[simp] theorem Part.bump32_uid (o n : Nat) : (p.bump32 o n).uid = p.uid := rfl

@[simp] theorem Part.bump48_mem (o n : Nat) : (p.bump48 o n).mem = p.mem := rfl
@[simp] theorem Part.bump48_tagErr (o n : Nat) : (p.bump48 o n).tagErr = p.tagErr := rfl
@[simp] theorem Part.bump48_poison (o n : Nat) : (p.bump48 o n).poison = p.poison := rfl
@[simp] theorem Part.bump48_cores (o n : Nat) : (p.bump48 o n).cores = p.cores := rfl
@[simp] theorem Part.bump48_clusters (o n : Nat) : (p.bump48 o n).clusters = p.clusters := rfl
@[simp] theorem Part.bump48_reqs (o n : Nat) : (p.bump48 o n).reqs = p.reqs := rfl
@[simp] theorem Part.bump48_xfers (o n : Nat) : (p.bump48 o n).xfers = p.xfers := rfl
@[simp] theorem Part.bump48_partials (o n : Nat) : (p.bump48 o n).partials = p.partials := rfl
@[simp] theorem Part.bump48_views (o n : Nat) : (p.bump48 o n).views = p.views := rfl
@[simp] theorem Part.bump48_flight (o n : Nat) : (p.bump48 o n).flight = p.flight := rfl
@[simp] theorem Part.bump48_net (o n : Nat) : (p.bump48 o n).net = p.net := rfl
@[simp] theorem Part.bump48_retrainFails (o n : Nat) : (p.bump48 o n).retrainFails = p.retrainFails := rfl
@[simp] theorem Part.bump48_stg (o n : Nat) : (p.bump48 o n).stg = p.stg := rfl
@[simp] theorem Part.bump48_tim (o n : Nat) : (p.bump48 o n).tim = p.tim := rfl
@[simp] theorem Part.bump48_pce (o n : Nat) : (p.bump48 o n).pce = p.pce := rfl
@[simp] theorem Part.bump48_fab (o n : Nat) : (p.bump48 o n).fab = p.fab := rfl
@[simp] theorem Part.bump48_cfg (o n : Nat) : (p.bump48 o n).cfg = p.cfg := rfl
@[simp] theorem Part.bump48_chain (o n : Nat) : (p.bump48 o n).chain = p.chain := rfl
@[simp] theorem Part.bump48_hst (o n : Nat) : (p.bump48 o n).hst = p.hst := rfl
@[simp] theorem Part.bump48_sec (o n : Nat) : (p.bump48 o n).sec = p.sec := rfl
@[simp] theorem Part.bump48_err (o n : Nat) : (p.bump48 o n).err = p.err := rfl
@[simp] theorem Part.bump48_pwr (o n : Nat) : (p.bump48 o n).pwr = p.pwr := rfl
@[simp] theorem Part.bump48_i3c (o n : Nat) : (p.bump48 o n).i3c = p.i3c := rfl
@[simp] theorem Part.bump48_jtag (o n : Nat) : (p.bump48 o n).jtag = p.jtag := rfl
@[simp] theorem Part.bump48_phase (o n : Nat) : (p.bump48 o n).phase = p.phase := rfl
@[simp] theorem Part.bump48_out (o n : Nat) : (p.bump48 o n).out = p.out := rfl
@[simp] theorem Part.bump48_uid (o n : Nat) : (p.bump48 o n).uid = p.uid := rfl

@[simp] theorem Part.bumpSat_mem (o n : Nat) : (p.bumpSat o n).mem = p.mem := rfl
@[simp] theorem Part.bumpSat_tagErr (o n : Nat) : (p.bumpSat o n).tagErr = p.tagErr := rfl
@[simp] theorem Part.bumpSat_poison (o n : Nat) : (p.bumpSat o n).poison = p.poison := rfl
@[simp] theorem Part.bumpSat_cores (o n : Nat) : (p.bumpSat o n).cores = p.cores := rfl
@[simp] theorem Part.bumpSat_clusters (o n : Nat) : (p.bumpSat o n).clusters = p.clusters := rfl
@[simp] theorem Part.bumpSat_reqs (o n : Nat) : (p.bumpSat o n).reqs = p.reqs := rfl
@[simp] theorem Part.bumpSat_xfers (o n : Nat) : (p.bumpSat o n).xfers = p.xfers := rfl
@[simp] theorem Part.bumpSat_partials (o n : Nat) : (p.bumpSat o n).partials = p.partials := rfl
@[simp] theorem Part.bumpSat_views (o n : Nat) : (p.bumpSat o n).views = p.views := rfl
@[simp] theorem Part.bumpSat_flight (o n : Nat) : (p.bumpSat o n).flight = p.flight := rfl
@[simp] theorem Part.bumpSat_net (o n : Nat) : (p.bumpSat o n).net = p.net := rfl
@[simp] theorem Part.bumpSat_retrainFails (o n : Nat) : (p.bumpSat o n).retrainFails = p.retrainFails := rfl
@[simp] theorem Part.bumpSat_stg (o n : Nat) : (p.bumpSat o n).stg = p.stg := rfl
@[simp] theorem Part.bumpSat_tim (o n : Nat) : (p.bumpSat o n).tim = p.tim := rfl
@[simp] theorem Part.bumpSat_pce (o n : Nat) : (p.bumpSat o n).pce = p.pce := rfl
@[simp] theorem Part.bumpSat_fab (o n : Nat) : (p.bumpSat o n).fab = p.fab := rfl
@[simp] theorem Part.bumpSat_cfg (o n : Nat) : (p.bumpSat o n).cfg = p.cfg := rfl
@[simp] theorem Part.bumpSat_chain (o n : Nat) : (p.bumpSat o n).chain = p.chain := rfl
@[simp] theorem Part.bumpSat_hst (o n : Nat) : (p.bumpSat o n).hst = p.hst := rfl
@[simp] theorem Part.bumpSat_sec (o n : Nat) : (p.bumpSat o n).sec = p.sec := rfl
@[simp] theorem Part.bumpSat_err (o n : Nat) : (p.bumpSat o n).err = p.err := rfl
@[simp] theorem Part.bumpSat_pwr (o n : Nat) : (p.bumpSat o n).pwr = p.pwr := rfl
@[simp] theorem Part.bumpSat_i3c (o n : Nat) : (p.bumpSat o n).i3c = p.i3c := rfl
@[simp] theorem Part.bumpSat_jtag (o n : Nat) : (p.bumpSat o n).jtag = p.jtag := rfl
@[simp] theorem Part.bumpSat_phase (o n : Nat) : (p.bumpSat o n).phase = p.phase := rfl
@[simp] theorem Part.bumpSat_out (o n : Nat) : (p.bumpSat o n).out = p.out := rfl
@[simp] theorem Part.bumpSat_uid (o n : Nat) : (p.bumpSat o n).uid = p.uid := rfl

@[simp] theorem Part.setCore_mem (c : Nat) (k : Core) : (p.setCore c k).mem = p.mem := rfl
@[simp] theorem Part.setCore_tagErr (c : Nat) (k : Core) : (p.setCore c k).tagErr = p.tagErr := rfl
@[simp] theorem Part.setCore_poison (c : Nat) (k : Core) : (p.setCore c k).poison = p.poison := rfl
@[simp] theorem Part.setCore_regs (c : Nat) (k : Core) : (p.setCore c k).regs = p.regs := rfl
@[simp] theorem Part.setCore_clusters (c : Nat) (k : Core) : (p.setCore c k).clusters = p.clusters := rfl
@[simp] theorem Part.setCore_reqs (c : Nat) (k : Core) : (p.setCore c k).reqs = p.reqs := rfl
@[simp] theorem Part.setCore_xfers (c : Nat) (k : Core) : (p.setCore c k).xfers = p.xfers := rfl
@[simp] theorem Part.setCore_partials (c : Nat) (k : Core) : (p.setCore c k).partials = p.partials := rfl
@[simp] theorem Part.setCore_views (c : Nat) (k : Core) : (p.setCore c k).views = p.views := rfl
@[simp] theorem Part.setCore_flight (c : Nat) (k : Core) : (p.setCore c k).flight = p.flight := rfl
@[simp] theorem Part.setCore_net (c : Nat) (k : Core) : (p.setCore c k).net = p.net := rfl
@[simp] theorem Part.setCore_retrainFails (c : Nat) (k : Core) : (p.setCore c k).retrainFails = p.retrainFails := rfl
@[simp] theorem Part.setCore_stg (c : Nat) (k : Core) : (p.setCore c k).stg = p.stg := rfl
@[simp] theorem Part.setCore_tim (c : Nat) (k : Core) : (p.setCore c k).tim = p.tim := rfl
@[simp] theorem Part.setCore_pce (c : Nat) (k : Core) : (p.setCore c k).pce = p.pce := rfl
@[simp] theorem Part.setCore_fab (c : Nat) (k : Core) : (p.setCore c k).fab = p.fab := rfl
@[simp] theorem Part.setCore_cfg (c : Nat) (k : Core) : (p.setCore c k).cfg = p.cfg := rfl
@[simp] theorem Part.setCore_chain (c : Nat) (k : Core) : (p.setCore c k).chain = p.chain := rfl
@[simp] theorem Part.setCore_hst (c : Nat) (k : Core) : (p.setCore c k).hst = p.hst := rfl
@[simp] theorem Part.setCore_sec (c : Nat) (k : Core) : (p.setCore c k).sec = p.sec := rfl
@[simp] theorem Part.setCore_err (c : Nat) (k : Core) : (p.setCore c k).err = p.err := rfl
@[simp] theorem Part.setCore_pwr (c : Nat) (k : Core) : (p.setCore c k).pwr = p.pwr := rfl
@[simp] theorem Part.setCore_i3c (c : Nat) (k : Core) : (p.setCore c k).i3c = p.i3c := rfl
@[simp] theorem Part.setCore_jtag (c : Nat) (k : Core) : (p.setCore c k).jtag = p.jtag := rfl
@[simp] theorem Part.setCore_phase (c : Nat) (k : Core) : (p.setCore c k).phase = p.phase := rfl
@[simp] theorem Part.setCore_out (c : Nat) (k : Core) : (p.setCore c k).out = p.out := rfl
@[simp] theorem Part.setCore_uid (c : Nat) (k : Core) : (p.setCore c k).uid = p.uid := rfl

@[simp] theorem Part.onCore_mem (c : Nat) (f : Core → Core) : (p.onCore c f).mem = p.mem := rfl
@[simp] theorem Part.onCore_tagErr (c : Nat) (f : Core → Core) : (p.onCore c f).tagErr = p.tagErr := rfl
@[simp] theorem Part.onCore_poison (c : Nat) (f : Core → Core) : (p.onCore c f).poison = p.poison := rfl
@[simp] theorem Part.onCore_regs (c : Nat) (f : Core → Core) : (p.onCore c f).regs = p.regs := rfl
@[simp] theorem Part.onCore_clusters (c : Nat) (f : Core → Core) : (p.onCore c f).clusters = p.clusters := rfl
@[simp] theorem Part.onCore_reqs (c : Nat) (f : Core → Core) : (p.onCore c f).reqs = p.reqs := rfl
@[simp] theorem Part.onCore_xfers (c : Nat) (f : Core → Core) : (p.onCore c f).xfers = p.xfers := rfl
@[simp] theorem Part.onCore_partials (c : Nat) (f : Core → Core) : (p.onCore c f).partials = p.partials := rfl
@[simp] theorem Part.onCore_views (c : Nat) (f : Core → Core) : (p.onCore c f).views = p.views := rfl
@[simp] theorem Part.onCore_flight (c : Nat) (f : Core → Core) : (p.onCore c f).flight = p.flight := rfl
@[simp] theorem Part.onCore_net (c : Nat) (f : Core → Core) : (p.onCore c f).net = p.net := rfl
@[simp] theorem Part.onCore_retrainFails (c : Nat) (f : Core → Core) : (p.onCore c f).retrainFails = p.retrainFails := rfl
@[simp] theorem Part.onCore_stg (c : Nat) (f : Core → Core) : (p.onCore c f).stg = p.stg := rfl
@[simp] theorem Part.onCore_tim (c : Nat) (f : Core → Core) : (p.onCore c f).tim = p.tim := rfl
@[simp] theorem Part.onCore_pce (c : Nat) (f : Core → Core) : (p.onCore c f).pce = p.pce := rfl
@[simp] theorem Part.onCore_fab (c : Nat) (f : Core → Core) : (p.onCore c f).fab = p.fab := rfl
@[simp] theorem Part.onCore_cfg (c : Nat) (f : Core → Core) : (p.onCore c f).cfg = p.cfg := rfl
@[simp] theorem Part.onCore_chain (c : Nat) (f : Core → Core) : (p.onCore c f).chain = p.chain := rfl
@[simp] theorem Part.onCore_hst (c : Nat) (f : Core → Core) : (p.onCore c f).hst = p.hst := rfl
@[simp] theorem Part.onCore_sec (c : Nat) (f : Core → Core) : (p.onCore c f).sec = p.sec := rfl
@[simp] theorem Part.onCore_err (c : Nat) (f : Core → Core) : (p.onCore c f).err = p.err := rfl
@[simp] theorem Part.onCore_pwr (c : Nat) (f : Core → Core) : (p.onCore c f).pwr = p.pwr := rfl
@[simp] theorem Part.onCore_i3c (c : Nat) (f : Core → Core) : (p.onCore c f).i3c = p.i3c := rfl
@[simp] theorem Part.onCore_jtag (c : Nat) (f : Core → Core) : (p.onCore c f).jtag = p.jtag := rfl
@[simp] theorem Part.onCore_phase (c : Nat) (f : Core → Core) : (p.onCore c f).phase = p.phase := rfl
@[simp] theorem Part.onCore_out (c : Nat) (f : Core → Core) : (p.onCore c f).out = p.out := rfl
@[simp] theorem Part.onCore_uid (c : Nat) (f : Core → Core) : (p.onCore c f).uid = p.uid := rfl

@[simp] theorem Part.onTh_mem (c t : Nat) (f : Thread → Thread) : (p.onTh c t f).mem = p.mem := rfl
@[simp] theorem Part.onTh_tagErr (c t : Nat) (f : Thread → Thread) : (p.onTh c t f).tagErr = p.tagErr := rfl
@[simp] theorem Part.onTh_poison (c t : Nat) (f : Thread → Thread) : (p.onTh c t f).poison = p.poison := rfl
@[simp] theorem Part.onTh_regs (c t : Nat) (f : Thread → Thread) : (p.onTh c t f).regs = p.regs := rfl
@[simp] theorem Part.onTh_clusters (c t : Nat) (f : Thread → Thread) : (p.onTh c t f).clusters = p.clusters := rfl
@[simp] theorem Part.onTh_reqs (c t : Nat) (f : Thread → Thread) : (p.onTh c t f).reqs = p.reqs := rfl
@[simp] theorem Part.onTh_xfers (c t : Nat) (f : Thread → Thread) : (p.onTh c t f).xfers = p.xfers := rfl
@[simp] theorem Part.onTh_partials (c t : Nat) (f : Thread → Thread) : (p.onTh c t f).partials = p.partials := rfl
@[simp] theorem Part.onTh_views (c t : Nat) (f : Thread → Thread) : (p.onTh c t f).views = p.views := rfl
@[simp] theorem Part.onTh_flight (c t : Nat) (f : Thread → Thread) : (p.onTh c t f).flight = p.flight := rfl
@[simp] theorem Part.onTh_net (c t : Nat) (f : Thread → Thread) : (p.onTh c t f).net = p.net := rfl
@[simp] theorem Part.onTh_retrainFails (c t : Nat) (f : Thread → Thread) : (p.onTh c t f).retrainFails = p.retrainFails := rfl
@[simp] theorem Part.onTh_stg (c t : Nat) (f : Thread → Thread) : (p.onTh c t f).stg = p.stg := rfl
@[simp] theorem Part.onTh_tim (c t : Nat) (f : Thread → Thread) : (p.onTh c t f).tim = p.tim := rfl
@[simp] theorem Part.onTh_pce (c t : Nat) (f : Thread → Thread) : (p.onTh c t f).pce = p.pce := rfl
@[simp] theorem Part.onTh_fab (c t : Nat) (f : Thread → Thread) : (p.onTh c t f).fab = p.fab := rfl
@[simp] theorem Part.onTh_cfg (c t : Nat) (f : Thread → Thread) : (p.onTh c t f).cfg = p.cfg := rfl
@[simp] theorem Part.onTh_chain (c t : Nat) (f : Thread → Thread) : (p.onTh c t f).chain = p.chain := rfl
@[simp] theorem Part.onTh_hst (c t : Nat) (f : Thread → Thread) : (p.onTh c t f).hst = p.hst := rfl
@[simp] theorem Part.onTh_sec (c t : Nat) (f : Thread → Thread) : (p.onTh c t f).sec = p.sec := rfl
@[simp] theorem Part.onTh_err (c t : Nat) (f : Thread → Thread) : (p.onTh c t f).err = p.err := rfl
@[simp] theorem Part.onTh_pwr (c t : Nat) (f : Thread → Thread) : (p.onTh c t f).pwr = p.pwr := rfl
@[simp] theorem Part.onTh_i3c (c t : Nat) (f : Thread → Thread) : (p.onTh c t f).i3c = p.i3c := rfl
@[simp] theorem Part.onTh_jtag (c t : Nat) (f : Thread → Thread) : (p.onTh c t f).jtag = p.jtag := rfl
@[simp] theorem Part.onTh_phase (c t : Nat) (f : Thread → Thread) : (p.onTh c t f).phase = p.phase := rfl
@[simp] theorem Part.onTh_out (c t : Nat) (f : Thread → Thread) : (p.onTh c t f).out = p.out := rfl
@[simp] theorem Part.onTh_uid (c t : Nat) (f : Thread → Thread) : (p.onTh c t f).uid = p.uid := rfl

@[simp] theorem Part.setCluster_mem (cl : Nat) (k : Cluster) : (p.setCluster cl k).mem = p.mem := rfl
@[simp] theorem Part.setCluster_tagErr (cl : Nat) (k : Cluster) : (p.setCluster cl k).tagErr = p.tagErr := rfl
@[simp] theorem Part.setCluster_poison (cl : Nat) (k : Cluster) : (p.setCluster cl k).poison = p.poison := rfl
@[simp] theorem Part.setCluster_regs (cl : Nat) (k : Cluster) : (p.setCluster cl k).regs = p.regs := rfl
@[simp] theorem Part.setCluster_cores (cl : Nat) (k : Cluster) : (p.setCluster cl k).cores = p.cores := rfl
@[simp] theorem Part.setCluster_reqs (cl : Nat) (k : Cluster) : (p.setCluster cl k).reqs = p.reqs := rfl
@[simp] theorem Part.setCluster_xfers (cl : Nat) (k : Cluster) : (p.setCluster cl k).xfers = p.xfers := rfl
@[simp] theorem Part.setCluster_partials (cl : Nat) (k : Cluster) : (p.setCluster cl k).partials = p.partials := rfl
@[simp] theorem Part.setCluster_views (cl : Nat) (k : Cluster) : (p.setCluster cl k).views = p.views := rfl
@[simp] theorem Part.setCluster_flight (cl : Nat) (k : Cluster) : (p.setCluster cl k).flight = p.flight := rfl
@[simp] theorem Part.setCluster_net (cl : Nat) (k : Cluster) : (p.setCluster cl k).net = p.net := rfl
@[simp] theorem Part.setCluster_retrainFails (cl : Nat) (k : Cluster) : (p.setCluster cl k).retrainFails = p.retrainFails := rfl
@[simp] theorem Part.setCluster_stg (cl : Nat) (k : Cluster) : (p.setCluster cl k).stg = p.stg := rfl
@[simp] theorem Part.setCluster_tim (cl : Nat) (k : Cluster) : (p.setCluster cl k).tim = p.tim := rfl
@[simp] theorem Part.setCluster_pce (cl : Nat) (k : Cluster) : (p.setCluster cl k).pce = p.pce := rfl
@[simp] theorem Part.setCluster_fab (cl : Nat) (k : Cluster) : (p.setCluster cl k).fab = p.fab := rfl
@[simp] theorem Part.setCluster_cfg (cl : Nat) (k : Cluster) : (p.setCluster cl k).cfg = p.cfg := rfl
@[simp] theorem Part.setCluster_chain (cl : Nat) (k : Cluster) : (p.setCluster cl k).chain = p.chain := rfl
@[simp] theorem Part.setCluster_hst (cl : Nat) (k : Cluster) : (p.setCluster cl k).hst = p.hst := rfl
@[simp] theorem Part.setCluster_sec (cl : Nat) (k : Cluster) : (p.setCluster cl k).sec = p.sec := rfl
@[simp] theorem Part.setCluster_err (cl : Nat) (k : Cluster) : (p.setCluster cl k).err = p.err := rfl
@[simp] theorem Part.setCluster_pwr (cl : Nat) (k : Cluster) : (p.setCluster cl k).pwr = p.pwr := rfl
@[simp] theorem Part.setCluster_i3c (cl : Nat) (k : Cluster) : (p.setCluster cl k).i3c = p.i3c := rfl
@[simp] theorem Part.setCluster_jtag (cl : Nat) (k : Cluster) : (p.setCluster cl k).jtag = p.jtag := rfl
@[simp] theorem Part.setCluster_phase (cl : Nat) (k : Cluster) : (p.setCluster cl k).phase = p.phase := rfl
@[simp] theorem Part.setCluster_out (cl : Nat) (k : Cluster) : (p.setCluster cl k).out = p.out := rfl
@[simp] theorem Part.setCluster_uid (cl : Nat) (k : Cluster) : (p.setCluster cl k).uid = p.uid := rfl

@[simp] theorem Part.onCluster_mem (cl : Nat) (f : Cluster → Cluster) : (p.onCluster cl f).mem = p.mem := rfl
@[simp] theorem Part.onCluster_tagErr (cl : Nat) (f : Cluster → Cluster) : (p.onCluster cl f).tagErr = p.tagErr := rfl
@[simp] theorem Part.onCluster_poison (cl : Nat) (f : Cluster → Cluster) : (p.onCluster cl f).poison = p.poison := rfl
@[simp] theorem Part.onCluster_regs (cl : Nat) (f : Cluster → Cluster) : (p.onCluster cl f).regs = p.regs := rfl
@[simp] theorem Part.onCluster_cores (cl : Nat) (f : Cluster → Cluster) : (p.onCluster cl f).cores = p.cores := rfl
@[simp] theorem Part.onCluster_reqs (cl : Nat) (f : Cluster → Cluster) : (p.onCluster cl f).reqs = p.reqs := rfl
@[simp] theorem Part.onCluster_xfers (cl : Nat) (f : Cluster → Cluster) : (p.onCluster cl f).xfers = p.xfers := rfl
@[simp] theorem Part.onCluster_partials (cl : Nat) (f : Cluster → Cluster) : (p.onCluster cl f).partials = p.partials := rfl
@[simp] theorem Part.onCluster_views (cl : Nat) (f : Cluster → Cluster) : (p.onCluster cl f).views = p.views := rfl
@[simp] theorem Part.onCluster_flight (cl : Nat) (f : Cluster → Cluster) : (p.onCluster cl f).flight = p.flight := rfl
@[simp] theorem Part.onCluster_net (cl : Nat) (f : Cluster → Cluster) : (p.onCluster cl f).net = p.net := rfl
@[simp] theorem Part.onCluster_retrainFails (cl : Nat) (f : Cluster → Cluster) : (p.onCluster cl f).retrainFails = p.retrainFails := rfl
@[simp] theorem Part.onCluster_stg (cl : Nat) (f : Cluster → Cluster) : (p.onCluster cl f).stg = p.stg := rfl
@[simp] theorem Part.onCluster_tim (cl : Nat) (f : Cluster → Cluster) : (p.onCluster cl f).tim = p.tim := rfl
@[simp] theorem Part.onCluster_pce (cl : Nat) (f : Cluster → Cluster) : (p.onCluster cl f).pce = p.pce := rfl
@[simp] theorem Part.onCluster_fab (cl : Nat) (f : Cluster → Cluster) : (p.onCluster cl f).fab = p.fab := rfl
@[simp] theorem Part.onCluster_cfg (cl : Nat) (f : Cluster → Cluster) : (p.onCluster cl f).cfg = p.cfg := rfl
@[simp] theorem Part.onCluster_chain (cl : Nat) (f : Cluster → Cluster) : (p.onCluster cl f).chain = p.chain := rfl
@[simp] theorem Part.onCluster_hst (cl : Nat) (f : Cluster → Cluster) : (p.onCluster cl f).hst = p.hst := rfl
@[simp] theorem Part.onCluster_sec (cl : Nat) (f : Cluster → Cluster) : (p.onCluster cl f).sec = p.sec := rfl
@[simp] theorem Part.onCluster_err (cl : Nat) (f : Cluster → Cluster) : (p.onCluster cl f).err = p.err := rfl
@[simp] theorem Part.onCluster_pwr (cl : Nat) (f : Cluster → Cluster) : (p.onCluster cl f).pwr = p.pwr := rfl
@[simp] theorem Part.onCluster_i3c (cl : Nat) (f : Cluster → Cluster) : (p.onCluster cl f).i3c = p.i3c := rfl
@[simp] theorem Part.onCluster_jtag (cl : Nat) (f : Cluster → Cluster) : (p.onCluster cl f).jtag = p.jtag := rfl
@[simp] theorem Part.onCluster_phase (cl : Nat) (f : Cluster → Cluster) : (p.onCluster cl f).phase = p.phase := rfl
@[simp] theorem Part.onCluster_out (cl : Nat) (f : Cluster → Cluster) : (p.onCluster cl f).out = p.out := rfl
@[simp] theorem Part.onCluster_uid (cl : Nat) (f : Cluster → Cluster) : (p.onCluster cl f).uid = p.uid := rfl

@[simp] theorem Part.onReplica_mem (a : Nat) (f : Replica → Replica) : (p.onReplica a f).mem = p.mem := rfl
@[simp] theorem Part.onReplica_tagErr (a : Nat) (f : Replica → Replica) : (p.onReplica a f).tagErr = p.tagErr := rfl
@[simp] theorem Part.onReplica_poison (a : Nat) (f : Replica → Replica) : (p.onReplica a f).poison = p.poison := rfl
@[simp] theorem Part.onReplica_regs (a : Nat) (f : Replica → Replica) : (p.onReplica a f).regs = p.regs := rfl
@[simp] theorem Part.onReplica_cores (a : Nat) (f : Replica → Replica) : (p.onReplica a f).cores = p.cores := rfl
@[simp] theorem Part.onReplica_clusters (a : Nat) (f : Replica → Replica) : (p.onReplica a f).clusters = p.clusters := rfl
@[simp] theorem Part.onReplica_reqs (a : Nat) (f : Replica → Replica) : (p.onReplica a f).reqs = p.reqs := rfl
@[simp] theorem Part.onReplica_xfers (a : Nat) (f : Replica → Replica) : (p.onReplica a f).xfers = p.xfers := rfl
@[simp] theorem Part.onReplica_partials (a : Nat) (f : Replica → Replica) : (p.onReplica a f).partials = p.partials := rfl
@[simp] theorem Part.onReplica_views (a : Nat) (f : Replica → Replica) : (p.onReplica a f).views = p.views := rfl
@[simp] theorem Part.onReplica_flight (a : Nat) (f : Replica → Replica) : (p.onReplica a f).flight = p.flight := rfl
@[simp] theorem Part.onReplica_net (a : Nat) (f : Replica → Replica) : (p.onReplica a f).net = p.net := rfl
@[simp] theorem Part.onReplica_retrainFails (a : Nat) (f : Replica → Replica) : (p.onReplica a f).retrainFails = p.retrainFails := rfl
@[simp] theorem Part.onReplica_tim (a : Nat) (f : Replica → Replica) : (p.onReplica a f).tim = p.tim := rfl
@[simp] theorem Part.onReplica_pce (a : Nat) (f : Replica → Replica) : (p.onReplica a f).pce = p.pce := rfl
@[simp] theorem Part.onReplica_fab (a : Nat) (f : Replica → Replica) : (p.onReplica a f).fab = p.fab := rfl
@[simp] theorem Part.onReplica_cfg (a : Nat) (f : Replica → Replica) : (p.onReplica a f).cfg = p.cfg := rfl
@[simp] theorem Part.onReplica_chain (a : Nat) (f : Replica → Replica) : (p.onReplica a f).chain = p.chain := rfl
@[simp] theorem Part.onReplica_hst (a : Nat) (f : Replica → Replica) : (p.onReplica a f).hst = p.hst := rfl
@[simp] theorem Part.onReplica_sec (a : Nat) (f : Replica → Replica) : (p.onReplica a f).sec = p.sec := rfl
@[simp] theorem Part.onReplica_err (a : Nat) (f : Replica → Replica) : (p.onReplica a f).err = p.err := rfl
@[simp] theorem Part.onReplica_pwr (a : Nat) (f : Replica → Replica) : (p.onReplica a f).pwr = p.pwr := rfl
@[simp] theorem Part.onReplica_i3c (a : Nat) (f : Replica → Replica) : (p.onReplica a f).i3c = p.i3c := rfl
@[simp] theorem Part.onReplica_jtag (a : Nat) (f : Replica → Replica) : (p.onReplica a f).jtag = p.jtag := rfl
@[simp] theorem Part.onReplica_phase (a : Nat) (f : Replica → Replica) : (p.onReplica a f).phase = p.phase := rfl
@[simp] theorem Part.onReplica_out (a : Nat) (f : Replica → Replica) : (p.onReplica a f).out = p.out := rfl
@[simp] theorem Part.onReplica_uid (a : Nat) (f : Replica → Replica) : (p.onReplica a f).uid = p.uid := rfl

@[simp] theorem Part.onTask_mem (k : TaskKey) (f : Task → Task) : (p.onTask k f).mem = p.mem := rfl
@[simp] theorem Part.onTask_tagErr (k : TaskKey) (f : Task → Task) : (p.onTask k f).tagErr = p.tagErr := rfl
@[simp] theorem Part.onTask_poison (k : TaskKey) (f : Task → Task) : (p.onTask k f).poison = p.poison := rfl
@[simp] theorem Part.onTask_regs (k : TaskKey) (f : Task → Task) : (p.onTask k f).regs = p.regs := rfl
@[simp] theorem Part.onTask_cores (k : TaskKey) (f : Task → Task) : (p.onTask k f).cores = p.cores := rfl
@[simp] theorem Part.onTask_clusters (k : TaskKey) (f : Task → Task) : (p.onTask k f).clusters = p.clusters := rfl
@[simp] theorem Part.onTask_reqs (k : TaskKey) (f : Task → Task) : (p.onTask k f).reqs = p.reqs := rfl
@[simp] theorem Part.onTask_xfers (k : TaskKey) (f : Task → Task) : (p.onTask k f).xfers = p.xfers := rfl
@[simp] theorem Part.onTask_partials (k : TaskKey) (f : Task → Task) : (p.onTask k f).partials = p.partials := rfl
@[simp] theorem Part.onTask_views (k : TaskKey) (f : Task → Task) : (p.onTask k f).views = p.views := rfl
@[simp] theorem Part.onTask_flight (k : TaskKey) (f : Task → Task) : (p.onTask k f).flight = p.flight := rfl
@[simp] theorem Part.onTask_net (k : TaskKey) (f : Task → Task) : (p.onTask k f).net = p.net := rfl
@[simp] theorem Part.onTask_retrainFails (k : TaskKey) (f : Task → Task) : (p.onTask k f).retrainFails = p.retrainFails := rfl
@[simp] theorem Part.onTask_tim (k : TaskKey) (f : Task → Task) : (p.onTask k f).tim = p.tim := rfl
@[simp] theorem Part.onTask_pce (k : TaskKey) (f : Task → Task) : (p.onTask k f).pce = p.pce := rfl
@[simp] theorem Part.onTask_fab (k : TaskKey) (f : Task → Task) : (p.onTask k f).fab = p.fab := rfl
@[simp] theorem Part.onTask_cfg (k : TaskKey) (f : Task → Task) : (p.onTask k f).cfg = p.cfg := rfl
@[simp] theorem Part.onTask_chain (k : TaskKey) (f : Task → Task) : (p.onTask k f).chain = p.chain := rfl
@[simp] theorem Part.onTask_hst (k : TaskKey) (f : Task → Task) : (p.onTask k f).hst = p.hst := rfl
@[simp] theorem Part.onTask_sec (k : TaskKey) (f : Task → Task) : (p.onTask k f).sec = p.sec := rfl
@[simp] theorem Part.onTask_err (k : TaskKey) (f : Task → Task) : (p.onTask k f).err = p.err := rfl
@[simp] theorem Part.onTask_pwr (k : TaskKey) (f : Task → Task) : (p.onTask k f).pwr = p.pwr := rfl
@[simp] theorem Part.onTask_i3c (k : TaskKey) (f : Task → Task) : (p.onTask k f).i3c = p.i3c := rfl
@[simp] theorem Part.onTask_jtag (k : TaskKey) (f : Task → Task) : (p.onTask k f).jtag = p.jtag := rfl
@[simp] theorem Part.onTask_phase (k : TaskKey) (f : Task → Task) : (p.onTask k f).phase = p.phase := rfl
@[simp] theorem Part.onTask_out (k : TaskKey) (f : Task → Task) : (p.onTask k f).out = p.out := rfl
@[simp] theorem Part.onTask_uid (k : TaskKey) (f : Task → Task) : (p.onTask k f).uid = p.uid := rfl

@[simp] theorem Part.dropTask_mem (k : TaskKey) : (p.dropTask k).mem = p.mem := rfl
@[simp] theorem Part.dropTask_tagErr (k : TaskKey) : (p.dropTask k).tagErr = p.tagErr := rfl
@[simp] theorem Part.dropTask_poison (k : TaskKey) : (p.dropTask k).poison = p.poison := rfl
@[simp] theorem Part.dropTask_regs (k : TaskKey) : (p.dropTask k).regs = p.regs := rfl
@[simp] theorem Part.dropTask_cores (k : TaskKey) : (p.dropTask k).cores = p.cores := rfl
@[simp] theorem Part.dropTask_clusters (k : TaskKey) : (p.dropTask k).clusters = p.clusters := rfl
@[simp] theorem Part.dropTask_reqs (k : TaskKey) : (p.dropTask k).reqs = p.reqs := rfl
@[simp] theorem Part.dropTask_xfers (k : TaskKey) : (p.dropTask k).xfers = p.xfers := rfl
@[simp] theorem Part.dropTask_partials (k : TaskKey) : (p.dropTask k).partials = p.partials := rfl
@[simp] theorem Part.dropTask_views (k : TaskKey) : (p.dropTask k).views = p.views := rfl
@[simp] theorem Part.dropTask_flight (k : TaskKey) : (p.dropTask k).flight = p.flight := rfl
@[simp] theorem Part.dropTask_net (k : TaskKey) : (p.dropTask k).net = p.net := rfl
@[simp] theorem Part.dropTask_retrainFails (k : TaskKey) : (p.dropTask k).retrainFails = p.retrainFails := rfl
@[simp] theorem Part.dropTask_tim (k : TaskKey) : (p.dropTask k).tim = p.tim := rfl
@[simp] theorem Part.dropTask_pce (k : TaskKey) : (p.dropTask k).pce = p.pce := rfl
@[simp] theorem Part.dropTask_fab (k : TaskKey) : (p.dropTask k).fab = p.fab := rfl
@[simp] theorem Part.dropTask_cfg (k : TaskKey) : (p.dropTask k).cfg = p.cfg := rfl
@[simp] theorem Part.dropTask_chain (k : TaskKey) : (p.dropTask k).chain = p.chain := rfl
@[simp] theorem Part.dropTask_hst (k : TaskKey) : (p.dropTask k).hst = p.hst := rfl
@[simp] theorem Part.dropTask_sec (k : TaskKey) : (p.dropTask k).sec = p.sec := rfl
@[simp] theorem Part.dropTask_err (k : TaskKey) : (p.dropTask k).err = p.err := rfl
@[simp] theorem Part.dropTask_pwr (k : TaskKey) : (p.dropTask k).pwr = p.pwr := rfl
@[simp] theorem Part.dropTask_i3c (k : TaskKey) : (p.dropTask k).i3c = p.i3c := rfl
@[simp] theorem Part.dropTask_jtag (k : TaskKey) : (p.dropTask k).jtag = p.jtag := rfl
@[simp] theorem Part.dropTask_phase (k : TaskKey) : (p.dropTask k).phase = p.phase := rfl
@[simp] theorem Part.dropTask_out (k : TaskKey) : (p.dropTask k).out = p.out := rfl
@[simp] theorem Part.dropTask_uid (k : TaskKey) : (p.dropTask k).uid = p.uid := rfl

@[simp] theorem Part.onRing_mem (i : Nat) (f : Ring → Ring) : (p.onRing i f).mem = p.mem := rfl
@[simp] theorem Part.onRing_tagErr (i : Nat) (f : Ring → Ring) : (p.onRing i f).tagErr = p.tagErr := rfl
@[simp] theorem Part.onRing_poison (i : Nat) (f : Ring → Ring) : (p.onRing i f).poison = p.poison := rfl
@[simp] theorem Part.onRing_regs (i : Nat) (f : Ring → Ring) : (p.onRing i f).regs = p.regs := rfl
@[simp] theorem Part.onRing_cores (i : Nat) (f : Ring → Ring) : (p.onRing i f).cores = p.cores := rfl
@[simp] theorem Part.onRing_clusters (i : Nat) (f : Ring → Ring) : (p.onRing i f).clusters = p.clusters := rfl
@[simp] theorem Part.onRing_reqs (i : Nat) (f : Ring → Ring) : (p.onRing i f).reqs = p.reqs := rfl
@[simp] theorem Part.onRing_xfers (i : Nat) (f : Ring → Ring) : (p.onRing i f).xfers = p.xfers := rfl
@[simp] theorem Part.onRing_partials (i : Nat) (f : Ring → Ring) : (p.onRing i f).partials = p.partials := rfl
@[simp] theorem Part.onRing_views (i : Nat) (f : Ring → Ring) : (p.onRing i f).views = p.views := rfl
@[simp] theorem Part.onRing_flight (i : Nat) (f : Ring → Ring) : (p.onRing i f).flight = p.flight := rfl
@[simp] theorem Part.onRing_net (i : Nat) (f : Ring → Ring) : (p.onRing i f).net = p.net := rfl
@[simp] theorem Part.onRing_retrainFails (i : Nat) (f : Ring → Ring) : (p.onRing i f).retrainFails = p.retrainFails := rfl
@[simp] theorem Part.onRing_stg (i : Nat) (f : Ring → Ring) : (p.onRing i f).stg = p.stg := rfl
@[simp] theorem Part.onRing_tim (i : Nat) (f : Ring → Ring) : (p.onRing i f).tim = p.tim := rfl
@[simp] theorem Part.onRing_pce (i : Nat) (f : Ring → Ring) : (p.onRing i f).pce = p.pce := rfl
@[simp] theorem Part.onRing_fab (i : Nat) (f : Ring → Ring) : (p.onRing i f).fab = p.fab := rfl
@[simp] theorem Part.onRing_cfg (i : Nat) (f : Ring → Ring) : (p.onRing i f).cfg = p.cfg := rfl
@[simp] theorem Part.onRing_chain (i : Nat) (f : Ring → Ring) : (p.onRing i f).chain = p.chain := rfl
@[simp] theorem Part.onRing_sec (i : Nat) (f : Ring → Ring) : (p.onRing i f).sec = p.sec := rfl
@[simp] theorem Part.onRing_err (i : Nat) (f : Ring → Ring) : (p.onRing i f).err = p.err := rfl
@[simp] theorem Part.onRing_pwr (i : Nat) (f : Ring → Ring) : (p.onRing i f).pwr = p.pwr := rfl
@[simp] theorem Part.onRing_i3c (i : Nat) (f : Ring → Ring) : (p.onRing i f).i3c = p.i3c := rfl
@[simp] theorem Part.onRing_jtag (i : Nat) (f : Ring → Ring) : (p.onRing i f).jtag = p.jtag := rfl
@[simp] theorem Part.onRing_phase (i : Nat) (f : Ring → Ring) : (p.onRing i f).phase = p.phase := rfl
@[simp] theorem Part.onRing_out (i : Nat) (f : Ring → Ring) : (p.onRing i f).out = p.out := rfl
@[simp] theorem Part.onRing_uid (i : Nat) (f : Ring → Ring) : (p.onRing i f).uid = p.uid := rfl

@[simp] theorem Part.setMsixDword_mem (port i : Nat) (v : W32) : (p.setMsixDword port i v).mem = p.mem := rfl
@[simp] theorem Part.setMsixDword_tagErr (port i : Nat) (v : W32) : (p.setMsixDword port i v).tagErr = p.tagErr := rfl
@[simp] theorem Part.setMsixDword_poison (port i : Nat) (v : W32) : (p.setMsixDword port i v).poison = p.poison := rfl
@[simp] theorem Part.setMsixDword_regs (port i : Nat) (v : W32) : (p.setMsixDword port i v).regs = p.regs := rfl
@[simp] theorem Part.setMsixDword_cores (port i : Nat) (v : W32) : (p.setMsixDword port i v).cores = p.cores := rfl
@[simp] theorem Part.setMsixDword_clusters (port i : Nat) (v : W32) : (p.setMsixDword port i v).clusters = p.clusters := rfl
@[simp] theorem Part.setMsixDword_reqs (port i : Nat) (v : W32) : (p.setMsixDword port i v).reqs = p.reqs := rfl
@[simp] theorem Part.setMsixDword_xfers (port i : Nat) (v : W32) : (p.setMsixDword port i v).xfers = p.xfers := rfl
@[simp] theorem Part.setMsixDword_partials (port i : Nat) (v : W32) : (p.setMsixDword port i v).partials = p.partials := rfl
@[simp] theorem Part.setMsixDword_views (port i : Nat) (v : W32) : (p.setMsixDword port i v).views = p.views := rfl
@[simp] theorem Part.setMsixDword_flight (port i : Nat) (v : W32) : (p.setMsixDword port i v).flight = p.flight := rfl
@[simp] theorem Part.setMsixDword_net (port i : Nat) (v : W32) : (p.setMsixDword port i v).net = p.net := rfl
@[simp] theorem Part.setMsixDword_retrainFails (port i : Nat) (v : W32) : (p.setMsixDword port i v).retrainFails = p.retrainFails := rfl
@[simp] theorem Part.setMsixDword_stg (port i : Nat) (v : W32) : (p.setMsixDword port i v).stg = p.stg := rfl
@[simp] theorem Part.setMsixDword_tim (port i : Nat) (v : W32) : (p.setMsixDword port i v).tim = p.tim := rfl
@[simp] theorem Part.setMsixDword_pce (port i : Nat) (v : W32) : (p.setMsixDword port i v).pce = p.pce := rfl
@[simp] theorem Part.setMsixDword_fab (port i : Nat) (v : W32) : (p.setMsixDword port i v).fab = p.fab := rfl
@[simp] theorem Part.setMsixDword_cfg (port i : Nat) (v : W32) : (p.setMsixDword port i v).cfg = p.cfg := rfl
@[simp] theorem Part.setMsixDword_chain (port i : Nat) (v : W32) : (p.setMsixDword port i v).chain = p.chain := rfl
@[simp] theorem Part.setMsixDword_sec (port i : Nat) (v : W32) : (p.setMsixDword port i v).sec = p.sec := rfl
@[simp] theorem Part.setMsixDword_err (port i : Nat) (v : W32) : (p.setMsixDword port i v).err = p.err := rfl
@[simp] theorem Part.setMsixDword_pwr (port i : Nat) (v : W32) : (p.setMsixDword port i v).pwr = p.pwr := rfl
@[simp] theorem Part.setMsixDword_i3c (port i : Nat) (v : W32) : (p.setMsixDword port i v).i3c = p.i3c := rfl
@[simp] theorem Part.setMsixDword_jtag (port i : Nat) (v : W32) : (p.setMsixDword port i v).jtag = p.jtag := rfl
@[simp] theorem Part.setMsixDword_phase (port i : Nat) (v : W32) : (p.setMsixDword port i v).phase = p.phase := rfl
@[simp] theorem Part.setMsixDword_out (port i : Nat) (v : W32) : (p.setMsixDword port i v).out = p.out := rfl
@[simp] theorem Part.setMsixDword_uid (port i : Nat) (v : W32) : (p.setMsixDword port i v).uid = p.uid := rfl

@[simp] theorem Part.emit_mem (o : Output) : (p.emit o).mem = p.mem := rfl
@[simp] theorem Part.emit_tagErr (o : Output) : (p.emit o).tagErr = p.tagErr := rfl
@[simp] theorem Part.emit_poison (o : Output) : (p.emit o).poison = p.poison := rfl
@[simp] theorem Part.emit_regs (o : Output) : (p.emit o).regs = p.regs := rfl
@[simp] theorem Part.emit_cores (o : Output) : (p.emit o).cores = p.cores := rfl
@[simp] theorem Part.emit_clusters (o : Output) : (p.emit o).clusters = p.clusters := rfl
@[simp] theorem Part.emit_reqs (o : Output) : (p.emit o).reqs = p.reqs := rfl
@[simp] theorem Part.emit_xfers (o : Output) : (p.emit o).xfers = p.xfers := rfl
@[simp] theorem Part.emit_partials (o : Output) : (p.emit o).partials = p.partials := rfl
@[simp] theorem Part.emit_views (o : Output) : (p.emit o).views = p.views := rfl
@[simp] theorem Part.emit_flight (o : Output) : (p.emit o).flight = p.flight := rfl
@[simp] theorem Part.emit_net (o : Output) : (p.emit o).net = p.net := rfl
@[simp] theorem Part.emit_retrainFails (o : Output) : (p.emit o).retrainFails = p.retrainFails := rfl
@[simp] theorem Part.emit_stg (o : Output) : (p.emit o).stg = p.stg := rfl
@[simp] theorem Part.emit_tim (o : Output) : (p.emit o).tim = p.tim := rfl
@[simp] theorem Part.emit_pce (o : Output) : (p.emit o).pce = p.pce := rfl
@[simp] theorem Part.emit_fab (o : Output) : (p.emit o).fab = p.fab := rfl
@[simp] theorem Part.emit_cfg (o : Output) : (p.emit o).cfg = p.cfg := rfl
@[simp] theorem Part.emit_chain (o : Output) : (p.emit o).chain = p.chain := rfl
@[simp] theorem Part.emit_hst (o : Output) : (p.emit o).hst = p.hst := rfl
@[simp] theorem Part.emit_sec (o : Output) : (p.emit o).sec = p.sec := rfl
@[simp] theorem Part.emit_err (o : Output) : (p.emit o).err = p.err := rfl
@[simp] theorem Part.emit_pwr (o : Output) : (p.emit o).pwr = p.pwr := rfl
@[simp] theorem Part.emit_i3c (o : Output) : (p.emit o).i3c = p.i3c := rfl
@[simp] theorem Part.emit_jtag (o : Output) : (p.emit o).jtag = p.jtag := rfl
@[simp] theorem Part.emit_phase (o : Output) : (p.emit o).phase = p.phase := rfl
@[simp] theorem Part.emit_uid (o : Output) : (p.emit o).uid = p.uid := rfl

@[simp] theorem Part.setBytes_tagErr (a : Nat) (l : List Byte) : (p.setBytes a l).tagErr = p.tagErr := rfl
@[simp] theorem Part.setBytes_poison (a : Nat) (l : List Byte) : (p.setBytes a l).poison = p.poison := rfl
@[simp] theorem Part.setBytes_regs (a : Nat) (l : List Byte) : (p.setBytes a l).regs = p.regs := rfl
@[simp] theorem Part.setBytes_cores (a : Nat) (l : List Byte) : (p.setBytes a l).cores = p.cores := rfl
@[simp] theorem Part.setBytes_clusters (a : Nat) (l : List Byte) : (p.setBytes a l).clusters = p.clusters := rfl
@[simp] theorem Part.setBytes_reqs (a : Nat) (l : List Byte) : (p.setBytes a l).reqs = p.reqs := rfl
@[simp] theorem Part.setBytes_xfers (a : Nat) (l : List Byte) : (p.setBytes a l).xfers = p.xfers := rfl
@[simp] theorem Part.setBytes_partials (a : Nat) (l : List Byte) : (p.setBytes a l).partials = p.partials := rfl
@[simp] theorem Part.setBytes_views (a : Nat) (l : List Byte) : (p.setBytes a l).views = p.views := rfl
@[simp] theorem Part.setBytes_flight (a : Nat) (l : List Byte) : (p.setBytes a l).flight = p.flight := rfl
@[simp] theorem Part.setBytes_net (a : Nat) (l : List Byte) : (p.setBytes a l).net = p.net := rfl
@[simp] theorem Part.setBytes_retrainFails (a : Nat) (l : List Byte) : (p.setBytes a l).retrainFails = p.retrainFails := rfl
@[simp] theorem Part.setBytes_stg (a : Nat) (l : List Byte) : (p.setBytes a l).stg = p.stg := rfl
@[simp] theorem Part.setBytes_tim (a : Nat) (l : List Byte) : (p.setBytes a l).tim = p.tim := rfl
@[simp] theorem Part.setBytes_pce (a : Nat) (l : List Byte) : (p.setBytes a l).pce = p.pce := rfl
@[simp] theorem Part.setBytes_fab (a : Nat) (l : List Byte) : (p.setBytes a l).fab = p.fab := rfl
@[simp] theorem Part.setBytes_cfg (a : Nat) (l : List Byte) : (p.setBytes a l).cfg = p.cfg := rfl
@[simp] theorem Part.setBytes_chain (a : Nat) (l : List Byte) : (p.setBytes a l).chain = p.chain := rfl
@[simp] theorem Part.setBytes_hst (a : Nat) (l : List Byte) : (p.setBytes a l).hst = p.hst := rfl
@[simp] theorem Part.setBytes_sec (a : Nat) (l : List Byte) : (p.setBytes a l).sec = p.sec := rfl
@[simp] theorem Part.setBytes_err (a : Nat) (l : List Byte) : (p.setBytes a l).err = p.err := rfl
@[simp] theorem Part.setBytes_pwr (a : Nat) (l : List Byte) : (p.setBytes a l).pwr = p.pwr := rfl
@[simp] theorem Part.setBytes_i3c (a : Nat) (l : List Byte) : (p.setBytes a l).i3c = p.i3c := rfl
@[simp] theorem Part.setBytes_jtag (a : Nat) (l : List Byte) : (p.setBytes a l).jtag = p.jtag := rfl
@[simp] theorem Part.setBytes_phase (a : Nat) (l : List Byte) : (p.setBytes a l).phase = p.phase := rfl
@[simp] theorem Part.setBytes_out (a : Nat) (l : List Byte) : (p.setBytes a l).out = p.out := rfl
@[simp] theorem Part.setBytes_uid (a : Nat) (l : List Byte) : (p.setBytes a l).uid = p.uid := rfl

@[simp] theorem Part.setTag_mem (a : Nat) (d : W32) : (p.setTag a d).mem = p.mem := rfl
@[simp] theorem Part.setTag_regs (a : Nat) (d : W32) : (p.setTag a d).regs = p.regs := rfl
@[simp] theorem Part.setTag_cores (a : Nat) (d : W32) : (p.setTag a d).cores = p.cores := rfl
@[simp] theorem Part.setTag_clusters (a : Nat) (d : W32) : (p.setTag a d).clusters = p.clusters := rfl
@[simp] theorem Part.setTag_reqs (a : Nat) (d : W32) : (p.setTag a d).reqs = p.reqs := rfl
@[simp] theorem Part.setTag_xfers (a : Nat) (d : W32) : (p.setTag a d).xfers = p.xfers := rfl
@[simp] theorem Part.setTag_partials (a : Nat) (d : W32) : (p.setTag a d).partials = p.partials := rfl
@[simp] theorem Part.setTag_views (a : Nat) (d : W32) : (p.setTag a d).views = p.views := rfl
@[simp] theorem Part.setTag_flight (a : Nat) (d : W32) : (p.setTag a d).flight = p.flight := rfl
@[simp] theorem Part.setTag_net (a : Nat) (d : W32) : (p.setTag a d).net = p.net := rfl
@[simp] theorem Part.setTag_retrainFails (a : Nat) (d : W32) : (p.setTag a d).retrainFails = p.retrainFails := rfl
@[simp] theorem Part.setTag_stg (a : Nat) (d : W32) : (p.setTag a d).stg = p.stg := rfl
@[simp] theorem Part.setTag_tim (a : Nat) (d : W32) : (p.setTag a d).tim = p.tim := rfl
@[simp] theorem Part.setTag_pce (a : Nat) (d : W32) : (p.setTag a d).pce = p.pce := rfl
@[simp] theorem Part.setTag_fab (a : Nat) (d : W32) : (p.setTag a d).fab = p.fab := rfl
@[simp] theorem Part.setTag_cfg (a : Nat) (d : W32) : (p.setTag a d).cfg = p.cfg := rfl
@[simp] theorem Part.setTag_chain (a : Nat) (d : W32) : (p.setTag a d).chain = p.chain := rfl
@[simp] theorem Part.setTag_hst (a : Nat) (d : W32) : (p.setTag a d).hst = p.hst := rfl
@[simp] theorem Part.setTag_sec (a : Nat) (d : W32) : (p.setTag a d).sec = p.sec := rfl
@[simp] theorem Part.setTag_err (a : Nat) (d : W32) : (p.setTag a d).err = p.err := rfl
@[simp] theorem Part.setTag_pwr (a : Nat) (d : W32) : (p.setTag a d).pwr = p.pwr := rfl
@[simp] theorem Part.setTag_i3c (a : Nat) (d : W32) : (p.setTag a d).i3c = p.i3c := rfl
@[simp] theorem Part.setTag_jtag (a : Nat) (d : W32) : (p.setTag a d).jtag = p.jtag := rfl
@[simp] theorem Part.setTag_phase (a : Nat) (d : W32) : (p.setTag a d).phase = p.phase := rfl
@[simp] theorem Part.setTag_out (a : Nat) (d : W32) : (p.setTag a d).out = p.out := rfl
@[simp] theorem Part.setTag_uid (a : Nat) (d : W32) : (p.setTag a d).uid = p.uid := rfl

@[simp] theorem Part.setRow_regs (a : Nat) (r : List Byte) (d : W32) : (p.setRow a r d).regs = p.regs := rfl
@[simp] theorem Part.setRow_cores (a : Nat) (r : List Byte) (d : W32) : (p.setRow a r d).cores = p.cores := rfl
@[simp] theorem Part.setRow_clusters (a : Nat) (r : List Byte) (d : W32) : (p.setRow a r d).clusters = p.clusters := rfl
@[simp] theorem Part.setRow_reqs (a : Nat) (r : List Byte) (d : W32) : (p.setRow a r d).reqs = p.reqs := rfl
@[simp] theorem Part.setRow_xfers (a : Nat) (r : List Byte) (d : W32) : (p.setRow a r d).xfers = p.xfers := rfl
@[simp] theorem Part.setRow_partials (a : Nat) (r : List Byte) (d : W32) : (p.setRow a r d).partials = p.partials := rfl
@[simp] theorem Part.setRow_views (a : Nat) (r : List Byte) (d : W32) : (p.setRow a r d).views = p.views := rfl
@[simp] theorem Part.setRow_flight (a : Nat) (r : List Byte) (d : W32) : (p.setRow a r d).flight = p.flight := rfl
@[simp] theorem Part.setRow_net (a : Nat) (r : List Byte) (d : W32) : (p.setRow a r d).net = p.net := rfl
@[simp] theorem Part.setRow_retrainFails (a : Nat) (r : List Byte) (d : W32) : (p.setRow a r d).retrainFails = p.retrainFails := rfl
@[simp] theorem Part.setRow_stg (a : Nat) (r : List Byte) (d : W32) : (p.setRow a r d).stg = p.stg := rfl
@[simp] theorem Part.setRow_tim (a : Nat) (r : List Byte) (d : W32) : (p.setRow a r d).tim = p.tim := rfl
@[simp] theorem Part.setRow_pce (a : Nat) (r : List Byte) (d : W32) : (p.setRow a r d).pce = p.pce := rfl
@[simp] theorem Part.setRow_fab (a : Nat) (r : List Byte) (d : W32) : (p.setRow a r d).fab = p.fab := rfl
@[simp] theorem Part.setRow_cfg (a : Nat) (r : List Byte) (d : W32) : (p.setRow a r d).cfg = p.cfg := rfl
@[simp] theorem Part.setRow_chain (a : Nat) (r : List Byte) (d : W32) : (p.setRow a r d).chain = p.chain := rfl
@[simp] theorem Part.setRow_hst (a : Nat) (r : List Byte) (d : W32) : (p.setRow a r d).hst = p.hst := rfl
@[simp] theorem Part.setRow_sec (a : Nat) (r : List Byte) (d : W32) : (p.setRow a r d).sec = p.sec := rfl
@[simp] theorem Part.setRow_err (a : Nat) (r : List Byte) (d : W32) : (p.setRow a r d).err = p.err := rfl
@[simp] theorem Part.setRow_pwr (a : Nat) (r : List Byte) (d : W32) : (p.setRow a r d).pwr = p.pwr := rfl
@[simp] theorem Part.setRow_i3c (a : Nat) (r : List Byte) (d : W32) : (p.setRow a r d).i3c = p.i3c := rfl
@[simp] theorem Part.setRow_jtag (a : Nat) (r : List Byte) (d : W32) : (p.setRow a r d).jtag = p.jtag := rfl
@[simp] theorem Part.setRow_phase (a : Nat) (r : List Byte) (d : W32) : (p.setRow a r d).phase = p.phase := rfl
@[simp] theorem Part.setRow_out (a : Nat) (r : List Byte) (d : W32) : (p.setRow a r d).out = p.out := rfl
@[simp] theorem Part.setRow_uid (a : Nat) (r : List Byte) (d : W32) : (p.setRow a r d).uid = p.uid := rfl

@[simp] theorem Part.fresh_mem : (p.fresh.2).mem = p.mem := rfl
@[simp] theorem Part.fresh_tagErr : (p.fresh.2).tagErr = p.tagErr := rfl
@[simp] theorem Part.fresh_poison : (p.fresh.2).poison = p.poison := rfl
@[simp] theorem Part.fresh_regs : (p.fresh.2).regs = p.regs := rfl
@[simp] theorem Part.fresh_cores : (p.fresh.2).cores = p.cores := rfl
@[simp] theorem Part.fresh_clusters : (p.fresh.2).clusters = p.clusters := rfl
@[simp] theorem Part.fresh_reqs : (p.fresh.2).reqs = p.reqs := rfl
@[simp] theorem Part.fresh_xfers : (p.fresh.2).xfers = p.xfers := rfl
@[simp] theorem Part.fresh_partials : (p.fresh.2).partials = p.partials := rfl
@[simp] theorem Part.fresh_views : (p.fresh.2).views = p.views := rfl
@[simp] theorem Part.fresh_flight : (p.fresh.2).flight = p.flight := rfl
@[simp] theorem Part.fresh_net : (p.fresh.2).net = p.net := rfl
@[simp] theorem Part.fresh_retrainFails : (p.fresh.2).retrainFails = p.retrainFails := rfl
@[simp] theorem Part.fresh_stg : (p.fresh.2).stg = p.stg := rfl
@[simp] theorem Part.fresh_tim : (p.fresh.2).tim = p.tim := rfl
@[simp] theorem Part.fresh_pce : (p.fresh.2).pce = p.pce := rfl
@[simp] theorem Part.fresh_fab : (p.fresh.2).fab = p.fab := rfl
@[simp] theorem Part.fresh_cfg : (p.fresh.2).cfg = p.cfg := rfl
@[simp] theorem Part.fresh_chain : (p.fresh.2).chain = p.chain := rfl
@[simp] theorem Part.fresh_hst : (p.fresh.2).hst = p.hst := rfl
@[simp] theorem Part.fresh_sec : (p.fresh.2).sec = p.sec := rfl
@[simp] theorem Part.fresh_err : (p.fresh.2).err = p.err := rfl
@[simp] theorem Part.fresh_pwr : (p.fresh.2).pwr = p.pwr := rfl
@[simp] theorem Part.fresh_i3c : (p.fresh.2).i3c = p.i3c := rfl
@[simp] theorem Part.fresh_jtag : (p.fresh.2).jtag = p.jtag := rfl
@[simp] theorem Part.fresh_phase : (p.fresh.2).phase = p.phase := rfl
@[simp] theorem Part.fresh_out : (p.fresh.2).out = p.out := rfl

@[simp] theorem Part.issued_mem (c t : Nat) : (p.issued c t).mem = p.mem := rfl
@[simp] theorem Part.issued_tagErr (c t : Nat) : (p.issued c t).tagErr = p.tagErr := rfl
@[simp] theorem Part.issued_poison (c t : Nat) : (p.issued c t).poison = p.poison := rfl
@[simp] theorem Part.issued_clusters (c t : Nat) : (p.issued c t).clusters = p.clusters := rfl
@[simp] theorem Part.issued_reqs (c t : Nat) : (p.issued c t).reqs = p.reqs := rfl
@[simp] theorem Part.issued_xfers (c t : Nat) : (p.issued c t).xfers = p.xfers := rfl
@[simp] theorem Part.issued_partials (c t : Nat) : (p.issued c t).partials = p.partials := rfl
@[simp] theorem Part.issued_views (c t : Nat) : (p.issued c t).views = p.views := rfl
@[simp] theorem Part.issued_flight (c t : Nat) : (p.issued c t).flight = p.flight := rfl
@[simp] theorem Part.issued_net (c t : Nat) : (p.issued c t).net = p.net := rfl
@[simp] theorem Part.issued_retrainFails (c t : Nat) : (p.issued c t).retrainFails = p.retrainFails := rfl
@[simp] theorem Part.issued_stg (c t : Nat) : (p.issued c t).stg = p.stg := rfl
@[simp] theorem Part.issued_tim (c t : Nat) : (p.issued c t).tim = p.tim := rfl
@[simp] theorem Part.issued_pce (c t : Nat) : (p.issued c t).pce = p.pce := rfl
@[simp] theorem Part.issued_fab (c t : Nat) : (p.issued c t).fab = p.fab := rfl
@[simp] theorem Part.issued_cfg (c t : Nat) : (p.issued c t).cfg = p.cfg := rfl
@[simp] theorem Part.issued_chain (c t : Nat) : (p.issued c t).chain = p.chain := rfl
@[simp] theorem Part.issued_hst (c t : Nat) : (p.issued c t).hst = p.hst := rfl
@[simp] theorem Part.issued_sec (c t : Nat) : (p.issued c t).sec = p.sec := rfl
@[simp] theorem Part.issued_err (c t : Nat) : (p.issued c t).err = p.err := rfl
@[simp] theorem Part.issued_pwr (c t : Nat) : (p.issued c t).pwr = p.pwr := rfl
@[simp] theorem Part.issued_i3c (c t : Nat) : (p.issued c t).i3c = p.i3c := rfl
@[simp] theorem Part.issued_jtag (c t : Nat) : (p.issued c t).jtag = p.jtag := rfl
@[simp] theorem Part.issued_phase (c t : Nat) : (p.issued c t).phase = p.phase := rfl
@[simp] theorem Part.issued_out (c t : Nat) : (p.issued c t).out = p.out := rfl
@[simp] theorem Part.issued_uid (c t : Nat) : (p.issued c t).uid = p.uid := rfl

@[simp] theorem State.act_part (s : State) (f : Part → Part) : (s.act f).part = f s.part := rfl
@[simp] theorem State.act_pending (s : State) (f : Part → Part) : (s.act f).pending = s.pending := rfl

end Sys2Proof.Machine
end

