-- ==== Sys2Proof/Laws/Tab.lean ====
section
/-! SUPPORT. Laws of the sorted table: a read after a write, and the canonical form that a write keeps. -/

namespace Sys2Proof.Tab

variable {α : Type}

@[simp] theorem get_nil (d : α) (k : Nat) : get d [] k = d := rfl

theorem get_drop_self (d : α) (k : Nat) (t : Tab α) : get d (drop d k t) k = d := by
  cases t with
  | nil => rfl
  | cons x t =>
    obtain ⟨j, w⟩ := x
    simp only [drop]
    split
    · simp only [get]; split
      · omega
      · rfl
    · simp [get]

theorem get_drop_ne (d w : α) {k j : Nat} (h : j ≠ k) (t : Tab α) : get d (drop d k t) j = get d ((k, w) :: t) j := by
  cases t with
  | nil => simp [get, drop, h.symm]
  | cons x t =>
    obtain ⟨i, u⟩ := x
    simp only [drop]
    split
    · rename_i hk
      simp only [get, if_neg h.symm]
      split
      · subst_vars
        split
        · omega
        · rfl
      · split <;> split <;> first | rfl | omega
    · simp [get, h.symm]

@[simp] theorem get_put_self [DecidableEq α] (d : α) (t : Tab α) (k : Nat) (v : α) : get d (put d t k v) k = v := by
  induction t with
  | nil =>
    simp only [put]
    split
    · simp_all
    · simp [get]
  | cons x t ih =>
    obtain ⟨i, w⟩ := x
    simp only [put]
    split
    · rename_i hk
      have hik : i ≠ k := by omega
      split <;> simp_all [get]
    · split
      · split
        · subst_vars; exact get_drop_self _ _ _
        · simp [get]
      · rename_i h1 h2
        simp only [get, if_neg h2, if_neg h1, ih]

theorem get_put_ne [DecidableEq α] (d : α) (t : Tab α) {k j : Nat} (v : α) (h : j ≠ k) :
    get d (put d t k v) j = get d t j := by
  induction t with
  | nil =>
    simp only [put]
    split
    · rfl
    · simp [get, h.symm]
  | cons x t ih =>
    obtain ⟨i, w⟩ := x
    simp only [put]
    split
    · rename_i hk
      split
      · rfl
      · simp only [get, if_neg h.symm]
        split
        · rename_i hj
          rw [if_neg (by omega), if_pos (by omega)]
        · rfl
    · split
      · rename_i hik
        subst hik
        split
        · exact get_drop_ne d w h t
        · simp [get, h.symm]
      · simp only [get, ih]

theorem get_put [DecidableEq α] (d : α) (t : Tab α) (k j : Nat) (v : α) :
    get d (put d t k v) j = if j = k then v else get d t j := by
  split
  · subst_vars; simp
  · exact get_put_ne d t v ‹_›

theorem above_mono {n m : Nat} (h : n ≤ m) (t : Tab α) (ht : above m t = true) : above n t = true := by
  induction t with
  | nil => rfl
  | cons x t ih =>
    simp only [above, Bool.and_eq_true, decide_eq_true_eq] at ht ⊢
    exact ⟨by omega, ih ht.2⟩

theorem drop_eq (d : α) (k : Nat) (t : Tab α) (h : above k t = true) : drop d k t = t := by
  cases t with
  | nil => rfl
  | cons x t =>
    simp only [above, Bool.and_eq_true, decide_eq_true_eq] at h
    simp only [drop, if_pos h.1]

theorem above_put [DecidableEq α] (d : α) {n k : Nat} (h : n < k) (t : Tab α) (v : α) (ht : above n t = true) :
    above n (put d t k v) = true := by
  induction t with
  | nil =>
    simp only [put]
    split <;> simp [above, h]
  | cons x t ih =>
    obtain ⟨i, w⟩ := x
    simp only [above, Bool.and_eq_true, decide_eq_true_eq] at ht
    simp only [put]
    split
    · split <;> simp [above, ht, h]
    · split
      · split
        · cases t with
          | nil => rfl
          | cons y t =>
            simp only [drop]
            split <;> simp_all [above]
        · simp [above, h, ht]
      · simp [above, ht, ih]

/-- A write keeps the canonical form. -/
theorem wf_put [DecidableEq α] (d : α) (t : Tab α) (k : Nat) (v : α) (ht : wf d t = true) : wf d (put d t k v) = true := by
  induction t with
  | nil =>
    simp only [put]
    split
    · rfl
    · simp [wf, above, *]
  | cons x t ih =>
    obtain ⟨i, w⟩ := x
    simp only [wf, Bool.and_eq_true, decide_eq_true_eq] at ht
    obtain ⟨⟨ha, hw⟩, ht⟩ := ht
    simp only [put]
    split
    · rename_i hk
      split
      · simp [wf, ha, hw, ht]
      · rename_i hv
        simp [wf, above, hk, hv, ha, hw, ht, above_mono (Nat.le_of_lt hk) t ha]
    · split
      · rename_i h1 h2
        subst h2
        split
        · rw [drop_eq d _ t ha]; exact ht
        · rename_i hv
          simp [wf, ha, hv, ht]
      · rename_i h1 h2
        simp [wf, hw, ih ht, above_put d (show i < k by omega) t v ha]

end Sys2Proof.Tab
end

