-- ==== Sys2Proof/Laws/Storage.lean ====
section
/-! SUPPORT. Reads after writes of registers, cores, clusters, rings and bytes, and the canonical form of the byte memory. -/

namespace Sys2Proof.Machine

open Sys2Proof

/-! ### Registers -/

@[simp] theorem Part.reg_setReg_self (p : Part) (o : Nat) (v : W64) : (p.setReg o v).reg o = v := by
  simp [Part.reg, Part.setReg]

theorem Part.reg_setReg_ne (p : Part) {o j : Nat} (v : W64) (h : j ≠ o) : (p.setReg o v).reg j = p.reg j := by
  simp [Part.reg, Part.setReg, Tab.get_put_ne _ _ _ h]

theorem Part.reg_setReg (p : Part) (o j : Nat) (v : W64) : (p.setReg o v).reg j = if j = o then v else p.reg j := by
  split
  · subst_vars; simp
  · exact p.reg_setReg_ne v ‹_›

theorem Part.reg_setRegN (p : Part) (o j v : Nat) :
    (p.setRegN o v).reg j = if j = o then BitVec.ofNat 64 v else p.reg j := Part.reg_setReg _ _ _ _

theorem Part.regN_setRegN_self (p : Part) (o v : Nat) (h : v < 2 ^ 64) : (p.setRegN o v).regN o = v := by
  simp only [Part.regN, Part.setRegN, Part.reg_setReg_self, BitVec.toNat_ofNat, Nat.mod_eq_of_lt h]

theorem Part.reg_bump (p : Part) (o j n : Nat) :
    (p.bump o n).reg j = if j = o then p.reg o + BitVec.ofNat 64 n else p.reg j := Part.reg_setReg _ _ _ _

theorem Part.reg_orReg (p : Part) (o j m : Nat) :
    (p.orReg o m).reg j = if j = o then p.reg o ||| BitVec.ofNat 64 m else p.reg j := Part.reg_setReg _ _ _ _

theorem Part.reg_andNotReg (p : Part) (o j m : Nat) :
    (p.andNotReg o m).reg j = if j = o then p.reg o &&& ~~~ BitVec.ofNat 64 m else p.reg j := Part.reg_setReg _ _ _ _

theorem Part.reg_bumpSat (p : Part) (o j n : Nat) :
    (p.bumpSat o n).reg j = if j = o then satAdd32 (p.reg o) n else p.reg j := Part.reg_setReg _ _ _ _

theorem Part.reg_congr {p q : Part} (h : p.regs = q.regs) (o : Nat) : p.reg o = q.reg o := by
  simp [Part.reg, h]

@[simp] theorem Part.reg_onCore (p : Part) (c o : Nat) (f : Core → Core) : (p.onCore c f).reg o = p.reg o := rfl
@[simp] theorem Part.reg_onTh (p : Part) (c t o : Nat) (f : Thread → Thread) : (p.onTh c t f).reg o = p.reg o := rfl
@[simp] theorem Part.reg_emit (p : Part) (x : Output) (o : Nat) : (p.emit x).reg o = p.reg o := rfl
@[simp] theorem Part.reg_setBytes (p : Part) (a : Nat) (l : List Byte) (o : Nat) : (p.setBytes a l).reg o = p.reg o := rfl

/-! ### Cores and clusters -/

@[simp] theorem Part.core_setCore_self (p : Part) (c : Nat) (k : Core) : (p.setCore c k).core c = k := by
  simp [Part.core, Part.setCore]

theorem Part.core_setCore_ne (p : Part) {c d : Nat} (k : Core) (h : d ≠ c) : (p.setCore c k).core d = p.core d := by
  simp [Part.core, Part.setCore, Tab.get_put_ne _ _ _ h]

@[simp] theorem Part.core_onCore_self (p : Part) (c : Nat) (f : Core → Core) : (p.onCore c f).core c = f (p.core c) := by
  simp [Part.onCore]

theorem Part.core_onCore_ne (p : Part) {c d : Nat} (f : Core → Core) (h : d ≠ c) : (p.onCore c f).core d = p.core d :=
  Part.core_setCore_ne _ _ h

@[simp] theorem Part.core_onTh_self (p : Part) (c t : Nat) (f : Thread → Thread) : (p.onTh c t f).core c = (p.core c).onTh t f := by
  simp [Part.onTh]

theorem Part.core_onTh_ne (p : Part) {c d : Nat} (t : Nat) (f : Thread → Thread) (h : d ≠ c) :
    (p.onTh c t f).core d = p.core d := Part.core_onCore_ne _ _ h

theorem Part.core_congr {p q : Part} (h : p.cores = q.cores) (c : Nat) : p.core c = q.core c := by
  simp [Part.core, h]

@[simp] theorem Part.core_setReg (p : Part) (o : Nat) (v : W64) (c : Nat) : (p.setReg o v).core c = p.core c := rfl
@[simp] theorem Part.core_bump (p : Part) (o n c : Nat) : (p.bump o n).core c = p.core c := rfl

@[simp] theorem Part.core_issued_self (p : Part) (c t : Nat) : (p.issued c t).core c = ((p.core c).beat t).onTh t Thread.advance := by
  simp [Part.issued, Part.takeSlot]

theorem Part.core_issued_ne (p : Part) {c d : Nat} (t : Nat) (h : d ≠ c) : (p.issued c t).core d = p.core d := by
  simp [Part.issued, Part.takeSlot, Part.core_onTh_ne _ _ _ h, Part.core_onCore_ne _ _ h]

@[simp] theorem Part.cluster_setCluster_self (p : Part) (c : Nat) (k : Cluster) : (p.setCluster c k).cluster c = k := by
  simp [Part.cluster, Part.setCluster]

theorem Part.cluster_setCluster_ne (p : Part) {c d : Nat} (k : Cluster) (h : d ≠ c) :
    (p.setCluster c k).cluster d = p.cluster d := by
  simp [Part.cluster, Part.setCluster, Tab.get_put_ne _ _ _ h]

@[simp] theorem Part.ring_onRing_self (p : Part) (i : Nat) (f : Ring → Ring) : (p.onRing i f).ring i = f (p.ring i) := by
  simp [Part.ring, Part.onRing]

theorem Part.ring_onRing_ne (p : Part) {i j : Nat} (f : Ring → Ring) (h : j ≠ i) : (p.onRing i f).ring j = p.ring j := by
  simp [Part.ring, Part.onRing, Tab.get_put_ne _ _ _ h]

/-! ### Lists -/

theorem modFirst_map_eq {α β : Type} (q : α → Bool) (f : α → α) (g : α → β) (h : ∀ x, g (f x) = g x) (l : List α) :
    (modFirst q f l).map g = l.map g := by
  induction l with
  | nil => rfl
  | cons x xs ih => simp only [modFirst]; split <;> simp [*]

@[simp] theorem modAt_length {α : Type} (l : List α) (i : Nat) (f : α → α) : (modAt l i f).length = l.length := by
  simp [modAt]

@[simp] theorem leBytes_length (n w : Nat) : (leBytes n w).length = n := by
  induction n generalizing w with
  | zero => rfl
  | succ n ih => simp [leBytes, ih]

@[simp] theorem padTo_length (n : Nat) (l : List Byte) : (padTo n l).length = n := by
  simp [padTo]; omega

theorem leNat_lt (l : List Byte) : leNat l < 256 ^ l.length := by
  induction l with
  | nil => simp [leNat]
  | cons b bs ih =>
    have := b.isLt
    simp only [leNat, List.length_cons, Nat.pow_succ]
    omega

theorem leNat_leBytes (n w : Nat) : leNat (leBytes n w) = w % 256 ^ n := by
  induction n generalizing w with
  | zero => simp [leBytes, leNat, Nat.mod_one]
  | succ n ih =>
    simp only [leBytes, leNat, ih, BitVec.toNat_ofNat]
    rw [show 256 ^ (n + 1) = 256 * 256 ^ n by ring, Nat.mod_mul]

/-! ### Memory -/

@[simp] theorem Memory.read_write_self (m : List Host.Cell) (a : Nat) (b : Byte) : Memory.read (Memory.write m a b) a = b := by
  simp [Memory.read, Memory.write]

theorem Memory.read_write_ne (m : List Host.Cell) {a x : Nat} (b : Byte) (h : x ≠ a) :
    Memory.read (Memory.write m a b) x = Memory.read m x := by
  simp [Memory.read, Memory.write, Tab.get_put_ne _ _ _ h]

theorem Memory.wf_write (m : List Host.Cell) (a : Nat) (b : Byte) (h : Memory.wf m = true) : Memory.wf (Memory.write m a b) = true :=
  Tab.wf_put _ _ _ _ h

theorem Memory.wf_writeN (l : List Byte) (m : List Host.Cell) (a : Nat) (h : Memory.wf m = true) :
    Memory.wf (Memory.writeN m a l) = true := by
  induction l generalizing m a with
  | nil => exact h
  | cons b bs ih => exact ih _ _ (Memory.wf_write _ _ _ h)

/-- A byte outside the bytes written reads as before. -/
theorem Memory.read_writeN_out (l : List Byte) (m : List Host.Cell) (a x : Nat) (h : x < a ∨ a + l.length ≤ x) :
    Memory.read (Memory.writeN m a l) x = Memory.read m x := by
  induction l generalizing m a with
  | nil => rfl
  | cons b bs ih =>
    simp only [List.length_cons] at h
    simp only [Memory.writeN]
    rw [ih _ _ (by omega), Memory.read_write_ne _ _ (by omega)]

/-- A byte written reads as the byte given for it. -/
theorem Memory.read_writeN_in (l : List Byte) (m : List Host.Cell) (a i : Nat) (h : i < l.length) :
    Memory.read (Memory.writeN m a l) (a + i) = l[i] := by
  induction l generalizing m a i with
  | nil => simp at h
  | cons b bs ih =>
    simp only [Memory.writeN]
    cases i with
    | zero => rw [Memory.read_writeN_out _ _ _ _ (by omega)]; simp
    | succ i =>
      have := ih (Memory.write m a b) (a + 1) i (by simpa using h)
      rw [show a + (i + 1) = a + 1 + i by omega, this]; rfl

theorem Part.byteAt_setBytes_out (p : Part) (a x : Nat) (l : List Byte) (h : x < a ∨ a + l.length ≤ x) :
    (p.setBytes a l).byteAt x = p.byteAt x := Memory.read_writeN_out l _ _ _ h

theorem Part.byteAt_setBytes_in (p : Part) (a i : Nat) (l : List Byte) (h : i < l.length) :
    (p.setBytes a l).byteAt (a + i) = l[i] := Memory.read_writeN_in l _ _ _ h

theorem Part.byteAt_congr {p q : Part} (h : p.mem = q.mem) (a : Nat) : p.byteAt a = q.byteAt a := by
  simp [Part.byteAt, h]

/-- Reading back the bytes just written. -/
theorem Memory.readN_writeN (l : List Byte) (m : List Host.Cell) (a : Nat) : Memory.readN (Memory.writeN m a l) a l.length = l := by
  induction l generalizing m a with
  | nil => rfl
  | cons b bs ih =>
    have h0 := Memory.read_writeN_in (b :: bs) m a 0 (by simp)
    simp only [Nat.add_zero] at h0
    simp only [List.length_cons, Memory.readN, h0]
    simp only [Memory.writeN, ih]
    rfl

theorem Part.bytesAt_setBytes (p : Part) (a : Nat) (l : List Byte) : (p.setBytes a l).bytesAt a l.length = l :=
  Memory.readN_writeN l _ _

theorem Part.wf_setBytes (p : Part) (a : Nat) (l : List Byte) (h : Memory.wf p.mem = true) : Memory.wf (p.setBytes a l).mem = true :=
  Memory.wf_writeN l _ _ h

theorem Part.wf_setRow (p : Part) (a : Nat) (l : List Byte) (d : W32) (h : Memory.wf p.mem = true) :
    Memory.wf (p.setRow a l d).mem = true := Part.wf_setBytes _ _ _ h

/-- Residues beside X are no bytes. -/
@[simp] theorem Part.fixResid_mem (p : Part) (c off n : Nat) : (p.fixResid c off n).mem = p.mem := by
  unfold Part.fixResid; split <;> rfl

theorem Part.wf_setHalf (p : Part) (c code : Nat) (b : List Byte) (d : W32) (h : Memory.wf p.mem = true) :
    Memory.wf (p.setHalf c code b d).mem = true := by
  unfold Part.setHalf
  dsimp only
  split
  · exact Part.wf_setRow _ _ _ _ h
  · exact Part.wf_setBytes _ _ _ (by simpa using h)

theorem Part.wf_setPlace (p : Part) (c code : Nat) (b : List Byte) (h : Memory.wf p.mem = true) :
    Memory.wf (p.setPlace c code b).mem = true := by
  unfold Part.setPlace
  split
  · exact Part.wf_setHalf _ _ _ _ _ (Part.wf_setHalf _ _ _ _ _ h)
  · exact Part.wf_setHalf _ _ _ _ _ h

theorem Part.wf_mergeRow (p : Part) (a : Nat) (l : List Byte) (h : Memory.wf p.mem = true) :
    Memory.wf (p.mergeRow a l).mem = true := by
  unfold Part.mergeRow
  split <;> exact Part.wf_setBytes _ _ _ h

end Sys2Proof.Machine
end

