-- ==== Sys2Proof/Laws/Cue.lean ====
section
/-! SUPPORT. What issuing one cue operation can do: the wrapper of every cue operation, said once. -/

namespace Sys2Proof.Machine

open Sys2Proof

theorem State.live_eq {s : State} (h : s.part.phase = .ready) (f : Part → Part) : s.live f = .next (s.act f) := by
  simp [State.live, State.act, h]

/-- A cue operation that leaves the core its task is its effect. -/
theorem State.cueOp_eq {s : State} {c t op : Nat} (h : s.mayIssue c t op) {f : Part → Part} (ht : (f s.part).taskOf c = s.part.taskOf c) :
    s.cueOp c t op f = .next (s.act (·.onTheCore c f)) := by
  simp [State.cueOp, State.live, State.act, h.1, Part.onTheCore, Part.resting, Part.issue, h.2, ht]

theorem Part.taskOf_congr {p q : Part} (h : p.stg = q.stg) (c : Nat) : p.taskOf c = q.taskOf c := by
  simp [Part.taskOf, Part.replicaAt, h]

/-- A command that leaves a core's units no emptier and touches no other core brings no other core of a two-hander to rest: it is its effect,
with at most one more entry into quiescence of that core counted. -/
theorem Part.onTheCore_cases (p : Part) (c : Nat) (f : Part → Part) (hm : (f p).mem = p.mem) (hv : (f p).views = p.views)
    (hc : ∀ k, k ≠ c → (f p).core k = p.core k) (hu : ((f p).core c).unitsIdle = true → (p.core c).unitsIdle = true) :
    p.onTheCore c f = f p ∨ p.onTheCore c f = (f p).bump (coreReg Reg.CORE_SLEEPS c []) 1 := by
  have hq : ∀ x, x ≠ c → (f p).quiet x = true → p.quiet x = true := by
    intro x hx h
    have hi : (f p).issuer x = p.issuer x := by simp [Part.issuer, Part.paired, Part.coreCfgWord, Part.natAt, Part.bytesAt, hm]
    have hw : (f p).viewPending x = p.viewPending x := by simp [Part.viewPending, hv]
    simp only [Part.quiet, Bool.and_eq_true, hi, hw, hc x hx] at h ⊢
    refine ⟨⟨h.1.1, ?_⟩, h.2⟩
    by_cases hxc : p.issuer x = c
    · exact hxc ▸ hu (hxc ▸ h.1.2)
    · exact hc _ hxc ▸ h.1.2
  have step : ∀ x, x ≠ c → (!p.quiet x && (f p).quiet x && decide (p.reg (coreReg Reg.CORE_SLEEPS x []) = (f p).reg (coreReg Reg.CORE_SLEEPS x []))) = false := by
    intro x hx
    cases h : (f p).quiet x with
    | true => simp [hq x hx h]
    | false => simp
  unfold Part.onTheCore Part.resting Part.pairOf
  dsimp only
  have h1 : c + 1 ≠ c := by omega
  split <;> simp only [forEach, List.foldl, step _ h1, Bool.false_eq_true, if_false] <;> split <;> simp

theorem Part.issued_ne_sleeps (c : Nat) : coreReg Reg.CORE_ISSUED c [] ≠ coreReg Reg.CORE_SLEEPS c [] := by
  simp [coreReg, RegRow.at, Reg.CORE_ISSUED, Reg.CORE_SLEEPS]

/-- What an effect on core `c` must do for `issueFrame`: only cores, registers and names change, of the cores this one, whose units it leaves no
emptier, and of the registers the issue count. -/
structure Part.Issues (p q : Part) (c : Nat) : Prop where
  rest : q = { p with cores := q.cores, regs := q.regs, uid := q.uid }
  others : ∀ k, k ≠ c → q.core k = p.core k
  count : q.regs = (p.bump (coreReg Reg.CORE_ISSUED c []) 1).regs
  units : (q.core c).unitsIdle = true → (p.core c).unitsIdle = true

theorem Part.Issues.cases {p : Part} {c : Nat} {f : Part → Part} (h : p.Issues (f p) c) :
    p.onTheCore c f = f p ∨ p.onTheCore c f = (f p).bump (coreReg Reg.CORE_SLEEPS c []) 1 :=
  p.onTheCore_cases c f (by rw [h.rest]) (by rw [h.rest]) h.others h.units

theorem Part.Issues.core {p : Part} {c : Nat} {f : Part → Part} (h : p.Issues (f p) c) (k : Nat) : (p.onTheCore c f).core k = (f p).core k := by
  rcases h.cases with h | h <;> rw [h]; rfl

/-- The frame of an issue, from what its effect does to the part. -/
theorem State.issueFrame_of {s : State} {c : Nat} {f : Part → Part} (h : s.part.Issues (f s.part) c) :
    s.issueFrame (s.act (·.onTheCore c f)) c := by
  have hp := h.rest
  have hc := h.others
  have hr := h.count
  have hcases := h.cases
  have hreg : ∀ o, (f s.part).reg o = (s.part.bump (coreReg Reg.CORE_ISSUED c []) 1).reg o := Part.reg_congr hr
  have hne := Part.issued_ne_sleeps c
  have hm : (f s.part).mem = s.part.mem := by rw [hp]
  refine ⟨?_, ?_, ?_, ?_, ?_, ?_⟩
  · rcases hcases with h | h
    · simp only [State.act, h]; rw [hp]
    · simp only [State.act, h]; rw [hp]; rfl
  · intro k hk
    simp only [List.mem_singleton] at hk
    exact (h.core k).trans (hc k hk)
  · intro o ho
    simp only [List.mem_cons, List.not_mem_nil, or_false, not_or] at ho
    rcases hcases with h | h <;> simp [State.act, h, Part.reg_bump, hreg, ho.1, ho.2]
  · rcases hcases with h | h <;> simp [State.act, h, Part.reg_bump, hreg, hne]
  · rcases hcases with h | h <;> simp [State.act, h, Part.reg_bump, hreg, hne.symm]
  · intro a
    rcases hcases with h | h <;> simp [State.act, h, Part.byteAt, hm]

/-! ### Threads -/

/-- Two updates that agree on the thread itself are the same update of the core. -/
theorem Core.onTh_congr (k : Core) (t : Nat) {f g : Thread → Thread} (h : f (k.th t) = g (k.th t)) : k.onTh t f = k.onTh t g := by
  simp only [Core.onTh, modAt]
  congr 1
  apply List.ext_getElem?
  intro j
  simp only [List.getElem?_modify]
  cases hj : k.threads[j]? with
  | none => simp
  | some x =>
    by_cases ht : t = j
    · subst ht
      simp only [Core.th, List.getD_eq_getElem?_getD, hj, Option.getD_some] at h
      simp [h]
    · simp [ht]

@[simp] theorem Core.onTh_onTh (k : Core) (t : Nat) (f g : Thread → Thread) : (k.onTh t f).onTh t g = k.onTh t (fun x => g (f x)) := by
  simp only [Core.onTh, modAt]
  congr 1
  apply List.ext_getElem?
  intro j
  simp only [List.getElem?_modify]
  cases hj : k.threads[j]? with
  | none => simp
  | some x => by_cases ht : t = j <;> simp [ht]

theorem Core.th_onTh_self (k : Core) {t : Nat} (f : Thread → Thread) (h : t < k.threads.length) : (k.onTh t f).th t = f (k.th t) := by
  simp [Core.th, Core.onTh, modAt, h]

theorem Core.th_onTh_ne (k : Core) {t j : Nat} (f : Thread → Thread) (h : j ≠ t) : (k.onTh t f).th j = k.th j := by
  simp [Core.th, Core.onTh, modAt, h.symm]

/-- A move put into the queue: said once for every row move. -/
theorem State.movesOn_of {s : State} {c t : Nat} {f : Part → Part} {what : Move} {done : Nat} {sync : Bool}
    (h : f s.part = s.part.enqueue c t what done sync) :
    s.movesOn (s.act (·.onTheCore c f)) c t what done sync := by
  have hcore : (f s.part).core c = { ((s.part.core c).beat t).onTh t (fun x =>
      if sync then { x.advance with st := .wait, why := 4, on := .oper s.part.uid } else x.advance) with
    moveq := (s.part.core c).moveq ++
      [{ uid := s.part.uid, thread := t, what := what, done := done, sync := sync, looked := false, data := [], since := none }] } := by
    rw [h]
    simp only [Part.enqueue]
    have hi : (s.part.issued c t).fresh.2.core c = ((s.part.core c).beat t).onTh t Thread.advance := Part.core_issued_self _ _ _
    have hu : (s.part.issued c t).fresh.1 = s.part.uid := rfl
    have hb : ((s.part.core c).beat t).moveq = (s.part.core c).moveq := by unfold Core.beat; split <;> rfl
    cases sync
    · simp only [Part.core_onCore_self, hi, hu, Bool.false_eq_true, if_false, Core.onTh, hb]
    · simp only [Part.core_onTh_self, Part.core_onCore_self, hi, hu, if_true]
      have := Core.onTh_onTh ((s.part.core c).beat t) t Thread.advance (fun th => th.await 4 (.oper s.part.uid))
      simp only [Core.onTh, hb] at this ⊢
      simp only [Core.mk.injEq] at this ⊢
      simpa [Thread.await] using this.1
  have hi : s.part.Issues (f s.part) c := by
    refine ⟨?_, ?_, ?_, ?_⟩
    · rw [h]; simp only [Part.enqueue]; split <;> rfl
    · intro k hk
      rw [h]; simp only [Part.enqueue]
      split
      · rw [Part.core_onTh_ne _ _ _ hk, Part.core_onCore_ne _ _ hk]
        exact Part.core_issued_ne _ _ hk
      · rw [Part.core_onCore_ne _ _ hk]
        exact Part.core_issued_ne _ _ hk
    · rw [h]; simp only [Part.enqueue]; split <;> rfl
    · rw [hcore]; simp [Core.unitsIdle]
  refine ⟨State.issueFrame_of hi, ?_, (hi.core c).trans hcore⟩
  have : (f s.part).uid = s.part.uid + 1 := by rw [h]; simp only [Part.enqueue]; split <;> rfl
  rcases hi.cases with h' | h' <;> simp [State.act, h', this]

end Sys2Proof.Machine
end

