-- ==== Sys2Proof/Laws/PerInstr.lean ====
section
/-! SUPPORT. What well-formedness gives, command by command: the core that a command names is one of the 25,600 of the part and lies on a
C-die that exists (01 R19). -/

namespace Sys2Proof.Laws.WellFormedOperands

open Sys2Proof Sys2Proof.WellFormed

/-- The core at which a command acts, where it names one. -/
def coreNamed : Instr → Option Nat
  | .endOp c _ | .nop c _ | .fence c _ | .intv c _ | .loop c _ | .shop c _ | .adda c _ | .ldr c _ | .str c _ | .mov c _ | .trd c _
  | .srd c _ | .gath c _ | .xfer c _ | .cinv c _ | .mat c _ | .maux c _ | .run c _ | .send c _ | .post c _ | .recv c _ | .wait c _
  | .cue c _ | .curt c _ | .matrixStepStart c | .matrixStepRetire c | .epilogueStart c | .epilogueEnd c | .elementRunStart c
  | .elementRunEnd c | .rowMoveStart c | .rowMoveComplete c _ | .cacheFillLands c _ | .transferComplete c _ | .handlerDispatch c
  | .cueRemoteAdd c | .messageArrive c _ | .creditReturn c _ | .channelWatchdog c _ => some c
  | _ => none

/-- A well-formed command that names a core names one of the part's, on a C-die of the part. -/
def Statement (i : Instr) : Prop := i.wf = true → ∀ c, coreNamed i = some c → c < 25600 ∧ Machine.dieOf c < 4

theorem of_core {i : Instr} {k : Nat} {b : Bool} (hc : coreNamed i = some k) (hw : i.wf = (coreNum k && b)) : Statement i := by
  intro h c e
  rw [hc] at e
  cases e
  rw [hw] at h
  have hk : k < 25600 := by
    have := (Bool.and_eq_true _ _ ▸ h).1
    exact of_decide_eq_true this
  exact ⟨hk, by unfold Machine.dieOf; omega⟩

theorem of_none {i : Instr} (hc : coreNamed i = none) : Statement i := by
  intro _ c e
  rw [hc] at e
  cases e

theorem endOp : ∀ x0 x1, Statement (.endOp x0 x1) := fun _ _ => of_core rfl rfl
theorem nop : ∀ x0 x1, Statement (.nop x0 x1) := fun _ _ => of_core rfl rfl
theorem fence : ∀ x0 x1, Statement (.fence x0 x1) := fun _ _ => of_core rfl rfl
theorem intv : ∀ x0 x1, Statement (.intv x0 x1) := fun _ _ => of_core rfl rfl
theorem loop : ∀ x0 x1, Statement (.loop x0 x1) := fun _ _ => of_core rfl rfl
theorem shop : ∀ x0 x1, Statement (.shop x0 x1) := fun _ _ => of_core rfl rfl
theorem adda : ∀ x0 x1, Statement (.adda x0 x1) := fun _ _ => of_core rfl rfl
theorem ldr : ∀ x0 x1, Statement (.ldr x0 x1) := fun _ _ => of_core rfl rfl
theorem str : ∀ x0 x1, Statement (.str x0 x1) := fun _ _ => of_core rfl rfl
theorem mov : ∀ x0 x1, Statement (.mov x0 x1) := fun _ _ => of_core rfl rfl
theorem trd : ∀ x0 x1, Statement (.trd x0 x1) := fun _ _ => of_core rfl rfl
theorem srd : ∀ x0 x1, Statement (.srd x0 x1) := fun _ _ => of_core rfl rfl
theorem gath : ∀ x0 x1, Statement (.gath x0 x1) := fun _ _ => of_core rfl rfl
theorem xfer : ∀ x0 x1, Statement (.xfer x0 x1) := fun _ _ => of_core rfl rfl
theorem cinv : ∀ x0 x1, Statement (.cinv x0 x1) := fun _ _ => of_core rfl rfl
theorem mat : ∀ x0 x1, Statement (.mat x0 x1) := fun _ _ => of_core rfl rfl
theorem maux : ∀ x0 x1, Statement (.maux x0 x1) := fun _ _ => of_core rfl rfl
theorem run : ∀ x0 x1, Statement (.run x0 x1) := fun _ _ => of_core rfl rfl
theorem send : ∀ x0 x1, Statement (.send x0 x1) := fun _ _ => of_core rfl rfl
theorem post : ∀ x0 x1, Statement (.post x0 x1) := fun _ _ => of_core rfl rfl
theorem recv : ∀ x0 x1, Statement (.recv x0 x1) := fun _ _ => of_core rfl rfl
theorem wait : ∀ x0 x1, Statement (.wait x0 x1) := fun _ _ => of_core rfl rfl
theorem cue : ∀ x0 x1, Statement (.cue x0 x1) := fun _ _ => of_core rfl rfl
theorem curt : ∀ x0 x1, Statement (.curt x0 x1) := fun _ _ => of_core rfl rfl
theorem matrixStepStart : ∀ x0, Statement (.matrixStepStart x0) := fun _ => of_core (b := true) rfl (Bool.and_true _).symm
theorem matrixStepRetire : ∀ x0, Statement (.matrixStepRetire x0) := fun _ => of_core (b := true) rfl (Bool.and_true _).symm
theorem epilogueStart : ∀ x0, Statement (.epilogueStart x0) := fun _ => of_core (b := true) rfl (Bool.and_true _).symm
theorem epilogueEnd : ∀ x0, Statement (.epilogueEnd x0) := fun _ => of_core (b := true) rfl (Bool.and_true _).symm
theorem elementRunStart : ∀ x0, Statement (.elementRunStart x0) := fun _ => of_core (b := true) rfl (Bool.and_true _).symm
theorem elementRunEnd : ∀ x0, Statement (.elementRunEnd x0) := fun _ => of_core (b := true) rfl (Bool.and_true _).symm
theorem rowMoveStart : ∀ x0, Statement (.rowMoveStart x0) := fun _ => of_core (b := true) rfl (Bool.and_true _).symm
theorem rowMoveComplete : ∀ x0 x1, Statement (.rowMoveComplete x0 x1) := fun _ _ => of_core (b := true) rfl (Bool.and_true _).symm
theorem cacheFillLands : ∀ x0 x1, Statement (.cacheFillLands x0 x1) := fun _ _ => of_core (b := true) rfl (Bool.and_true _).symm
theorem transferComplete : ∀ x0 x1, Statement (.transferComplete x0 x1) := fun _ _ => of_core (b := true) rfl (Bool.and_true _).symm
theorem rowRead : ∀ x0 x1 x2, Statement (.rowRead x0 x1 x2) := fun _ _ _ => of_none rfl
theorem rowWrite : ∀ x0, Statement (.rowWrite x0) := fun _ => of_none rfl
theorem partialWrite : ∀ x0, Statement (.partialWrite x0) := fun _ => of_none rfl
theorem refresh : ∀ x0 x1 x2 x3, Statement (.refresh x0 x1 x2 x3) := fun _ _ _ _ => of_none rfl
theorem retrain : ∀ x0 x1 x2, Statement (.retrain x0 x1 x2) := fun _ _ _ => of_none rfl
theorem taskSubmit : ∀ x0, Statement (.taskSubmit x0) := fun _ => of_none rfl
theorem predecessorResolve : ∀ x0, Statement (.predecessorResolve x0) := fun _ => of_none rfl
theorem predicateRead : ∀ x0, Statement (.predicateRead x0) := fun _ => of_none rfl
theorem taskStart : ∀ x0, Statement (.taskStart x0) := fun _ => of_none rfl
theorem handlerDispatch : ∀ x0, Statement (.handlerDispatch x0) := fun _ => of_core (b := true) rfl (Bool.and_true _).symm
theorem taskComplete : ∀ x0, Statement (.taskComplete x0) := fun _ => of_none rfl
theorem fanListRead : ∀ x0, Statement (.fanListRead x0) := fun _ => of_none rfl
theorem fanChildCreate : ∀ x0, Statement (.fanChildCreate x0) := fun _ => of_none rfl
theorem shareTick : Statement (.shareTick) := of_none rfl
theorem preemptLapse : ∀ x0, Statement (.preemptLapse x0) := fun _ => of_none rfl
theorem saveBegin : ∀ x0, Statement (.saveBegin x0) := fun _ => of_none rfl
theorem saveComplete : ∀ x0, Statement (.saveComplete x0) := fun _ => of_none rfl
theorem restoreBegin : ∀ x0, Statement (.restoreBegin x0) := fun _ => of_none rfl
theorem restoreComplete : ∀ x0, Statement (.restoreComplete x0) := fun _ => of_none rfl
theorem stgPreemptReq : ∀ x0 x1 x2, Statement (.stgPreemptReq x0 x1 x2) := fun _ _ _ => of_none rfl
theorem seatEnable : ∀ x0 x1 x2, Statement (.seatEnable x0 x1 x2) := fun _ _ _ => of_none rfl
theorem seatDisable : ∀ x0 x1 x2, Statement (.seatDisable x0 x1 x2) := fun _ _ _ => of_none rfl
theorem stgShareCfg : ∀ x0 x1, Statement (.stgShareCfg x0 x1) := fun _ _ => of_none rfl
theorem cueRemoteAdd : ∀ x0, Statement (.cueRemoteAdd x0) := fun _ => of_core (b := true) rfl (Bool.and_true _).symm
theorem wireForward : ∀ x0, Statement (.wireForward x0) := fun _ => of_none rfl
theorem cueInEdge : ∀ x0, Statement (.cueInEdge x0) := fun _ => of_none rfl
theorem curtainRelease : ∀ x0, Statement (.curtainRelease x0) := fun _ => of_none rfl
theorem packageCurtainTimeout : ∀ x0, Statement (.packageCurtainTimeout x0) := fun _ => of_none rfl
theorem messageArrive : ∀ x0 x1, Statement (.messageArrive x0 x1) := fun _ _ => of_core rfl rfl
theorem creditReturn : ∀ x0 x1, Statement (.creditReturn x0 x1) := fun _ _ => of_core rfl rfl
theorem channelWatchdog : ∀ x0 x1, Statement (.channelWatchdog x0 x1) := fun _ _ => of_core rfl rfl
theorem cueSheetSlot : ∀ x0, Statement (.cueSheetSlot x0) := fun _ => of_none rfl
theorem houseSlot : ∀ x0 x1 x2, Statement (.houseSlot x0 x1 x2) := fun _ _ _ => of_none rfl
theorem prompterRepair : ∀ x0, Statement (.prompterRepair x0) := fun _ => of_none rfl
theorem beatMonitorWindow : ∀ x0 x1 x2, Statement (.beatMonitorWindow x0 x1 x2) := fun _ _ _ => of_none rfl
theorem monitorCalibration : ∀ x0 x1, Statement (.monitorCalibration x0 x1) := fun _ _ => of_none rfl
theorem demandSnapshot : ∀ x0, Statement (.demandSnapshot x0) := fun _ => of_none rfl
theorem controlPeriod : Statement (.controlPeriod) := of_none rfl
theorem rateTableRefresh : ∀ x0 x1, Statement (.rateTableRefresh x0 x1) := fun _ _ => of_none rfl
theorem avsTransactionComplete : ∀ x0 x1 x2, Statement (.avsTransactionComplete x0 x1 x2) := fun _ _ _ => of_none rfl
theorem pceStatAvsClear : ∀ x0 x1, Statement (.pceStatAvsClear x0 x1) := fun _ _ => of_none rfl
theorem trvBmonClr : ∀ x0 x1 x2, Statement (.trvBmonClr x0 x1 x2) := fun _ _ _ => of_none rfl
theorem timebaseAlign : Statement (.timebaseAlign) := of_none rfl
theorem ppsEdge : Statement (.ppsEdge) := of_none rfl
theorem holdover : Statement (.holdover) := of_none rfl
theorem timSet : ∀ x0 x1, Statement (.timSet x0 x1) := fun _ _ => of_none rfl
theorem portTraining : ∀ x0 x1, Statement (.portTraining x0 x1) := fun _ _ => of_none rfl
theorem portDown : ∀ x0 x1, Statement (.portDown x0 x1) := fun _ _ => of_none rfl
theorem dataFlit : ∀ x0 x1 x2, Statement (.dataFlit x0 x1 x2) := fun _ _ _ => of_none rfl
theorem idleFlit : ∀ x0 x1 x2, Statement (.idleFlit x0 x1 x2) := fun _ _ _ => of_none rfl
theorem nak : ∀ x0 x1 x2, Statement (.nak x0 x1 x2) := fun _ _ _ => of_none rfl
theorem timeFlit : ∀ x0 x1 x2, Statement (.timeFlit x0 x1 x2) := fun _ _ _ => of_none rfl
theorem timeFlitSend : ∀ x0, Statement (.timeFlitSend x0) := fun _ => of_none rfl
theorem packetForward : ∀ x0, Statement (.packetForward x0) := fun _ => of_none rfl
theorem escapeTimeout : ∀ x0 x1, Statement (.escapeTimeout x0 x1) := fun _ _ => of_none rfl
theorem fabricDoorbell : ∀ x0, Statement (.fabricDoorbell x0) := fun _ => of_none rfl
theorem fabricDescriptorStart : ∀ x0, Statement (.fabricDescriptorStart x0) := fun _ => of_none rfl
theorem put : ∀ x0, Statement (.put x0) := fun _ => of_none rfl
theorem getReq : ∀ x0, Statement (.getReq x0) := fun _ => of_none rfl
theorem getResp : ∀ x0, Statement (.getResp x0) := fun _ => of_none rfl
theorem signal : ∀ x0, Statement (.signal x0) := fun _ => of_none rfl
theorem signalAdd : ∀ x0, Statement (.signalAdd x0) := fun _ => of_none rfl
theorem red : ∀ x0, Statement (.red x0) := fun _ => of_none rfl
theorem ack : ∀ x0, Statement (.ack x0) := fun _ => of_none rfl
theorem curtArrive : ∀ x0, Statement (.curtArrive x0) := fun _ => of_none rfl
theorem curtRelease : ∀ x0, Statement (.curtRelease x0) := fun _ => of_none rfl
theorem brk : ∀ x0, Statement (.brk x0) := fun _ => of_none rfl
theorem ackTimeout : ∀ x0 x1, Statement (.ackTimeout x0 x1) := fun _ _ => of_none rfl
theorem fabSwap : ∀ x0 x1, Statement (.fabSwap x0 x1) := fun _ _ => of_none rfl
theorem injectStop : ∀ x0 x1, Statement (.injectStop x0 x1) := fun _ _ => of_none rfl
theorem fabCfgWrite : ∀ x0 x1, Statement (.fabCfgWrite x0 x1) := fun _ _ => of_none rfl
theorem circuitTableWrite : ∀ x0 x1 x2 x3, Statement (.circuitTableWrite x0 x1 x2 x3) := fun _ _ _ _ => of_none rfl
theorem retrainPort : ∀ x0 x1, Statement (.retrainPort x0 x1) := fun _ _ => of_none rfl
theorem clearHighWater : ∀ x0 x1, Statement (.clearHighWater x0 x1) := fun _ _ => of_none rfl
theorem cfgLoad : ∀ x0 x1, Statement (.cfgLoad x0 x1) := fun _ _ => of_none rfl
theorem cfgLoadDoorbell : Statement (.cfgLoadDoorbell) := of_none rfl
theorem scriptCheck : Statement (.scriptCheck) := of_none rfl
theorem scriptCommit : ∀ x0, Statement (.scriptCommit x0) := fun _ => of_none rfl
theorem sceneQuietTimeout : Statement (.sceneQuietTimeout) := of_none rfl
theorem chainData : ∀ x0, Statement (.chainData x0) := fun _ => of_none rfl
theorem chainEnd : ∀ x0, Statement (.chainEnd x0) := fun _ => of_none rfl
theorem abort : ∀ x0, Statement (.abort x0) := fun _ => of_none rfl
theorem chainIdle : ∀ x0, Statement (.chainIdle x0) := fun _ => of_none rfl
theorem chainIdleSend : Statement (.chainIdleSend) := of_none rfl
theorem chainPositionTimeout : Statement (.chainPositionTimeout) := of_none rfl
theorem upstreamTimeout : Statement (.upstreamTimeout) := of_none rfl
theorem submissionDoorbell : ∀ x0 x1 x2, Statement (.submissionDoorbell x0 x1 x2) := fun _ _ _ => of_none rfl
theorem ringEntryRead : ∀ x0 x1, Statement (.ringEntryRead x0 x1) := fun _ _ => of_none rfl
theorem completionHeadDoorbell : ∀ x0 x1 x2, Statement (.completionHeadDoorbell x0 x1 x2) := fun _ _ _ => of_none rfl
theorem completionTimeThreshold : ∀ x0, Statement (.completionTimeThreshold x0) := fun _ => of_none rfl
theorem functionLevelReset : ∀ x0, Statement (.functionLevelReset x0) := fun _ => of_none rfl
theorem hstWin : ∀ x0 x1 x2, Statement (.hstWin x0 x1 x2) := fun _ _ _ => of_none rfl
theorem bar2Access : ∀ x0 x1 x2, Statement (.bar2Access x0 x1 x2) := fun _ _ _ => of_none rfl
theorem registerWrite : ∀ x0 x1 x2 x3, Statement (.registerWrite x0 x1 x2 x3) := fun _ _ _ _ => of_none rfl
theorem cluChHsel : ∀ x0 x1 x2 x3, Statement (.cluChHsel x0 x1 x2 x3) := fun _ _ _ _ => of_none rfl
theorem memChWaitMax : ∀ x0 x1 x2, Statement (.memChWaitMax x0 x1 x2) := fun _ _ _ => of_none rfl
theorem errLogRd : ∀ x0 x1, Statement (.errLogRd x0 x1) := fun _ _ => of_none rfl
theorem pwrLimit : ∀ x0 x1, Statement (.pwrLimit x0 x1) := fun _ _ => of_none rfl
theorem stuckRelease : ∀ x0 x1, Statement (.stuckRelease x0 x1) := fun _ _ => of_none rfl
theorem pwrGoodAssert : Statement (.pwrGoodAssert) := of_none rfl
theorem pwrGoodLoss : Statement (.pwrGoodLoss) := of_none rfl
theorem auxGoodLoss : Statement (.auxGoodLoss) := of_none rfl
theorem resetNAssert : Statement (.resetNAssert) := of_none rfl
theorem resetNRelease : Statement (.resetNRelease) := of_none rfl
theorem bootAreaRead : ∀ x0 x1, Statement (.bootAreaRead x0 x1) := fun _ _ => of_none rfl
theorem firmwareVerify : ∀ x0, Statement (.firmwareVerify x0) := fun _ => of_none rfl
theorem rehearsal : ∀ x0 x1 x2 x3, Statement (.rehearsal x0 x1 x2 x3) := fun _ _ _ _ => of_none rfl
theorem baseScriptLoad : ∀ x0 x1, Statement (.baseScriptLoad x0 x1) := fun _ _ => of_none rfl
theorem bootPortTraining : ∀ x0 x1, Statement (.bootPortTraining x0 x1) := fun _ _ => of_none rfl
theorem secProvCtl : ∀ x0 x1, Statement (.secProvCtl x0 x1) := fun _ _ => of_none rfl
theorem ownerRecordBuilt : ∀ x0, Statement (.ownerRecordBuilt x0) := fun _ => of_none rfl
theorem secExtend : ∀ x0 x1, Statement (.secExtend x0 x1) := fun _ _ => of_none rfl
theorem secQctl : ∀ x0 x1, Statement (.secQctl x0 x1) := fun _ _ => of_none rfl
theorem quoteSign : Statement (.quoteSign) := of_none rfl
theorem quoteComplete : Statement (.quoteComplete) := of_none rfl
theorem errorLogEntry : ∀ x0, Statement (.errorLogEntry x0) := fun _ => of_none rfl
theorem recoveryWindowExpiry : Statement (.recoveryWindowExpiry) := of_none rfl
theorem sceneRecovery : ∀ x0 x1 x2, Statement (.sceneRecovery x0 x1 x2) := fun _ _ _ => of_none rfl
theorem refclkLoss : Statement (.refclkLoss) := of_none rfl
theorem thermalTrip : ∀ x0 x1 x2, Statement (.thermalTrip x0 x1 x2) := fun _ _ _ => of_none rfl
theorem bandGateOff : ∀ x0 x1, Statement (.bandGateOff x0 x1) := fun _ _ => of_none rfl
theorem bandPowerUp : ∀ x0 x1, Statement (.bandPowerUp x0 x1) := fun _ _ => of_none rfl
theorem filteredEdge : ∀ x0 x1 x2 x3, Statement (.filteredEdge x0 x1 x2 x3) := fun _ _ _ _ => of_none rfl
theorem stuckInput : ∀ x0, Statement (.stuckInput x0) := fun _ => of_none rfl
theorem enec : Statement (.enec) := of_none rfl
theorem disec : Statement (.disec) := of_none rfl
theorem rstdaa : Statement (.rstdaa) := of_none rfl
theorem entdaa : ∀ x0, Statement (.entdaa x0) := fun _ => of_none rfl
theorem setdasa : ∀ x0, Statement (.setdasa x0) := fun _ => of_none rfl
theorem setnewda : ∀ x0, Statement (.setnewda x0) := fun _ => of_none rfl
theorem setmwl : ∀ x0, Statement (.setmwl x0) := fun _ => of_none rfl
theorem setmrl : ∀ x0, Statement (.setmrl x0) := fun _ => of_none rfl
theorem getmwl : Statement (.getmwl) := of_none rfl
theorem getmrl : Statement (.getmrl) := of_none rfl
theorem getpid : Statement (.getpid) := of_none rfl
theorem getbcr : Statement (.getbcr) := of_none rfl
theorem getdcr : Statement (.getdcr) := of_none rfl
theorem getstatus : Statement (.getstatus) := of_none rfl
theorem i3cRead : ∀ x0 x1, Statement (.i3cRead x0 x1) := fun _ _ => of_none rfl
theorem i3cWrite : ∀ x0 x1 x2, Statement (.i3cWrite x0 x1 x2) := fun _ _ _ => of_none rfl
theorem i3cPrivateRead : Statement (.i3cPrivateRead) := of_none rfl
theorem extest : ∀ x0, Statement (.extest x0) := fun _ => of_none rfl
theorem idcode : Statement (.idcode) := of_none rfl
theorem samplePreload : ∀ x0, Statement (.samplePreload x0) := fun _ => of_none rfl
theorem extestPulse : ∀ x0, Statement (.extestPulse x0) := fun _ => of_none rfl
theorem extestTrain : ∀ x0, Statement (.extestTrain x0) := fun _ => of_none rfl
theorem jtagClamp : Statement (.jtagClamp) := of_none rfl
theorem highz : Statement (.highz) := of_none rfl
theorem bypass : ∀ x0, Statement (.bypass x0) := fun _ => of_none rfl
theorem testLogicReset : Statement (.testLogicReset) := of_none rfl
theorem regacc : ∀ x0, Statement (.regacc x0) := fun _ => of_none rfl
theorem auxGoodAssert : ∀ x0, Statement (.auxGoodAssert x0) := fun _ => of_none rfl
theorem ibiTaken : Statement (.ibiTaken) := of_none rfl
theorem unlistedCcc : ∀ x0, Statement (.unlistedCcc x0) := fun _ => of_none rfl
theorem msixTableWrite : ∀ x0 x1 x2, Statement (.msixTableWrite x0 x1 x2) := fun _ _ _ => of_none rfl
theorem bar0RefusedRead : ∀ x0 x1 x2, Statement (.bar0RefusedRead x0 x1 x2) := fun _ _ _ => of_none rfl
theorem fabPortCfg : ∀ x0 x1 x2, Statement (.fabPortCfg x0 x1 x2) := fun _ _ _ => of_none rfl

end Sys2Proof.Laws.WellFormedOperands
end

