-- ==== Sys2Proof/Laws/Slh.lean ====
section
/-! SUPPORT. Every digest has 32 bytes, and a signature made with a key's seeds verifies under its public key (17 R514). -/

namespace Sys2Proof.Machine

open Sys2Proof

/-! ### Lengths -/

theorem shaRound_length (s : List W32) (x : W32 × W32) (h : s.length = 8) : (shaRound s x).length = 8 := by
  unfold shaRound; split
  · rfl
  · exact h
theorem shaFold_length (l : List (W32 × W32)) (s : List W32) (h : s.length = 8) : (l.foldl shaRound s).length = 8 := by
  induction l generalizing s with
  | nil => exact h
  | cons x xs ih => exact ih _ (shaRound_length s x h)
theorem shaBlocks_length (l : List (List Byte)) (h : List W32) (hh : h.length = 8) : (l.foldl shaBlock h).length = 8 := by
  induction l generalizing h with
  | nil => exact hh
  | cons x xs ih => exact ih _ (by simp [shaBlock, shaFold_length _ _ hh, hh])
theorem flatMap_length_const {α β : Type} (l : List α) (f : α → List β) (n : Nat) (h : ∀ x ∈ l, (f x).length = n) : (l.flatMap f).length = n * l.length := by
  induction l with
  | nil => simp
  | cons x xs ih => simp [List.flatMap_cons, ih (fun y hy => h y (by simp [hy])), h x (by simp), Nat.mul_succ, Nat.add_comm]
theorem sha256_length (m : List Byte) : (sha256 m).length = 32 := by
  unfold sha256
  rw [flatMap_length_const _ _ 4 (fun w _ => by simp [beBytes, leBytes_length]), shaBlocks_length _ _ (by rfl)]

/-- The strings of a list have 16 bytes each. -/
def All16 (l : List (List Byte)) : Prop := ∀ x ∈ l, x.length = 16

theorem all16_append {a b : List (List Byte)} (ha : All16 a) (hb : All16 b) : All16 (a ++ b) :=
  fun x hx => (List.mem_append.mp hx).elim (ha x) (hb x)
theorem slhHash_length (seed : List Byte) (x : SlhAdr) (m : List Byte) : (slhHash seed x m).length = 16 := by
  simp [slhHash, sha256_length]
theorem slhChain_length (seed : List Byte) (x : SlhAdr) : ∀ n i v, v.length = 16 → (slhChain seed x n i v).length = 16
  | 0, _, _, h => h
  | n + 1, i, _, _ => slhChain_length seed x n (i + 1) _ (slhHash_length _ _ _)
theorem treeNode_length (seed : List Byte) (at_ : Nat → Nat → SlhAdr) (leaf : Nat → List Byte) (h : ∀ i, (leaf i).length = 16) :
    ∀ z i, (treeNode seed at_ leaf z i).length = 16
  | 0, i => h i
  | _ + 1, _ => slhHash_length _ _ _
theorem treePath_all16 (seed : List Byte) (at_ : Nat → Nat → SlhAdr) (leaf : Nat → List Byte) (h : ∀ i, (leaf i).length = 16) (n i : Nat) :
    All16 (treePath seed at_ leaf n i) := by
  intro x hx
  obtain ⟨j, -, rfl⟩ := List.mem_map.mp hx
  exact treeNode_length _ _ _ h _ _

/-! ### One-time signatures -/

theorem slhChain_add (seed : List Byte) (x : SlhAdr) (a b : Nat) : ∀ i v, slhChain seed x (a + b) i v = slhChain seed x b (i + a) (slhChain seed x a i v) := by
  induction a with
  | zero => intro i v; rw [Nat.zero_add]; rfl
  | succ a ih => intro i v; rw [Nat.add_right_comm, slhChain, ih, show i + 1 + a = i + (a + 1) by omega]; rfl
theorem digits_lt (l : List Byte) (b n : Nat) : ∀ x ∈ digits l b n, x < 2 ^ b := by
  intro x hx
  obtain ⟨i, -, rfl⟩ := List.mem_map.mp hx
  exact Nat.mod_lt _ (Nat.two_pow_pos b)
theorem wotsDigits_le (m : List Byte) (i : Nat) : (wotsDigits m).getD i 0 ≤ 15 := by
  have h : ∀ x ∈ wotsDigits m, x < 2 ^ 4 := fun x hx => (List.mem_append.mp hx).elim (digits_lt _ _ _ x) (digits_lt _ _ _ x)
  rw [List.getD_eq_getElem?_getD]
  cases hx : (wotsDigits m)[i]? with
  | none => simp
  | some x => have := h x (List.mem_of_getElem? hx); simp; omega
theorem wots_from_sign (sk seed m : List Byte) (x : SlhAdr) : wotsFrom seed x m (wotsSign sk seed x m) = wotsPublic sk seed x := by
  simp only [wotsFrom, wotsPublic]
  congr 1
  refine List.map_congr_left (fun i hi => ?_)
  have hd := wotsDigits_le m i
  have hs : (wotsSign sk seed x m).getD i [] = slhChain seed { x with type := 0, w2 := i, w3 := 0 } ((wotsDigits m).getD i 0) 0 (wotsSecret sk seed x i) := by
    simp [wotsSign, wotsRun, List.getD_eq_getElem?_getD, List.getElem?_map, List.getElem?_range (List.mem_range.mp hi)]
  beta_reduce
  rw [hs]
  have := slhChain_add seed { x with type := 0, w2 := i, w3 := 0 } ((wotsDigits m).getD i 0) (15 - (wotsDigits m).getD i 0) 0 (wotsSecret sk seed x i)
  rw [show (wotsDigits m).getD i 0 + (15 - (wotsDigits m).getD i 0) = 15 by omega, Nat.zero_add] at this
  exact this.symm
theorem wotsSign_length (sk seed m : List Byte) (x : SlhAdr) : (wotsSign sk seed x m).length = 35 := by simp [wotsSign, wotsRun]
theorem wotsSign_all16 (sk seed m : List Byte) (x : SlhAdr) : All16 (wotsSign sk seed x m) := by
  intro y hy
  obtain ⟨i, -, rfl⟩ := List.mem_map.mp hy
  exact slhChain_length _ _ _ _ _ (slhHash_length _ _ _)
theorem wotsPublic_length (sk seed : List Byte) (x : SlhAdr) : (wotsPublic sk seed x).length = 16 := slhHash_length _ _ _

/-! ### Trees -/

/-- A node and its sibling make their parent. -/
theorem node_step (seed : List Byte) (at_ : Nat → Nat → SlhAdr) (leaf : Nat → List Byte) (z i : Nat) :
    slhHash seed (at_ (z + 1) (i / 2)) (if i % 2 = 0 then treeNode seed at_ leaf z i ++ treeNode seed at_ leaf z (i ^^^ 1)
      else treeNode seed at_ leaf z (i ^^^ 1) ++ treeNode seed at_ leaf z i) = treeNode seed at_ leaf (z + 1) (i / 2) := by
  rw [treeNode]
  congr 1
  split
  · next h => rw [Nat.xor_one_of_even (Nat.even_iff.mpr h), show 2 * (i / 2) = i by omega]
  · next h => rw [Nat.xor_one_of_odd (Nat.odd_iff.mpr (by omega)), show 2 * (i / 2) = i - 1 by omega, show i - 1 + 1 = i by omega]
theorem treeRoot_climbs (seed : List Byte) (at_ : Nat → Nat → SlhAdr) (leaf : Nat → List Byte) (n : Nat) : ∀ z i,
    treeRoot seed at_ z i (treeNode seed at_ leaf z i) ((List.range n).map (fun j => treeNode seed at_ leaf (z + j) ((i / 2 ^ j) ^^^ 1))) =
      treeNode seed at_ leaf (z + n) (i / 2 ^ n) := by
  induction n with
  | zero => intro z i; simp [treeRoot]
  | succ n ih =>
    intro z i
    rw [List.range_succ_eq_map, List.map_cons, List.map_map]
    simp only [treeRoot, Nat.pow_zero, Nat.div_one, Nat.add_zero, node_step]
    have := ih (z + 1) (i / 2)
    rw [show z + 1 + n = z + (n + 1) by omega, Nat.div_div_eq_div_mul, ← Nat.pow_succ'] at this
    rw [← this]
    congr 1
    refine List.map_congr_left (fun j _ => ?_)
    simp only [Function.comp, Nat.succ_eq_add_one]
    rw [show z + (j + 1) = z + 1 + j by omega, Nat.div_div_eq_div_mul, ← Nat.pow_succ']
theorem path_leads_to_root (seed : List Byte) (at_ : Nat → Nat → SlhAdr) (leaf : Nat → List Byte) (n i : Nat) (h : i < 2 ^ n) :
    treeRoot seed at_ 0 i (leaf i) (treePath seed at_ leaf n i) = treeNode seed at_ leaf n 0 := by
  have := treeRoot_climbs seed at_ leaf n 0 i
  simpa [treePath, treeNode, Nat.div_eq_of_lt h] using this

/-! ### The hypertree -/

theorem xmss_from_sign (q : SlhSet) (sk seed m : List Byte) (layer tree leaf : Nat) (h : leaf < 2 ^ q.hp) :
    xmssFrom seed layer tree leaf m (xmssSign q sk seed layer tree leaf m) = xmssNode sk seed layer tree q.hp 0 := by
  have hl := wotsSign_length sk seed m (wotsAdr layer tree leaf)
  unfold xmssFrom xmssSign xmssNode
  rw [List.take_left' hl, List.drop_left' hl, wots_from_sign]
  exact path_leads_to_root seed (xmssAdr layer tree) (fun j => wotsPublic sk seed (wotsAdr layer tree j)) q.hp leaf h
theorem xmssSign_length (q : SlhSet) (sk seed m : List Byte) (layer tree leaf : Nat) : (xmssSign q sk seed layer tree leaf m).length = 35 + q.hp := by
  simp [xmssSign, wotsSign_length, treePath]
theorem xmssSign_all16 (q : SlhSet) (sk seed m : List Byte) (layer tree leaf : Nat) : All16 (xmssSign q sk seed layer tree leaf m) :=
  all16_append (wotsSign_all16 _ _ _ _) (treePath_all16 _ _ _ (fun _ => wotsPublic_length _ _ _) _ _)
theorem hyper_from_sign (q : SlhSet) (sk seed : List Byte) (n : Nat) : ∀ layer tree leaf m, leaf < 2 ^ q.hp →
    hyperFrom q seed (n + 1) layer tree leaf m (hyperSign q sk seed (n + 1) layer tree leaf m) =
      xmssNode sk seed (layer + n) (tree / 2 ^ (q.hp * n)) q.hp 0 := by
  induction n with
  | zero =>
    intro layer tree leaf m h
    have hl := xmssSign_length q sk seed m layer tree leaf
    simp only [hyperFrom, hyperSign, List.append_nil, List.take_of_length_le (Nat.le_of_eq hl), xmss_from_sign q sk seed m layer tree leaf h, Nat.add_zero,
      Nat.mul_zero, Nat.pow_zero, Nat.div_one]
  | succ n ih =>
    intro layer tree leaf m h
    have hl := xmssSign_length q sk seed m layer tree leaf
    rw [hyperFrom, hyperSign, List.take_left' hl, List.drop_left' hl, xmss_from_sign q sk seed m layer tree leaf h,
      ih (layer + 1) (tree / 2 ^ q.hp) (tree % 2 ^ q.hp) _ (Nat.mod_lt _ (Nat.two_pow_pos _)), Nat.div_div_eq_div_mul, ← Nat.pow_add,
      show layer + 1 + n = layer + (n + 1) by omega, show q.hp + q.hp * n = q.hp * (n + 1) by rw [Nat.mul_succ, Nat.add_comm]]
theorem hyperSign_length (q : SlhSet) (sk seed : List Byte) : ∀ n layer tree leaf m, (hyperSign q sk seed n layer tree leaf m).length = n * (35 + q.hp)
  | 0, _, _, _, _ => by simp [hyperSign]
  | n + 1, _, _, _, _ => by rw [hyperSign, List.length_append, xmssSign_length, hyperSign_length q sk seed n, Nat.succ_mul, Nat.add_comm]
theorem hyperSign_all16 (q : SlhSet) (sk seed : List Byte) : ∀ n layer tree leaf m, All16 (hyperSign q sk seed n layer tree leaf m)
  | 0, _, _, _, _ => by intro x hx; simp [hyperSign] at hx
  | n + 1, _, _, _, _ => all16_append (xmssSign_all16 _ _ _ _ _ _ _) (hyperSign_all16 q sk seed n _ _ _ _)

/-! ### FORS and whole signatures -/

theorem forsSign_length (q : SlhSet) (sk seed : List Byte) (tree leaf : Nat) (md : List Nat) : (forsSign q sk seed tree leaf md).length = q.k * (q.a + 1) := by
  unfold forsSign
  rw [flatMap_length_const _ _ (q.a + 1) (fun j _ => by simp [forsPart, treePath]), List.length_range, Nat.mul_comm]
theorem forsSign_all16 (q : SlhSet) (sk seed : List Byte) (tree leaf : Nat) (md : List Nat) : All16 (forsSign q sk seed tree leaf md) := by
  intro x hx
  obtain ⟨j, -, hj⟩ := List.mem_flatMap.mp hx
  rcases List.mem_cons.mp hj with rfl | hj
  · exact slhHash_length _ _ _
  · exact treePath_all16 _ _ _ (fun _ => slhHash_length _ _ _) _ _ x hj
theorem flatten_length {l : List (List Byte)} (h : All16 l) : l.flatten.length = 16 * l.length := by
  rw [← List.flatMap_id]
  exact flatMap_length_const l id 16 h
theorem chunksF_flatten : ∀ (l : List (List Byte)) (f : Nat), All16 l → l.length ≤ f → chunksF 16 f l.flatten = l
  | [], f, _, _ => by cases f <;> rfl
  | x :: xs, 0, _, h => by simp at h
  | x :: xs, f + 1, h, hf => by
    have hx : x.length = 16 := h x (by simp)
    have ih := chunksF_flatten xs f (fun y hy => h y (by simp [hy])) (by simpa using hf)
    cases x with
    | nil => simp at hx
    | cons b x =>
      simp only [List.flatten_cons, List.cons_append, chunksF]
      have e : b :: (x ++ xs.flatten) = (b :: x) ++ xs.flatten := rfl
      rw [e, List.take_left' hx, List.drop_left' hx, ih]
theorem chunks_flatten {l : List (List Byte)} (h : All16 l) : chunks 16 l.flatten = l :=
  chunksF_flatten l _ h (by rw [flatten_length h]; omega)

theorem slice_length (l : List Byte) (lo n : Nat) : (sliceB l lo n).length = n := by simp [sliceB]; omega
theorem slhPublicOf_length (q : SlhSet) (seeds : List Byte) : (slhPublicOf q seeds).length = 32 := by
  have : (xmssNode (sliceB seeds 0 16) (sliceB seeds 32 16) (q.d - 1) 0 q.hp 0).length = 16 := treeNode_length _ _ _ (fun _ => wotsPublic_length _ _ _) _ _
  simp [slhPublicOf, slice_length, this]
theorem slhParts_all16 (q : SlhSet) (seeds m : List Byte) : All16 (slhParts q seeds m) := by
  intro x hx
  simp only [slhParts, List.mem_cons] at hx
  rcases hx with rfl | hx
  · simp [hmac, sha256_length]
  · exact all16_append (forsSign_all16 _ _ _ _ _ _) (hyperSign_all16 _ _ _ _ _ _ _ _) x hx
theorem slhParts_length (q : SlhSet) (seeds m : List Byte) : (slhParts q seeds m).length = 1 + q.k * (q.a + 1) + q.d * (35 + q.hp) := by
  simp [slhParts, forsSign_length, hyperSign_length]; omega
theorem slhSignWith_length (q : SlhSet) (seeds m : List Byte) : (slhSignWith q seeds m).length = q.sigBytes := by
  rw [slhSignWith, flatten_length (slhParts_all16 q seeds m), slhParts_length]; rfl

/-- A signature verifies under the public key of the seeds that made it. -/
theorem slh_sign_verifies (q : SlhSet) (n : Nat) (hd : q.d = n + 1) (seeds m : List Byte) :
    slhVerifyWith q (slhPublicOf q seeds) m (slhSignWith q seeds m) = true := by
  have hs := slice_length seeds 32 16
  have hpk : (slhPublicOf q seeds).take 16 = sliceB seeds 32 16 := List.take_left' hs
  have hroot : (slhPublicOf q seeds).drop 16 = xmssNode (sliceB seeds 0 16) (sliceB seeds 32 16) (q.d - 1) 0 q.hp 0 := List.drop_left' hs
  have hc : chunks 16 (slhSignWith q seeds m) = slhParts q seeds m := chunks_flatten (slhParts_all16 q seeds m)
  have hp : slhParts q seeds m = slhParts q seeds m := rfl
  unfold slhVerifyWith
  simp only [slhSignWith_length, hc, hpk, hroot, decide_true, Bool.true_and]
  conv_lhs at hp => rw [slhParts]
  rw [← hp]
  simp only [List.getD_cons_zero, List.drop_one, List.tail_cons]
  generalize hg : slhDigest q ((hmac (sliceB seeds 16 16) (sliceB seeds 32 16 ++ slhPure m)).take 16) (slhPublicOf q seeds) (slhPure m) = g
  have hf := forsSign_length q (sliceB seeds 0 16) (sliceB seeds 32 16) g.2.1 g.2.2 g.1
  have hl : g.2.2 < 2 ^ q.hp := by rw [← hg]; exact Nat.mod_lt _ (Nat.two_pow_pos _)
  have ht : g.2.1 / 2 ^ (q.hp * n) = 0 := by
    apply Nat.div_eq_of_lt
    rw [← hg, show q.hp * n = q.d * q.hp - q.hp by rw [hd, Nat.succ_mul, Nat.add_sub_cancel, Nat.mul_comm]]
    exact Nat.mod_lt _ (Nat.two_pow_pos _)
  rw [List.take_left' hf, Nat.add_comm 1, List.drop_succ_cons, List.drop_left' hf, hd, hyper_from_sign q _ _ n 0 _ _ _ hl, ht, Nat.zero_add, Nat.add_sub_cancel]
  simp

end Sys2Proof.Machine
end

