-- ==== Sys2Proof/Tests/Slice0.lean ====
section
/-! SUPPORT. Small states, the smoke test of WellFormed, the words of the manual, and for every statement with hypotheses a state that meets
them. Expected values come from the manual or from hand calculation. -/

namespace Sys2Proof.Tests

set_option Elab.async false

open Sys2Proof Sys2Proof.Machine

/-! ### Small states -/

/-- A READY part with 16 MiB of LPDDR5X and nothing in it. -/
def base : Part := ({ Part.reset with phase := .ready }).setRegN (Reg.MEM_CAPACITY.at [0]) 0x1000000

/-- A state with no command waiting. -/
def st (p : Part) : State := ⟨p, []⟩

/-- Thread 0 of core 0 of `p` is ready on the operation spelled by `i`. -/
def Part.cueing (p : Part) (i : CueWord) : Part := (p.setBytes (coreCfg 0 0) (leBytes 8 (writeCue i))).onTh 0 0 Thread.ready
def cueS (i : CueWord) : State := st (Tests.Part.cueing base i)

/-- A scene of one cluster and a replica of it on cluster 0. -/
def scene0 : Scene :=
  { num := 0, fenced := false, w := 1, h := 1, r := 1, cost := 1, interval := 100, quiet := 1000, limits := List.replicate 16 100, clamp := 0, decl := List.replicate 16 (1, 0, 0), shape := [], script := 0, retiring := false }
def rep0 : Replica :=
  { scene := 0, j := 0, die := 0, origin := 0, w := 1, h := 1, fenced := false, clamp := 0, dark := false, st := .free, task := none, preempt := none, curts := [] }

def key0 : TaskKey := ⟨1, 1, 0xFFFF⟩
def task0 : Task :=
  { key := key0, scene := 0, seat := 0, group := 0, kind := 0, cost := 1, flags := 0, shape := 0, fanMax := 0, pred := 0, preds := [], predFailed := false, predSkipped := false, ptrs := List.replicate 8 0, src := .house, home := 0, slot := 0, st := .waiting, askPred := false, stamp := 0, aborts := 0, anchor := none, claimed := none, save := none, list := [], nextChild := 0, children := 0, childFailed := false, listRead := false, beat0 := 0, overrun := false, charged := 0 }
def step0 : MatStep :=
  { uid := 0, thread := 0, m := 1, n := 1, k := 1, arow := 0, brow := 1, atag := 5, btag := 5, shape := 0, acc := false, scan := false, tile := 0, chain := 0, close := false, done := 0, slices := 0, tri := false, aux := none }

/-! ### Cue operations -/

def nopS : State := cueS .nop
def mauxS : State := cueS (.maux ⟨0, 0, 0, 0, 0, 0, 0, 0, 0⟩)
def fenceS : State := cueS (.fence 1 false)
/-- A matrix step of the thread is outstanding. -/
def fenceWaitS : State := st (fenceS.part.onCore 0 (fun k => { k with matq := [step0] }) |> fun p => { p with uid := 1 })
def intvS : State := cueS .intv
def intvAskedS : State :=
  st { intvS.part with stg := { Stage.reset with replicas := [{ rep0 with preempt := some ⟨0, false, none⟩ }] } }
/-- The worked example's LOOP of 07. -/
def loopS : State := cueS (.loop { lvl := 0, stop := 10, src := false, reg := 0, sh := 0, imm := 2 })
def loopRegS : State := cueS (.loop { lvl := 3, stop := 10, src := true, reg := 5, sh := 2, imm := 0 })
def endS : State := cueS .endOp
def endHandlerS : State :=
  st (endS.part.onCore 0 (fun k => { k.onTh 0 (fun x => { x with handler := true, queue := 3 }) with
    queues := modAt k.queues 3 (fun q => { q with running := true }) }))

theorem wit_control_nop : nopS.mayIssue 0 0 Op.NOP := ⟨rfl, by decide +kernel⟩
theorem wit_control_maux : mauxS.mayIssue 0 0 Op.MAUX := ⟨rfl, by decide +kernel⟩
theorem wit_control_fence : fenceS.mayIssue 0 0 Op.FENCE ∧ fenceWaitS.mayIssue 0 0 Op.FENCE := ⟨⟨rfl, by decide +kernel⟩, rfl, by decide +kernel⟩
theorem wit_control_intv : intvS.mayIssue 0 0 Op.INTV ∧ intvAskedS.mayIssue 0 0 Op.INTV := ⟨⟨rfl, by decide +kernel⟩, rfl, by decide +kernel⟩
theorem wit_control_loop : loopS.mayIssue 0 0 Op.LOOP ∧ loopRegS.mayIssue 0 0 Op.LOOP := ⟨⟨rfl, by decide +kernel⟩, rfl, by decide +kernel⟩
theorem wit_control_end : endS.mayIssue 0 0 Op.END ∧ (endS.part.th 0 0).handler = false := ⟨⟨rfl, by decide +kernel⟩, by decide +kernel⟩
theorem wit_control_end_handler : endHandlerS.mayIssue 0 0 Op.END ∧ (endHandlerS.part.th 0 0).handler = true ∧ (endHandlerS.part.th 0 0).queue < 16 ∧
    (endHandlerS.part.th 0 0).queue < (endHandlerS.part.core 0).queues.length := ⟨⟨rfl, by decide +kernel⟩, by decide +kernel⟩

/-- SHOP of each function on SH1 = 0x80000001 and SH2 = 3 into SH5. -/
def shopS (fn : Nat) : State :=
  st ((cueS (.shop { d := 5, a := 1, b := 2, fn := fn, bimm := false, alc := false, lvl := 0, imm := 0 })).part.onCore 0 (fun k =>
    { k with sh := (k.sh.set 1 0x80000001).set 2 3 }))
/-- ADDA of P1 = 5, SH2 = 3 shifted by 4, and -100: the sum passes below 0. -/
def addaS : State :=
  st ((cueS (.adda { d := 0, a := 1, b := 2, useb := true, sh := 4, imm := 0xFFFFFF9C })).part.onCore 0 (fun k =>
    { k with sh := k.sh.set 2 3, ptrs := k.ptrs.set 1 5 }))

theorem wit_shop : (shopS 0).mayIssue 0 0 Op.SHOP ∧ (shopS 7).mayIssue 0 0 Op.SHOP := ⟨⟨rfl, by decide +kernel⟩, rfl, by decide +kernel⟩
theorem wit_adda : addaS.mayIssue 0 0 Op.ADDA := ⟨rfl, by decide +kernel⟩

def waitS (kind sel : Nat) (consume : Bool) (v : Nat) : State :=
  st ((cueS (.wait kind sel consume v)).part.onCore 0 (fun k =>
    { k with wire := 1 <<< 5, cnt := k.cnt.set 2 7, queues := modAt k.queues 3 (fun q => { q with msgs := [⟨[], 0, 1, 0, none⟩] }) }))
/-- Cue wire 9 of cluster 0 reaches cores 0 and 2 and is forwarded to wire 4 of cluster 7. -/
def cueOpS (kind : Nat) : State :=
  let i := CueWord.cue kind (if kind = 0 then 9 else 2) 3 5
  st ((cueS i).part.setBytes (cfgAddr 0 (0x44000 + 36)) (leBytes 4 (5 + 2 ^ 16 + 7 * 2 ^ 17 + 4 * 2 ^ 26)))
def curtS (w : Bool) : State := cueS (.curt 2 w)
def curtAgainS : State := st ((curtS true).part.onCore 0 (fun k => k.setArrival 2 ⟨true, true⟩))

theorem wit_wait : (waitS 0 5 false 0).mayIssue 0 0 Op.WAIT ∧ (waitS 1 2 true 7).mayIssue 0 0 Op.WAIT ∧ (waitS 2 3 false 0).mayIssue 0 0 Op.WAIT :=
  ⟨⟨rfl, by decide +kernel⟩, ⟨rfl, by decide +kernel⟩, rfl, by decide +kernel⟩
theorem wit_cue : (cueOpS 0).mayIssue 0 0 Op.CUE ∧ (cueOpS 1).mayIssue 0 0 Op.CUE ∧ (cueOpS 2).mayIssue 0 0 Op.CUE :=
  ⟨⟨rfl, by decide +kernel⟩, ⟨rfl, by decide +kernel⟩, rfl, by decide +kernel⟩
theorem wit_cue_add : (∀ th ∈ ((cueOpS 1).part.core 0).threads, th.on = .nothing) ∧ ((cueOpS 1).part.core 0).threads.length = 8 ∧
    (((cueOpS 1).part.core 0).cnt.getD (2 % 16) 0).toNat + 5 < 2 ^ 32 := by decide +kernel
theorem wit_wait_counter : ((waitS 1 2 true 7).part.core 0).calm ∧ 7 ≤ (((waitS 1 2 true 7).part.core 0).cnt.getD 2 0).toNat ∧
    (∀ j ∈ (((waitS 1 2 true 7).part.core 0).beat 0).due, opcode ((waitS 1 2 true 7).part.wordAt 0 j) ∉ [Op.CUE, Op.WAIT]) ∧
    (((waitS 1 2 true 8).part.core 0).cnt.getD 2 0).toNat < 8 := by unfold Core.calm; decide +kernel
theorem wit_curt : (curtS true).mayIssue 0 0 Op.CURT ∧ (curtS false).mayIssue 0 0 Op.CURT ∧ curtAgainS.mayIssue 0 0 Op.CURT :=
  ⟨⟨rfl, by decide +kernel⟩, ⟨rfl, by decide +kernel⟩, rfl, by decide +kernel⟩

/-- A core whose scratch part has 64 rows and a cache of eight sets. -/
def part1 (s : State) : State := st (s.part.setBytes (coreCfg 0 0x2B00) [1])
def ldrW (cached sync : Bool) : LdrWord :=
  { place := 32, preg := 0, off := 16, cnt := 1, lvl := 0, sreg := 14, ix := true, cached := cached, sync := sync, done := 16 }
def ldrS (cached sync : Bool) : State := part1 (cueS (.ldr (ldrW cached sync)))
def strS (cached : Bool) : State := part1 (cueS (.str (ldrW cached true)))
def allowedS (s : State) : Prop :=
  (s.part.core 0).moveq.length < 8 ∧ s.part.placeFault 0 (s.part.th 0 0) 32 2 = none ∧
    ∀ i < 2 * s.part.units 0, (s.part.homeAt (512 * 16 + 512 * i)).cacheable = true ∧ (s.part.homeAt (512 * 16 + 512 * i)).movable = true

theorem wit_ldr : (ldrS false true).mayIssue 0 0 Op.LDR ∧ allowedS (ldrS false true) := ⟨⟨rfl, by decide +kernel⟩, by unfold allowedS; decide +kernel⟩
theorem wit_ldr_cached : (ldrS true false).mayIssue 0 0 Op.LDR ∧ allowedS (ldrS true false) ∧ ((ldrS true false).part.core 0).invalidating = false :=
  ⟨⟨rfl, by decide +kernel⟩, by unfold allowedS; decide +kernel, by decide +kernel⟩
theorem wit_str : (strS true).mayIssue 0 0 Op.STR ∧ allowedS (strS true) := ⟨⟨rfl, by decide +kernel⟩, by unfold allowedS; decide +kernel⟩

def movS : State := cueS (.mov { dst := 8, src := 4, n := 2, done := 17 })
def trdS : State := cueS (.trd { dst := 40, row := 16, j := 3, w := 1, done := 0 })
def srdS : State := cueS (.srd { dst := 40, row := 2, d := 3, s := 4, done := 0 })
def gathS : State := cueS (.gath { dst := 40, list := 2, e0 := 1, preg := 3, n := 4, sh := 0, sync := true, done := 0 })
def cinvS : State := cueS (.cinv { all := false, preg := 1, off := 3, done := 0 })

theorem wit_mov : movS.mayIssue 0 0 Op.MOV ∧ (movS.part.core 0).moveq.length < 8 ∧ movS.part.placeFault 0 (movS.part.th 0 0) 8 2 = none ∧
    movS.part.placeFault 0 (movS.part.th 0 0) 4 2 = none := ⟨⟨rfl, by decide +kernel⟩, by decide +kernel⟩
theorem wit_trd : trdS.mayIssue 0 0 Op.TRD ∧ trdS.part.placeFault 0 (trdS.part.th 0 0) 40 1 = none ∧
    trdS.part.sourceFault 0 (trdS.part.th 0 0) 16 1 (16 * trdS.part.units 0) = none := ⟨⟨rfl, by decide +kernel⟩, by decide +kernel⟩
theorem wit_srd : srdS.mayIssue 0 0 Op.SRD ∧ srdS.part.placeFault 0 (srdS.part.th 0 0) 40 1 = none ∧
    srdS.part.sourceFault 0 (srdS.part.th 0 0) 2 3 (16 * srdS.part.units 0) = none := ⟨⟨rfl, by decide +kernel⟩, by decide +kernel⟩
theorem wit_gath : gathS.mayIssue 0 0 Op.GATH ∧ gathS.part.placeFault 0 (gathS.part.th 0 0) 40 4 = none ∧
    2 < scratchRows (gathS.part.partition 0) := ⟨⟨rfl, by decide +kernel⟩, by decide +kernel⟩
theorem wit_cinv : cinvS.mayIssue 0 0 Op.CINV := ⟨rfl, by decide +kernel⟩

def sendS : State := cueS (.send { src := 5, slot := 2, route := 1, done := 0 })
def postS : State := cueS (.post { src := 5, slot := 2, route := 1, done := 0 })
def recvS (n : Nat) : State :=
  st ((cueS (.recv { dst := 5, slot := 2, q := 3, done := 18 })).part.onCore 0 (fun k =>
    { k with queues := modAt k.queues 3 (fun q => { q with msgs := List.replicate n ⟨[], 0, 1, 0, none⟩ }) }))

theorem wit_send : sendS.mayIssue 0 0 Op.SEND ∧ sendS.part.sourceFault 0 (sendS.part.th 0 0) 5 0 1 = none := ⟨⟨rfl, by decide +kernel⟩, by decide +kernel⟩
theorem wit_post : postS.mayIssue 0 0 Op.POST ∧ postS.part.sourceFault 0 (postS.part.th 0 0) 5 0 1 = none := ⟨⟨rfl, by decide +kernel⟩, by decide +kernel⟩
theorem wit_recv : (recvS 1).mayIssue 0 0 Op.RECV ∧ (recvS 0).mayIssue 0 0 Op.RECV ∧
    (recvS 1).part.placeFault 0 ((recvS 1).part.th 0 0) 5 1 = none ∧ ((recvS 1).part.th 0 0).handler = false ∧
    bitOf ((recvS 1).part.queueWord (queueHome 0 3).1 (queueHome 0 3).2) 0 = false ∧ 0 < (recvS 1).part.unclaimed 0 3 ∧ (recvS 0).part.unclaimed 0 3 = 0 :=
  ⟨⟨rfl, by decide +kernel⟩, ⟨rfl, by decide +kernel⟩, by decide +kernel⟩

/-- The last step of the worked example of 07 with M = N = 16 and K = 512 in SH12 and SH13; with `acc` its tile is open for its tags. -/
def matS (acc : Bool) : State :=
  st ((cueS (.mat { arow := 32, brow := 48, atag := 5, btag := 5, shape := 0, acc := acc, scan := false, tile := 0, chain := 0, close := true, sreg := 12, done := 17, slc := 0, tri := false, aux := false })).part.onCore 0 (fun k =>
    { k with sh := (k.sh.set 12 0x1010).set 13 512, sides := if acc then k.sides.set 0 { Side.reset with isOpen := true, atag := 5, btag := 5, slices := 7 } else k.sides }))
def runS : State := cueS (.run 3 true 17)

theorem wit_mat (acc : Bool) : (matS acc).mayIssue 0 0 Op.MAT ∧ ((matS acc).part.core 0).matq.length < 4 ∧
    placeOver 32 ((matS acc).part.matStep 0 0).arow = false ∧ placeOver 48 ((matS acc).part.matStep 0 0).brow = false ∧
    (matS acc).part.shapeBad 0 ((matS acc).part.matStep 0 0) = false ∧
    (∀ r ∈ ((matS acc).part.matStep 0 0).rowsRead, r < scratchRows ((matS acc).part.partition 0)) ∧
    (((matS acc).part.matStep 0 0).acc = true → ∀ x ∈ ((matS acc).part.matStep 0 0).tiles,
      (((matS acc).part.core 0).side x).refuses ((matS acc).part.matStep 0 0) = false) := by
  refine ⟨⟨by cases acc <;> rfl, by cases acc <;> decide +kernel⟩, ?_⟩
  cases acc <;> decide +kernel
theorem wit_run : runS.mayIssue 0 0 Op.RUN ∧ runS.part.vecFull 0 = false := ⟨⟨rfl, by decide +kernel⟩, by decide +kernel⟩

/-- A descriptor that copies two rows from 0x2000 to 0x4000. -/
def descCopy (kind : Nat) : List Byte :=
  leBytes 6 0x2000 ++ leBytes 2 0 ++ leBytes 6 0x4000 ++ leBytes 1 kind ++ leBytes 1 0 ++ leBytes 4 2 ++ leBytes 4 1 ++ List.replicate 40 0
def xferS : State := st ((cueS (.xfer 3 2 true 20)).part.setRow (viewAddr 0 1536) (List.replicate 128 0 ++ descCopy 0) 0)

theorem wit_xfer : xferS.mayIssue 0 0 Op.XFER ∧ xferS.part.xferOut 0 < 32 ∧ 3 < scratchRows (xferS.part.partition 0) ∧
    xferS.part.rowGood (viewAddr 0 1536) = true ∧ xferS.part.descBad (descOf (xferS.part.bytesAt (viewAddr 0 1536 + 128) 64)) = false ∧
    xferS.part.descInside (descOf (xferS.part.bytesAt (viewAddr 0 1536 + 128) 64)) = true ∧
    (xferS.part.readList (descOf (xferS.part.bytesAt (viewAddr 0 1536 + 128) 64))).2.isNone = true := ⟨⟨rfl, by decide +kernel⟩, by decide +kernel⟩


/-! ### Engines, row moves, memory -/

/-- Bytes that differ from their neighbours. -/
def noise (seed n : Nat) : List Byte := (List.range n).map (fun i => BitVec.ofNat 8 (i * (37 + seed) + i / 7 + seed))
/-- A step of three lines by five over 20 K indices of FP8 elements, at the head of the matrix queue. -/
def stepM (close : Bool) : MatStep := { step0 with m := 3, n := 5, k := 20, close := close, done := 18 }
def stepS (p : Part) : State := st (p.onCore 0 (fun k => { k with matq := [stepM true] }))
def retireS : State := st (base.onCore 0 (fun k => { k with matRun := [stepM true] }))

theorem wit_step : (stepS base).part.phase = .ready ∧ ((stepS base).part.core 0).matq = [stepM true] ∧
    (stepS base).part.stepReady 0 (stepM true) = true ∧
    (∀ r ∈ (stepS base).part.rowsTouched 0 (stepM true) ((stepS base).part.operands 0 (stepM true) []).live, (stepS base).part.placePoisoned 0 r = false) ∧
    ((stepS base).part.operands 0 (stepM true) []).bad = false ∧
    (∀ t ∈ (stepM true).targets 0, (stepS base).part.wild (stepM true) ((stepS base).part.operands 0 (stepM true) []) t = false) ∧
    ((stepS base).part.chainOf 0 0).sidecar = false ∧ (stepM true).kind ((stepS base).part.chainOf 0 0).osr = .plain ∧
    (stepM true).shape = 0 ∧ (stepM true).acc = false ∧ (stepM true).scan = false := by decide +kernel
theorem wit_retire : retireS.part.phase = .ready ∧ (retireS.part.core 0).calm ∧ (retireS.part.core 0).matRun = [stepM true] ∧
    (retireS.part.core 0).countFits 18 := by unfold Core.calm Core.countFits; decide +kernel

/-- Chain entry 0 stores tile 0 as FP32 from row 64 on (the worked example of 07). -/
def chainStore : Nat := 9 * 2 ^ 13 + 2 ^ 35 + 64 * 2 ^ 45
def epiS (p : Part) : State :=
  st ((p.setBytes (coreCfg 0 0x2800) (leBytes 32 chainStore)).onCore 0 (fun k =>
    { k with epiq := [stepM true], sides := k.sides.set 0 { Side.reset with isOpen := true, pair := (5, 5), extM := 3, extN := 5 } }))
def epiRunS : State :=
  st ((base.setBytes (coreCfg 0 0x2800) (leBytes 32 chainStore)).onCore 0 (fun k =>
    { k with epiRun := some (stepM true), epiOut := [(64, noise 4 512), (65, noise 5 512)] }))

theorem wit_epilogue : (epiS base).part.phase = .ready ∧ ((epiS base).part.core 0).epiq = [stepM true] ∧ ((epiS base).part.core 0).epiRun = none ∧
    (let e := (epiS base).part.chainOf 0 0; (epiS base).part.clear 0 0 none ((e.spanTiles ++ e.partners).map .tile) [] = true ∧
      ((epiS base).part.epiFault 0 (stepM true) e).isNone = true) := by decide +kernel
theorem wit_epilogue_end : epiRunS.part.phase = .ready ∧ (epiRunS.part.core 0).epiRun = some (stepM true) ∧
    (epiRunS.part.core 0).epiOut = [(64, noise 4 512)] ++ [(65, noise 5 512)] := by decide +kernel

def run0 : VecRun := { uid := 0, thread := 0, prog := 3, order := true, done := 17 }
def vecS : State := st (base.onCore 0 (fun k => { k with vecq := [run0] }))
def vecRunS : State := st (base.onCore 0 (fun k => { k with vecRun := some run0 }))

theorem wit_run_start : vecS.part.phase = .ready ∧ (vecS.part.core 0).vecq = [run0] ∧
    (vecS.part.core 0).vecRun = none ∧
    (let g := vecS.part.program 0 3; vecS.part.clear 0 0 none (g.flatMap ElemStep.bufReads) (g.flatMap ElemStep.bufWrites) = true ∧
      vecS.part.vecPoison 0 g = none ∧ vecS.part.vecResid 0 g = none) := by decide +kernel
theorem wit_run_end : vecRunS.part.phase = .ready ∧ (vecRunS.part.core 0).vecRun = some run0 := by decide +kernel

def moveOf (w : Move) : MoveOp := { uid := 0, thread := 0, what := w, done := 17, sync := false, looked := false, data := [], since := none }
def rowS (p : Part) (w : Move) : State := st (p.onCore 0 (fun k => { k with moveq := [moveOf w] }))
def rowRunS (w : Move) : State :=
  st (base.onCore 0 (fun k => { k with moving := [{ moveOf w with data := [(40, noise 6 512)] }] }))

theorem wit_row_move : ∀ w ∈ [Move.mov 40 0 1, .trd 40 0 3 1, .srd 40 2 3 4], (rowS base w).part.phase = .ready ∧
    ((rowS base w).part.core 0).moveq = [moveOf w] ∧ (rowS base w).part.clear 0 0 none ((w.reads ((rowS base w).part.paired 0)).map placeRes) (w.writes.map placeRes) = true ∧
    (∀ r ∈ w.reads ((rowS base w).part.paired 0), ((rowS base w).part.placeTrouble 0 r).isNone = true) := by decide +kernel
theorem wit_row_move_end : (rowRunS (.mov 40 0 1)).part.phase = .ready ∧
    ((rowRunS (.mov 40 0 1)).part.core 0).moving.find? (fun x => x.uid == 0) = some { moveOf (.mov 40 0 1) with data := [(40, noise 6 512)] } ∧
    (∀ q x y, Move.mov 40 0 1 ≠ .recv q x y) ∧ (∀ x y z w, Move.mov 40 0 1 ≠ .send x y z w) ∧ (rowRunS (.mov 40 0 1)).part.reqs = [] := by
  refine ⟨by decide +kernel, by decide +kernel, by simp, by simp, by decide +kernel⟩
theorem wit_transposed : base.paired 0 = false := by decide +kernel

def req0 : Req :=
  { uid := 0, core := 0, idx := 0, src := some 0x2000, dst := none, row := [], got := false, moved := 0, landed := false, fill := none, task := none, thread := 0, stage := 0 }
/-- Way 2 of core 0 waits for line 16. -/
def fillReq : Req := { req0 with row := noise 7 512, got := true, fill := some 2 }
def fillS : State :=
  st { ((base.setBytes (coreCfg 0 0x2B00) [1]).onCore 0 (fun k => { k with cache := [(2, ⟨16, false, true, 0⟩)] })) with reqs := [fillReq] }
def ldrReq : Req := { req0 with idx := 1 }
def readS (p : Part) : State :=
  st { (p.onCore 0 (fun k => { k with moving := [moveOf (.ldr 40 0x1E00 2 false)] })) with reqs := [ldrReq] }
/-- The copy of `descCopy` with a signal of 9 to 0x6000, its two rows landed. -/
def xferDesc : List Byte := patch (patch (patch (descCopy 0) 6 [1]) 48 (leBytes 6 0x6000)) 56 (leBytes 8 9)
def xfer0 (sig : Bool) : Xfer :=
  { uid := 5, core := 0, thread := 0, done := 17, sync := true, desc := if sig then xferDesc else descCopy 0, writing := true, submits := 0, task := none }
def xferDoneS (sig : Bool) : State :=
  st { base with xfers := [xfer0 sig], reqs := [{ req0 with uid := 5, dst := some 0x4000, got := true, landed := true }] }

theorem wit_fill : fillS.part.phase = .ready ∧ fillS.part.reqs.find? (fun x => x.core == 0 && x.fill.isSome && x.src == some (512 * 16)) = some fillReq ∧
    (∀ x ∈ fillS.part.reqs, x = fillReq) ∧ fillReq.fill = some 2 ∧ fillReq.got = true ∧ fillReq.dst = none := by decide +kernel
theorem wit_read : (readS base).part.phase = .ready ∧ (readS base).part.readerOf 0x2000 = some ldrReq ∧ (readS base).part.xferOf 0 = none ∧ (readS base).part.homeAt 0x2000 = .lpddr ∧ (readS base).part.chFailed 0x2000 = false ∧ (readS base).part.rowGood 0x2000 = true ∧
    (readS base).part.moveOf ldrReq = some (moveOf (.ldr 40 0x1E00 2 false)) := by decide +kernel
theorem wit_transfer : ∀ sig, (xferDoneS sig).part.phase = .ready ∧ (xferDoneS sig).part.xferOf 5 = some (xfer0 sig) ∧ (descOf (xfer0 sig).desc).kind ≠ 4 ∧
    (∀ r ∈ (xferDoneS sig).part.reqs, r.uid = 5 ∧ r.got = true ∧ r.landed = true) ∧ (xferDoneS sig).part.rowGood 0x6000 = true ∧
    (descOf (xfer0 sig).desc).sig = sig ∧ (xferDoneS sig).part.sigWaits 0x6000 = false ∧ (xferDoneS sig).part.homeAt 0x6000 = .lpddr ∧
    ((xferDoneS sig).part.writeFault 0x6000 8).isNone = true := by decide +kernel

def writeReq : Req := { req0 with src := none, dst := some 0x4000, row := noise 9 512, got := true }
def writeS : State := st { base with reqs := [writeReq] }
def partialS (p : Part) : State := st { p with partials := [⟨0x4010, noise 1 40, 0⟩] }

theorem wit_write : writeS.part.phase = .ready ∧ writeS.part.homeAt 0x4000 = .lpddr ∧ writeS.part.chFailed 0x4000 = false ∧ writeS.part.xferOf 0 = none ∧
    writeS.part.writerOf 0x4000 = some writeReq ∧ writeS.part.reqs.filter (fun x => x.uid == 0 && x.idx == 0) = [writeReq] ∧
    writeS.part.inPool 0x4000 512 = false := by decide +kernel
theorem wit_partial : (partialS base).part.phase = .ready ∧ (partialS base).part.homeAt 0x4010 = .lpddr ∧ (partialS base).part.chFailed 0x4010 = false ∧
    (partialS base).part.rowGood 0x4010 = true := by decide +kernel
/-- Every channel of M-die 1 is powered. -/
def channelS : State := st (base.setRegN (Reg.PWR_DOM_M.at [1]) 0xFF)

theorem wit_refresh : channelS.part.phase = .ready ∧ channelS.part.chAlive 70 = true ∧ Tab.get 0 channelS.part.retrainFails 70 < 2 := by decide +kernel


/-! ### Tasks -/

/-- The shape record of 08 with M = N = K = 16, F1 = F2 = 1 and control version 1. -/
def shape0 : List Byte := leBytes 4 16 ++ leBytes 4 16 ++ leBytes 4 16 ++ leBytes 4 0x10001 ++ List.replicate 44 0 ++ leBytes 4 0x10000
def sceneR : Scene := { scene0 with shape := shape0 }
/-- A part with the scene 0 and a replica of it on cluster 0 in state `st`, `tasks` in flight. -/
def staged (r : Replica) (tasks : List Task) : Part := { base with stg := { Stage.reset with scenes := [sceneR], replicas := [r], tasks := tasks } }

/-- A descriptor of task (7, 3) of scene 0 with predecessor (1, 1) and pointer 0x123456. -/
def desc0 (kind : Nat) : List Byte :=
  leBytes 4 7 ++ leBytes 2 3 ++ leBytes 2 0 ++ leBytes 2 0 ++ leBytes 1 (kind * 64 + 5) ++ leBytes 1 0x11 ++ leBytes 2 9 ++ leBytes 2 0x10 ++ leBytes 6 0 ++ leBytes 2 0 ++ leBytes 8 0 ++ leBytes 6 (1 + 2 ^ 32) ++ List.replicate 42 0 ++ leBytes 6 0x123456 ++ List.replicate 42 0
def submitS : State := st (staged rep0 [task0])

theorem wit_submit : submitS.part.phase = .ready ∧ submitS.part.stg.inbox = [] ∧ (desc0 0).length = 128 ∧ submitS.part.refusalCode (taskDesc (desc0 0)) = 0 ∧
    submitS.part.homeDie (taskDesc (desc0 0)) = some 0 ∧ (submitS.part.newTask (taskDesc (desc0 0)) .house 0).preds = [(1, 1)] ∧
    (submitS.part.newTask (taskDesc (desc0 0)) .house 0).seatEn = false := by decide +kernel
/-- Kind 3 is reserved (10 R295): code 3. -/
theorem wit_submit_refused : submitS.part.refusalCode (taskDesc (desc0 3)) = 3 ∧ (desc0 3).length = 128 := by decide +kernel

/-- The test "is 0" of the word at 0x8000, which is 0. -/
def predWord (c : Nat) : W64 := BitVec.ofNat 64 (c + 0x1000 * 8)
def darkRep : Replica := { rep0 with dark := true }
def waitingS (t : Task) : State := st (staged darkRep [t])

theorem wit_resolve : ∀ t ∈ [task0, { task0 with pred := predWord 2 }, { task0 with kind := 1 }], (waitingS t).part.phase = .ready ∧
    (waitingS t).part.task key0 = some t ∧ t.st = .waiting ∧ t.preds = [] ∧ t.askPred = false ∧ t.predFailed = false ∧ t.predSkipped = false ∧ t.kind ≠ 2 := by
  decide +kernel
def asking (c : Nat) : Task := { task0 with pred := predWord c, askPred := true }
theorem wit_predicate : ∀ c ∈ [1, 2], (waitingS (asking c)).part.phase = .ready ∧ (waitingS (asking c)).part.task key0 = some (asking c) ∧ (asking c).st = .waiting ∧
    (asking c).askPred = true ∧ ((waitingS (asking c)).part.readSpan (predAddr (asking c).pred.toNat) 8).2.isNone = true ∧
    predHolds (asking c).pred.toNat ((waitingS (asking c)).part.natAt (predAddr (asking c).pred.toNat) 8) = decide (c = 2) ∧ (asking c).kind ≠ 2 ∧
    (asking c).fits ∧ (asking c).key.child = 0xFFFF := by unfold Task.fits; decide +kernel

/-- Task (1, 1) is READY at home die 1 for the free replica of die 0; thread 2 of core 3 starts at entry 5. -/
def taskR : Task := { task0 with home := 1, st := .ready, ptrs := [0x1000, 0x2000] }
def startS : State := st ((staged rep0 [taskR]).setBytes (coreCfg 3 0x2B00) (leBytes 4 (4 * 2 ^ 4) ++ leBytes 4 0 ++ leBytes 2 5))
def repRun : Replica := { rep0 with st := .running, task := some key0 }
def taskRun : Task := { task0 with st := .running, anchor := some 0 }
/-- Queue 3 of core 0 holds a message and names a handler at operation 9. -/
def handlerS : State :=
  st (((staged repRun [taskRun]).setBytes (coreCfg 0 (0x2A80 + 12)) (leBytes 4 (1 + 2 * 9))).onCore 0 (fun k => { k with queues := modAt k.queues 3 (fun q => { q with msgs := [⟨[], 0, 1, 0, none⟩] }) }))
def doneS : State := st (staged repRun [taskRun])

theorem wit_start : startS.part.phase = .ready ∧ startS.part.replicaOf 0 = some rep0 ∧ rep0.task = none ∧ rep0.dark = false ∧ rep0.st = .free ∧
    startS.part.choose rep0 = some (taskR, 2) ∧ taskR.save = none ∧ taskR.shape = 0 ∧ startS.part.sceneOf 0 = some sceneR ∧
    badRecord ((List.range 16).map (fun i => leAt sceneR.shape (4 * i) 4)) sceneR.limits = false := by decide +kernel
theorem wit_handler : handlerS.part.phase = .ready ∧ handlerS.part.issuer 0 = 0 ∧ handlerS.part.paired 0 = false ∧ handlerS.part.running 0 = true ∧
    (handlerS.part.core 0).threads.length = 8 ∧ (handlerS.part.core 0).queues.length = 16 ∧ (∀ j < 16, bitOf (handlerS.part.queueWord 0 j) 0 = (j == 3)) ∧
    ((handlerS.part.core 0).queue 3).running = false ∧ 0 < handlerS.part.unclaimed 0 3 ∧ ((handlerS.part.core 0).th 0).st = .idle := by decide +kernel
theorem wit_complete : doneS.part.phase = .ready ∧ doneS.part.replicaOf 0 = some repRun ∧ repRun.st = .running ∧ doneS.part.taskDone repRun key0 = true ∧
    doneS.part.task key0 = some taskRun ∧ taskRun.fits ∧ key0.child = 0xFFFF := by unfold Task.fits; decide +kernel

/-- An index list at 0x3000 with a reserved entry between two others. -/
def fanTask : Task := { task0 with kind := 1, st := .expanding, fanMax := 4, ptrs := List.replicate 7 1 ++ [0x3000], shape := 0x9000 }
def fanReadS : State := st ((staged darkRep [fanTask]).setRow 0x3000 (leBytes 4 3 ++ leBytes 4 2 ++ leBytes 4 0xFFFFFFFF ++ leBytes 4 5 ++ List.replicate 496 0) 0)
def fanTask2 : Task := { fanTask with listRead := true, list := [(0, 2), (2, 5)] }
def fanChildS : State := st (staged darkRep [fanTask2])

theorem wit_fan_list : fanReadS.part.phase = .ready ∧ fanReadS.part.task key0 = some fanTask ∧ (fanReadS.part.readFault 0x3000).isNone = true ∧
    (fanReadS.part.readSpan 0x3000 (4 + 4 * fanReadS.part.natAt 0x3000 4)).2.isNone = true ∧ fanReadS.part.fanEntries 0x3000 = [(0, 2), (2, 5)] ∧
    2 ≤ fanTask.fanMax ∧ fanTask.ptrs.getD 7 0 = 0x3000 := by decide +kernel
theorem wit_fan_child : fanChildS.part.phase = .ready ∧ fanChildS.part.task key0 = some fanTask2 ∧ fanTask2.list = (0, 2) :: (2, 5) :: [] ∧
    fanTask2.listRead = true ∧ fanChildS.part.slotsFree 0 ≠ 0 := by decide +kernel

/-! ### Shares and pre-emption -/

def shareS : State := st { ((staged rep0 []).setRegN (Reg.STG_SHARE_BAL.at [0, 5]) 1000) with stg := { (staged rep0 []).stg with charge := [(5, 77)] } }
/-- A tick ends when 2^t µs have passed since the last one. -/
def shareTickS : State := st { shareS.part with tim := { Time.reset with now := 10 ^ 12 } }
theorem wit_share : shareS.part.phase = .ready ∧ shareS.part.tickOver = false ∧ shareTickS.part.tickOver = true := by decide +kernel
theorem wit_share_charge : repRun.task.bind (staged repRun [taskRun]).task = some taskRun ∧ taskRun.st = .running := by decide +kernel

/-- A running task asked to leave at beat 0; with `parked` false thread 0 of core 0 is READY, and the beat is 100. -/
def repAsked : Replica := { repRun with preempt := some ⟨0, false, none⟩ }
def askedS (parked : Bool) (mib : Nat) : State :=
  let p0 := (((staged repAsked [taskRun]).setRegN (Reg.TRV_BEAT.at [0]) 100).setRegN (Reg.STG_SAVE_BASE.at [0]) 0x400000).setRegN (Reg.STG_SAVE_SIZE.at [0]) mib
  let p1 := if parked then p0 else p0.onTh 0 0 Thread.ready
  st { p1 with stg := { p1.stg with saveq := [0] } }

theorem wit_lapse : (askedS false 8).part.phase = .ready ∧ (askedS false 8).part.replicaOf 0 = some repAsked ∧ repAsked.st = .running ∧ repAsked.die < 4 ∧
    (askedS false 8).part.sceneOf 0 = some sceneR ∧ (askedS false 8).part.parked repAsked = false ∧
    sceneR.interval ≤ ((askedS false 8).part.reg (Reg.TRV_BEAT.at [0]) - 0).toNat := by decide +kernel
/-- A replica of one cluster needs two granules: found in a pool of eight, not in a pool of one. -/
theorem wit_save_begin : ∀ n ∈ [1, 8], (askedS true n).part.phase = .ready ∧ (askedS true n).part.replicaOf 0 = some repAsked ∧ (askedS true n).part.switchFree = true ∧
    (askedS true n).part.turnOf 0 = true ∧
    (askedS true n).part.findArea 0 (granules (areaSize repAsked.clusters.length ((askedS true n).part.saveRows repAsked))) = if n = 8 then some 0 else none := by
  decide +kernel

def taskSaved : Task := { taskRun with save := some (0, 0, 2) }
/-- The replica in `rs`, dark so that no other task is put on a callboard. -/
def switchS (rs : RunState) (q : List Nat) : State :=
  let p := staged { darkRep with st := rs, task := some key0 } [taskSaved]
  st { (p.setRegN (Reg.STG_SAVE_BASE.at [0]) 0x400000) with stg := { p.stg with saveq := q, areas := [(0, 0, 2)], saved := if rs = .restoring then [⟨key0, 0, List.replicate 16 Core.reset, [[]], []⟩] else [] } }

theorem wit_save_complete : (switchS .saving []).part.phase = .ready ∧
    (switchS .saving []).part.replicaOf 0 = some { darkRep with st := .saving, task := some key0 } ∧ (switchS .saving []).part.task key0 = some taskSaved ∧
    (switchS .saving []).part.sceneOf 0 = some sceneR ∧ sceneR.retiring = false ∧ taskSaved.save = some (0, 0, 2) := by decide +kernel
theorem channelOf_lt (a : Nat) : channelOf a < 128 := by
  unfold channelOf fld
  refine Nat.xor_lt_two_pow (n := 7) (Nat.xor_lt_two_pow (Nat.xor_lt_two_pow (Nat.xor_lt_two_pow ?_ ?_) ?_) ?_) ?_ <;> omega
/-- No row of the area lies on a failed channel, and no word that the save reads is bad. -/
theorem wit_save_rows : ∀ o ∈ (switchS .saving []).part.areaRows { darkRep with st := .saving, task := some key0 } 1,
    (switchS .saving []).part.lost ((switchS .saving []).part.areaBase 0 0 + o) = false := by
  intro o _
  have ht : ∀ n < 128, bitOf ((switchS .saving []).part.regN (Reg.MEM_CH_STAT.at [n / 64, n % 64])) 1 = false := by decide +kernel
  simp [Part.lost, show ∀ a, (switchS .saving []).part.chFailed a = false from fun a => ht _ (channelOf_lt a)]
theorem wit_save_words : ((switchS .saving []).part.saveFault { darkRep with st := .saving, task := some key0 }).isNone = true := by decide +kernel
theorem wit_restore_begin : (switchS .restoring [0]).part.phase = .ready ∧
    (switchS .restoring [0]).part.replicaOf 0 = some { darkRep with st := .restoring, task := some key0 } ∧
    (switchS .restoring [0]).part.switchFree = true ∧ (switchS .restoring [0]).part.turnOf 0 = true := by decide +kernel

theorem switch_rows_good (a : Nat) (h : a < 0x1000000) : ((switchS .restoring []).part.readFault a).isNone = true := by
  have hc : (switchS .restoring []).part.cap = 0x1000000 := by decide +kernel
  have hh : (switchS .restoring []).part.homeAt a = .lpddr := by
    unfold Part.homeAt homeOf; rw [hc]; simp [h]; omega
  have hg : (switchS .restoring []).part.rowGood a = true := by
    have h1 : (switchS .restoring []).part.tagErr = [] := rfl
    have h2 : (switchS .restoring []).part.poison = [] := rfl
    simp [Part.rowGood, h1, h2]
  have ht : ∀ n < 128, bitOf ((switchS .restoring []).part.regN (Reg.MEM_CH_STAT.at [n / 64, n % 64])) 1 = false := by decide +kernel
  have hf : (switchS .restoring []).part.chFailed a = false := ht _ (channelOf_lt a)
  simp [Part.readFault, hh, hf, hg]

/-- The rows of the area pass their checks: no row of an empty memory has a wrong tag, and no channel has failed. -/
theorem wit_restore_complete : (switchS .restoring []).part.phase = .ready ∧ 0 ∉ (switchS .restoring []).part.stg.saveq ∧
    (∀ cur < 16, ((switchS .restoring []).part.curtDecl { darkRep with st := .restoring, task := some key0 } cur).1 < 3) ∧
    ((switchS .restoring []).part.stg.saved.find? (fun x => decide (x.key = key0))).isSome = true ∧
    ((switchS .restoring []).part.stg.saved.all (fun v => (v.cores ++ ({ darkRep with st := .restoring, task := some key0 } : Replica).cores.map (switchS .restoring []).part.core).all (fun x => x.cnt.all (fun y => decide (y.toNat + 24 < 2 ^ 32))))) = true ∧
    ∀ o ∈ (switchS .restoring []).part.areaRows { darkRep with st := .restoring, task := some key0 } 1, ((switchS .restoring []).part.readFault ((switchS .restoring []).part.areaBase 0 0 + o)).isNone = true := by
  refine ⟨by decide +kernel, by decide +kernel, by decide +kernel, by decide +kernel, by decide +kernel, fun o ho => switch_rows_good _ ?_⟩
  have hb : (switchS .restoring []).part.areaBase 0 0 = 0x400000 := by decide +kernel
  have hl : ((switchS .restoring []).part.areaRows { darkRep with st := .restoring, task := some key0 } 1).all (· < 0x800000) = true := by decide +kernel
  have := List.all_eq_true.mp hl o ho
  simp at this; omega


/-! ### Wires, curtains, channels, traverse beats -/

def flying (p : Part) (l : List Flight) : State := st { p with flight := l }
def addS : State := flying base [.add 5 3 40, .credit 0 0]
/-- Wire 9 of cluster 0 reaches cores 0 and 2. -/
def fireS : State := flying ((base.setBytes (cfgAddr 0 (0x44000 + 36)) (leBytes 4 5)).onTh 2 4 (fun x => { x with st := .wait, on := .wire 9 })) [.fire 0 9]
/-- An edge of external cue 2 at 1234 ns; clusters 0 and 65 are on the roster. -/
def edgeS : State :=
  st { ((base.setRegN (Reg.STG_ROSTER.at [0, 0]) 1).setRegN (Reg.STG_ROSTER.at [0, 1]) 2) with pwr := { base.pwr with ins := modAt base.pwr.ins 2 (fun x => { x with edge := some 1234 }) } }

theorem wit_remote_add : addS.part.phase = .ready ∧ addS.part.flight = [.add 5 3 40, .credit 0 0] ∧ (addS.part.core 5).calm ∧
    ((addS.part.core 5).cnt.getD 3 0).toNat + (40 : W16).toNat < 2 ^ 32 := by unfold Core.calm; decide +kernel
theorem wit_forward : fireS.part.phase = .ready ∧ fireS.part.flight = [.fire 0 9] := by decide +kernel
theorem wit_edge : (edgeS.part.pwr.ins.getD 2 Input.reset).edge = some 1234 := by decide +kernel

/-- Curtain 2 of the replica has scope `sc` and participants 0 and 3 of cluster 0, both arrived; core 0's thread 1 waits. -/
def curtainS (sc : Nat) : State :=
  let p := (staged repRun [taskRun]).setBytes (cfgAddr 0 (0x44100 + 4)) (leBytes 2 9)
  let p1 : Part := { p with stg := { p.stg with scenes := [{ sceneR with decl := sceneR.decl.set 2 (sc, 4, 0) }] } }
  let p2 := p1.onCluster 0 (fun k => { k with curts := [(2, { gen := 7, arrived := [3, 0] })] })
  st ((p2.onCore 0 (fun k => (k.setArrival 2 ⟨true, true⟩).onTh 1 (fun x => x.await 7 (.curtain 2)))).onCore 3 (fun k => (k.setArrival 2 ⟨true, true⟩).onTh 0 (fun x => x.await 7 (.curtain 2))))
/-- Package curtain 5 first reached at 0 with a timeout of 100 us, at 200 us. -/
def timeoutS : State :=
  st { (base.setBytes (pcurtCfgBase + 20) (leBytes 4 (3 + 2 ^ 14))) with stg := { Stage.reset with pcurts := [(5, { PCurt.reset with first := some 0 })] }, tim := { Time.reset with interval := 200000 } }

theorem wit_curtain : ∀ sc ∈ [1, 2], (curtainS sc).part.phase = .ready ∧ (curtainS sc).part.replicaAt 0 = some repRun ∧
    ((curtainS sc).part.curtNode 0 2).complete ((curtainS sc).part.participants 0 2) = true ∧ ((curtainS sc).part.curtDecl repRun 2).1 = sc ∧
    ∀ k < 16, (((curtainS sc).part.core k).arrival 2).pending = true → (((curtainS sc).part.core k).arrival 2).waits = true := by decide +kernel
theorem wit_curtain_threads : ∀ k < 16, ∀ th ∈ ((curtainS 1).part.core k).threads, (match th.on with | .rearrive _ _ => false | _ => true) = true := by
  decide +kernel
/-- Core 0 has arrived without waiting and none of its threads waits. -/
def notifyS : State := st ((curtainS 1).part.onCore 0 (fun k => { k.setArrival 2 ⟨true, false⟩ with threads := Core.reset.threads }))
theorem wit_curtain_notify : ((notifyS.part.core 0).arrival 2) = ⟨true, false⟩ ∧ (notifyS.part.core 0).calm ∧ 4 < (notifyS.part.core 0).cnt.length ∧
    (notifyS.part.curtNode 0 2).complete (notifyS.part.participants 0 2) = true ∧ ((notifyS.part.core 0).cnt.getD 4 0).toNat + 1 < 2 ^ 32 := by
  unfold Core.calm; decide +kernel
/-- The replica's node of curtain 2, which goes on to package curtain 6, is complete. -/
def repNode : Replica := { repRun with curts := [(2, { gen := 0, arrived := [0] })] }
def nodeS : State :=
  let p := (curtainS 3).part
  st { p with stg := { p.stg with replicas := [repNode], scenes := [{ sceneR with decl := sceneR.decl.set 2 (3, 4, 6) }] } }
theorem wit_curtain_node : nodeS.part.phase = .ready ∧ nodeS.part.replicaOf 0 = some repNode ∧ repNode.task = some key0 ∧
    (repNode.node 2).complete (nodeS.part.partClusters repNode 2) = true ∧ (nodeS.part.curtDecl repNode 2) = (3, 4, 6) := by decide +kernel
theorem wit_timeout : timeoutS.part.phase = .ready ∧ (timeoutS.part.pcurt 5).first = some 0 ∧ fld (timeoutS.part.pcurtCfg 5) 14 4 = 1 ∧
    2 ^ 0 * 100000 < (timeoutS.part.tim.interval - 0).toNat ∧ timeoutS.part.stg.replicas = [] := by decide +kernel

def msg0 : Msg := { data := noise 3 64, epoch := 2, core := 20, route := 1, task := none }
/-- A message of epoch 2 for queue 3 of core 0 past its sender's port. -/
def arriveS : State :=
  flying ((staged rep0 []).onCore 0 (fun k => { k with queues := modAt k.queues 3 (fun q => { q with epoch := 2 }) })) [.msg 0 3 msg0 (some 0), .credit 9 9]
def creditS : State := flying (base.onCore 0 (fun k => k.onRoute 3 (fun x => { x with credits := 5 }))) [.credit 0 3]
/-- A SEND of thread 4 has been blocked for 200 us on route 3, whose watchdog is 100 us. -/
def sendOp : MoveOp := { moveOf (.send 5 2 3 true) with thread := 4, since := some 0 }
def watchS : State := st { (base.onCore 0 (fun k => { k with moving := [sendOp] })) with tim := { Time.reset with interval := 200000 } }

theorem wit_message : arriveS.part.phase = .ready ∧ arriveS.part.flight.find? (isMsgTo 0 3 (arriveS.part.beatOf 0)) = some (.msg 0 3 msg0 (some 0)) ∧
    arriveS.part.readerState 0 = 1 ∧ msg0.epoch = ((arriveS.part.core 0).queue 3).epoch ∧ ((arriveS.part.core 0).queue 3).msgs.length < 8 ∧
    3 < (arriveS.part.core 0).queues.length := by decide +kernel
theorem wit_credit : creditS.part.phase = .ready ∧ creditS.part.flight.any (isCreditOf 0 3) = true ∧ creditS.part.heldDark 0 = false ∧
    ((creditS.part.core 0).route 3).ring = [] ∧ (creditS.part.core 0).moving = [] := by decide +kernel
theorem wit_watchdog : watchS.part.phase = .ready ∧ (watchS.part.core 0).moving = [sendOp] ∧ sendOp.what = .send 5 2 3 true ∧ sendOp.since = some 0 ∧
    watchdogNs (watchS.part.routeWord 0 3) < (watchS.part.tim.interval - 0).toNat ∧ 3 < (watchS.part.core 0).routes.length := by decide +kernel

/-- Cluster 0 has a sheet of round 32 with one entry of slot 5: messages of core 4 to cluster 7; the beat is `b`. -/
def beatS (b : Nat) : State :=
  flying (((staged rep0 []).setBytes (cfgAddr 0 0x40000) (leBytes 2 32 ++ leBytes 2 1)).setBytes (cfgAddr 0 0x40100) (leBytes 8 (5 + 2 * 2 ^ 12 + 2 * 2 ^ 14 + 4 * 2 ^ 16 + 7 * 2 ^ 20))
    |>.setRegN (Reg.TRV_BEAT.at [0]) b) [.msg (16 * 7 + 1) 3 { msg0 with core := 4 } none]
/-- Slot 5 belongs to the transfer engine of core 4 and cluster 7, for a request (`kind` 0) or a write (`kind` 2). -/
def moveBeatS (kind : Nat) (r : Req) : State :=
  st { (((staged rep0 []).setBytes (cfgAddr 0 0x40000) (leBytes 2 32 ++ leBytes 2 1)).setBytes (cfgAddr 0 0x40100) (leBytes 8 (5 + kind * 2 ^ 12 + 1 * 2 ^ 14 + 4 * 2 ^ 16 + 7 * 2 ^ 20))
    |>.setRegN (Reg.TRV_BEAT.at [0]) 37) with reqs := [r], xfers := [{ xfer0 false with core := 4, uid := 0 }] }
def askReq : Req := { req0 with core := 4, src := some (storeAddr 7 0x200), dst := some 0x4000 }
def putReq : Req := { req0 with core := 4, src := some 0x4000, dst := some (storeAddr 7 0x200), row := noise 3 512, got := true }
theorem wit_beat_quiet : ((beatS 37).part.net = [] ∧ (beatS 37).part.msgsDue 0 = []) ∧ ((moveBeatS 0 askReq).part.net = [] ∧ (moveBeatS 0 askReq).part.msgsDue 0 = []) ∧
    (moveBeatS 2 putReq).part.net = [] ∧ (moveBeatS 2 putReq).part.msgsDue 0 = [] := by decide +kernel
theorem wit_beat_moves : ∀ x ∈ [(0, askReq), (2, putReq)], (moveBeatS x.1 x.2).part.phase = .ready ∧ (moveBeatS x.1 x.2).part.beatOf 0 % 32 ≠ 31 ∧
    (moveBeatS x.1 x.2).part.slotEntries 0 = [(0, sheetEntry (5 + x.1 * 2 ^ 12 + 1 * 2 ^ 14 + 4 * 2 ^ 16 + 7 * 2 ^ 20))] ∧
    (if x.1 = 0 then (moveBeatS x.1 x.2).part.nextRead 4 1 7 else (moveBeatS x.1 x.2).part.nextWrite 4 1 7) = some x.2 := by decide +kernel
/-- A golden entry of four bytes of package-wide configuration, which match. -/
def golden0 : Golden := { die := 0, addr := pcurtCfgBase, len := 4, crc := crc32c (padTo 4048 [1, 2, 3, 4]), script := 0, frame := 0 }
def houseS : State := st { ((base.setBytes pcurtCfgBase [1, 2, 3, 4]).setRegN (Reg.TRV_BEAT.at [0]) 63) with cfg := { Script.reset with golden := [golden0] } }

theorem wit_beat : (beatS 37).part.phase = .ready ∧ (beatS 37).part.regN (Reg.TRV_BEAT.at [0]) % 32 ≠ 31 ∧
    (beatS 37).part.slotEntries 0 = [(0, sheetEntry (5 + 2 * 2 ^ 12 + 2 * 2 ^ 14 + 4 * 2 ^ 16 + 7 * 2 ^ 20))] ∧ (beatS 38).part.slotEntries 0 = [] := by decide +kernel
theorem wit_house : houseS.part.phase = .ready ∧ houseS.part.regN (Reg.TRV_BEAT.at [0]) % 32 = 31 ∧ houseS.part.reqs = [] ∧ houseS.part.net = [] ∧ houseS.part.msgsDue 0 = [] ∧
    houseS.part.goldenDark golden0 = false := by decide +kernel
theorem wit_house_entry : (houseS.part.goldenOn 0)[0]? = some golden0 := rfl
theorem wit_house_matches : houseS.part.goldenMatches golden0 = true := by
  have h : houseS.part.bytesAt pcurtCfgBase 4 = [1, 2, 3, 4] := by decide +kernel
  have hp : houseS.part.poison = [] := rfl
  simp [Part.goldenMatches, golden0, h, hp]

/-! ### Registers -/

/-- Every domain is on and both host ports are up. -/
def onP : Part :=
  ((((((((base.setRegN (Reg.PWR_DOM_E.at [0]) 0x3FFF).setRegN (Reg.PWR_DOM_E.at [1]) 0x3FFF).setRegN (Reg.PWR_DOM_C.at [0]) (2 ^ 48 - 1)).setRegN (Reg.PWR_DOM_C.at [1]) (2 ^ 48 - 1)).setRegN (Reg.PWR_DOM_C.at [2]) (2 ^ 48 - 1)).setRegN (Reg.PWR_DOM_C.at [3]) (2 ^ 48 - 1)).setRegN (Reg.PWR_DOM_M.at [0]) 0x7FF).setRegN (Reg.PWR_DOM_M.at [1]) 0x7FF).setRegN (Reg.HST_PORT_STAT.at [0]) 0x100
def onS : State := st onP
def mayB (s : State) (a : Agent) (off w : Nat) : Bool := s.part.present a && s.part.accessOk off w

theorem mayB_access {s : State} {a : Agent} {off w : Nat} (h : mayB s a off w = true) : s.mayAccess a off w := by
  simpa [mayB, State.mayAccess, Bool.and_eq_true] using h
/-- The registers of the statements on register writes, each with its width. -/
def regsWritten : List (Nat × Nat) :=
  [(Reg.HST_EVT_CFG.at [], 4), (Reg.HST_REFUSE.at [], 4), (coreReg Reg.CORE_SP_ERR 6405 [], 4), (Reg.HST_WIN.at [0], 8), (Reg.HST_WIN.at [1], 8), (Reg.ERR_LOG_RD.at [], 8), (Reg.PWR_LIMIT.at [], 4)] ++
  [(Reg.MEM_CH_WAIT_MAX.at [1, 63], 4), (Reg.STG_SHARE_CFG.at [], 4), (Reg.PWR_IN_STAT.at [], 4), (Reg.TRV_BMON_CLR.at [3], 8), (Reg.PCE_STAT.at [], 4), (Reg.TIM_SET.at [], 8), (cluReg Reg.CLU_CH_HSEL 1599 [15], 4)] ++
  [(Reg.STG_SEAT_CFG.at [4095], 4), (Reg.STG_PREEMPT_REQ.at [0], 4), (Reg.FAB_CFG.at [], 4), (Reg.FAB_CTL.at [], 4), (Reg.FAB_SWAP.at [], 4), (Reg.FAB_CIRC.at [4095], 8), (Reg.FAB_CIRC_SLOTS.at [4095], 8)] ++
  [(portReg Reg.FAB_PORT_CFG 15, 4), (portReg Reg.FAB_PORT_CTL 15, 4)]
/-- House firmware may access each of them, and so may host port 0. -/
theorem wit_access : ∀ x ∈ regsWritten, mayB onS .house x.1 x.2 = true := by decide +kernel
theorem wit_access_host : mayB onS (.host 0) (Reg.HST_REFUSE.at []) 4 = true := by decide +kernel
theorem wit_plain_write : ∀ o ∈ [(Reg.HST_EVT_CFG.at [], Reg.HST_EVT_CFG), (Reg.HST_REFUSE.at [], Reg.HST_REFUSE), (coreReg Reg.CORE_SP_ERR 6405 [], Reg.CORE_SP_ERR)],
    (findReg o.1 Reg.map).map (·.1) = some o.2 ∧ o.2 ∉ ownWrites := by decide +kernel
/-- A pre-emption is asked of the running task of `doneS`. -/
def preemptS : State := st { onP with stg := doneS.part.stg }
theorem wit_preempt_request : mayB preemptS .house (Reg.STG_PREEMPT_REQ.at [0]) 4 = true ∧ preemptS.part.replicaOf (400 * 0 + 0) = some repRun ∧
    repRun.task = some key0 ∧ preemptS.part.task key0 = some taskRun ∧ taskRun.noPreempt = false ∧ repRun.preempt = none ∧ repRun.st = .running := by decide +kernel
/-- A read of 2 bytes is refused, and so is one past the last block. -/
theorem wit_refused : (onS.part.present .house = true ∧ onS.part.accessOk 0x100 2 = false) ∧ (onS.part.present (.host 0) = true ∧ onS.part.accessOk 0x3FFFFFC 4 = false) := by decide +kernel


/-! ### Fabric ports and router -/

/-- This part is device 5 with ttl 9; port 3 is in state `st`. -/
def fabP : Part := base.setRegN (Reg.FAB_CFG.at []) (5 + 2 ^ 14 + 9 * 2 ^ 16)
def portS (p : Part) (q : Port) : State := st (p.onPort 3 (fun _ => q))
def upPort : Port := { Port.reset with st := 2, locked := true, credits := List.replicate 8 32, rxSeq := 7, txSeq := 2 }
theorem wit_training : (portS fabP { Port.reset with st := 1 }).part.phase = .ready ∧ 3 < (portS fabP { Port.reset with st := 1 }).part.fab.ports.length ∧
    ((portS fabP { Port.reset with st := 1 }).part.port 3).st = 1 ∧ (∀ l ∈ ((portS fabP { Port.reset with st := 1 }).part.port 3).outq, l = []) := by decide +kernel
/-- The port has replayed 8 times and its flit has waited 20 us. -/
def stallS : State := st { ((fabP.onPort 3 (fun _ => { upPort with replay := [⟨1, 3, noise 1 8, 8, []⟩] }))) with tim := { Time.reset with interval := 20000 } }
theorem wit_down : stallS.part.phase = .ready ∧ (stallS.part.port 3).st = 2 ∧ (stallS.part.port 3).replay.any (fun x => decide (8 ≤ x.tries)) = true ∧
    stallS.part.ackStalled 3 = true ∧ 3 < stallS.part.fab.ports.length := by decide +kernel

def ackHdr : Hdr := { dst := 5, src := 6, vc := 2, fence := false, job := 0, type := Pkt.ACK, circ := false, length := 0, tags := 0, addr := 0x4000, circuit := 0, arg := 0, xid := 11, ttl := 3 }
/-- An UP port with two flits not acknowledged, the first of sequence number 0. -/
def flitS : State := portS fabP { upPort with replay := [⟨0, 3, noise 1 8, 0, []⟩, ⟨1, 3, noise 2 8, 0, []⟩] }
/-- The flit that acknowledges number 0 and returns 4 credits of channel 3; its kind, number, channel and payload as given. -/
def flitB (kind seq fvc : Nat) (x : List Byte) : List Byte := flitBytes seq 0 kind fvc 3 4 x
def timeX : List Byte := leBytes 8 1000 ++ leBytes 8 900 ++ leBytes 8 950
theorem wit_flit : flitS.part.phase = .ready ∧ 3 < flitS.part.fab.ports.length ∧ (flitS.part.port 3).st = 2 ∧ flitS.part.fabValid = true ∧
    (∀ v, (flitS.part.port 3).owe.getD v 0 = 0) := by
  refine ⟨by decide +kernel, by decide +kernel, by decide +kernel, by decide +kernel, fun v => ?_⟩
  have h : (flitS.part.port 3).owe = List.replicate 8 0 := by decide +kernel
  rw [h]; match v with
  | 0 | 1 | 2 | 3 | 4 | 5 | 6 | 7 => rfl
  | _ + 8 => rfl
theorem wit_flit_good : flitGood (flitB 1 0 0 []) = true ∧ flitGood (flitB 0 7 2 ackHdr.bytes) = true ∧ flitGood (flitB 0 8 2 []) = true ∧ flitGood (flitB 2 0 0 []) = true ∧
    flitGood (flitB 3 0 0 timeX) = true := by decide +kernel
theorem wit_flit_fields : (flitOf (flitB 1 0 0 [])).kind = 1 ∧ (flitOf (flitB 0 8 2 [])).kind = 0 ∧ (flitOf (flitB 0 8 2 [])).seq ≠ (flitS.part.port 3).rxSeq ∧
    (flitOf (flitB 0 7 2 ackHdr.bytes)).kind = 0 ∧ (flitOf (flitB 0 7 2 ackHdr.bytes)).seq = (flitS.part.port 3).rxSeq ∧ (flitOf (flitB 0 7 2 ackHdr.bytes)).fvc = 2 ∧
    takePackets 64 ([] ++ (flitOf (flitB 0 7 2 ackHdr.bytes)).payload) = ([⟨ackHdr.bytes, [], none⟩], []) ∧ packetOk ⟨ackHdr.bytes, [], none⟩ 2 = true ∧
    (flitOf (flitB 2 0 0 [])).kind = 2 ∧ (flitOf (flitB 3 0 0 timeX)).kind = 3 := by decide +kernel
/-- The parent of the timebase is port 3, whose TIME flit gives an offset of (1060 - 1000 - (950 - 900)) / 2 = 5 ns. -/
def parentS : State := st { (flitS.part.setRegN (Reg.TIM_CFG.at []) (2 + 3 * 4)) with tim := { Time.reset with now := 1060 } }
theorem wit_parent : parentS.part.timSrc = 2 ∧ parentS.part.regFld (Reg.TIM_CFG.at []) 2 4 = 3 ∧ leAt (flitOf (flitB 3 0 0 timeX)).payload 0 8 = 1000 ∧
    leAt (flitOf (flitB 3 0 0 timeX)).payload 8 8 = 900 ∧ leAt (flitOf (flitB 3 0 0 timeX)).payload 16 8 = 950 := by decide +kernel

/-- A packet waits at E-die 0: the route of device 6 is by port 3 and escape port 4. -/
def packetS (h : Hdr) (q : Port) (own : Bool) (at_ : Nat) : State :=
  let p := (fabP.onPort 3 (fun _ => q)).onPort 4 (fun _ => { upPort with credits := List.replicate 8 0 })
  st { p with fab := { p.fab with rt0 := [(6, 8 + 4 * 2 ^ 16 + 3 * 2 ^ 20)], transit := [⟨⟨h.bytes, [], none⟩, 0, 2, 0, own⟩] }, tim := { Time.reset with interval := BitVec.ofNat 64 at_ } }
def transit0 (h : Hdr) (own : Bool) : Transit := ⟨⟨h.bytes, [], none⟩, 0, 2, 0, own⟩
def hdr6 : Hdr := { ackHdr with dst := 6, src := 5 }
theorem wit_deliver : (packetS ackHdr upPort false 0).part.phase = .ready ∧ (packetS ackHdr upPort false 0).part.fab.transit = [transit0 ackHdr false] ∧
    (transit0 ackHdr false).pkt.hdr.circ = false ∧ (transit0 ackHdr false).pkt.hdr.dst = (packetS ackHdr upPort false 0).part.fabSelf := by decide +kernel
/-- Device 7 has no route; a forwarded packet with ttl 1 has run out. -/
theorem wit_no_route : (∀ h ∈ [{ hdr6 with dst := 7 }, { hdr6 with ttl := 1 }], (transit0 h false).pkt.hdr.dst ≠ (packetS h upPort false 0).part.fabSelf ∧
    (bitOf ((packetS h upPort false 0).part.routeEntry h.dst) 21 = false ∨ (transit0 h false).pkt.hdr.ttl ≤ 1)) := by decide +kernel
theorem wit_out : (packetS hdr6 upPort true 0).part.hop (transit0 hdr6 true) = .out 3 2 ∧ 2 < ((packetS hdr6 upPort true 0).part.port 3).outq.length ∧
    3 < (packetS hdr6 upPort true 0).part.fab.ports.length := by decide +kernel
/-- An UP port whose one packet waits on channel 2. -/
def pumpS : State := portS fabP { upPort with outq := (List.replicate 8 []).set 2 [⟨hdr6.bytes, [], none⟩] }
theorem wit_pump : 3 < pumpS.part.fab.ports.length ∧ (pumpS.part.port 3).st = 2 ∧ (pumpS.part.port 3).replay.length < 512 ∧
    (pumpS.part.port 3).outq = (List.replicate 8 []).set 2 [⟨hdr6.bytes, [], none⟩] ∧ (pumpS.part.port 3).part.getD 2 0 = 0 ∧
    (pumpS.part.port 3).credits.getD 2 0 ≠ 0 ∧ (⟨hdr6.bytes, [], none⟩ : Packet).bytes.length ≤ 244 := by decide +kernel
/-- A flit of that packet leaves and is kept. -/
theorem test_pump : ((pumpS.part.pump 3).port 3).replay = [⟨2, 2, padTo 244 hdr6.bytes, 0, [⟨hdr6.bytes, [], none⟩]⟩] := by decide +kernel
/-- Without credits on channel 2 of its ports the packet waits; after 52 ns it may take the escape channel. -/
def noCredit : Port := { upPort with credits := List.replicate 8 0 }
theorem wit_escape : (packetS hdr6 noCredit true 52).part.hop (transit0 hdr6 true) = .wait ∧ bitOf ((packetS hdr6 noCredit true 52).part.routeEntry 6) 20 = true ∧
    52 ≤ ((packetS hdr6 noCredit true 52).part.tim.interval - (transit0 hdr6 true).since).toNat ∧ (transit0 hdr6 true).vc < 4 := by decide +kernel


/-! ### Fabric queues and packets at their destination -/

/-- Job 0 has ranks 0 and 1, devices 6 and 7, and is enabled. -/
def jobP : Part := ((fabP.setRegN (Reg.CST_JOB.at [0]) (2 * 2 ^ 14 + 2 ^ 29)).setRegN (Reg.CST_ENTRY.at [0]) (6 + 2 ^ 14)).setRegN (Reg.CST_ENTRY.at [1]) (7 + 2 ^ 14)
def bellS : State := st { jobP with fab := { jobP.fab with bells := [⟨6, 1, none, false⟩, ⟨5, 70000, none, false⟩] } }
theorem wit_doorbell : bellS.part.phase = .ready ∧ bellS.part.fab.bells.find? (fun x => x.q == 5) = some ⟨5, 70000, none, false⟩ := by decide +kernel

/-- A PUT of two rows from 0x2000 to 0x4000 of rank 1; `rows` 0 breaks R428. -/
def fdPut (rows : Nat) : List Byte := leBytes 6 0x2000 ++ leBytes 2 1 ++ leBytes 6 0x4000 ++ leBytes 1 0 ++ leBytes 1 0 ++ leBytes 4 rows ++ List.replicate 44 0
/-- The descriptor stands at entry 0 of queue 5 at 0x10000, whose tail is 1; injection is stopped where `stop` is 1. -/
def queueS (rows stop : Nat) : State :=
  let p := ((((jobP.setRegN (Reg.FAB_Q_CFG.at [5]) (2 + 16)).setRegN (Reg.FAB_Q_BASE.at [5]) 0x10000).setRegN (Reg.FAB_CTL.at []) stop).setRow 0x10000 (fdPut rows ++ List.replicate 448 0) 0).setRow 0x2000 (noise 3 8 ++ List.replicate 504 0) 0
  st { p with fab := { p.fab with tails := [(5, 1)] } }
theorem wit_queue : ∀ n ∈ [0, 2], (queueS n 0).part.phase = .ready ∧ bitOf ((queueS n 0).part.regN (Reg.FAB_Q_CFG.at [5])) 4 = true ∧ (queueS n 0).part.fabValid = true ∧
    (queueS n 0).part.regN (Reg.FAB_Q_BASE.at [5]) = 0x10000 ∧ (queueS n 0).part.qHead 5 = 0 ∧ (queueS n 0).part.qTail 5 = 1 ∧
    (queueS n 0).part.fab.dropped = [] ∧ (queueS n 0).part.fab.descs = [] ∧ ((queueS n 0).part.readSpan 0x10000 64).2.isNone = true ∧
    (queueS n 0).part.fdBad 5 ((queueS n 0).part.bytesAt 0x10000 64) = decide (n = 0) ∧ fdFlag ((queueS n 0).part.bytesAt 0x10000 64) 2 = false := by decide +kernel
/-- The same entry of a queue whose base lies in a row with a bit error cannot be read. -/
theorem wit_queue_damaged : (({ (queueS 2 0).part with poison := [(0x2000, true)] } : Part).readSpan 0x10000 64).2.isSome = true := by decide +kernel
/-- A descriptor of queue 5 whose two rows are still to be sent. -/
def fdTodo : FabDesc := ⟨0, 5, 0, fdPut 2, none, [(0, 2)], false⟩
theorem wit_packet_sent : fdFlag fdTodo.bytes 1 = false ∧ bitOf ((queueS 2 0).part.regN (Reg.FAB_CTL.at [])) 0 = false ∧ (queueS 2 0).part.fabValid = true ∧
    (queueS 2 0).part.castOf ((queueS 2 0).part.qJob 5) (fdRank fdTodo.bytes) = some 7 ∧ fdTodo.fenced = false ∧ fdKind fdTodo.bytes = 0 ∧
    ((queueS 2 0).part.readSpan (fdLocal fdTodo.bytes + 512 * 0) (512 * 2)).2.isNone = true := by decide +kernel

/-- A request of device 6 for this part; `body` is one row with its tag or empty. -/
def inHdr (type tags job arg : Nat) : Hdr :=
  { dst := 5, src := 6, vc := 3, fence := false, job := job, type := type, circ := false, length := 129 * tags, tags := tags, addr := 0x6000, circuit := 0, arg := arg, xid := 77, ttl := 3 }
def rowB : List Byte := noise 2 6 ++ List.replicate 506 0
def inPkt (type tags job arg : Nat) : Packet := ⟨(inHdr type tags job arg).bytes, if tags = 1 then rowB ++ leBytes 4 (crc32c rowB).toNat else [], none⟩
def inS (k : Packet) : State := st { (jobP.setRow 0x6000 (noise 9 16 ++ List.replicate 496 0) 0) with fab := { jobP.fab with inbox := [(0, k)] } }
/-- The one packet in the NI is taken. -/
theorem takes (p : Part) (e ty : Nat) (k : Packet) (h : p.fab.inbox = [(e, k)]) (ht : k.hdr.type = ty) (hf : k.hdr.fence = false) :
    ∃ v, p.take e ty = some (k, v) := by
  simp [Part.take, h, takeIn, ht, hf]
theorem wit_request : ∀ x ∈ [(Pkt.PUT, 1), (Pkt.RED, 1), (Pkt.SIGNAL, 0), (Pkt.SIGNAL_ADD, 0), (Pkt.GET_REQ, 0)],
    (inS (inPkt x.1 x.2 0 1)).part.phase = .ready ∧ (inPkt x.1 x.2 0 1).hdr = inHdr x.1 x.2 0 1 ∧ (inS (inPkt x.1 x.2 0 1)).part.jobEnabled 0 = true ∧
    (inS (inPkt x.1 x.2 0 1)).part.jobEnabled 1 = false ∧ (inPkt x.1 x.2 1 1).hdr = inHdr x.1 x.2 1 1 ∧ (inS (inPkt x.1 x.2 0 1)).part.homeAt 0x6000 = .lpddr ∧
    (inS (inPkt x.1 x.2 0 1)).part.chFailed 0x6000 = false ∧ (inS (inPkt x.1 x.2 0 1)).part.rowGood 0x6000 = true ∧
    (inS (inPkt x.1 x.2 0 1)).part.inPool 0x6000 512 = false := by decide +kernel
/-- Packet 77 of circuit 9, the partner of circuit 10, has come before. -/
def repeatS : State :=
  let k : Packet := ⟨({ inHdr Pkt.PUT 0 0 1 with circ := true, circuit := 9 } : Hdr).bytes, [], none⟩
  st { (inS k).part.setRegN (Reg.FAB_CIRC.at [9]) (10 * 2 ^ 7 + 2 ^ 19) with fab := { (inS k).part.fab with circSeen := [(9, some 77)] } }
theorem wit_request_taken : ∀ x ∈ [(Pkt.PUT, 1), (Pkt.RED, 1), (Pkt.SIGNAL, 0), (Pkt.SIGNAL_ADD, 0), (Pkt.GET_REQ, 0)], ∀ j ∈ [0, 1],
    ∃ v, (inS (inPkt x.1 x.2 j 1)).part.take 0 x.1 = some (inPkt x.1 x.2 j 1, v) := by
  have h : ∀ x ∈ [(Pkt.PUT, 1), (Pkt.RED, 1), (Pkt.SIGNAL, 0), (Pkt.SIGNAL_ADD, 0), (Pkt.GET_REQ, 0)], ∀ j ∈ [0, 1],
      (inPkt x.1 x.2 j 1).hdr.type = x.1 ∧ (inPkt x.1 x.2 j 1).hdr.fence = false := by decide +kernel
  exact fun x hx j hj => takes _ _ _ _ rfl (h x hx j hj).1 (h x hx j hj).2
theorem wit_repeat : (repeatS.part.take 0 Pkt.PUT).map (fun x => repeatS.part.repeated x.1.hdr) = some true := by decide +kernel
theorem wit_red : (inPkt Pkt.RED 1 0 0).hdr = inHdr Pkt.RED 1 0 0 := by decide +kernel
theorem row_tag (h r : List Byte) (ht : (hdrOf h).tags = 1) (hl : r.length = 512) : tagOk ⟨h, r ++ leBytes 4 (crc32c r).toNat, none⟩ 0 = true := by
  have hr : ∀ x : List Byte, rowOf ⟨h, r ++ x, none⟩ 0 = r := fun x => by simp [rowOf, hl]
  simp only [tagOk, hr, Packet.hdr, ht, leAt]
  generalize crc32c r = c
  have hc := c.isLt
  simp [hl, leNat_leBytes, List.take_of_length_le]
  omega
theorem row_tag_one (type job arg : Nat) (h : (hdrOf (inHdr type 1 job arg).bytes).tags = 1) : tagOk (inPkt type 1 job arg) 0 = true :=
  row_tag _ rowB h (by decide +kernel)
theorem wit_put_tag : tagOk (inPkt Pkt.PUT 1 0 1) 0 = true ∧ tagOk (inPkt Pkt.RED 1 0 0) 0 = true :=
  ⟨row_tag_one _ _ _ (by decide +kernel), row_tag_one _ _ _ (by decide +kernel)⟩

/-- Descriptor 3 of queue 5 awaits one packet, with or without a local signal of 42 to 0x8000. -/
def fdWait (sig : Bool) : FabDesc :=
  ⟨3, 5, 1, if sig then patch (patch (patch (fdPut 1) 15 [8]) 40 (leBytes 6 0x8000)) 48 (leBytes 8 42) else fdPut 1, none, [], true⟩
def unacked0 : Unacked := ⟨0, 77, 3, ⟨({ inHdr Pkt.PUT 1 0 1 with dst := 6, src := 5 } : Hdr).bytes, [], none⟩, 0, none, 0x2000⟩
def answerS (k : Packet) (sig : Bool) : State :=
  st { jobP with fab := { jobP.fab with inbox := [(0, k)], unacked := [unacked0], descs := [fdWait sig] } }
theorem wit_answer : ∀ x ∈ [(Pkt.ACK, 0), (Pkt.GET_RESP, 1)], (answerS (inPkt x.1 x.2 0 0) true).part.phase = .ready ∧
    (answerS (inPkt x.1 x.2 0 0) true).part.answered (inPkt x.1 x.2 0 0).hdr = some unacked0 ∧
    (inPkt x.1 x.2 0 0).hdr.arg % 256 = 0 ∧ (inPkt x.1 x.2 0 0).hdr.tags = x.2 := by decide +kernel
theorem wit_answer_taken : ∀ x ∈ [(Pkt.ACK, 0), (Pkt.GET_RESP, 1)], ∃ v, (answerS (inPkt x.1 x.2 0 0) true).part.take 0 x.1 = some (inPkt x.1 x.2 0 0, v) := by
  have h : ∀ x ∈ [(Pkt.ACK, 0), (Pkt.GET_RESP, 1)], (inPkt x.1 x.2 0 0).hdr.type = x.1 ∧ (inPkt x.1 x.2 0 0).hdr.fence = false := by decide +kernel
  exact fun x hx => takes _ _ _ _ rfl (h x hx).1 (h x hx).2
theorem wit_settle : ∀ b, (answerS (inPkt Pkt.ACK 0 0 0) b).part.descOf unacked0.desc = some (fdWait b) ∧ (fdWait b).todo = [] ∧
    dropFirst (fun y => decide (y = unacked0)) (answerS (inPkt Pkt.ACK 0 0 0) b).part.fab.unacked = [] ∧ (fdWait b).q = 5 := by decide +kernel
theorem wit_answer_signal : fdLsig (fdWait true).bytes = true ∧ fdLsig (fdWait false).bytes = false ∧ (answerS (inPkt Pkt.ACK 0 0 0) true).part.homeAt 0x8000 = .lpddr ∧
    fdLsigAddr (fdWait true).bytes = 0x8000 ∧ ((answerS (inPkt Pkt.ACK 0 0 0) true).part.writeFault 0x8000 8).isNone = true ∧
    (answerS (inPkt Pkt.ACK 0 0 0) true).part.rowGood 0x8000 = true := by decide +kernel
theorem wit_get_resp_tag : tagOk (inPkt Pkt.GET_RESP 1 0 0) 0 = true := row_tag_one _ _ _ (by decide +kernel)
theorem wit_get_resp : unacked0.pkt.hdr.arg % 16 = 1 ∧ landsAt (inPkt Pkt.GET_RESP 1 0 0).hdr unacked0 = 0x2000 ∧ (answerS (inPkt Pkt.GET_RESP 1 0 0) false).part.homeAt 0x2000 = .lpddr ∧
    ((answerS (inPkt Pkt.GET_RESP 1 0 0) false).part.writeFault 0x2000 512).isNone = true := by decide +kernel

/-- Circuit 9 begins here at port 3, with understudy 10; a BREAK names it. -/
def breakS : State :=
  st { ((jobP.setRegN (Reg.FAB_CIRC.at [9]) (3 + 16 + 32 + 10 * 2 ^ 7 + 2 ^ 19)).setRegN (Reg.FAB_CIRC.at [10]) (4 + 16 + 32)) with fab := { jobP.fab with inbox := [(0, inPkt Pkt.BREAK 0 0 9)] } }
theorem wit_break : breakS.part.phase = .ready ∧ (breakS.part.take 0 Pkt.BREAK).map (·.1) = some (inPkt Pkt.BREAK 0 0 9) ∧
    (inPkt Pkt.BREAK 0 0 9).hdr.arg % 4096 = 9 ∧ circValid (breakS.part.circEntry 9) = true ∧ circOrigin (breakS.part.circEntry 9) = true ∧
    breakS.part.fab.switched = [] ∧ breakS.part.circNow 9 = some 9 ∧ breakS.part.understudy (breakS.part.circEntry 9) = some 10 := by decide +kernel
/-- A packet of queue 5's descriptor, sent at 0 and not acknowledged for FAB_ACK_TMO. -/
def ackLateS : State := st { (answerS (inPkt Pkt.ACK 0 0 0) false).part with tim := { Time.reset with interval := 70000000 } }
theorem wit_ack_late : ackLateS.part.phase = .ready ∧ (ackLateS.part.unackedOf 0)[0]? = some unacked0 ∧
    1000 * ackLateS.part.regFld (Reg.FAB_ACK_TMO.at []) 0 16 ≤ (ackLateS.part.tim.interval - unacked0.at_).toNat ∧
    ackLateS.part.descOf unacked0.desc = some (fdWait false) ∧ (fdWait false).owner = none ∧ (fdWait false).q = 5 := by
  decide +kernel

/-- Curtain 5 is a fabric tree with child port 3, its parent at port 3 where `up`; a curtain packet for generation `g` has come. -/
def curtIn (type g : Nat) (up : Bool) : State :=
  let p := (fabP.setBytes (pcurtCfgBase + 20) (leBytes 4 (3 + 2 ^ 13))).setRegN (Reg.FAB_CURT.at [5]) (if up then 3 + 16 else 2 ^ 8)
  st (p.onPort 3 (fun _ => { upPort with curtIn := [⟨({ inHdr type 0 0 (5 + g * 64) with vc := 0 } : Hdr).bytes, [], none⟩] }))
theorem wit_curtain_packet : ∀ g ∈ [0, 1], ∀ ty ∈ [Pkt.CURT_ARRIVE, Pkt.CURT_RELEASE], (curtIn ty g false).part.phase = .ready ∧
    3 < (curtIn ty g false).part.fab.ports.length ∧ ((curtIn ty g false).part.takeCurt 3 ty).map (fun x => (x.1, x.2.1)) = some (5, g) ∧
    ((curtIn ty g false).part.pcurt 5).gen.toNat = 0 ∧ bitOf ((curtIn ty g false).part.pcurtCfg 5) 13 = true ∧ 3 ∈ (curtIn ty g false).part.curtKids 5 := by decide +kernel
theorem wit_curtain_parent : ((curtIn Pkt.CURT_RELEASE 0 true).part.takeCurt 3 Pkt.CURT_RELEASE).map (fun x => (x.1, x.2.1)) = some (5, 0) ∧ bitOf ((curtIn Pkt.CURT_RELEASE 0 true).part.fabCurt 5) 4 = true ∧ fld ((curtIn Pkt.CURT_RELEASE 0 true).part.fabCurt 5) 0 4 = 3 ∧
    (curtIn Pkt.CURT_RELEASE 0 true).part.curtKids 5 = [] ∧ (curtIn Pkt.CURT_RELEASE 0 true).part.stg.replicas = [] := by decide +kernel


/-! ### Scripts and the chain -/

/-- Eight loads wait, or none. -/
def loadS (n : Nat) : State := st { onP with cfg := { Script.reset with reqs := List.replicate n ⟨0x10000, none⟩, rung := [0x7000, 0x7008], st := if n = 0 then 0 else 1 } }
theorem wit_load : ∀ n ∈ [0, 1, 9], (loadS n).part.phase = .ready ∧ decide (8 ≤ (loadS n).part.waitingLoads ∧ ((loadS n).part.cfg.staged.isSome || !(loadS n).part.cfg.reqs.isEmpty) = true) = decide (n = 9) := by
  decide +kernel
theorem wit_load_access : mayB (loadS 0) .house (Reg.CFG_LOAD.at []) 8 = true := by decide +kernel
/-- A doorbell word that asks for the script at 0x10000. -/
def rungS : State := st ((loadS 0).part.setBytes 0x7000 (leBytes 8 (2 ^ 63 + 0x10000)))
theorem wit_rung : rungS.part.cfg.rung = [0x7000, 0x7008] ∧ bitOf (rungS.part.natAt 0x7000 8) 63 = true ∧ rungS.part.cfg.reqs = [] := by decide +kernel
/-- No script stands at 0x10000: its magic is not there (cause 2); the request came by the doorbell at 0x7000. -/
def noScriptS : State := st { onP with cfg := { Script.reset with reqs := [⟨0x10000, some 0x7000⟩] } }
theorem wit_no_script : noScriptS.part.cfg.staged = none ∧ noScriptS.part.scriptThere 0x10000 256 = true ∧ noScriptS.part.homeAt 0x7000 = .lpddr ∧
    noScriptS.part.rowGood 0x7000 = true ∧ noScriptS.part.cfg.reqs = [⟨0x10000, some 0x7000⟩] ∧
    (scriptHead (noScriptS.part.bytesAt 0x10000 256)).fault false 0 [] = 2 := by decide +kernel

/-- A record that retires scene 4 after 1 us. -/
def retire4 : List Byte := leBytes 2 4 ++ [3, 0] ++ List.replicate 16 0 ++ leBytes 4 1 ++ List.replicate 232 0
def stagedRec (l : List (List Byte)) (fs : List Clear) (x : ScriptStage) : Staged :=
  { num := 1, req := none, base := 0x900000, mib := 1, version := 2, last := noise 4 32, frames := fs, records := l, stage := x, at_ := 0, old := [] }
def commitS (g : Staged) (ts : List Task) : State :=
  st { base with cfg := { Script.reset with staged := some g, st := 2 }, stg := { Stage.reset with scenes := [{ sceneR with num := 4 }], tasks := ts }, tim := { Time.reset with interval := 1000 } }
def task4 : Task := { task0 with scene := 4 }
theorem wit_commit : (commitS (stagedRec [retire4] [] .checked) []).part.phase = .ready ∧ (stagedRec [retire4] [] .checked).gone = [4] ∧
    (stagedRec [] [(2, 0, pcurtCfgBase, [1, 2])] .darkened).frames = [(2, 0, pcurtCfgBase, [1, 2])] := by decide +kernel
theorem wit_quiet : (commitS (stagedRec [retire4] [] .draining) [task4]).part.stg.tasks = [task4] ∧ (stagedRec [retire4] [] .draining).recs.length = 1 ∧
    (stagedRec [retire4] [] .draining).recs.map (fun r => (r.retires, r.quiet)) = [(some 4, 1)] ∧
    1 * 1000 ≤ ((commitS (stagedRec [retire4] [] .draining) [task4]).part.tim.interval - 0).toNat ∧ task4.kind = 0 ∧ task4.scene = 4 ∧ task4.fits ∧
    task4.key.child = 0xFFFF ∧ (commitS (stagedRec [retire4] [] .draining) [task4]).part.stg.replicas = [] := by
  unfold Task.fits; decide +kernel

/-- A chain block without payload. -/
def chainB (type : Nat) (known : Bool) (pos : Nat) : List Byte :=
  leBytes 4 (type + pos * 2 ^ 8 + known.toNat * 2 ^ 11) ++ leBytes 4 (crc32c (leBytes 4 (type + pos * 2 ^ 8 + known.toNat * 2 ^ 11))).toNat
def chainS (ph : Phase) (c : Chain) (t : Nat) : State := st { base with phase := ph, chain := c, tim := { Time.reset with interval := BitVec.ofNat 64 t } }
def chainAt (n : Nat) : Chain := { Chain.reset with fixed := true, pos := n, seen := true, gotBoot := true }
theorem wit_chain : (chainS .rom Chain.reset 20000000).part.chainRuns = true ∧ chainBlock (chainB 4 true 3) = some (4, true, 3, []) ∧
    chainBlock (chainB 4 true 7) = some (4, true, 7, []) ∧ (chainS .rom Chain.reset 20000000).part.chain.fixed = false ∧
    (chainS .rom Chain.reset 20000000).part.chain.seen = false ∧ 20000000 ≤ (chainS .rom Chain.reset 20000000).part.tim.interval.toNat ∧
    chainBlock [1, 2, 3] = none ∧ (chainS .rehearsed (chainAt 2) 0).part.chainRuns = true ∧ (chainAt 2).fixed = true ∧ (chainAt 2).pos ≠ 0 ∧ (chainAt 2).ended = false := by
  decide +kernel
theorem wit_chain_end : chainBlock (chainB 2 false 0) = some (2, false, 0, []) ∧ chainBlock (chainB 3 false 0) = some (3, false, 0, []) ∧ (chainAt 2).gotScript = false ∧
    2000000000 ≤ ((chainS .rehearsed (chainAt 2) 2000000000).part.tim.interval - (chainAt 2).lastBlock).toNat := by decide +kernel
theorem crc_tail (x : List Byte) : (x ++ leBytes 4 (crc32c x).toNat).take x.length = x ∧ leAt (x ++ leBytes 4 (crc32c x).toNat) x.length 4 = (crc32c x).toNat := by
  generalize crc32c x = c
  have hc := c.isLt
  simp [leAt, leNat_leBytes, List.take_of_length_le]
  omega
/-- The DATA block that begins a script of one page for position `pos`. -/
def scriptX (pos : Nat) : List Byte := List.replicate 8 0 ++ [BitVec.ofNat 8 pos] ++ List.replicate 7 0 ++ leBytes 8 4096 ++ List.replicate 4072 0
def dataB (x : List Byte) : List Byte := (leBytes 4 1 ++ x) ++ leBytes 4 (crc32c (leBytes 4 1 ++ x)).toNat
theorem data_block (x : List Byte) (h : x.length = 4096) : chainBlock (dataB x) = some (1, false, 0, x) := by
  obtain ⟨h1, h2⟩ := crc_tail (leBytes 4 1 ++ x)
  have hl : (leBytes 4 1 ++ x).length = 4100 := by simp [h]
  rw [hl] at h1 h2
  have h3 : (dataB x).length = 4104 := by simp [dataB, h]
  have h4 : leAt (dataB x) 0 4 = 1 := by simp [dataB, leAt, List.append_assoc]; decide
  have h5 : ((dataB x).drop 4).take 4096 = x := by simp [dataB, List.append_assoc, ← h]
  simp only [chainBlock, h3, h4]
  simp only [dataB] at h5 ⊢
  simp only [show 4104 - 4 = 4100 from rfl, h1, h2, show 4104 - 8 = 4096 from rfl, h5]
  generalize crc32c (leBytes 4 1 ++ x) = c
  simp [bitOf, fld]
theorem wit_data (pos : Nat) : chainBlock (dataB (scriptX pos)) = some (1, false, 0, scriptX pos) := data_block _ (by simp only [scriptX, List.length_append, List.length_replicate, leBytes_length, List.length_singleton])
theorem wit_data_head : (scriptHead (scriptX 2)).length = 4096 ∧ (scriptHead (scriptX 2)).pos = 2 ∧ (scriptHead (scriptX 3)).pos = 3 ∧ (chainAt 2).left = 0 := by decide +kernel


/-! ### The host -/

/-- Rings 7 and 8: submission ring 7 of 64 entries on port 0, tail 60 of head 60; completion ring 7 on port 0 with a held record, its last entry next. -/
def ringP : Part :=
  ((((((onP.setRegN (Reg.HST_SQ_CFG.at [7]) 16).setRegN (Reg.HST_SQ_BASE.at [7]) 0x100000).setRegN (Reg.HST_SQ_HEAD.at [7]) 60).setRegN (Reg.HST_CQ_CFG.at [7]) (16 + 3 * 32 + 4 * 2 ^ 16 + 2 * 2 ^ 24)).setRegN (Reg.HST_CQ_BASE.at [7]) 0x200000).setRegN (Reg.HST_CQ_TAIL.at [7]) (63 + 2 ^ 16))
def ringS (held : List (List Byte)) : State :=
  st ({ ringP with tim := { Time.reset with interval := 2000 } }.onRing 7 (fun _ => { tail := 60, cqHead := 0, held := held, fresh := 1, oldest := some 0 }))
/-- The record that is held. -/
def rec0 : List Byte := noise 1 32
theorem wit_ring : (ringS []).part.portUp 0 = true ∧ (ringS []).part.phase ≠ .provision ∧ (ringS []).part.sqEnabled 7 = true ∧ (ringS []).part.sqPort 7 = 0 ∧
    (ringS []).part.sqNext 7 = 60 ∧ (ringS []).part.sqSize 7 = 64 ∧ (63 + 64 - 60) % 64 = 3 ∧ (ringS []).part.sqEnabled 8 = false := by decide +kernel
/-- With its tail at 62 two entries are left to read. -/
def ringLeftS : State := st ((ringS []).part.onRing 7 (fun r => { r with tail := 62 }))
theorem wit_ring_left : ringLeftS.part.sqLeft 7 = 2 := by decide +kernel
theorem wit_completion : (ringS [rec0]).part.cqEnabled 7 = true ∧ (ringS [rec0]).part.cqPort 7 = 0 ∧ ((ringS [rec0]).part.ring 7).held = [rec0] ∧
    ((ringS [rec0]).part.cqTail 7 + 1) % (ringS [rec0]).part.cqSize 7 ≠ 5 % (ringS [rec0]).part.cqSize 7 ∧ ((ringS []).part.ring 7).held = [] := by decide +kernel
theorem wit_threshold : ((ringS []).part.ring 7).oldest = some 0 ∧ fld ((ringS []).part.cqCfg 7) 24 8 = 2 ∧ 2 * 1000 ≤ ((ringS []).part.tim.interval - 0).toNat := by decide +kernel

/-- Port 0's window begins at 0; with `failed` the channel of 0x6000 has failed. -/
def windowS (failed : Bool) : State := st (if failed then onP.setRegN (chanReg Reg.MEM_CH_STAT 0x6000) 3 else onP)
theorem wit_window : ∀ f, (windowS f).part.phase = .ready ∧ (windowS f).part.portUp 0 = true ∧ (windowS f).part.partials = [] ∧ (windowS f).part.bar2Addr 0 0x6000 = 0x6000 ∧
    (windowS f).part.homeAt 0x6000 = .lpddr ∧ (windowS f).part.chFailed 0x6000 = f ∧ (windowS f).part.rowGood 0x6000 = true ∧ (windowS f).part.inPool 0x6000 512 = false := by
  decide +kernel
/-- Vector 2 of port 0 is masked and pending. -/
def pendingS : State := st { onP with hst := { HostPorts.reset with pba := [(2, true)] } }
theorem wit_vector : pendingS.part.portUp 0 = true ∧ 11 % 4 = 3 ∧ Tab.get false pendingS.part.hst.pba (1024 * 0 + 11 / 4) = true := by decide +kernel

/-! ### Power and boot -/

def offS : State := st { Part.reset with pwr := { Power.reset with pwrGood := false, auxGood := false }, phase := .off }
def auxS (r tr : Bool) : State := st { Part.reset with pwr := { Power.reset with pwrGood := false, resetN := r, tripped := tr }, phase := .aux }
def heldS (tr : Bool) : State := st { Part.reset with pwr := { Power.reset with tripped := tr } }
theorem wit_power : offS.part.pwr.auxGood = false ∧ (∀ r, (auxS r false).part.pwr.auxGood = true ∧ (auxS r false).part.pwr.pwrGood = false ∧ (auxS r false).part.pwr.resetN = r) ∧
    base.pwr.pwrGood = true ∧ base.pwr.auxGood = true ∧ (∀ t, (heldS t).part.phase = .held ∧ (heldS t).part.pwr.resetN = false ∧ (heldS t).part.pwr.tripped = t) := by
  decide +kernel

def bootS (ph : Phase) (sec : Security) : State := st { Part.reset with phase := ph, chain := { Chain.reset with fixed := true }, sec := sec, pwr := { Power.reset with resetN := true } }
/-- A flash area of zeros is bad. -/
theorem wit_boot_area : (bootS .rom Security.reset).part.phase = .rom ∧ (bootS .rom Security.reset).part.chain.fixed = true ∧ (bootS .rom Security.reset).part.chain.pos = 0 := by
  decide +kernel
theorem wit_area_bad : areaBad [] = true := by simp [areaBad, leAt, leNat]
theorem wit_firmware_bad : firmwareBad [] = true := by simp [firmwareBad, leAt, leNat]


/-! ### States with sealed or measured contents

A constant of Config without a body has no value that Lean can compute: a witness of a clause in which the vendor's key must have the digest that
one of them gives takes that as a hypothesis. Signatures are made with the seeds of zeros. -/

theorem slice_mid (a b c : List Byte) (lo n : Nat) (ha : a.length = lo) (hb : b.length = n) : sliceB (a ++ (b ++ c)) lo n = b := by
  subst ha; subst hb; simp [sliceB]
theorem leAt_mid (a b c : List Byte) (lo n : Nat) (ha : a.length = lo) (hb : b.length = n) : leAt (a ++ (b ++ c)) lo n = leNat b := by
  subst ha; subst hb; simp [leAt]
theorem leAt_front (a b : List Byte) (lo n : Nat) (h : lo + n ≤ a.length) : leAt (a ++ b) lo n = leAt a lo n := by
  simp only [leAt]
  rw [List.drop_append_of_le_length (by omega), List.take_append_of_le_length (by simp; omega)]

/-- The public key of the seeds of zeros, and a signature made with them. -/
@[irreducible] def signKey : List Byte := slhPublicOf slh128s (List.replicate 48 0)
@[irreducible] def sigOf (m : List Byte) : List Byte := slhSignWith slh128s (List.replicate 48 0) m
theorem signKey_length : signKey.length = 32 := by unfold signKey; exact slhPublicOf_length _ _
theorem sigOf_length (m : List Byte) : (sigOf m).length = 7856 := by unfold sigOf; exact slhSignWith_length _ _ _
theorem sig_good (m : List Byte) : slhVerify signKey m (sigOf m) = true := by
  unfold slhVerify signKey sigOf; exact slh_sign_verifies slh128s 6 rfl _ m
theorem flatMap_length {α β : Type} (l : List α) (f : α → List β) (n : Nat) (h : ∀ x, (f x).length = n) : (l.flatMap f).length = n * l.length := by
  induction l with
  | nil => simp
  | cons x xs ih => simp [List.flatMap_cons, ih, h, Nat.mul_succ, Nat.add_comm]
@[irreducible] def zeros (n : Nat) : List Byte := List.replicate n 0
@[simp] theorem zeros_length (n : Nat) : (zeros n).length = n := by unfold zeros; exact List.length_replicate ..
/-! A key of 32 bytes gives round keys of 16, so that a block and a tag have 16 bytes, and encryption undoes itself. -/

theorem chunksF_length {α : Type} (n k : Nat) (hn : 0 < n) : ∀ (f : Nat) (l : List α), l.length = n * k → k ≤ f → (chunksF n f l).length = k ∧ ∀ x ∈ chunksF n f l, x.length = n := by
  induction k with
  | zero =>
    intro f l h _
    have : l = [] := List.length_eq_zero_iff.mp (by simpa using h)
    subst this
    cases f <;> simp [chunksF]
  | succ k ih =>
    intro f l h hf
    cases f with
    | zero => omega
    | succ f =>
      cases l with
      | nil => simp only [List.length_nil, Nat.mul_succ] at h; omega
      | cons a l =>
        have hd : ((a :: l).drop n).length = n * k := by rw [List.length_drop, h, Nat.mul_succ]; omega
        obtain ⟨h1, h2⟩ := ih f ((a :: l).drop n) hd (by omega)
        refine ⟨by simp only [chunksF, List.length_cons, h1], ?_⟩
        intro x hx
        simp only [chunksF, List.mem_cons] at hx
        rcases hx with rfl | hx
        · rw [List.length_take, h, Nat.mul_succ]; omega
        · exact h2 x hx
theorem chunks_length {α : Type} (n k : Nat) (hn : 0 < n) (l : List α) (h : l.length = n * k) : (chunks n l).length = k ∧ ∀ x ∈ chunks n l, x.length = n :=
  chunksF_length n k hn _ l h (by rw [h]; exact Nat.le_mul_of_pos_left k hn)
theorem keyWords_length (sb : List Byte) : ∀ (n i : Nat) (w : List (List Byte)), 8 ≤ w.length → (∀ x ∈ w, x.length = 4) →
    (keyWords sb n i w).length = n + w.length ∧ ∀ x ∈ keyWords sb n i w, x.length = 4 := by
  intro n
  induction n with
  | zero => intro i w _ h; exact ⟨(Nat.zero_add _).symm, h⟩
  | succ n ih =>
    intro i w hw h
    have hg : ∀ k < 8, (w.getD k []).length = 4 := fun k hk => by
      rw [List.getD_eq_getElem?_getD, List.getElem?_eq_getElem (by omega)]
      exact h _ (List.getElem_mem _)
    have h0 := hg 0 (by omega)
    have h7 := hg 7 (by omega)
    have hx : ∀ t1 : List Byte, t1.length = 4 → ∀ x ∈ xorL (w.getD 7 []) t1 :: w, x.length = 4 := by
      intro t1 ht x hx
      rcases List.mem_cons.mp hx with rfl | hx
      · simp only [xorL, List.length_zipWith, h7, ht, Nat.min_self]
      · exact h x hx
    have key : ∀ t1 : List Byte, t1.length = 4 → (keyWords sb n (i + 1) (xorL (w.getD 7 []) t1 :: w)).length = n + 1 + w.length ∧
        ∀ x ∈ keyWords sb n (i + 1) (xorL (w.getD 7 []) t1 :: w), x.length = 4 := fun t1 ht => by
      obtain ⟨a, b⟩ := ih (i + 1) (xorL (w.getD 7 []) t1 :: w) (by simp; omega) (hx t1 ht)
      exact ⟨by rw [a, List.length_cons]; omega, b⟩
    unfold keyWords
    apply key
    split
    · simp only [xorL, List.length_zipWith, List.length_map, List.length_append, List.length_drop, List.length_take, h0, List.length_cons, List.length_nil]; rfl
    · split
      · rw [List.length_map, h0]
      · exact h0
theorem lastKey_length (key : List Byte) (h : key.length = 32) : ((roundKeys key).getD 14 []).length = 16 := by
  obtain ⟨h1, h2⟩ := chunks_length 4 8 (by omega) key h
  obtain ⟨h3, h4⟩ := keyWords_length sbox 52 8 (chunks 4 key).reverse (by rw [List.length_reverse, h1]) (fun x hx => h2 x (List.mem_reverse.mp hx))
  generalize hw : (keyWords sbox 52 8 (chunks 4 key).reverse).reverse = w
  have hl : w.length = 4 * 15 := by rw [← hw, List.length_reverse, h3, List.length_reverse, h1]
  have hm : ∀ x ∈ w, x.length = 4 := fun x hx => h4 x (by rw [← hw] at hx; exact List.mem_reverse.mp hx)
  obtain ⟨h5, h6⟩ := chunks_length 4 15 (by omega) w hl
  have hs : ∀ c ∈ chunks 4 w, ∀ x ∈ c, x.length = 4 := by
    have gen : ∀ (f : Nat) (l : List (List Byte)), (∀ x ∈ l, x.length = 4) → ∀ c ∈ chunksF 4 f l, ∀ x ∈ c, x.length = 4 := by
      intro f
      induction f with
      | zero => intro l _ c hc; simp [chunksF] at hc
      | succ f ih =>
        intro l hl c hc x hx
        cases l with
        | nil => simp [chunksF] at hc
        | cons a l =>
          simp only [chunksF, List.mem_cons] at hc
          rcases hc with rfl | hc
          · exact hl x (List.mem_of_mem_take hx)
          · exact ih _ (fun y hy => hl y (List.mem_of_mem_drop hy)) c hc x hx
    exact gen _ w hm
  have hr : roundKeys key = (chunks 4 w).map (·.flatten) := by rw [← hw]; rfl
  rw [hr, List.getD_eq_getElem?_getD, List.getElem?_eq_getElem (by rw [List.length_map, h5]; omega), Option.getD_some, List.getElem_map, List.length_flatten]
  have hc := List.getElem_mem (l := chunks 4 w) (n := 14) (by rw [h5]; omega)
  have e : ((chunks 4 w)[14]'(by rw [h5]; omega)).map List.length = List.replicate 4 4 := by
    rw [List.eq_replicate_iff, List.length_map]
    exact ⟨h6 _ hc, fun b hb => by obtain ⟨x, hx, rfl⟩ := List.mem_map.mp hb; exact hs _ hc x hx⟩
  rw [e]; rfl
theorem block_length (sb b key : List Byte) (h : key.length = 32) : (aesBlock sb (roundKeys key) b).length = 16 := by
  simp only [aesBlock, xorL, List.length_zipWith, lastKey_length key h]
  simp [shiftRows]
theorem tag_length (key iv aad ct : List Byte) (h : key.length = 32) : (gcmTag key iv aad ct).length = 16 := by
  simp only [gcmTag, xorL, List.length_zipWith, block_length _ _ key h]
  simp [beBytes]
theorem stream_length (key iv : List Byte) (n : Nat) (h : key.length = 32) : (gctr sbox (roundKeys key) iv 2 n).length = n := by
  simp only [gctr, List.length_take]
  rw [flatMap_length _ _ 16 (fun i => block_length _ _ key h)]
  simp [ceilDiv]; omega
theorem crypt_length (key iv ct : List Byte) (h : key.length = 32) : (gcmCrypt key iv ct).length = ct.length := by
  simp only [gcmCrypt, xorL, List.length_zipWith, stream_length key iv _ h, Nat.min_self]
theorem xor_twice : ∀ (a b : List Byte), a.length = b.length → xorL (xorL a b) b = a := by
  intro a
  induction a with
  | nil => intro b _; cases b <;> rfl
  | cons x a ih =>
    intro b h
    cases b with
    | nil => simp at h
    | cons y b =>
      have := ih b (by simpa using h)
      simp only [xorL] at this ⊢
      simp only [List.zipWith_cons_cons, this, BitVec.xor_assoc, BitVec.xor_self, BitVec.xor_zero]
theorem crypt_twice (key iv x : List Byte) (h : key.length = 32) : gcmCrypt key iv (gcmCrypt key iv x) = x := by
  have hl := crypt_length key iv x h
  show xorL (gcmCrypt key iv x) (gctr sbox (roundKeys key) iv 2 (gcmCrypt key iv x).length) = x
  rw [hl]
  exact xor_twice _ _ (by rw [stream_length key iv _ h])

/-! A frame with 20 bytes of fields and a body of 4,048 bytes, sealed with a key. -/

def frameHead (pre body : List Byte) : List Byte := pre ++ (leBytes 4 (crc32c body).toNat ++ zeros 8)
@[irreducible] def frameB (key iv pre body : List Byte) : List Byte :=
  frameHead pre body ++ (gcmCrypt key iv body ++ gcmTag key iv (frameHead pre body) (gcmCrypt key iv body))
theorem frameHead_length (pre body : List Byte) (h : pre.length = 20) : (frameHead pre body).length = 32 := by simp [frameHead, h]
theorem frameB_facts (key iv pre body : List Byte) (hk : key.length = 32) (hp : pre.length = 20) (hb : body.length = 4048) :
    (frameB key iv pre body).length = 4096 ∧
    gcmOpen key iv ((frameB key iv pre body).take 32) (sliceB (frameB key iv pre body) 32 4048) (sliceB (frameB key iv pre body) 4080 16) = some body ∧
    (∀ lo n, lo + n ≤ 20 → leAt (frameB key iv pre body) lo n = leAt pre lo n) ∧ leAt (frameB key iv pre body) 20 4 = (crc32c body).toNat ∧
    leAt (frameB key iv pre body) 24 8 = 0 := by
  have hh := frameHead_length pre body hp
  have hc : (gcmCrypt key iv body).length = 4048 := by rw [crypt_length _ _ _ hk, hb]
  have ht := tag_length key iv (frameHead pre body) (gcmCrypt key iv body) hk
  unfold frameB
  refine ⟨by simp only [List.length_append, hh, hc, ht], ?_, ?_, ?_, ?_⟩
  · have h3 := slice_mid (frameHead pre body ++ gcmCrypt key iv body) (gcmTag key iv (frameHead pre body) (gcmCrypt key iv body)) [] 4080 16
      (by simp only [List.length_append, hh, hc]) ht
    rw [List.append_nil, List.append_assoc] at h3
    rw [List.take_left' hh, slice_mid _ _ _ _ _ hh hc, h3]
    simp only [gcmOpen, if_true, crypt_twice key iv body hk]
  · intro lo n h
    rw [frameHead, List.append_assoc]
    exact leAt_front _ _ _ _ (by omega)
  · rw [frameHead, List.append_assoc, List.append_assoc, leAt_mid _ _ _ _ _ hp (leBytes_length _ _), leNat_leBytes]
    generalize crc32c body = c
    exact Nat.mod_eq_of_lt c.isLt
  · rw [frameHead, List.append_assoc, List.append_assoc, ← List.append_assoc, leAt_mid _ _ _ _ _ (by rw [List.length_append, hp, leBytes_length]) (zeros_length _)]
    decide +kernel

/-! The prompter: frame 0 of a kept script is sealed with the key of zeros and holds four bytes for package-wide configuration. -/

def preF (pos : Nat) : List Byte := leBytes 2 0x4D46 ++ leBytes 1 2 ++ leBytes 1 pos ++ leBytes 4 0 ++ leBytes 6 pcurtCfgBase ++ leBytes 2 4 ++ leBytes 4 0
theorem preF_length (pos : Nat) : (preF pos).length = 20 := by simp [preF]
@[irreducible] def bodyF : List Byte := [1, 2, 3, 4] ++ zeros 4044
theorem bodyF_length : bodyF.length = 4048 := by unfold bodyF; simp
def frameF : List Byte := frameB (zeros 32) (leBytes 4 0 ++ zeros 8) (preF 0) bodyF
/-- The script's first page: a header that says one frame. -/
@[irreducible] def pageP : List Byte := zeros 24 ++ leBytes 4 1 ++ zeros 4068
def repairGolden : Golden := { die := 1, addr := pcurtCfgBase, len := 4, crc := crc32c (padTo 4048 [1, 2, 3, 4]), script := 3, frame := 0 }
def keptK : Kept := { num := 3, base := 0x800000, mib := 1, scenes := [], key0 := zeros 32 }
def repairS : State :=
  st { (base.setBytes 0x800000 (pageP ++ frameF)) with cfg := { Script.reset with kept := [keptK], mismatch := [repairGolden], golden := [repairGolden] } }

theorem frameF_length : frameF.length = 4096 := (frameB_facts _ _ _ _ (zeros_length _) (preF_length _) bodyF_length).1
theorem pageP_length : pageP.length = 4096 := by unfold pageP; simp only [List.length_append, zeros_length, leBytes_length]
theorem readN_in (l : List Byte) (p : Part) (a k n : Nat) (h : k + n ≤ l.length) : (p.setBytes a l).bytesAt (a + k) n = (l.drop k).take n := by
  induction n generalizing k with
  | zero => simp [Part.bytesAt, Memory.readN]
  | succ n ih =>
    have h1 := ih (k + 1) (by omega)
    have h2 := Part.byteAt_setBytes_in p a k l (by omega)
    simp only [Part.bytesAt, Memory.readN] at h1 ⊢
    rw [show a + k + 1 = a + (k + 1) by omega, h1, List.drop_eq_getElem_cons (by omega : k < l.length), List.take_succ_cons]
    exact congrArg (· :: _) h2
theorem pool_frame (p : Part) (f : List Byte) (h : p.mem = (base.setBytes 0x800000 (pageP ++ f)).mem) (hf : f.length = 4096) :
    p.bytesAt (0x800000 + 4096) 4096 = f ∧ p.bytesAt 0x800000 256 = pageP.take 256 := by
  have hb : ∀ a n, p.bytesAt a n = (base.setBytes 0x800000 (pageP ++ f)).bytesAt a n := fun a n => by simp only [Part.bytesAt, h]
  have h1 := readN_in (pageP ++ f) base 0x800000 4096 4096 (by simp only [List.length_append, pageP_length, hf]; omega)
  have h2 := readN_in (pageP ++ f) base 0x800000 0 256 (by simp only [List.length_append, pageP_length, hf]; omega)
  rw [hb, hb]
  refine ⟨?_, ?_⟩
  · rw [h1, List.drop_left' pageP_length, List.take_of_length_le (by rw [hf])]
  · rw [Nat.add_zero] at h2
    rw [h2, List.drop_zero, List.take_append_of_le_length (by rw [pageP_length]; omega)]
theorem head_frames : (scriptHead (pageP.take 256)).frames = 1 ∧ (scriptHead (pageP.take 256)).nonce = zeros 8 ∧ frameBase 1 = 4096 := by decide +kernel
theorem kept_frames (p : Part) (k : Kept) (pre body : List Byte) (hp : pre.length = 20) (hb : body.length = 4048) (hk : k.base = 0x800000) (h0 : k.key0 = zeros 32)
    (h : p.mem = (base.setBytes 0x800000 (pageP ++ frameB (zeros 32) (leBytes 4 0 ++ zeros 8) pre body)).mem) :
    p.keptFrames k = [(0, some (leAt pre 2 1, leAt pre 16 2, leAt pre 8 6, body.take (leAt pre 14 2)))] := by
  obtain ⟨hl, ho, ha, hc, -⟩ := frameB_facts (zeros 32) (leBytes 4 0 ++ zeros 8) pre body (zeros_length _) hp hb
  obtain ⟨hf, hh⟩ := pool_frame p _ h hl
  obtain ⟨h1, h2, h3⟩ := head_frames
  have hf' : p.bytesAt (0x800000 + frameBase 1 + 4096 * 0) 4096 = frameB (zeros 32) (leBytes 4 0 ++ zeros 8) pre body := by rw [h3]; exact hf
  have ho' : openFrame (zeros 32) (scriptHead (pageP.take 256)).ctx (zeros 8) 0 (frameB (zeros 32) (leBytes 4 0 ++ zeros 8) pre body) = some body := by
    simpa only [openFrame, Nat.zero_div, epochKey] using ho
  unfold Part.keptFrames
  simp only [hk, h0, hh, h1, h2, List.range_one, List.map_cons, List.map_nil, hf', ho', hc, if_true, clearOf, ha 2 1 (by omega), ha 16 2 (by omega), ha 8 6 (by omega),
    ha 14 2 (by omega)]
theorem preF_fields : leAt (preF 0) 2 1 = 2 ∧ leAt (preF 0) 16 2 = 0 ∧ leAt (preF 0) 8 6 = pcurtCfgBase ∧ leAt (preF 0) 14 2 = 4 := by decide +kernel
theorem wit_repair_frames : (repairS.part.keptFrames keptK)[0]? = some (0, some (2, 0, pcurtCfgBase, [1, 2, 3, 4])) := by
  obtain ⟨h1, h2, h3, h4⟩ := preF_fields
  rw [kept_frames repairS.part keptK (preF 0) bodyF (preF_length _) bodyF_length rfl rfl rfl, h1, h2, h3, h4]
  unfold bodyF
  rfl
theorem wit_repair_ready : repairS.part.phase = .ready := rfl
theorem wit_repair_log : repairS.part.err.recs = [] := rfl
theorem wit_repair_tasks : repairS.part.stg.tasks = [] := rfl
theorem wit_repair_place : viewPlace repairGolden.addr repairGolden.len = some none := by decide +kernel
theorem wit_repair_bytes : ([1, 2, 3, 4] : List Byte).length = repairGolden.len ∧ crc32c (padTo 4048 [1, 2, 3, 4]) = repairGolden.crc := ⟨rfl, by simp only [repairGolden]⟩
theorem wit_repair_found : repairS.part.cfg.mismatch.find? (fun y => y.die == 1) = some repairGolden ∧ repairS.part.cfg.kept.find? (fun y => y.num == repairGolden.script) = some keptK :=
  ⟨rfl, rfl⟩
/-- The channels of the frame's rows have not failed: no register differs from its reset value but the capacity. -/
theorem wit_repair_rows : (List.range 8).any (fun i => let a := keptK.base + frameBase (scriptHead (repairS.part.bytesAt keptK.base 256)).frames + 4096 * repairGolden.frame + 512 * i
    decide (repairS.part.homeAt a = .lpddr) && repairS.part.chFailed a) = false := by
  have hd : repairS.part.bytesAt keptK.base 256 = pageP.take 256 := (pool_frame repairS.part frameF rfl frameF_length).2
  have hr : repairS.part.regs = base.regs := rfl
  have hc : ∀ a, repairS.part.chFailed a = base.chFailed a := by intro a; simp only [Part.chFailed, Part.regN, Part.reg, hr]
  have h : ∀ i < 8, base.chFailed (0x801000 + 512 * i) = false := by decide +kernel
  rw [hd, head_frames.1, head_frames.2.2]
  simp only [List.any_eq_false, List.mem_range]
  intro i hi
  have := h i hi
  simp [hc, keptK, repairGolden, this]


/-! ### The security engine -/

/-- A security engine whose wrap key and identity key are zeros. -/
def sec0 : Security := { Security.reset with kwrap := some (zeros 32), idPk := zeros 32, identity := zeros 8192, building := true }
def quote0 (b : Option (List Byte)) : QuoteReq := ⟨noise 1 32, 0x2000, b⟩
def quoteS (n addr : Nat) : State := st { (onP.setRegN (Reg.SEC_QADDR.at []) addr) with sec := { sec0 with quotes := List.replicate n (quote0 none) } }
theorem wit_extend : (st onP).mayAccess .house (Reg.SEC_EXTEND.at []) 4 ∧ bitOf (0x80000009 : W32).toNat 31 = true ∧ fld (0x80000009 : W32).toNat 0 4 = 9 ∧
    onP.regFld (Reg.SEC_LOG_COUNT.at []) 0 11 = 0 ∧ (onP.setFld (Reg.SEC_LOG_COUNT.at []) 0 11 1024).regFld (Reg.SEC_LOG_COUNT.at []) 0 11 = 1024 := by
  unfold State.mayAccess; decide +kernel
theorem wit_provisioning : (st onP).mayAccess .house (Reg.SEC_PROV_CTL.at []) 4 ∧ ({ onP with phase := .provision, sec := sec0 } : Part).sec.building = true := by
  unfold State.mayAccess; decide +kernel
theorem wit_quote : (∀ n < 5, (quoteS n 0x10000).mayAccess .house (Reg.SEC_QCTL.at []) 4 ∧ (quoteS n 0x10000).part.sec.quotes.length = n) ∧
    (quoteS 0 0x10000).part.quoteAddrBad 0x10000 = false ∧ (quoteS 0 0x10001).part.quoteAddrBad 0x10001 = true ∧ (quoteS 0 0x10000).part.phase = .ready := by
  unfold State.mayAccess; decide +kernel
/-- The bytes of a quote of zeros. -/
def signedS : State := st { base with sec := { sec0 with quotes := [quote0 (some (zeros 17728))] } }
theorem wit_signed : signedS.part.sec.quotes = [quote0 (some (zeros 17728))] ∧ (zeros 17728).length = 17728 ∧ signedS.part.phase = .ready ∧ (quote0 none).addr % 512 = 0 :=
  ⟨rfl, zeros_length _, rfl, rfl⟩
theorem wit_signed_rows : ∀ i < 35, base.homeAt (0x2000 + 512 * i) = .lpddr ∧ base.chFailed (0x2000 + 512 * i) = false := by decide +kernel

/-! ### Errors and recovery -/

def report0 : Report := ⟨0x0001, 0, 1, 2, 3, 4, none, 0x1234, 99⟩
/-- A dark replica runs a task: a program error aborts it, and nothing else is placed. -/
def abortS : State :=
  st { base with stg := { Stage.reset with replicas := [{ rep0 with dark := true, task := some key0, st := .running }], tasks := [{ task0 with st := .running, anchor := some 0 }], scenes := [scene0] } }
theorem wit_error : base.awake = true ∧ (base.reg (Reg.ERR_SEQ.at [])).toNat - base.regN (Reg.ERR_LOG_RD.at []) < 4096 := by decide +kernel
theorem wit_error_task : abortS.part.awake = true ∧
    abortS.part.stg.replicas.find? (fun x => x.task == some key0) = some { rep0 with dark := true, task := some key0, st := .running } ∧
    abortS.part.task key0 = some { task0 with st := .running, anchor := some 0 } ∧ ({ task0 with st := .running, anchor := some 0 } : Task).fits ∧
    task0.aborts < fld (abortS.part.regN (Reg.STG_CFG.at [0])) 0 2 := by
  unfold Task.fits; decide +kernel
/-- The recovery of replica 0 for a scene error, cluster 1600 standing for none. -/
def sceneS (cl : Nat) : State :=
  st { (base.setRegN (Reg.STG_ROSTER.at [0, 0]) 7) with stg := { Stage.reset with replicas := [rep0], scenes := [scene0] }, err := { recs := [⟨3, 2, 0, 2, 0, 0, none, 0, some 0⟩], scenes := [(0, cl, 3)] } }
/-- A commit under way retires scene 0. -/
def leavingS : State := st { (sceneS 0).part with cfg := { Script.reset with staged := some (stagedRec [leBytes 2 0 ++ [3, 0] ++ List.replicate 252 0] [] .draining) } }
/-- Replica 0 is gone. -/
def goneS (cl : Nat) : State := st { (sceneS cl).part with stg := Stage.reset }
theorem wit_scene_other : leavingS.part.err.scenes.find? (fun x => x.1 / 400 == 0) = some (0, 0, 3) ∧ leavingS.part.replicaOf 0 = some rep0 ∧
    leavingS.part.leaving rep0.scene = true ∧ (goneS 0).part.err.scenes.find? (fun x => x.1 / 400 == 0) = some (0, 0, 3) ∧ (goneS 0).part.replicaOf 0 = none ∧
    (sceneS 2).part.err.scenes.find? (fun x => x.1 / 400 == 0) = some (0, 2, 3) ∧ (sceneS 2).part.replicaOf 0 = some rep0 ∧ rep0.holds 2 = false := by decide +kernel
theorem wit_scene_removed : ∀ cl ∈ [0, 1600], (sceneS cl).part.phase = .ready ∧ (sceneS cl).part.err.scenes.find? (fun x => x.1 / 400 == 0) = some (0, cl, 3) ∧
    (sceneS cl).part.replicaOf 0 = some rep0 ∧ (sceneS cl).part.leaving rep0.scene = false ∧ rep0.holds 0 = true ∧ (sceneS cl).part.stg.tasks = [] ∧
    (sceneS cl).part.poolLost 0 = false ∧ ((sceneS cl).part.retireCluster 0 3 0).poolLost 0 = false ∧ ((sceneS cl).part.sceneOf 0).bind (sceneS cl).part.recordOf = none ∧
    (((sceneS cl).part.retireCluster 0 3 0).sceneOf 0).bind ((sceneS cl).part.retireCluster 0 3 0).recordOf = none := by decide +kernel

/-! ### Trip, gating, filtered inputs -/

def hotS (n : Nat) : State := st { base with pwr := { Power.reset with hot := [(16 * 3 + 2, n)] } }
theorem wit_trip : base.awake = true ∧ base.pwr.tripped = false ∧ Tab.get 0 base.pwr.hot (16 * 3 + 2) = 0 ∧ Tab.get 0 (hotS 1).part.pwr.hot (16 * 3 + 2) = 1 := by decide +kernel
def gateS (on : Bool) : State :=
  st ({ (base.setRegN (Reg.PWR_CFG.at []) 1) with tim := { Time.reset with interval := 2000000 } }.setRegN (Reg.PWR_DOM_C.at [0]) (if on then 1 else 0))
theorem wit_gate : ∀ b, (gateS b).part.phase = .ready ∧ (gateS b).memOk = true ∧ (gateS b).regsOk = true ∧ (gateS b).coresOk = true ∧
    bitOf ((gateS b).part.regN (Reg.PWR_CFG.at [])) 0 = true ∧ (gateS b).part.domainC 0 0 = b ∧ (gateS b).part.bandUnheld 0 0 = true ∧
    1000000 ≤ ((gateS b).part.tim.interval - Tab.get 0 (gateS b).part.pwr.bandFree 0).toNat := by decide +kernel
def inputS (l : Bool) : State :=
  st { base with pwr := { Power.reset with ins := (List.replicate 9 Input.reset).set 8 ⟨l, 5, none⟩ }, tim := { Time.reset with now := 3000000000, interval := 4000000000 } }
theorem wit_input : ∀ l, 8 < (inputS l).part.pwr.ins.length ∧ (inputS l).part.filters = true ∧ (inputS l).part.stuck 8 = false ∧ ((inputS l).part.input 8).level = l ∧
    ((inputS l).part.input 8).edge = none ∧ (7 : W64).toNat + 100 ≤ (inputS l).part.tim.now.toNat ∧ (inputS l).part.phase ≠ .off ∧ (inputS l).part.maxUs 8 ≠ 0 ∧
    (inputS l).part.maxUs 8 * 1000 ≤ ((inputS l).part.tim.interval - ((inputS l).part.input 8).since).toNat := by decide +kernel

/-! ### Board management -/

def i3cS (f : I3c → I3c) : State := st { onP with i3c := f I3c.reset }
theorem wit_i3c : base.pwr.auxGood = true ∧ I3c.reset.raised = [] ∧ I3c.reset.waiting = [] ∧ I3c.reset.addr = none ∧ I3c.reset.ibi = false ∧ I3c.reset.mrl = 9 ∧
    (i3cS (fun i => { i with addr := some 5 })).part.i3c.addr = some 5 ∧ (i3cS (fun i => { i with addr := some 5, waiting := [(4, 1)] })).part.i3c.waiting = [(4, 1)] ∧
    (i3cS (fun i => { i with addr := some 5, ibi := true, raised := [(4, 1), (5, 0)] })).part.i3c.raised = [(4, 1), (5, 0)] := by decide +kernel
def i3cReadS (off : W32) : State := i3cS (fun i => { i with addr := some 5, read := some (off, false) })
theorem wit_i3c_access : (i3cReadS 0x600000).part.boardOk 0x600000 4 false = true ∧ (i3cReadS 0x502).part.boardOk 0x502 4 false = false ∧
    (i3cS (fun i => { i with addr := some 5, status := some 1 })).part.i3c.status = some 1 ∧ (i3cReadS 0x502).part.boardOk 0x300320 4 true = false := by decide +kernel
/-- TIM_STEP_MAX is a register of board management whose writes have no rule of their own. -/
theorem wit_i3c_write : ∃ r ∈ Reg.map, ∃ is, onP.boardOk (r.at is) 4 true = true ∧ findReg (r.at is) Reg.map = some (r, is) ∧ r ∉ ownWrites ∧ r.at is < 0x2000000 :=
  ⟨Reg.TIM_STEP_MAX, by decide +kernel, [], by decide +kernel⟩
theorem wit_jtag : fld (BitVec.ofNat 104 (0x600000 * 2 ^ 64)).toNat 64 32 = 0x600000 ∧ bitOf (BitVec.ofNat 104 (0x600000 * 2 ^ 64)).toNat 96 = false ∧
    onP.boardOk 0x600000 4 false = true ∧ onP.boardOk 0x300320 4 true = false ∧ onP.pwr.auxGood = true := by decide +kernel

/-! ### Pace and time -/

/-- Every monitor of die 1 is calibrated and always due; the die's code stands at 21 since 0. -/
def paceP : Part :=
  (((forEach (List.range 16) (fun i p => p.setRegN (bmon 1 i) ((256 + i) * 2 ^ 32)) base).setRegN (Reg.PCE_RAIL_STAT.at [1]) (21 * 2 ^ 8)).setRegN (Reg.PCE_HOUSE.at []) 0)
def paceS (f : Rail → Rail) : State := st { paceP with tim := { Time.reset with interval := 50000 }, pce := { Pace.reset with rails := modAt Pace.reset.rails 1 f } }
/-- Bay 0 of die 1 belongs to a fenced dark region whose clamp is 0x1234. -/
def clampS : State := st { paceP with stg := { Stage.reset with replicas := [{ rep0 with die := 1, dark := true, fenced := true, clamp := 0x1234 }] } }
theorem wit_monitor : (paceS id).part.phase = .ready ∧ (∀ i < 16, (paceS id).part.bayClamp 1 i = none) ∧ clampS.part.bayClamp 1 0 = some 0x1234 ∧
    (paceS id).part.calDue 1 = true ∧ ((paceS id).part.rail 1).took = none ∧ ((paceS (fun x => { x with took := some 3 })).part.rail 1).took = some 3 ∧
    65536 ≤ ((paceS id).part.reg (Reg.TRV_BEAT.at [1]) - 3).toNat ∧ ((paceS (fun x => { x with took := some 0 })).part.rail 1).took = some 0 ∧
    ((paceS id).part.reg (Reg.TRV_BEAT.at [1]) - 0).toNat < 65536 ∧ (st (paceP.setRegN (Reg.PCE_HOUSE.at []) (2 ^ 16))).part.calDue 1 = false ∧
    nearPoint ((paceS id).part.ackCode 1) = some 2 ∧ 10000 ≤ ((paceS id).part.tim.interval - ((paceS id).part.rail 1).held).toNat := by decide +kernel
theorem wit_pace : (paceS id).part.phase = .ready ∧ (paceS id).part.pce.rails.length = 4 ∧ ((paceS (fun x => { x with sending := some 30, tries := 1 })).part.rail 1).sending = some 30 ∧
    ((paceS (fun x => { x with sending := some 30, tries := 1 })).part.rail 1).tries = 1 ∧ min 30 ((paceS (fun x => { x with sending := some 30, tries := 1 })).part.ceiling 1) = 30 ∧
    ((paceS (fun x => { x with sending := some 30, tries := 3 })).part.rail 1).tries = 3 ∧ 1 < (paceS id).part.pce.amps.length ∧ (paceS id).part.dieDemand 1 ≠ none := by decide +kernel
/-- A deadline task that is late. -/
def lateS : State :=
  st { ((base.setRegN (Reg.STG_SEAT_CADENCE.at [0]) 5).setRegN (Reg.STG_SEAT_CFG.at [0]) 1) with stg := { Stage.reset with tasks := [{ task0 with st := .ready, flags := 0xFF }] } }
theorem wit_pace_late : lateS.part.dieDemand 0 = none ∧ lateS.part.phase = .ready ∧ lateS.part.pce.rails.length = 4 := by decide +kernel
def timeS (cfg : Nat) (e : Option W64) : State :=
  st { (base.setRegN (Reg.TIM_CFG.at []) cfg) with tim := { Time.reset with now := 9500000000, interval := 9900000000 }, pwr := { Power.reset with ins := (List.replicate 9 Input.reset).set 8 ⟨true, 5, e⟩ } }
theorem wit_tick : base.tim.slew = 0 ∧ base.tim.frac = 0 ∧ (st base).pending = [] := by decide +kernel
theorem wit_pps (c : Nat) (e : W64) : ((timeS c (some e)).part.pwr.ins.getD 8 Input.reset).edge = some e ∧ (timeS c (some e)).part.pwr.ins.length = 9 := ⟨rfl, rfl⟩
theorem wit_pps_source : (timeS 0 none).part.timSrc = 0 ∧ (timeS 1 none).part.timSrc = 1 ∧ (timeS 65 none).part.timSrc = 1 := by decide +kernel
theorem wit_pps_offset : 0 ≤ ppsOffset 9400000000 ∧ ppsOffset 9600000000 < 0 ∧ (timeS 65 none).part.regN (Reg.TIM_STEP_MAX.at []) < (ppsOffset 9600000000).natAbs ∧
    bitOf ((timeS 65 none).part.regN (Reg.TIM_CFG.at [])) 6 = true := by decide +kernel
theorem wit_holdover : (timeS 1 none).part.timSrc = 1 ∧ 1500000000 ≤ ((timeS 1 none).part.tim.interval - (timeS 1 none).part.tim.ppsLast).toNat ∧
    (timeS 2 none).part.timSrc = 2 ∧ 10000000 ≤ ((timeS 2 none).part.tim.interval - (timeS 2 none).part.tim.parentLast).toNat := by decide +kernel

/-! ### The machine as a whole -/

theorem wit_canonical : State.reset.memOk = true ∧ State.reset.regsOk = true ∧ State.reset.coresOk = true ∧ (st onP).regsOk = true ∧ (st onP).coresOk = true := by
  decide +kernel
theorem wit_front : (⟨base, [.pwrGoodLoss, .auxGoodLoss]⟩ : State).pending = .pwrGoodLoss :: [.auxGoodLoss] ∧ (st base).memOk = true := by decide +kernel
theorem wit_cue_word : CueWord.fits (.loop { lvl := 3, stop := 10, src := true, reg := 5, sh := 2, imm := 0 }) = true ∧ opcode (0x1F * 2 ^ 58) = 0x1F := by decide +kernel


/-! The boot area: header, helper data, identity record, owner record, rehearsal record. `c` is the check value of the helper data. -/

theorem slice_front (a b : List Byte) (lo n : Nat) (h : lo + n ≤ a.length) : sliceB (a ++ b) lo n = sliceB a lo n := by
  simp only [sliceB, List.length_drop, List.length_append]
  rw [List.drop_append_of_le_length (by omega), List.take_append_of_le_length (by rw [List.length_drop]; omega),
    show n - (a.length + b.length - lo) = 0 by omega, show n - (a.length - lo) = 0 by omega]
theorem slice_all (b : List Byte) (n : Nat) (h : b.length = n) : sliceB b 0 n = b := by
  subst h; simp [sliceB]
theorem pad_all (b : List Byte) (n : Nat) (h : b.length = n) : padTo n b = b := by
  subst h; simp [padTo]

@[irreducible] def bootX : List Byte := (zeros 4 ++ leBytes 4 0x5442584E ++ [1, 0, 1] ++ zeros 21 ++ leBytes 4 4096 ++ leBytes 4 16384) ++ zeros 4052
theorem bootX_length : bootX.length = 4092 := by unfold bootX; simp only [List.length_append, zeros_length, leBytes_length, List.length_cons, List.length_nil]
@[irreducible] def bootH : List Byte := bootX ++ leBytes 4 (crc32c bootX).toNat
theorem bootH_length : bootH.length = 4096 := by unfold bootH; simp only [List.length_append, bootX_length, leBytes_length]
@[irreducible] def helpX (c : List Byte) : List Byte := (leBytes 4 0x4650584E ++ zeros 4) ++ (zeros 3776 ++ (c ++ zeros 276))
theorem helpX_length (c : List Byte) (h : c.length = 32) : (helpX c).length = 4092 := by unfold helpX; simp only [List.length_append, zeros_length, leBytes_length, h]
@[irreducible] def helpH (c : List Byte) : List Byte := helpX c ++ leBytes 4 (crc32c (helpX c)).toNat
theorem helpH_length (c : List Byte) (h : c.length = 32) : (helpH c).length = 4096 := by unfold helpH; simp only [List.length_append, helpX_length c h, leBytes_length]
@[irreducible] def bootA (c : List Byte) : List Byte := bootH ++ (helpH c ++ zeros 12288)
theorem bootA_head (c : List Byte) : (bootA c).take 4096 = bootH := by unfold bootA; exact List.take_left' bootH_length
theorem bootH_at (lo n : Nat) (h : lo + n ≤ 4092) : leAt bootH lo n = leAt bootX lo n := by
  unfold bootH; exact leAt_front _ _ _ _ (by rw [bootX_length]; exact h)
theorem bootX_fields : leAt bootX 0 4 = 0 ∧ leAt bootX 4 4 = 0x5442584E ∧ leAt bootX 8 2 = 1 ∧ leAt bootX 10 1 = 1 ∧ leAt bootX 32 4 = 4096 ∧ leAt bootX 36 4 = 16384 := by
  decide +kernel
theorem bootA_section (c : List Byte) (h : c.length = 32) : sliceB (bootA c) 4096 16384 = helpH c ++ zeros 12288 := by
  have := slice_mid bootH (helpH c ++ zeros 12288) [] 4096 16384 bootH_length (by simp only [List.length_append, helpH_length c h, zeros_length])
  simpa only [bootA, List.append_nil] using this
theorem wit_area_good (c : List Byte) (h : c.length = 32) : areaBad (padTo 4096 ((bootA c).take 4096)) = false ∧ hasSection (padTo 4096 ((bootA c).take 4096)) 0 = true ∧
    secLen (padTo 4096 ((bootA c).take 4096)) 0 = 16384 ∧ secOff ((bootA c).take 4096) 0 = 4096 ∧ helperBad ((sliceB (bootA c) 4096 16384).take 4096) = false := by
  obtain ⟨f0, f4, f8, f10, f32, f36⟩ := bootX_fields
  have hx : bootH.take 4092 = bootX ∧ leAt bootH 4092 4 = (crc32c bootX).toNat := by
    have := crc_tail bootX
    rw [bootX_length] at this
    unfold bootH; exact this
  have hy : (helpH c).take 4092 = helpX c ∧ leAt (helpH c) 4092 4 = (crc32c (helpX c)).toNat := by
    have := crc_tail (helpX c)
    rw [helpX_length c h] at this
    unfold helpH; exact this
  have hm : leAt (helpH c) 0 4 = 0x4650584E := by
    unfold helpH; rw [leAt_front _ _ _ _ (by rw [helpX_length c h]; omega)]
    unfold helpX; rw [leAt_front _ _ _ _ (by simp)]
    decide +kernel
  rw [bootA_head, pad_all _ _ bootH_length, bootA_section c h, List.take_left' (helpH_length c h)]
  simp only [areaBad, hasSection, secOff, secLen, helperBad, hx, hy, hm, bootH_at 0 4 (by omega), bootH_at 4 4 (by omega), bootH_at 8 2 (by omega),
    bootH_at 10 1 (by omega), bootH_at (32 + 8 * 0) 4 (by omega), bootH_at (36 + 8 * 0) 4 (by omega), f0, f4, f8, f10, f32, f36, Nat.mul_zero, Nat.add_zero]
  simp
theorem area_check (c : List Byte) (h : c.length = 32) : sliceB (helpH c ++ zeros 12288) 8 3776 = zeros 3776 ∧ sliceB (helpH c ++ zeros 12288) 3784 32 = c := by
  have e : ∀ lo n, lo + n ≤ 4092 → sliceB (helpH c ++ zeros 12288) lo n = sliceB (helpX c) lo n := by
    intro lo n hn
    rw [slice_front _ _ _ _ (by rw [helpH_length c h]; omega)]
    unfold helpH; exact slice_front _ _ _ _ (by rw [helpX_length c h]; omega)
  rw [e 8 3776 (by omega), e 3784 32 (by omega)]
  unfold helpX
  refine ⟨slice_mid _ _ _ _ _ (by simp) (zeros_length _), ?_⟩
  rw [← List.append_assoc]
  exact slice_mid _ _ _ _ _ (by simp) h
/-- The root secret is what the free function gives for the first evaluation. -/
theorem wit_root : (pufFind (zeros 3776) (pufCheck (Config.pufCorrect [] (zeros 3776))) 0 [[], [], [], []]).1 = some (Config.pufCorrect [] (zeros 3776)) ∧
    (pufCheck (Config.pufCorrect [] (zeros 3776))).length = 32 := ⟨by simp [pufFind], sha256_length _⟩
/-- With another check value it is not found. -/
theorem wit_no_root : ∃ c : List Byte, c.length = 32 ∧ (pufFind (zeros 3776) c 0 [[], [], [], []]).1 = none := by
  have h := sha256_length (ascii "NX-PUF-CHK" ++ Config.pufCorrect [] (zeros 3776))
  refine ⟨(pufCheck (Config.pufCorrect [] (zeros 3776))).map (fun x => ~~~x), by simp [pufCheck, h], ?_⟩
  have hn : pufCheck (Config.pufCorrect [] (zeros 3776)) ≠ (pufCheck (Config.pufCorrect [] (zeros 3776))).map (fun x => ~~~x) := by
    unfold pufCheck
    cases hs : sha256 (ascii "NX-PUF-CHK" ++ Config.pufCorrect [] (zeros 3776)) with
    | nil => simp [hs] at h
    | cons x xs => simp only [List.map_cons, ne_eq, List.cons.injEq, not_and]; intro hx; exact absurd hx ((by decide +kernel : ∀ y : Byte, y ≠ ~~~y) x)
  simp [pufFind, hn]

/-! Firmware without code and an identity record, signed, as far as their key is the vendor's. -/

@[irreducible] def imageH : List Byte := leBytes 4 0x5746584E ++ leBytes 2 1 ++ leBytes 2 8 ++ zeros 248
theorem imageH_length : imageH.length = 256 := by unfold imageH; simp only [List.length_append, zeros_length, leBytes_length]
theorem imageH_fields : leAt imageH 0 4 = 0x5746584E ∧ leAt imageH 4 2 = 1 ∧ leAt imageH 6 2 = 8 ∧ leAt imageH 12 4 = 0 ∧ (imageH.drop 16).any (· ≠ 0) = false := by
  decide +kernel
@[irreducible] def image0 : List Byte := imageH ++ (signKey ++ (sigOf imageH ++ zeros 304))
theorem image0_length : image0.length = 8448 := by unfold image0; simp only [List.length_append, imageH_length, signKey_length, sigOf_length, zeros_length]
theorem wit_firmware_good (h : sha256 signKey = Config.vendorHash) : firmwareBad image0 = false := by
  obtain ⟨f0, f4, f6, f12, fz⟩ := imageH_fields
  have hl : ∀ lo n, lo + n ≤ 256 → leAt image0 lo n = leAt imageH lo n := fun lo n hn => by
    unfold image0; exact leAt_front _ _ _ _ (by rw [imageH_length]; exact hn)
  have ht : image0.take 256 = imageH := by unfold image0; exact List.take_left' imageH_length
  have hk : sliceB image0 256 32 = signKey := by unfold image0; exact slice_mid _ _ _ _ _ imageH_length signKey_length
  have hs : sliceB image0 288 7856 = sigOf imageH := by
    have := slice_mid (imageH ++ signKey) (sigOf imageH) (zeros 304) 288 7856 (by rw [List.length_append, imageH_length, signKey_length]) (sigOf_length _)
    unfold image0; simpa only [List.append_assoc] using this
  simp only [firmwareBad, hl 0 4 (by omega), hl 4 2 (by omega), hl 6 2 (by omega), hl 12 4 (by omega), f0, f4, f6, f12, ht, fz, image0_length, Nat.add_zero, hk, hs, h, sig_good]
  simp
@[irreducible] def idHead (pk : List Byte) : List Byte := zeros 32 ++ (pk ++ (signKey ++ zeros 32))
theorem idHead_length (pk : List Byte) (h : pk.length = 32) : (idHead pk).length = 128 := by
  unfold idHead; simp only [List.length_append, zeros_length, signKey_length, h]
/-- The identity record of a part with identity key `pk`. -/
@[irreducible] def idRec (pk : List Byte) : List Byte := idHead pk ++ (sigOf (idHead pk) ++ zeros 208)
theorem idRec_length (pk : List Byte) (h : pk.length = 32) : (idRec pk).length = 8192 := by
  unfold idRec; simp only [List.length_append, idHead_length pk h, sigOf_length, zeros_length]
theorem idRec_fields (pk : List Byte) (h : pk.length = 32) : sliceB (idRec pk) 64 32 = signKey ∧ (idRec pk).take 128 = idHead pk ∧
    sliceB (idRec pk) 128 7856 = sigOf (idHead pk) ∧ sliceB (idRec pk) 32 32 = pk := by
  have hh := idHead_length pk h
  have hf : ∀ lo n, lo + n ≤ 128 → sliceB (idRec pk) lo n = sliceB (idHead pk) lo n := fun lo n hn => by
    unfold idRec; exact slice_front _ _ _ _ (by rw [hh]; exact hn)
  refine ⟨?_, ?_, ?_, ?_⟩
  · rw [hf 64 32 (by omega)]
    have := slice_mid (zeros 32 ++ pk) signKey (zeros 32) 64 32 (by rw [List.length_append, zeros_length, h]) signKey_length
    unfold idHead; simpa only [List.append_assoc] using this
  · unfold idRec; exact List.take_left' hh
  · unfold idRec; exact slice_mid _ _ _ _ _ hh (sigOf_length _)
  · rw [hf 32 32 (by omega)]; unfold idHead; exact slice_mid _ _ _ _ _ (zeros_length _) h
theorem wit_identity_good (seeds : List Byte) (h : sha256 signKey = Config.vendorHash) : identityBad (idRec (slhPublic seeds)) seeds = false := by
  obtain ⟨h1, h2, h3, h4⟩ := idRec_fields (slhPublic seeds) (slhPublicOf_length _ _)
  simp only [identityBad, h1, h2, h3, h4, h, sig_good]
  simp
theorem wit_identity_bad (seeds : List Byte) : ∃ pk, identityBad (idRec pk) seeds = true := by
  have hl : (slhPublic seeds).length = 32 := slhPublicOf_length _ _
  have hm : ((slhPublic seeds).map (fun x => ~~~x)).length = 32 := by rw [List.length_map, hl]
  refine ⟨(slhPublic seeds).map (fun x => ~~~x), ?_⟩
  have hn : (slhPublic seeds).map (fun x => ~~~x) ≠ slhPublic seeds := by
    cases hs : slhPublic seeds with
    | nil => simp [hs] at hl
    | cons x xs => simp only [List.map_cons, ne_eq, List.cons.injEq, not_and]; intro hx; exact absurd hx ((by decide +kernel : ∀ y : Byte, ~~~y ≠ y) x)
  simp only [identityBad, (idRec_fields _ hm).2.2.2, ne_eq, hn, not_false_eq_true, decide_true, Bool.or_true]
theorem wit_firmware_state : (bootS .area { Security.reset with rpuf := some [], identity := idRec (slhPublic (identitySeeds [])) }).part.phase = .area ∧
    (bootS .area { Security.reset with rpuf := some [], identity := idRec (slhPublic (identitySeeds [])) }).part.chain.pos = 0 := ⟨rfl, rfl⟩

/-! Rehearsal and the ports. -/

def memRec0 : List Byte := (leBytes 4 0x524D584E ++ zeros 248) ++ leBytes 4 (crc32c (leBytes 4 0x524D584E ++ zeros 248)).toNat
theorem wit_rehearsal : memRecBad memRec0 = false ∧ memRecBad [] = true ∧ (List.range 128).all (fun c => (List.replicate 128 true).getD c false) = true ∧
    rosterBad [0, 0, 0, 0] = true ∧ noOwner [] = true ∧ noOwner [1] = false ∧ (bootS .firmware Security.reset).part.phase = .firmware ∧
    (bootS .based Security.reset).part.phase = .based := by decide +kernel
theorem wit_roster : rosterBad (List.replicate 4 (BitVec.allOnes 400)) = false := by decide +kernel

/-! The base script. -/

def baseS (own stream : List Byte) (pos : Nat) : State :=
  st { base with phase := .rehearsed, chain := { Chain.reset with fixed := true, pos := pos, gotScript := true, stream := stream }, sec := { Security.reset with kwrap := some (zeros 32), idPk := zeros 32, owner := own } }
@[irreducible] def ownHd : List Byte := leBytes 4 0x574F584E ++ leBytes 2 1 ++ leBytes 2 0 ++ sha256 (zeros 32) ++ sha256 signKey
theorem ownHd_length : ownHd.length = 72 := by unfold ownHd; simp only [List.length_append, leBytes_length, sha256_length]
@[irreducible] def ownRec : List Byte := ownHd ++ (zeros 12 ++ (zeros 32 ++ gcmTag (zeros 32) (zeros 12) ownHd (zeros 32)))
/-- The key that the record wraps. -/
def ownKey : List Byte := gcmCrypt (zeros 32) (zeros 12) (zeros 32)
theorem wit_owner (x : List Byte) (n : Nat) : (baseS ownRec x n).part.unwrapOwner = some ownKey := by
  have h0 : ∀ lo k, lo + k ≤ 72 → leAt ownRec lo k = leAt ownHd lo k := fun lo k h => by
    unfold ownRec; exact leAt_front _ _ _ _ (by rw [ownHd_length]; exact h)
  have h1 : leAt ownHd 0 4 = 0x574F584E ∧ leAt ownHd 4 2 = 1 := by
    unfold ownHd; simp only [List.append_assoc]
    rw [leAt_front _ _ 0 4 (by simp), ← List.append_assoc, leAt_front _ _ 4 2 (by simp)]
    decide +kernel
  have h2 : sliceB ownRec 8 32 = sha256 (zeros 32) := by
    unfold ownRec; rw [slice_front _ _ _ _ (by rw [ownHd_length]; omega)]
    unfold ownHd; rw [List.append_assoc]
    exact slice_mid _ _ _ _ _ (by simp) (sha256_length _)
  have h3 : ownRec.take 72 = ownHd := by unfold ownRec; exact List.take_left' ownHd_length
  have h4 : sliceB ownRec 72 12 = zeros 12 := by unfold ownRec; exact slice_mid _ _ _ _ _ ownHd_length (zeros_length _)
  have h5 : sliceB ownRec 84 32 = zeros 32 := by
    unfold ownRec; rw [← List.append_assoc]
    exact slice_mid _ _ _ _ _ (by rw [List.length_append, ownHd_length, zeros_length]) (zeros_length _)
  have h6 : sliceB ownRec 116 16 = gcmTag (zeros 32) (zeros 12) ownHd (zeros 32) := by
    have := slice_mid ((ownHd ++ zeros 12) ++ zeros 32) (gcmTag (zeros 32) (zeros 12) ownHd (zeros 32)) [] 116 16
      (by simp only [List.length_append, ownHd_length, zeros_length]) (tag_length _ _ _ _ (zeros_length _))
    unfold ownRec; simpa only [List.append_assoc, List.append_nil] using this
  have hi : (baseS ownRec x n).part.identity = sha256 (zeros 32) := rfl
  have ho : (baseS ownRec x n).part.sec.owner = ownRec := rfl
  have hk : (baseS ownRec x n).part.sec.kwrap.getD [] = zeros 32 := rfl
  simp only [Part.unwrapOwner, ho, hi, hk, h0 0 4 (by omega), h0 4 2 (by omega), h1, h2, h3, h4, h5, h6, gcmOpen]
  simp [ownKey]
theorem wit_no_owner (x : List Byte) (n : Nat) : (baseS [] x n).part.unwrapOwner = none := by simp [Part.unwrapOwner, baseS, st, leAt, leNat]
theorem wit_base : (baseS [] [] 0).part.phase = .rehearsed ∧ (baseS [] [] 0).part.chain.pos = 0 ∧ (baseS [] [] 2).part.chain.pos ≠ 0 ∧
    (baseS [] [] 2).part.chain.gotScript = true ∧ splitStream 0 [] = ([], false) := by decide +kernel
theorem wit_base_fault (i : List Byte) : (scriptHead []).fault true 2 i = 2 := by simp [scriptHead, ScriptHead.fault, leAt, leNat]
/-- A header of a base script for position 2 and nothing behind it. -/
def head2 : List Byte := padTo 256 (leBytes 4 0x4353584E ++ leBytes 2 1 ++ leBytes 2 8 ++ [2, 0] ++ leBytes 2 64 ++ leBytes 4 9 ++ leBytes 8 (scriptLength 1) ++ leBytes 4 1)
theorem head2_fault (i : List Byte) : (scriptHead head2).fault true 2 i = 0 := by
  have h : (scriptHead head2).bind.any (· ≠ 0) = false := by decide +kernel
  simp only [ScriptHead.fault, h, Bool.false_and]
  decide +kernel
theorem wit_base_short (q : Part) (h : q.chain.pos = 2) : q.checkScript true none head2 = .bad causeShort 0 0 := by
  simp only [Part.checkScript, h, head2_fault]
  simp only [ne_eq, not_true_eq_false, if_false]
  rw [if_pos (by decide +kernel)]


/-! A script of one frame, of a base script (kind 0) for position 2 and of a scene script (kind 1) for position 0, with its signature. -/

def headK (kind pos mib : Nat) : List Byte :=
  (leBytes 4 0x4353584E ++ leBytes 2 1 ++ leBytes 2 8 ++ leBytes 1 pos ++ leBytes 1 kind ++ leBytes 2 mib ++ leBytes 4 9 ++ leBytes 8 (scriptLength 1) ++ leBytes 4 1) ++ zeros 228
theorem headK_length (kind pos mib : Nat) : (headK kind pos mib).length = 256 := by simp [headK]
theorem head_of (hd x : List Byte) (h : hd.length = 256) : scriptHead (hd ++ x) = scriptHead hd := by
  have ha : ∀ lo n, lo + n ≤ 256 → leAt (hd ++ x) lo n = leAt hd lo n := fun lo n hn => leAt_front _ _ _ _ (by omega)
  have hs : ∀ lo n, lo + n ≤ 256 → sliceB (hd ++ x) lo n = sliceB hd lo n := fun lo n hn => slice_front _ _ _ _ (by omega)
  have hp : padTo 256 (hd ++ x) = padTo 256 hd := by
    rw [pad_all hd 256 h, padTo, List.append_assoc, List.take_left' h]
  simp only [scriptHead, hp, ha 0 4 (by omega), ha 4 2 (by omega), ha 6 2 (by omega), ha 8 1 (by omega), ha 9 1 (by omega), ha 10 2 (by omega), ha 12 4 (by omega),
    ha 16 8 (by omega), ha 24 4 (by omega), hs 32 8 (by omega), hs 40 32 (by omega)]
/-- The key of a script's first epoch is as long as a digest. -/
theorem frameKey_length (k ctx : List Byte) : (frameKey0 k ctx).length = 32 := sha256_length _
@[irreducible] def trailH : List Byte := leBytes 4 0x4C525458 ++ zeros 4
theorem trailH_facts : trailH.length = 8 ∧ leAt trailH 0 4 = 0x4C525458 ∧ leAt trailH 4 4 = 0 := by decide +kernel
/-- The trailer of what is signed. -/
@[irreducible] def trailB (m : List Byte) : List Byte := trailH ++ (signKey ++ (sigOf m ++ zeros 296))
theorem trailB_length (m : List Byte) : (trailB m).length = 8192 := by
  unfold trailB; simp only [List.length_append, zeros_length, trailH_facts.1, signKey_length, sigOf_length]
theorem trailB_fields (m : List Byte) : leAt (trailB m) 0 4 = 0x4C525458 ∧ leAt (trailB m) 4 4 = 0 ∧ ((trailB m).drop 7896).any (· ≠ 0) = false ∧
    sliceB (trailB m) 8 32 = signKey ∧ sliceB (trailB m) 40 7856 = sigOf m := by
  obtain ⟨hl, h0, h4⟩ := trailH_facts
  have hf : ∀ lo n, lo + n ≤ 8 → leAt (trailB m) lo n = leAt trailH lo n := fun lo n hn => by
    unfold trailB; exact leAt_front _ _ _ _ (by rw [hl]; exact hn)
  have hz : (zeros 296).any (· ≠ 0) = false := by decide +kernel
  refine ⟨(hf 0 4 (by omega)).trans h0, (hf 4 4 (by omega)).trans h4, ?_, ?_, ?_⟩
  · have hd : (trailB m).drop 7896 = zeros 296 := by
      have := List.drop_left' (l₁ := trailH ++ (signKey ++ sigOf m)) (l₂ := zeros 296) (i := 7896) (by simp only [List.length_append, hl, signKey_length, sigOf_length])
      unfold trailB; simpa only [List.append_assoc] using this
    rw [hd]; exact hz
  · unfold trailB; exact slice_mid _ _ _ _ _ hl signKey_length
  · have := slice_mid (trailH ++ signKey) (sigOf m) (zeros 296) 40 7856 (by rw [List.length_append, hl, signKey_length]) (sigOf_length _)
    unfold trailB; simpa only [List.append_assoc] using this
def frameOf (key hd : List Byte) (pos : Nat) : List Byte := frameB (frameKey0 key (scriptHead hd).ctx) (leBytes 4 0 ++ (scriptHead hd).nonce) (preF pos) bodyF
def entryOf (key hd : List Byte) (pos : Nat) : List Byte := sha256 (sha256 hd ++ frameOf key hd pos)
@[irreducible] def scriptB (key hd : List Byte) (pos : Nat) : List Byte := hd ++ (entryOf key hd pos ++ (zeros 3808 ++ (frameOf key hd pos ++ trailB (hd ++ entryOf key hd pos))))
theorem scriptB_length (key hd : List Byte) (pos : Nat) (h : hd.length = 256) : (scriptB key hd pos).length = 16384 := by
  have := (frameB_facts (frameKey0 key (scriptHead hd).ctx) (leBytes 4 0 ++ (scriptHead hd).nonce) (preF pos) bodyF (frameKey_length _ _) (preF_length _) bodyF_length).1
  unfold scriptB
  simp only [List.length_append, h, entryOf, sha256_length, zeros_length, trailB_length, frameOf, this]
theorem script_good (key hd owner : List Byte) (pos : Nat) (h : hd.length = 256) (hn : (scriptHead hd).frames = 1) (hl : (scriptHead hd).length = 16384)
    (hpos : (scriptHead hd).pos = pos) (hf : ∀ b, (∀ lo n, lo + n ≤ 20 → leAt b lo n = leAt (preF pos) lo n) → leAt b 24 8 = 0 → frameFault pos 0 b = 0)
    (hpre : leAt (preF pos) 2 1 = 2 ∧ leAt (preF pos) 16 2 = 0 ∧ leAt (preF pos) 8 6 = pcurtCfgBase ∧ leAt (preF pos) 14 2 = 4)
    (ho : owner = sha256 signKey) :
    checkBody (scriptHead hd) (frameKey0 key (scriptHead hd).ctx) owner (scriptB key hd pos) = .good [(2, 0, pcurtCfgBase, [1, 2, 3, 4])] (entryOf key hd pos) := by
  obtain ⟨fl, fo, fa, fc, fr⟩ := frameB_facts (frameKey0 key (scriptHead hd).ctx) (leBytes 4 0 ++ (scriptHead hd).nonce) (preF pos) bodyF (frameKey_length _ _) (preF_length _) bodyF_length
  obtain ⟨t0, t4, tz, tp, ts⟩ := trailB_fields (hd ++ entryOf key hd pos)
  obtain ⟨p2, p16, p8, p14⟩ := hpre
  have hfl : (frameOf key hd pos).length = 4096 := fl
  have hel : (entryOf key hd pos).length = 32 := sha256_length _
  have e1 : sliceB (scriptB key hd pos) (frameBase 1 + 4096 * 0) 4096 = frameOf key hd pos := by
    have := slice_mid (hd ++ (entryOf key hd pos ++ zeros 3808)) (frameOf key hd pos) (trailB (hd ++ entryOf key hd pos)) 4096 4096 (by simp only [List.length_append, h, hel, zeros_length]) hfl
    unfold scriptB
    show sliceB _ 4096 4096 = _
    simpa only [List.append_assoc] using this
  have e2 : sliceB (scriptB key hd pos) (256 + 32 * 0) 32 = entryOf key hd pos := by
    unfold scriptB
    exact slice_mid _ _ _ _ _ h hel
  have e4 : (scriptB key hd pos).take (256 + 32 * 1) = hd ++ entryOf key hd pos := by
    unfold scriptB
    rw [← List.append_assoc]
    exact List.take_left' (by rw [List.length_append, h, hel])
  have e3 : sliceB (scriptB key hd pos) (16384 - 8192) 8192 = trailB (hd ++ entryOf key hd pos) := by
    have := slice_mid (hd ++ (entryOf key hd pos ++ (zeros 3808 ++ frameOf key hd pos))) (trailB (hd ++ entryOf key hd pos)) [] 8192 8192
      (by simp only [List.length_append, h, hel, zeros_length, hfl]) (trailB_length _)
    unfold scriptB
    simpa only [List.append_assoc, List.append_nil] using this
  have hb : (scriptHead hd).bytes = hd := pad_all hd 256 h
  have hop : openFrame (frameKey0 key (scriptHead hd).ctx) (scriptHead hd).ctx (scriptHead hd).nonce 0 (frameOf key hd pos) = some bodyF := by
    have fo' : gcmOpen (frameKey0 key (scriptHead hd).ctx) (leBytes 4 0 ++ (scriptHead hd).nonce) ((frameOf key hd pos).take 32) (sliceB (frameOf key hd pos) 32 4048)
      (sliceB (frameOf key hd pos) 4080 16) = some bodyF := fo
    simpa only [openFrame, Nat.zero_div, epochKey] using fo'
  have hz : (bodyF.drop 4).any (· ≠ 0) = false := by decide +kernel
  have he : sha256 (sha256 hd ++ frameOf key hd pos) = entryOf key hd pos := rfl
  have ht : bodyF.take 4 = [1, 2, 3, 4] := by unfold bodyF; rfl
  have fa' : ∀ lo n, lo + n ≤ 20 → leAt (frameOf key hd pos) lo n = leAt (preF pos) lo n := fa
  have fc' : leAt (frameOf key hd pos) 20 4 = (crc32c bodyF).toNat := fc
  simp only [checkBody, framePairs, hn, List.range_one, List.map_cons, List.map_nil, e1, e2, hl, e3, e4, hb, checkFrames, hpos]
  simp only [hf _ fa' fr, hop, fc', fa' 14 2 (by omega), p14, hz]
  simp only [ne_eq, not_true_eq_false, if_false, he, decide_false, Bool.false_eq_true, List.reverse_cons, List.reverse_nil, List.nil_append,
    trailerFault, t0, t4, tz, tp, ts, ho, sig_good, Bool.not_true, Bool.or_self, clearOf, fa' 2 1 (by omega), fa' 16 2 (by omega), fa' 8 6 (by omega), fa' 14 2 (by omega), p2, p16,
    p8, p14, ht]
/-- Without replicas no cluster has a sheet. -/
theorem no_sheets (p : Part) (mine : Nat → Bool) (h : p.stg.replicas = []) : p.sheetFaults false mine = fun _ => [] := by
  funext d
  have hc : p.sheetClusters d = [] := by simp [Part.sheetClusters, h]
  simp [Part.sheetFaults, hc, named, anyPair, Part.mergeBad]
/-- A script of one frame for package-wide configuration meets every load-time rule of a part without scenes. -/
theorem content_good (p : Part) (bs : Bool) (num pool mib a : Nat) (k0 body : List Byte) (h1 : p.stg.replicas = []) (h2 : p.stg.scenes = []) (h3 : p.cfg.golden = [])
    (hv : viewPlace a body.length = some none) : p.contentFault bs num pool mib k0 [(2, 0, a, body)] = none := by
  have hz : ∀ l : List Nat, l.flatMap (fun _ => ([] : List Nat)) = [] := fun l => by induction l <;> simp_all
  have hl : (absoluteGolden num [(2, 0, a, body)]).length = 1 := by simp [absoluteGolden, absoluteFrames]
  generalize hg : absoluteGolden num [(2, 0, a, body)] = l at hl
  have hn : ∀ f : Golden → Bool, ¬ 32768 < (l.filter f).length := fun f => by have := List.length_filter_le f l; omega
  simp [Part.contentFault, recordBodies, recordFormBad, recordsBad, Part.targetBad, refBad, hv, Part.candidate, Part.placeRecs, h1, h2, h3, forEach, Part.newReplicas,
    Part.routedQueues, Part.goldenAfter, hg, hn, absoluteFrames, named, framesIn, no_sheets, Part.setBytes, hz, leastCode]
theorem owner_hash : sliceB ownRec 40 32 = sha256 signKey := by
  unfold ownRec
  rw [slice_front _ _ _ _ (by rw [ownHd_length])]
  have := slice_mid (leBytes 4 0x574F584E ++ leBytes 2 1 ++ leBytes 2 0 ++ sha256 (zeros 32)) (sha256 signKey) [] 40 32
    (by simp only [List.length_append, leBytes_length, sha256_length]) (sha256_length _)
  unfold ownHd
  simpa only [List.append_nil] using this
theorem count_frame (p : Part) (a : Nat) : (p.countWrite a).stg = p.stg ∧ (p.countWrite a).cfg = p.cfg := by
  unfold Part.countWrite
  split
  · exact ⟨rfl, rfl⟩
  · unfold Part.touch; split <;> exact ⟨rfl, rfl⟩
theorem store_frame (p : Part) (a : Nat) (b : List Byte) : (p.storeScript a b).stg = p.stg ∧ (p.storeScript a b).cfg = p.cfg := by
  unfold Part.storeScript forEach
  induction (chunks 512 b).zipIdx generalizing p with
  | nil => exact ⟨rfl, rfl⟩
  | cons x xs ih =>
    have h := ih ((p.setRow (a + 512 * x.2) x.1 0).countWrite (a + 512 * x.2))
    exact ⟨h.1.trans (count_frame _ _).1, h.2.trans (count_frame _ _).2⟩
theorem verdict_good (p : Part) (bs : Bool) (req : Option LoadReq) (h : ScriptHead) (k0 b last : List Byte) (place : Nat) (fs : List Clear)
    (hg : checkBody h k0 p.sec.ownerHash b = .good fs last)
    (hx : (p.storeScript place (b.take h.length)).contentFault bs p.cfg.nextNum place (mibOf h.length) k0 fs = none) :
    ∃ g, p.bodyVerdict bs req h k0 b place = .good g ∧ g.records = recordBodies fs ∧ g.frames = fs := by
  unfold Part.bodyVerdict
  rw [hg]
  show ∃ g, p.contentVerdict bs req h k0 b place fs last = .good g ∧ g.records = recordBodies fs ∧ g.frames = fs
  unfold Part.contentVerdict
  rw [hx]
  exact ⟨_, rfl, rfl, rfl⟩
theorem checkScript_of (p : Part) (bs : Bool) (req : Option LoadReq) (b k last : List Byte) (place : Nat) (fs : List Clear)
    (hc : (scriptHead b).fault bs p.chain.pos p.identity = 0) (hl : ¬ b.length < (scriptHead b).length) (hk : p.sec.kown = some k)
    (hpl : p.poolFit (mibOf (scriptHead b).length) = some place) (hg : checkBody (scriptHead b) (frameKey0 k (scriptHead b).ctx) p.sec.ownerHash b = .good fs last)
    (hx : (p.storeScript place (b.take (scriptHead b).length)).contentFault bs p.cfg.nextNum place (mibOf (scriptHead b).length) (frameKey0 k (scriptHead b).ctx) fs = none) :
    ∃ g, p.checkScript bs req b = .good g ∧ g.records = recordBodies fs ∧ g.frames = fs := by
  have h : p.checkScript bs req b = p.bodyVerdict bs req (scriptHead b) (frameKey0 k (scriptHead b).ctx) b place := by
    unfold Part.checkScript
    rw [if_neg (not_not.mpr hc), if_neg hl, hk, hpl]
  rw [h]
  exact verdict_good p bs req _ _ b last place fs hg hx
theorem check_good (p : Part) (bs : Bool) (req : Option LoadReq) (key hd : List Byte) (pos place : Nat) (h : hd.length = 256) (hn : (scriptHead hd).frames = 1)
    (hl : (scriptHead hd).length = 16384) (hpos : (scriptHead hd).pos = pos) (hc : (scriptHead hd).fault bs p.chain.pos p.identity = 0)
    (hf : ∀ b, (∀ lo n, lo + n ≤ 20 → leAt b lo n = leAt (preF pos) lo n) → leAt b 24 8 = 0 → frameFault pos 0 b = 0)
    (hpre : leAt (preF pos) 2 1 = 2 ∧ leAt (preF pos) 16 2 = 0 ∧ leAt (preF pos) 8 6 = pcurtCfgBase ∧ leAt (preF pos) 14 2 = 4)
    (hk : p.sec.kown = some key) (ho : p.sec.ownerHash = sha256 signKey) (hpl : p.poolFit 1 = some place) (h1 : p.stg.replicas = []) (h2 : p.stg.scenes = [])
    (h3 : p.cfg.golden = []) :
    ∃ g, p.checkScript bs req (scriptB key hd pos) = .good g ∧ g.records = [] ∧ g.frames = [(2, 0, pcurtCfgBase, [1, 2, 3, 4])] := by
  have hh : scriptHead (scriptB key hd pos) = scriptHead hd := by unfold scriptB; exact head_of _ _ h
  have hg := script_good key hd p.sec.ownerHash pos h hn hl hpos hf hpre ho
  have hs := scriptB_length key hd pos h
  have hm : mibOf 16384 = 1 := by decide
  obtain ⟨g, h4, h5, h6⟩ := checkScript_of p bs req (scriptB key hd pos) key (entryOf key hd pos) place [(2, 0, pcurtCfgBase, [1, 2, 3, 4])] (by rw [hh]; exact hc)
    (by rw [hs, hh, hl]; exact lt_irrefl _) hk (by rw [hh, hl, hm]; exact hpl) (by rw [hh]; exact hg)
    (content_good _ _ _ _ _ _ _ _ (by rw [(store_frame _ _ _).1]; exact h1) (by rw [(store_frame _ _ _).1]; exact h2) (by rw [(store_frame _ _ _).2]; exact h3) (by decide +kernel))
  exact ⟨g, h4, by rw [h5]; rfl, h6⟩
theorem pre_facts (pos : Nat) (h : pos = 0 ∨ pos = 2) : (leAt (preF pos) 2 1 = 2 ∧ leAt (preF pos) 16 2 = 0 ∧ leAt (preF pos) 8 6 = pcurtCfgBase ∧ leAt (preF pos) 14 2 = 4) ∧
    ∀ b, (∀ lo n, lo + n ≤ 20 → leAt b lo n = leAt (preF pos) lo n) → leAt b 24 8 = 0 → frameFault pos 0 b = 0 := by
  rcases h with rfl | rfl <;>
  · refine ⟨by decide +kernel, fun b hb hr => ?_⟩
    simp only [frameFault, hr, hb 0 2 (by omega), hb 2 1 (by omega), hb 3 1 (by omega), hb 4 4 (by omega), hb 8 6 (by omega), hb 14 2 (by omega), hb 16 2 (by omega), hb 18 2 (by omega)]
    decide +kernel
theorem head_facts (kind pos mib : Nat) (h : (kind, pos, mib) = (0, 2, 64) ∨ (kind, pos, mib) = (1, 0, 0)) : (scriptHead (headK kind pos mib)).frames = 1 ∧
    (scriptHead (headK kind pos mib)).length = 16384 ∧ (scriptHead (headK kind pos mib)).pos = pos ∧ (scriptHead (headK kind pos mib)).mib = mib ∧
    ∀ i, (scriptHead (headK kind pos mib)).fault (kind == 0) pos i = 0 := by
  have hb : ∀ (x : ScriptHead) b n i, x.bind.any (· ≠ 0) = false → x.fault b n i = x.fault b n [] := fun x b n i hx => by simp only [ScriptHead.fault, hx, Bool.false_and]
  rcases h with h | h <;> obtain ⟨rfl, rfl, rfl⟩ := (by simpa using h : _ ∧ _ ∧ _)
  · exact ⟨by decide +kernel, by decide +kernel, by decide +kernel, by decide +kernel, fun i => (hb _ _ _ i (by decide +kernel)).trans (by decide +kernel)⟩
  · exact ⟨by decide +kernel, by decide +kernel, by decide +kernel, by decide +kernel, fun i => (hb _ _ _ i (by decide +kernel)).trans (by decide +kernel)⟩
/-- The base script of a part at position 2 passes every check. -/
theorem wit_base_good :
    ∃ g, (({ (baseS ownRec (scriptB ownKey (headK 0 2 64) 2) 2).part with sec := { (baseS ownRec (scriptB ownKey (headK 0 2 64) 2) 2).part.sec with
        kown := some ownKey, ownerHash := sliceB ownRec 40 32 } } : Part).setPool 64).checkScript true none (scriptB ownKey (headK 0 2 64) 2) = .good g ∧
      g.records = [] ∧ g.frames = [(2, 0, pcurtCfgBase, [1, 2, 3, 4])] := by
  obtain ⟨f1, f2, f3, -, f5⟩ := head_facts 0 2 64 (.inl rfl)
  obtain ⟨p1, p2⟩ := pre_facts 2 (.inr rfl)
  exact check_good _ true none ownKey (headK 0 2 64) 2 0 (headK_length _ _ _) f1 f2 f3 (f5 _) p2 p1 rfl owner_hash (by decide +kernel) rfl rfl rfl
/-- A request for the scene script at 0x10000 of a part whose owner key is that of the record. -/
def sceneLoadS : State :=
  st { ((base.setRegN (Reg.CFG_RETAIN_SIZE.at []) 8).setBytes 0x10000 (scriptB ownKey (headK 1 0 0) 0)) with cfg := { Script.reset with reqs := [⟨0x10000, none⟩] }, sec := { Security.reset with kown := some ownKey, ownerHash := sha256 signKey } }
theorem scene_script : sceneLoadS.part.bytesAt 0x10000 256 = headK 1 0 0 ∧ sceneLoadS.part.bytesAt 0x10000 16384 = scriptB ownKey (headK 1 0 0) 0 := by
  have hl := scriptB_length ownKey (headK 1 0 0) 0 (headK_length _ _ _)
  have h1 : sceneLoadS.part.bytesAt (0x10000 + 0) 256 = ((scriptB ownKey (headK 1 0 0) 0).drop 0).take 256 :=
    readN_in (scriptB ownKey (headK 1 0 0) 0) (base.setRegN (Reg.CFG_RETAIN_SIZE.at []) 8) 0x10000 0 256 (by rw [hl]; omega)
  have h2 : sceneLoadS.part.bytesAt (0x10000 + 0) 16384 = ((scriptB ownKey (headK 1 0 0) 0).drop 0).take 16384 :=
    readN_in (scriptB ownKey (headK 1 0 0) 0) (base.setRegN (Reg.CFG_RETAIN_SIZE.at []) 8) 0x10000 0 16384 (by rw [hl])
  refine ⟨?_, ?_⟩
  · rw [Nat.add_zero, List.drop_zero] at h1
    rw [h1]; unfold scriptB; exact List.take_left' (headK_length _ _ _)
  · rw [Nat.add_zero, List.drop_zero, List.take_of_length_le (by rw [hl])] at h2
    exact h2
theorem wit_scene_script : sceneLoadS.part.phase = .ready ∧ sceneLoadS.part.cfg.staged = none ∧ sceneLoadS.part.cfg.reqs = ⟨0x10000, none⟩ :: [] := ⟨rfl, rfl, rfl⟩
theorem wit_scene_there : sceneLoadS.part.scriptThere 0x10000 256 = true ∧ sceneLoadS.part.scriptThere 0x10000 16384 = true := by decide +kernel
theorem wit_scene_good :
    (scriptHead (sceneLoadS.part.bytesAt 0x10000 256)).fault false sceneLoadS.part.chain.pos sceneLoadS.part.identity = 0 ∧
    (scriptHead (sceneLoadS.part.bytesAt 0x10000 256)).length = 16384 ∧
    ∃ g, ({ sceneLoadS.part with cfg := { sceneLoadS.part.cfg with reqs := [] } } : Part).checkScript false (some ⟨0x10000, none⟩) (sceneLoadS.part.bytesAt 0x10000 16384) = .good g := by
  obtain ⟨f1, f2, f3, -, f5⟩ := head_facts 1 0 0 (.inr rfl)
  obtain ⟨p1, p2⟩ := pre_facts 0 (.inl rfl)
  obtain ⟨s1, s2⟩ := scene_script
  rw [s1, s2]
  refine ⟨f5 _, f2, ?_⟩
  obtain ⟨g, hg, -⟩ := check_good ({ sceneLoadS.part with cfg := { sceneLoadS.part.cfg with reqs := [] } } : Part) false (some ⟨0x10000, none⟩) ownKey (headK 1 0 0) 0 0
    (headK_length _ _ _) f1 f2 f3 (f5 _) p2 p1 rfl rfl (by decide +kernel) rfl rfl rfl
  exact ⟨g, hg⟩


/-! A scene whose record stands in a kept script is placed again. The record's region has no clusters, so that no route is to be read. -/

def preS : List Byte := leBytes 2 0x4D46 ++ leBytes 1 1 ++ leBytes 1 0 ++ leBytes 4 0 ++ leBytes 6 0 ++ leBytes 2 256 ++ leBytes 4 0
@[irreducible] def recS : List Byte := (leBytes 2 1 ++ zeros 4 ++ [0, 1, 1, 1] ++ leBytes 2 1 ++ leBytes 2 1) ++ zeros 242
theorem recS_length : recS.length = 256 := by unfold recS; simp only [List.length_append, zeros_length, leBytes_length, List.length_cons, List.length_nil]
def keptR : Kept := { num := 3, base := 0x800000, mib := 1, scenes := [1], key0 := zeros 32 }
def rep1 : Replica := { rep0 with scene := 1, w := 0, dark := true }
def placeS : State :=
  st { (base.setBytes 0x800000 (pageP ++ frameB (zeros 32) (leBytes 4 0 ++ zeros 8) preS (recS ++ zeros 3792))) with cfg := { Script.reset with kept := [keptR] }, stg := { Stage.reset with replicas := [rep1], scenes := [{ scene0 with num := 1, script := 3 }] }, err := { recs := [⟨3, 2, 0, 2, 0, 0, none, 0, some 0⟩], scenes := [(0, 1600, 3)] } }
theorem wit_scene_place : placeS.part.phase = .ready := rfl
theorem wit_scene_due : placeS.part.err.scenes = [(0, 1600, 3)] := rfl
theorem wit_scene_replica : placeS.part.replicaOf 0 = some rep1 := rfl
theorem wit_scene_alone : placeS.part.stg.replicas = [rep1] := rfl
theorem place_frames (p : Part) (h : p.mem = placeS.part.mem) : p.keptFrames keptR = [(0, some (1, 0, 0, recS))] := by
  have f : leAt preS 2 1 = 1 ∧ leAt preS 16 2 = 0 ∧ leAt preS 8 6 = 0 ∧ leAt preS 14 2 = 256 := by decide +kernel
  rw [kept_frames p keptR preS (recS ++ zeros 3792) (by simp [preS]) (by simp only [List.length_append, recS_length, zeros_length]) rfl rfl h, f.1, f.2.1, f.2.2.1, f.2.2.2,
    List.take_left' recS_length]
theorem record_of (p : Part) (sc : Scene) (h : p.mem = placeS.part.mem) (hk : p.cfg.kept = [keptR]) (hs : sc.script = 3) (hn : sc.num = 1) : p.recordOf sc = some (sceneRec recS) := by
  have hf : p.keptOf sc = some keptR := by
    unfold Part.keptOf
    rw [hk, hs]
    rfl
  have h3 : chunks 256 recS = chunksF 256 256 recS := by rw [chunks, recS_length]
  have h4 : chunksF 256 256 recS = [recS] := by decide +kernel
  have h5 : (sceneRec recS).scene = 1 := by decide +kernel
  unfold Part.recordOf
  rw [hf, Option.bind_some, place_frames p h]
  simp only [List.filterMap_cons, List.filterMap_nil, recordBodies, List.filter_cons, beq_self_eq_true, if_true, List.filter_nil, List.map_cons, List.map_nil, List.flatMap_cons,
    List.flatMap_nil, h3, h4, List.append_nil, List.find?_cons, h5, hn]
theorem no_frames (p : Part) (h : p.mem = placeS.part.mem) (hk : p.cfg.kept = [keptR]) : p.sceneFrames 1 = [] := by
  unfold Part.sceneFrames
  rw [hk, List.filter_cons, if_pos (show keptR.scenes.elem 1 = true from rfl), List.filter_nil, List.flatMap_cons, List.flatMap_nil, place_frames p h]
  rfl
def placeP1 : Part := { placeS.part with stg := { placeS.part.stg with replicas := [] } }
/-- No cell of the pool is a route's. -/
theorem cells_below (b : Nat) (l : List Byte) : ∀ (m : List Host.Cell) (a : Nat), (∀ c ∈ m, c.1 < b) → a + l.length ≤ b → ∀ c ∈ Memory.writeN m a l, c.1 < b := by
  have drop : ∀ (k : Nat) (m : List Host.Cell), k < b → (∀ c ∈ m, c.1 < b) → ∀ c ∈ Tab.drop Memory.blank k m, c.1 < b := by
    intro k m hk hm c hc
    cases m with
    | nil => simp [Tab.drop] at hc
    | cons x m =>
      simp only [Tab.drop] at hc
      split at hc
      · exact hm c hc
      · rcases List.mem_cons.mp hc with rfl | hc
        · exact hk
        · exact hm c hc
  have put : ∀ (m : List Host.Cell) (a : Nat) (v : Byte), a < b → (∀ c ∈ m, c.1 < b) → ∀ c ∈ Memory.write m a v, c.1 < b := by
    intro m
    induction m with
    | nil =>
      intro a v ha _ c hc
      simp only [Memory.write, Tab.put] at hc
      split at hc <;> simp at hc
      rw [hc]; exact ha
    | cons x m ih =>
      intro a v ha hm c hc
      have hx := hm x (by simp)
      have ht : ∀ c ∈ m, c.1 < b := fun c h => hm c (by simp [h])
      simp only [Memory.write, Tab.put] at hc
      split at hc
      · split at hc
        · exact hm c hc
        · rcases List.mem_cons.mp hc with rfl | hc
          · exact ha
          · exact hm c hc
      · split at hc
        · split at hc
          · exact drop a m ha ht c hc
          · rcases List.mem_cons.mp hc with rfl | hc
            · exact ha
            · exact ht c hc
        · rcases List.mem_cons.mp hc with rfl | hc
          · exact hx
          · exact ih a v ha ht c hc
  induction l with
  | nil => intro m a hm _; exact hm
  | cons v l ih =>
    intro m a hm ha
    rw [List.length_cons] at ha
    exact ih _ _ (put m a v (by omega) hm) (by omega)
theorem pool_routes : placeP1.mem.any (fun c => isRouteCell c.1) = false := by
  have hl : (pageP ++ frameB (zeros 32) (leBytes 4 0 ++ zeros 8) preS (recS ++ zeros 3792)).length = 8192 := by
    rw [List.length_append, pageP_length, (frameB_facts _ _ _ _ (zeros_length _) (by simp [preS]) (by simp only [List.length_append, recS_length, zeros_length])).1]
  have hb : ∀ c ∈ placeP1.mem, c.1 < configBase := cells_below configBase _ base.mem 0x800000 (by intro c hc; simp [base, Part.reset, Part.setRegN, Part.setReg] at hc) (by rw [hl]; decide)
  rw [List.any_eq_false]
  intro c hc
  simp [isRouteCell, Nat.not_le.mpr (hb c hc)]
/-- The record's replica keeps its place. -/
def placeQ : Part := { placeP1 with stg := { placeP1.stg with replicas := [(sceneRec recS).replica 0] } }
theorem place_facts : (sceneRec recS).pin 0 = none ∧ ([rep1].find? (fun x => x.scene == (sceneRec recS).scene && x.j == 0 && x.w == (sceneRec recS).w && x.h == (sceneRec recS).h)).map (fun x => (x.die, x.origin)) = some (0, 0) ∧
    placeP1.roomFor ((sceneRec recS).replica 0) = true ∧ ((sceneRec recS).replica 0).clusters = [] ∧ ((sceneRec recS).replica 0).scene = 1 ∧ ((sceneRec recS).replica 0).j = 0 ∧
    { (sceneRec recS).replica 0 with die := 0, origin := 0 } = (sceneRec recS).replica 0 := by decide +kernel
theorem placed_some : placeP1.placeReplica (sceneRec recS) [rep1] [] 0 [] = some placeQ := by
  obtain ⟨hp, hs, hr, hc, -, -, he⟩ := place_facts
  have hw : ∀ q : Part, q.writeConfig ((sceneRec recS).replica 0) [] = q := fun q => by simp [Part.writeConfig, hc, forEach]
  have hm : ({ placeP1 with stg := { placeP1.stg with replicas := placeP1.stg.replicas ++ [(sceneRec recS).replica 0] } } : Part) = placeQ := rfl
  have hf : placeP1.sheetsFit ((sceneRec recS).replica 0) [] [] = true := by
    simp [Part.sheetsFit, hw, Part.routesFit, pool_routes]
  simp only [Part.placeReplica, hp, hs, Part.placeOf, he, hr, hf, Bool.and_self, if_true, Option.orElse_some, Option.map_some, hw, hm]
theorem replace_some (p p1 q : Part) (r n : Replica) (rc : SceneRec) (h1 : ({ p with stg := { p.stg with replicas := p.stg.replicas.filter (fun x => decide (x.anchor ≠ r.anchor)) } } : Part) = p1)
    (h : p1.placeReplica rc [r] [] r.j (p1.sceneFrames r.scene) = some q) (hn : q.stg.replicas.find? (fun x => x.scene == r.scene && x.j == r.j) = some n)
    (hx : (q.translateAll n).routedQueues.Nodup) : p.replaceReplica r rc = some (q.translateAll n, n) := by
  subst h1
  simp only [Part.replaceReplica, h, hn, if_pos hx]
theorem placed_again : placeS.part.replaceReplica rep1 (sceneRec recS) = some (placeQ, (sceneRec recS).replica 0) := by
  obtain ⟨-, -, -, hc, h1, h2, -⟩ := place_facts
  have ht : placeQ.translateAll ((sceneRec recS).replica 0) = placeQ := by simp [Part.translateAll, hc, forEach]
  have hq : placeQ.routedQueues = [] := by simp [Part.routedQueues, placeQ, Replica.cores, hc]
  have h := replace_some placeS.part placeP1 placeQ rep1 ((sceneRec recS).replica 0) (sceneRec recS) rfl ((congrArg _ (no_frames placeP1 rfl rfl)).trans placed_some)
    (by simp [placeQ, h1, h2, rep1, rep0]) (by rw [ht, hq]; exact List.nodup_nil)
  rwa [ht] at h
theorem wit_scene_placed : ((placeS.part.sceneOf 1).bind placeS.part.recordOf).bind (placeS.part.replaceReplica rep1) = some (placeQ, (sceneRec recS).replica 0) := by
  have hs : placeS.part.sceneOf 1 = some { scene0 with num := 1, script := 3 } := rfl
  rw [hs, Option.bind_some, record_of placeS.part _ rfl rfl rfl rfl, Option.bind_some, placed_again]
theorem wit_scene_stays : placeS.part.leaving 1 = false ∧ ((sceneRec recS).replica 0).anchor = rep1.anchor := by decide +kernel
theorem wit_scene_pool : placeS.part.poolLost 1 = false := by
  have hd : placeS.part.bytesAt keptR.base 256 = pageP.take 256 :=
    (pool_frame placeS.part _ rfl (frameB_facts (zeros 32) (leBytes 4 0 ++ zeros 8) preS (recS ++ zeros 3792) (zeros_length _) (by simp [preS])
      (by simp only [List.length_append, recS_length, zeros_length])).1).2
  have hk : placeS.part.cfg.kept = [keptR] := rfl
  have hl : (scriptHead (pageP.take 256)).length = 0 := by decide +kernel
  have hc : keptR.scenes.elem 1 = true := rfl
  simp only [Part.poolLost, hk, List.filter_cons, hc, if_true, List.filter_nil, List.any_cons, hd, hl]
  rfl


/-! ### The smoke test of WellFormed: one ill-formed term for each check -/

theorem test_wf_place : Instr.wf (.nop 25600 0) = false ∧ Instr.wf (.nop 25599 8) = false ∧ Instr.wf (.nop 25599 7) = true ∧ Instr.wf (.matrixStepStart 25600) = false ∧
    Instr.wf (.rowMoveComplete 25600 0) = false ∧ Instr.wf (.messageArrive 0 16) = false ∧ Instr.wf (.creditReturn 25600 0) = false := by decide
theorem test_wf_memory : Instr.wf (.partialWrite (2 ^ 48)) = false ∧ Instr.wf (.rowWrite (2 ^ 48 - 1)) = true ∧ Instr.wf (.memChWaitMax .house 128 0) = false ∧
    Instr.wf (.taskStart 1600) = false ∧ Instr.wf (.sceneRecovery 1599 1600 false) = true ∧ Instr.wf (.sceneRecovery 1600 0 false) = false ∧
    Instr.wf (.sceneRecovery 0 1601 false) = false := by decide
theorem test_wf_agent : Instr.wf (.timSet (.host 2) 0) = false ∧ Instr.wf (.timSet (.host 1) 0) = true ∧ Instr.wf (.stgPreemptReq .house 4 0) = false ∧
    Instr.wf (.seatEnable .house 4096 0) = false ∧ Instr.wf (.registerWrite .house 0 2 0) = false ∧ Instr.wf (.registerWrite .house 0 8 0) = true ∧
    Instr.wf (.cluChHsel .house 0 16 0) = false ∧ Instr.wf (.circuitTableWrite .house 4096 0 0) = false ∧ Instr.wf (.circuitTableWrite .house 0 2 0) = false := by decide
theorem test_wf_wires : Instr.wf (.cueInEdge 8) = false ∧ Instr.wf (.curtainRelease (.package 64)) = false ∧ Instr.wf (.curtainRelease (.cluster 0 16)) = false ∧
    Instr.wf (.curtainRelease (.scene 1600 0)) = false ∧ Instr.wf (.packageCurtainTimeout 64) = false ∧ Instr.wf (.houseSlot 0 (.single (2 ^ 48)) 0) = false ∧
    Instr.wf (.houseSlot 4 .clean 0) = false ∧ Instr.wf (.cueSheetSlot 4) = false ∧ Instr.wf (.filteredEdge 9 true 0 true) = false ∧ Instr.wf (.stuckInput 8) = true := by decide
theorem test_wf_pace : Instr.wf (.rateTableRefresh 0 15) = false ∧ Instr.wf (.avsTransactionComplete 4 .write true) = false ∧
    Instr.wf (.avsTransactionComplete 2 (.current 1 0) true) = false ∧ Instr.wf (.avsTransactionComplete 1 (.temp 1 0) true) = true ∧
    Instr.wf (.thermalTrip 3 16 115) = false ∧ Instr.wf (.thermalTrip 7 4 115) = false ∧ Instr.wf (.thermalTrip 8 0 115) = false ∧ Instr.wf (.bandGateOff 0 40) = false := by decide
theorem test_wf_fabric : Instr.wf (.timeFlitSend 16) = false ∧ Instr.wf (.portDown 0 0) = false ∧ Instr.wf (.portDown 0 4) = false ∧ Instr.wf (.packetForward 2) = false ∧
    Instr.wf (.fabricDoorbell 64) = false ∧ Instr.wf (.retrainPort .house 16) = false ∧ Instr.wf (.idleFlit 0 [] none) = false ∧ Instr.wf (.chainData []) = false ∧
    Instr.wf (.chainEnd []) = false ∧ Instr.wf (.chainIdle (List.replicate 8 0)) = true := by decide
theorem test_wf_host : Instr.wf (.submissionDoorbell 2 0 0) = false ∧ Instr.wf (.submissionDoorbell 0 1024 0) = false ∧ Instr.wf (.functionLevelReset 2) = false ∧
    Instr.wf (.bar2Access 0 0 (.read 0)) = false ∧ Instr.wf (.bar2Access 0 0 (.write [])) = false ∧ Instr.wf (.msixTableWrite 0 (2 ^ 20) 0) = false ∧
    Instr.wf (.taskSubmit (some [])) = false ∧ Instr.wf (.ringEntryRead 1024 none) = false := by decide
theorem test_wf_boot : Instr.wf (.rehearsal [] [] [] []) = false ∧ Instr.wf (.ownerRecordBuilt []) = false ∧ Instr.wf (.unlistedCcc 0x07) = false ∧ Instr.wf (.unlistedCcc 0x99) = true ∧
    Instr.wf (.bypass 0x20) = false ∧ Instr.wf (.bypass 0xFF) = true := by decide
theorem test_wf_report : Instr.wf (.errorLogEntry ⟨0x94, 0, 0, 0, 0, 0, none, 0, 0⟩) = false ∧ Instr.wf (.errorLogEntry ⟨0x93, 5, 0, 0, 0, 0, none, 0, 0⟩) = false ∧
    Instr.wf (.errorLogEntry ⟨0x93, 0, 8, 0, 0, 0, none, 0, 0⟩) = false ∧ Instr.wf (.errorLogEntry ⟨0x93, 0, 0, 65536, 0, 0, none, 0, 0⟩) = false ∧
    Instr.wf (.errorLogEntry ⟨0x93, 0, 0, 0, 256, 0, none, 0, 0⟩) = false ∧ Instr.wf (.errorLogEntry ⟨0x93, 0, 0, 0, 0, 256, none, 0, 0⟩) = false ∧
    Instr.wf (.errorLogEntry ⟨0x93, 0, 0, 0, 0, 0, none, 2 ^ 48, 0⟩) = false ∧ Instr.wf (.errorLogEntry report0) = true := by decide

/-! ### Words of the manual and published check values -/

/-- The three words of the worked example of 07. -/
theorem test_cue_words : readCue 0x1002800000001000 = some (.loop { lvl := 0, stop := 10, src := false, reg := 0, sh := 0, imm := 2 }) ∧
    readCue 0x20080000083CE900 = some (.ldr { place := 32, preg := 0, off := 16, cnt := 15, lvl := 0, sreg := 14, ix := true, cached := false, sync := false, done := 16 }) ∧
    (readCue 0x400800C0A5203910).isSome = true := by decide
/-- No row of the table gives bits of a command: no word spells one. -/
theorem test_decode_none : decodeTableWord 64 0x1002800000001000 = none := by decide
/-- The check value of CRC-32C for the ASCII digits 1 to 9. -/
theorem test_crc32c : crc32c (ascii "123456789") = 0xE3069283 := by decide +kernel
/-- FIPS 180-4: the digest of "abc" begins with ba7816bf. -/
theorem test_sha256 : (sha256 (ascii "abc")).take 4 = [0xba, 0x78, 0x16, 0xbf] := by decide +kernel
/-- FIPS 197, appendix C.3: AES-256 of 00112233... under the key 000102... begins with 8ea2b7ca. -/
theorem test_aes256 : (aesBlock sbox (roundKeys ((List.range 32).map (BitVec.ofNat 8))) ((List.range 16).map (fun i => BitVec.ofNat 8 (17 * i)))).take 4 =
    [0x8e, 0xa2, 0xb7, 0xca] := by decide +kernel


/-! ### Worked examples of the manual -/

/-- 02, the FP64 dot product with cancellation: X, L and the rounded result for S = 7 and S = 8. -/
def dotA : List El := [0x3FF0000000000001, 0xBFF0000000000000, 0x3C30000000000000].map (fun x => mkEl 0x0A x 127 0 0)
def dotB : List El := List.replicate 3 (mkEl 0x0A 0x3FF0000000000000 127 0 0)
theorem test_fp64_dot_seven : ∀ tri, dot (.slices 7 tri) [true, true, true] (some 0) (some 0) dotA dotB = 2 ^ 58 ∧ (Kind.slices 7 tri).weight 0x0A 0x0A 0 0 = -110 ∧
    (encode 0x0A .even false false (Num.ofScaled false (2 ^ 58) (-110))).1 = 0x3CB0000000000000 := by decide +kernel
theorem test_fp64_dot_eight : ∀ tri, dot (.slices 8 tri) [true, true, true] (some 0) (some 0) dotA dotB = 2 ^ 74 + 2 ^ 66 ∧ (Kind.slices 8 tri).weight 0x0A 0x0A 0 0 = -126 ∧
    (encode 0x0A .even false false (Num.ofScaled false (2 ^ 74 + 2 ^ 66) (-126))).1 = 0x3CB0100000000000 := by decide +kernel
/-- 04, the row maxima: the key of −2.5, and its comparison with that of −1.0. -/
theorem test_row_key : (elemStep 0x48A003E1).result 0xC0200000 0 0 0 = 0xFFFFFFFF ∧ (elemStep 0x18838000).result 0xFFFFFFFF 0x7FFFFFFF 0 0 = 0x7FFFFFFF ∧
    (elemStep 0x29200800).result 0xC0200000 0x7FFFFFFF 0 0 = 0xBFDFFFFF := by decide +kernel
/-- 13, locating one row: it lies on channel 59. -/
theorem test_row_channel : channelOf 0x12345600 = 59 := by decide +kernel
/-- 13 R380 R382: channel, block and slot lead back to the row; the second die of a channel begins at its rank's offset 0. -/
theorem test_row_inverse : ∀ a ∈ [0x12345600, 0, 0x3FFFFE00], rowInBlock (channelOf a) (a / 65536 / 127) (a / 65536 % 127) = a ∧
    (deviceRow a).1 = 65536 * (a / 65536 / 127) + 512 * (a / 65536 % 127) := by decide +kernel
theorem test_rank : rankOf (2 ^ 32) (2 ^ 32 + 512) = (1, 512) ∧ rankOf (2 ^ 32) 512 = (0, 512) := by decide
/-- 13 R381: 2 ranks of 32 Gb dies. -/
theorem test_capacity : capacityOf 2 1 = 1090921693184 := by decide +kernel
/-- 16, one submission: bytes 0 to 15 of the record. -/
theorem test_record : (recordBytes (some ⟨0x00012C41, 3, 0xFFFF⟩) 1 0 0 0 37 0 0).take 11 ++ [1] ++ ((recordBytes (some ⟨0x00012C41, 3, 0xFFFF⟩) 1 0 0 0 37 0 0).drop 12).take 4 =
    [0x41, 0x2C, 0x01, 0x00, 0x03, 0x00, 0xFF, 0xFF, 0x01, 0x00, 0x00, 0x01, 0x00, 0x00, 0x25, 0x00] := by decide +kernel

end Sys2Proof.Tests
end

/-! ## The canonical form of the tables (log 4)

What `step` keeps of the byte memory, the register file and the table of cores. `Part.Keeps p q` says it of one change of the part; below, one
lemma per function of the model says that the function keeps it, in the order of the model's files, and `exec_keeps` says it of every command.
Only `setBytes`, `setReg`, `setCore`, the filters of `clearConfig` and `clearBand`, `dropContents` and a reset touch a table at all. -/

namespace Sys2Proof

theorem Tab.above_filter {α : Type} {n : Nat} {t : Tab α} (g : Nat × α → Bool) (h : above n t = true) : above n (t.filter g) = true := by
  induction t with
  | nil => rfl
  | cons x t ih =>
    simp only [above, Bool.and_eq_true, decide_eq_true_eq] at h
    rw [List.filter_cons]
    split
    · simp [above, h.1, ih h.2]
    · exact ih h.2

theorem Tab.wf_filter {α : Type} [DecidableEq α] {d : α} {t : Tab α} (g : Nat × α → Bool) (h : wf d t = true) :
    wf d (t.filter g) = true := by
  induction t with
  | nil => rfl
  | cons x t ih =>
    simp only [wf, Bool.and_eq_true, decide_eq_true_eq] at h
    obtain ⟨⟨ha, hv⟩, ht⟩ := h
    rw [List.filter_cons]
    split
    · simp [wf, above_filter g ha, hv, ih ht]
    · exact ih ht

end Sys2Proof

namespace Sys2Proof.Machine
open Sys2Proof

/-- What the change from `p` to `q` keeps: the canonical form (log 4) of the byte memory, of the register file and of the table of cores, each
where it was there before. The lemmas below take it from a fixed first part `p₀`, so that they chain by `h.f.g`. -/
def Part.Keeps (p q : Part) : Prop :=
  (Memory.wf p.mem = true → Memory.wf q.mem = true) ∧ (Tab.wf 0 p.regs = true → Tab.wf 0 q.regs = true) ∧
  (Tab.wf Core.reset p.cores = true → Tab.wf Core.reset q.cores = true)

namespace Part.Keeps

variable {p₀ p q : Part}

theorem refl (p : Part) : p.Keeps p := ⟨id, id, id⟩

theorem trans {r : Part} (h : p.Keeps q) (h' : q.Keeps r) : p.Keeps r :=
  ⟨h'.1 ∘ h.1, h'.2.1 ∘ h.2.1, h'.2.2 ∘ h.2.2⟩

/-- The other fields of the part are free. -/
theorem frame (h : p₀.Keeps p) {tagErr poison clusters reqs xfers partials views flight net retrainFails stg tim pce fab cfg chain hst sec err
    pwr i3c jtag phase out uid} :
    p₀.Keeps ⟨p.mem, tagErr, poison, p.regs, p.cores, clusters, reqs, xfers, partials, views, flight, net, retrainFails, stg, tim, pce, fab, cfg,
      chain, hst, sec, err, pwr, i3c, jtag, phase, out, uid⟩ := h

theorem ite {c : Prop} [Decidable c] (h : p₀.Keeps p) (h' : p₀.Keeps q) : p₀.Keeps (if c then p else q) := by
  split
  · exact h
  · exact h'

/-- A further step under a condition. -/
theorem andIf {c : Prop} [Decidable c] (h : p₀.Keeps p) (hq : p₀.Keeps p → p₀.Keeps q) : p₀.Keeps (if c then q else p) := .ite (hq h) h

theorem forEach {α : Type} {l : List α} {f : α → Part → Part} (h : p₀.Keeps p) (hf : ∀ a q, p₀.Keeps q → p₀.Keeps (f a q)) :
    p₀.Keeps (Machine.forEach l f p) := by
  unfold Machine.forEach
  induction l generalizing p with
  | nil => exact h
  | cons a l ih => exact ih (hf a p h)

theorem foldl {α : Type} {l : List α} {f : Part → α → Part} (h : p₀.Keeps p) (hf : ∀ q a, p₀.Keeps q → p₀.Keeps (f q a)) :
    p₀.Keeps (l.foldl f p) := h.forEach fun a q => hf q a

theorem setBytes {a l} (h : p₀.Keeps p) : p₀.Keeps (p.setBytes a l) := ⟨fun hp => Part.wf_setBytes _ _ _ (h.1 hp), h.2⟩
theorem setReg {o v} (h : p₀.Keeps p) : p₀.Keeps (p.setReg o v) := ⟨h.1, fun hp => Tab.wf_put _ _ _ _ (h.2.1 hp), h.2.2⟩
theorem setCore {c k} (h : p₀.Keeps p) : p₀.Keeps (p.setCore c k) := ⟨h.1, h.2.1, fun hp => Tab.wf_put _ _ _ _ (h.2.2 hp)⟩

theorem of_fst {α : Type} {x : Part × α} {a : α} (h : p₀.Keeps x.1) (hx : x = (q, a)) : p₀.Keeps q := by
  rw [hx] at h
  exact h

theorem foldlFst {α β : Type} {l : List β} {f : Part × α → β → Part × α} {x : Part × α} (h : p₀.Keeps x.1)
    (hf : ∀ y b, p₀.Keeps y.1 → p₀.Keeps (f y b).1) : p₀.Keeps (l.foldl f x).1 := by
  induction l generalizing x with
  | nil => exact h
  | cons b l ih => exact ih (hf x b h)

theorem reset_of_eq (hm : q.mem = []) (hr : q.regs = []) (hc : q.cores = []) : p₀.Keeps q := by
  simp [Part.Keeps, hm, hr, hc, Memory.wf, Tab.wf]

end Part.Keeps

/-- The form of `Part.Keeps` for an operation that may find no part. -/
def Part.KeepsAny (p : Part) (o : Option Part) : Prop := ∀ q ∈ o, p.Keeps q

namespace Part.KeepsAny
variable {p₀ p : Part} {o o' : Option Part}

theorem none : p₀.KeepsAny none := by simp [Part.KeepsAny]

theorem some (h : p₀.Keeps p) : p₀.KeepsAny (some p) := by simpa [Part.KeepsAny] using h

theorem ite {c : Prop} [Decidable c] (h : p₀.KeepsAny o) (h' : p₀.KeepsAny o') : p₀.KeepsAny (if c then o else o') := by
  split
  · exact h
  · exact h'

theorem orElse (h : p₀.KeepsAny o) (h' : p₀.KeepsAny o') : p₀.KeepsAny (o.orElse fun _ => o') := by
  cases o with
  | none => exact h'
  | some q => exact h

theorem getD (h : p₀.KeepsAny o) (h' : p₀.Keeps p) : p₀.Keeps (o.getD p) := by
  cases o with
  | none => exact h'
  | some q => exact h q rfl

theorem map {f : Part → Part} (h : p₀.KeepsAny o) (hf : ∀ q, p₀.Keeps q → p₀.Keeps (f q)) : p₀.KeepsAny (o.map f) := by
  cases o with
  | none => exact none
  | some q => exact some (hf q (h q rfl))

end Part.KeepsAny

namespace Part.Keeps

variable {p₀ p q : Part}

/-! ### Mem -/

theorem setTag {a diff} (h : p₀.Keeps p) : p₀.Keeps (p.setTag a diff) := h.frame
theorem setRow {a row diff} (h : p₀.Keeps p) : p₀.Keeps (p.setRow a row diff) := h.setBytes.setTag
theorem mergeRow {a l} (h : p₀.Keeps p) : p₀.Keeps (p.mergeRow a l) := .ite h.setBytes.setTag h.setBytes.setTag

/-! ### Regs -/

theorem setRegN {off v} (h : p₀.Keeps p) : p₀.Keeps (p.setRegN off v) := h.setReg
theorem setFld {off lo len v} (h : p₀.Keeps p) : p₀.Keeps (p.setFld off lo len v) := h.setRegN
theorem orReg {off m} (h : p₀.Keeps p) : p₀.Keeps (p.orReg off m) := h.setReg
theorem andNotReg {off m} (h : p₀.Keeps p) : p₀.Keeps (p.andNotReg off m) := h.setReg
theorem bump {off n} (h : p₀.Keeps p) : p₀.Keeps (p.bump off n) := h.setReg
theorem bump32 {off n} (h : p₀.Keeps p) : p₀.Keeps (p.bump32 off n) := h.setRegN
theorem bump48 {off n} (h : p₀.Keeps p) : p₀.Keeps (p.bump48 off n) := h.setRegN
theorem bumpSat {off n} (h : p₀.Keeps p) : p₀.Keeps (p.bumpSat off n) := h.setReg

/-! ### Ops -/

theorem onCore {c f} (h : p₀.Keeps p) : p₀.Keeps (p.onCore c f) := h.setCore
theorem setCluster {cl k} (h : p₀.Keeps p) : p₀.Keeps (p.setCluster cl k) := h.frame
theorem onCluster {cl f} (h : p₀.Keeps p) : p₀.Keeps (p.onCluster cl f) := h.setCluster
theorem onTh {c t f} (h : p₀.Keeps p) : p₀.Keeps (p.onTh c t f) := h.onCore
theorem fresh (h : p₀.Keeps p) : p₀.Keeps p.fresh.2 := h.frame
theorem onReplica {anchor f} (h : p₀.Keeps p) : p₀.Keeps (p.onReplica anchor f) := h.frame
theorem onTask {k f} (h : p₀.Keeps p) : p₀.Keeps (p.onTask k f) := h.frame
theorem dropTask {k} (h : p₀.Keeps p) : p₀.Keeps (p.dropTask k) := h.frame
theorem emit {o} (h : p₀.Keeps p) : p₀.Keeps (p.emit o) := h.frame
theorem pumpIbi (h : p₀.Keeps p) : p₀.Keeps p.pumpIbi := .ite h.frame h
theorem ibi {kind further} (h : p₀.Keeps p) : p₀.Keeps (p.ibi kind further) := h.frame.pumpIbi
theorem setMsixDword {port i v} (h : p₀.Keeps p) : p₀.Keeps (p.setMsixDword port i v) := h.frame
theorem signal {port v} (h : p₀.Keeps p) : p₀.Keeps (p.signal port v) := .ite h.frame (.ite h.emit h)
theorem signalBoth (h : p₀.Keeps p) : p₀.Keeps p.signalBoth := h.signal.signal
theorem event {off m} (h : p₀.Keeps p) : p₀.Keeps (p.event off m) := h.orReg.signalBoth
theorem refuse {bit addr port} (h : p₀.Keeps p) : p₀.Keeps (p.refuse bit addr port) := h.setRegN.event
theorem onRing {i f} (h : p₀.Keeps p) : p₀.Keeps (p.onRing i f) := h.frame
theorem signalRing {i} (h : p₀.Keeps p) : p₀.Keeps (p.signalRing i) := h.onRing.signal
theorem writeRecord {i rec} (h : p₀.Keeps p) : p₀.Keeps (p.writeRecord i rec) := .ite h.emit.setRegN.onRing.signalRing h.emit.setRegN.onRing
theorem loseRecord {i} (h : p₀.Keeps p) : p₀.Keeps (p.loseRecord i) := h.bumpSat.event
theorem putRecord {i rec} (h : p₀.Keeps p) : p₀.Keeps (p.putRecord i rec) := .ite h.loseRecord (.ite h.writeRecord (.ite h.onRing h.loseRecord))

theorem flushHeld {i n} (h : p₀.Keeps p) : p₀.Keeps (Part.flushHeld i n p) := by
  induction n generalizing p with
  | zero => exact h
  | succ n ih =>
    unfold Part.flushHeld
    split
    · exact h
    · exact .ite h (ih h.onRing.writeRecord)

theorem putEvent {rec} (h : p₀.Keeps p) : p₀.Keeps (p.putEvent rec) := .ite h.putRecord h

/-! ### Errors -/

theorem placeOn {k anchor} (h : p₀.Keeps p) : p₀.Keeps (p.placeOn k anchor) := h.onTask.onCluster

theorem placeAll {n} (h : p₀.Keeps p) : p₀.Keeps (Part.placeAll n p) := by
  induction n generalizing p with
  | zero => exact h
  | succ n ih =>
    unfold Part.placeAll
    split
    · exact h
    · split
      · exact h
      · exact ih h.placeOn

theorem place (h : p₀.Keeps p) : p₀.Keeps p.place := h.placeAll
theorem unboard {anchor k} (h : p₀.Keeps p) : p₀.Keeps (p.unboard anchor k) := h.onCluster

theorem accrue {r} (h : p₀.Keeps p) : p₀.Keeps (p.accrue r) := by
  unfold Part.accrue
  dsimp only
  split
  · exact h
  · exact .ite h h.bump.onTask.frame

theorem seatDone {t} (h : p₀.Keeps p) : p₀.Keeps (p.seatDone t) := .ite h (.ite h.bump.setRegN.setFld.frame h.bump.setRegN)

theorem seatDeadline {t} (h : p₀.Keeps p) : p₀.Keeps (p.seatDeadline t) :=
  .ite h (Keeps.ite h.setRegN.bumpSat.orReg.setRegN.putEvent h.setRegN).setRegN

theorem freeSave {k} (h : p₀.Keeps p) : p₀.Keeps (p.freeSave k) := by
  unfold Part.freeSave
  dsimp only
  split
  · split
    · exact h.onTask.frame
    · exact h
  · exact h

theorem notifyDone {t code cause} (h : p₀.Keeps p) : p₀.Keeps (p.notifyDone t code cause) := by
  unfold Part.notifyDone
  refine .ite ?_ h
  split
  · exact h.putRecord
  · exact h

theorem finishOne {t code cause} (h : p₀.Keeps p) : p₀.Keeps (p.finishOne t code cause) := by
  unfold Part.finishOne
  dsimp only
  refine .frame (.andIf (.dropTask ?_) (·.frame))
  split
  case' h_1 => refine .unboard ?_
  all_goals exact (h.freeSave.bump.andIf (·.setRegN)).seatDone.seatDeadline.notifyDone

theorem finish {k code cause} (h : p₀.Keeps p) : p₀.Keeps (p.finish k code cause) := by
  unfold Part.finish
  dsimp only
  split
  · exact h
  · refine .ite h.finishOne ?_
    split
    · exact h.finishOne
    · exact .ite (.ite h.finishOne.onTask.finishOne h.finishOne.onTask.finishOne) h.finishOne.onTask

theorem resetQueue {c q'} (h : p₀.Keeps p) : p₀.Keeps (p.resetQueue c q') := (Keeps.ite h.setCore h.setCore.bump32).forEach fun _ _ hq => hq.onCore
theorem resetQueues {c} (h : p₀.Keeps p) : p₀.Keeps (p.resetQueues c) := h.forEach fun _ _ hq => hq.resetQueue
theorem vecIdle {c} (h : p₀.Keeps p) : p₀.Keeps (p.vecIdle c) := h.andNotReg

theorem stopReplica {r} (h : p₀.Keeps p) : p₀.Keeps (p.stopReplica r) :=
  (((h.forEach (fun _ _ hq => .ite hq hq.bump)).forEach (fun _ _ hq => hq.vecIdle.onCore.resetQueues)).forEach
    (fun _ _ hq => hq.onCluster)).onReplica.frame

theorem dropDescs {k} (h : p₀.Keeps p) : p₀.Keeps (p.dropDescs k) := h.frame
theorem sendBack {r k} (h : p₀.Keeps p) : p₀.Keeps (p.sendBack r k) := h.accrue.stopReplica.dropDescs.freeSave.bump.onTask

theorem abortOn {r k fate} (h : p₀.Keeps p) : p₀.Keeps (p.abortOn r k fate) := by
  unfold Part.abortOn
  split
  · exact h
  · split
    · exact h.sendBack.finish
    · exact .ite h.sendBack.finish h.sendBack.place

theorem abort {k fate} (h : p₀.Keeps p) : p₀.Keeps (p.abort k fate) := by
  unfold Part.abort
  split
  · exact h.abortOn
  · split
    · exact h.finish.place
    · exact h

theorem chainSend {type payload} (h : p₀.Keeps p) : p₀.Keeps (p.chainSend type payload) := h.emit

theorem darkDomains (h : p₀.Keeps p) : p₀.Keeps p.darkDomains :=
  ((h.forEach (fun _ _ hq => hq.setRegN)).forEach (fun _ _ hq => hq.setRegN)).setRegN.setRegN

theorem dropContents (h : p₀.Keeps p) : p₀.Keeps p.dropContents := ⟨fun _ => rfl, h.2.1, fun _ => rfl⟩

theorem blackout {cause named} (h : p₀.Keeps p) : p₀.Keeps (p.blackout cause named) :=
  .ite h h.chainSend.setRegN.darkDomains.dropContents.setRegN.setRegN.frame.ibi

theorem logEntry {e handled detected program escalated depth parent} (h : p₀.Keeps p) :
    p₀.Keeps (p.logEntry e handled detected program escalated depth parent) :=
  (Keeps.ite (h.forEach (fun _ _ hq => hq.setRegN)).bump.bumpSat.event (h.forEach (fun _ _ hq => hq.setRegN))).setReg.bump.event.putEvent

theorem fatal {seq} (h : p₀.Keeps p) : p₀.Keeps (p.fatal seq) := h.setReg.frame.ibi.blackout
theorem clearBoard {anchor} (h : p₀.Keeps p) : p₀.Keeps (p.clearBoard anchor) := (h.forEach (fun _ _ hq => hq.onTask)).onCluster

theorem retireCluster {cl parent depth} (h : p₀.Keeps p) : p₀.Keeps (p.retireCluster cl parent depth) := by
  unfold Part.retireCluster
  dsimp only
  refine .ite h (.logEntry (.setFld (.setFld (.andNotReg ?_))))
  split
  · exact h.clearBoard
  · exact h

theorem beginScene {e seq depth fate} (h : p₀.Keeps p) : p₀.Keeps (p.beginScene e seq depth fate) := by
  unfold Part.beginScene
  dsimp only
  split
  · refine .frame ?_
    split
    case' h_1 => refine .ite ?_ (.abort ?_)
    all_goals
      split
      · exact h.onReplica.abortOn
      · exact h.onReplica
  · split
    · exact (h.andIf (·.retireCluster)).abort
    · exact h.andIf (·.retireCluster)

theorem raise {e fate} (h : p₀.Keeps p) : p₀.Keeps (p.raise e fate) := by
  unfold Part.raise
  dsimp only
  refine .ite h ?_
  split
  · exact h
  · split
    · exact h.logEntry
    · refine .ite ?_ (.ite (.frame ?_) ?_)
      all_goals
        split
        · exact h.logEntry.abort
        · exact h.logEntry
    · exact h.logEntry.beginScene
    · exact h.logEntry.fatal

theorem raiseCore {c source unit addr detail fate} (h : p₀.Keeps p) : p₀.Keeps (p.raiseCore c source unit addr detail fate) := h.raise

/-! ### Operands -/

theorem fixResid {c off n} (h : p₀.Keeps p) : p₀.Keeps (p.fixResid c off n) := .ite h h.onCore
theorem setHalf {c code b diff} (h : p₀.Keeps p) : p₀.Keeps (p.setHalf c code b diff) := .ite h.setRow h.fixResid.setBytes.frame
theorem setPlace {c code b} (h : p₀.Keeps p) : p₀.Keeps (p.setPlace c code b) := .ite h.setHalf.setHalf h.setHalf
theorem takeSlot {c t} (h : p₀.Keeps p) : p₀.Keeps (p.takeSlot c t) := h.bump.onCore
theorem issued {c t} (h : p₀.Keeps p) : p₀.Keeps (p.issued c t) := h.takeSlot.onTh

theorem resting {cs f} (h : p₀.Keeps p) (hf : ∀ q, p₀.Keeps q → p₀.Keeps (f q)) : p₀.Keeps (p.resting cs f) :=
  (hf _ h).forEach fun _ _ hq => .ite hq.bump hq

theorem onTheCore {c f} (h : p₀.Keeps p) (hf : ∀ q, p₀.Keeps q → p₀.Keeps (f q)) : p₀.Keeps (p.onTheCore c f) := h.resting hf
theorem queueRecv {c t u q' pl sl dn} (h : p₀.Keeps p) : p₀.Keeps (p.queueRecv c t u q' pl sl dn) := h.onCore

theorem testThread {c t} (h : p₀.Keeps p) : p₀.Keeps (Part.testThread c t p) := by
  unfold Part.testThread
  dsimp only
  split
  · exact .ite h.onCore h
  · exact .ite h h.onTh
  · exact .ite h h.onTh
  · exact .ite h.onTh h
  · exact .ite h.onTh h
  · refine .ite ?_ h.onTh
    split
    · exact .ite h.onTh h.onTh
    · exact h.onTh
  · exact .ite h (.ite h.onTh h.queueRecv)
  · exact h

theorem testPlain {c t} (h : p₀.Keeps p) : p₀.Keeps (Part.testPlain c t p) := by
  unfold Part.testPlain
  split
  · exact .ite h.onTh h
  · exact h

theorem settle {c} (h : p₀.Keeps p) : p₀.Keeps (p.settle c) := (h.forEach (fun _ _ hq => hq.testThread)).forEach fun _ _ hq => hq.testPlain
theorem countUp {c i v} (h : p₀.Keeps p) : p₀.Keeps (p.countUp c i v) := .ite h.onCore.orReg.raiseCore h.onCore
theorem addCounter {c i v} (h : p₀.Keeps p) : p₀.Keeps (p.addCounter c i v) := .ite h.countUp h.countUp.settle
theorem completed {c done} (h : p₀.Keeps p) : p₀.Keeps (p.completed c done) := .ite h.addCounter h.settle
theorem fireWire {cl w} (h : p₀.Keeps p) : p₀.Keeps (p.fireWire cl w) := h.forEach fun _ _ hq => .ite hq.onCore hq
theorem rangeViolation {c row} (h : p₀.Keeps p) : p₀.Keeps (p.rangeViolation c row) := h.orReg.setRegN.raiseCore

theorem rangeChecked {c} {o : Option Nat} (h : p₀.Keeps p) (hq : p₀.Keeps q) :
    p₀.Keeps (match o with | some r => p.rangeViolation c r | none => q) := by
  split
  · exact h.rangeViolation
  · exact hq

theorem sramFault {c row} (h : p₀.Keeps p) : p₀.Keeps (p.sramFault c row) := h.raiseCore
theorem refusedOp {c unit addr} (h : p₀.Keeps p) : p₀.Keeps (p.refusedOp c unit addr) := h.raiseCore

/-! ### Homes -/

theorem noteDamaged {a} (h : p₀.Keeps p) : p₀.Keeps (p.noteDamaged a) := by
  unfold Part.noteDamaged
  dsimp only
  split
  · exact h.bumpSat.orReg.setRegN
  · exact h.orReg.setRegN
  · exact h

theorem touchBand {cl} (h : p₀.Keeps p) : p₀.Keeps (p.touchBand cl) := h.orReg.frame

theorem touch {a} (h : p₀.Keeps p) : p₀.Keeps (p.touch a) := by
  unfold Part.touch
  split
  · exact h.touchBand
  · exact h.touchBand
  · exact h

theorem countRead {a} (h : p₀.Keeps p) : p₀.Keeps (p.countRead a) := .ite h.bump h.touch
theorem countWrite {a} (h : p₀.Keeps p) : p₀.Keeps (p.countWrite a) := .ite h.bump h.touch

theorem repair {a} (h : p₀.Keeps p) : p₀.KeepsAny (p.repair a) := by
  unfold Part.repair
  dsimp only
  split
  · refine .ite (.some ?_) .none
    split
    · exact h.countRead.setRow.countWrite.orReg
    · exact h.countRead.setRow.countWrite.orReg
    · exact h.countRead.setRow.countWrite
  · exact .none

theorem rowFault {k f} (h : p₀.Keeps p) : p₀.Keeps (p.rowFault k f) := by
  unfold Part.rowFault
  split
  case h_1 =>
    dsimp only
    split
    next q hq => exact (h.noteDamaged.repair q hq).raise
    next => exact h.noteDamaged.raise
  case h_2 =>
    refine .raise ?_
    split
    · exact h.andIf (·.onCore)
    · exact h
  case h_6 => exact h.orReg.raise
  all_goals exact h.raise

theorem coreRowFault {c k f} (h : p₀.Keeps p) : p₀.Keeps (p.coreRowFault c k f) := by
  unfold Part.coreRowFault
  split
  · exact h.raise
  · exact h.rowFault

theorem readSpan {a n} (h : p₀.Keeps p) : p₀.Keeps (p.readSpan a n).1 := by
  refine foldlFst h fun x i hx => ?_
  dsimp only
  split
  · exact hx
  · exact .ite hx hx.countRead

theorem noteFault {a} (h : p₀.Keeps p) : p₀.Keeps (p.noteFault a) := by
  unfold Part.noteFault
  split
  · exact h.noteDamaged
  · exact h

theorem spoilCache {core off} (h : p₀.Keeps p) : p₀.Keeps (p.spoilCache core off) := h.onCore.orReg

theorem writePart {a l} (h : p₀.Keeps p) : p₀.Keeps (p.writePart a l) := by
  unfold Part.writePart
  dsimp only
  split
  · exact .ite (.ite h.touch.spoilCache h.touch.mergeRow) h.touch.fixResid.setBytes.frame
  · exact h.touch.mergeRow.countWrite

theorem rmw {a l} (h : p₀.Keeps p) : p₀.Keeps (p.rmw a l) := (Keeps.ite h.countRead.noteDamaged.raise h.countRead).writePart

theorem writeRow {a row diff} (h : p₀.Keeps p) : p₀.Keeps (p.writeRow a row diff) := by
  unfold Part.writeRow
  dsimp only
  split
  · exact .ite (.ite h.touch.spoilCache h.touch.setRow) h.touch.fixResid.setBytes.frame
  · exact h.touch.setRow.countWrite

theorem bell {a n owner} (h : p₀.Keeps p) : p₀.Keeps (p.bell a n owner) := h.frame

theorem viewGet {x : Part × List Byte × Bool} {y} (h : p₀.Keeps x.1) : p₀.Keeps (Part.viewGet x y).1 := by
  unfold Part.viewGet
  dsimp only
  split
  · exact h.countRead.raise
  · exact h.countRead

theorem viewPut {x} (h : p₀.Keeps p) : p₀.Keeps (p.viewPut x) := .ite h.writeRow h.rmw

theorem viewAccess {port a acc} (h : p₀.Keeps p) : p₀.Keeps (p.viewAccess port a acc) := by
  cases acc with
  | read n => exact (foldlFst h fun _ _ hx => hx.viewGet).emit
  | write l => exact h.forEach fun _ _ hq => hq.viewPut

theorem holdView {port a acc} (h : p₀.Keeps p) : p₀.Keeps (p.holdView port a acc) := h.fresh.frame

theorem pumpViewsF {n} (h : p₀.Keeps p) : p₀.Keeps (Part.pumpViewsF n p) := by
  induction n generalizing p with
  | zero => exact h
  | succ n ih =>
    unfold Part.pumpViewsF
    split
    · exact h
    · refine ih (h.resting fun q hq => .ite ?_ hq.frame.viewAccess)
      dsimp only
      split
      · exact hq.frame.refuse.emit
      · exact hq.frame.refuse

theorem pumpViews (h : p₀.Keeps p) : p₀.Keeps p.pumpViews := h.pumpViewsF

theorem sent {a other n} (h : p₀.Keeps p) : p₀.Keeps (p.sent a other n) := by
  unfold Part.sent
  dsimp only
  split
  · exact .ite h h.bump
  · exact h

/-! ### Requests -/

theorem onReq {r f} (h : p₀.Keeps p) : p₀.Keeps (p.onReq r f) := h.frame
theorem dropReqs {uid} (h : p₀.Keeps p) : p₀.Keeps (p.dropReqs uid) := h.frame
theorem hubMark (h : p₀.Keeps p) : p₀.Keeps p.hubMark := h.forEach fun _ _ hq => .ite hq.setFld hq

theorem startFill {c t line} (h : p₀.Keeps p) : p₀.Keeps (p.startFill c t line) := by
  unfold Part.startFill
  dsimp only
  split
  · exact h
  · exact h.setCore.fresh.frame.hubMark

theorem lookup {c t line} (h : p₀.Keeps p) : p₀.Keeps (p.lookup c t line) := by
  unfold Part.lookup
  dsimp only
  split
  · exact h.bump.setCore
  · exact .ite h.bump h.bump.startFill

theorem refill {c t ls} (h : p₀.Keeps p) : p₀.Keeps (p.refill c t ls) := h.forEach fun _ _ hq => .ite hq hq.startFill
theorem awaitFills {c t uid sync ls} (h : p₀.Keeps p) : p₀.Keeps (p.awaitFills c t uid sync ls) := .ite h h.onTh

theorem pitRow {x a row out} (h : p₀.Keeps p) : p₀.Keeps (p.pitRow x a row out).1 := by
  unfold Part.pitRow
  split
  · exact h
  · split
    · exact h
    · dsimp only
      split
      · exact .ite h.bump.setRegN h.bump.setRegN.bump
      · exact h.bump.setRegN

theorem deliver {r row} (h : p₀.Keeps p) : p₀.Keeps (p.deliver r row) := by
  unfold Part.deliver
  dsimp only
  split
  · exact h.setHalf.onReq
  · exact h.onReq.hubMark

theorem reqFault {r f} (h : p₀.Keeps p) : p₀.Keeps (p.reqFault r f) := by
  unfold Part.reqFault
  dsimp only
  refine .coreRowFault (.frame ?_)
  split
  case' h_1 => refine .ite (.orReg (.bumpSat ?_)) ?_
  all_goals
    split
    · exact h.onCore.orReg
    · exact h

theorem put {r a} (h : p₀.Keeps p) : p₀.Keeps (p.put r a) := by
  -- Opened as a function, not applied: applied, the kernel would compute its addresses out.
  generalize hf : Part.put = f
  delta Part.put at hf
  subst hf
  beta_reduce
  split
  · exact h.reqFault
  · refine .onReq (.bell (.writeRow (.ite ?_ (.bump ?_))))
    all_goals
      split
      · split
        · exact h.pitRow
        · exact h
      · exact h

theorem stepDirect {r} (h : p₀.Keeps p) : p₀.Keeps (p.stepDirect r) := by
  unfold Part.stepDirect
  refine .ite ?_ ?_
  · split
    · split
      · exact h.reqFault
      · exact h.sent.deliver
    · exact h
  · split
    · exact h.put
    · exact h

theorem runDirect {uid n} (h : p₀.Keeps p) : p₀.Keeps (Part.runDirect uid n p) := by
  induction n generalizing p with
  | zero => exact h
  | succ n ih =>
    unfold Part.runDirect
    split
    · exact ih h.stepDirect
    · exact h

theorem moveDirect {uid} (h : p₀.Keeps p) : p₀.Keeps (p.moveDirect uid) := h.runDirect

/-! ### Sequencing -/

theorem issue {c t op f} (h : p₀.Keeps p) (hf : ∀ q, p₀.Keeps q → p₀.Keeps (f q)) : p₀.Keeps (p.issue c t op f) :=
  .ite (.ite (hf _ h) (hf _ h).pumpViews) h

theorem returnCredit {m} (h : p₀.Keeps p) : p₀.Keeps (p.returnCredit m) := h.frame

theorem endHandler {c t} (h : p₀.Keeps p) : p₀.Keeps (p.endHandler c t) := by
  unfold Part.endHandler
  refine .onCore (.ite h ?_)
  split
  · exact h
  · exact h.onCore.bump32.returnCredit

theorem doEnd {c t} (h : p₀.Keeps p) : p₀.Keeps (p.doEnd c t) := (Keeps.ite h.endHandler h).issued.onTh
theorem doFence {c t} (h : p₀.Keeps p) : p₀.Keeps (p.doFence c t) := .ite h.issued h.issued.onTh
theorem doIntv {c t} (h : p₀.Keeps p) : p₀.Keeps (p.doIntv c t) := .ite h.issued (.ite h.takeSlot.onTh h.takeSlot.onTh)
theorem doLoop {c t} (h : p₀.Keeps p) : p₀.Keeps (p.doLoop c t) := h.takeSlot.onTh
theorem doShop {c t} (h : p₀.Keeps p) : p₀.Keeps (p.doShop c t) := h.issued.onCore
theorem doAdda {c t} (h : p₀.Keeps p) : p₀.Keeps (p.doAdda c t) := h.issued.onCore

theorem doWait {c t} (h : p₀.Keeps p) : p₀.Keeps (p.doWait c t) := by
  unfold Part.doWait
  dsimp only
  split
  · exact .ite h.issued.onCore h.issued.onTh
  · exact .ite h.issued.onTh h.issued.onTh.settle
  · exact .ite h.issued.onTh h.issued

theorem doCue {c t} (h : p₀.Keeps p) : p₀.Keeps (p.doCue c t) := by
  unfold Part.doCue
  dsimp only
  split
  · exact .ite h.issued.fireWire.frame h.issued.fireWire
  · exact .ite h.issued.countUp h.issued.addCounter
  · exact h.issued.frame

/-! ### RowMoves -/

theorem enqueue {c t what done sync} (h : p₀.Keeps p) : p₀.Keeps (p.enqueue c t what done sync) :=
  .ite h.issued.fresh.onCore.onTh h.issued.fresh.onCore

theorem orStall {c t full f} (h : p₀.Keeps p) (hf : ∀ q, p₀.Keeps q → p₀.Keeps (f q)) : p₀.Keeps (p.orStall c t full f) :=
  .ite h.fresh.onCore.onTh (hf _ h)

theorem doLdr {c t} (h : p₀.Keeps p) : p₀.Keeps (p.doLdr c t) := h.orStall fun _ hq => hq.rangeChecked <|
  .ite hq.refusedOp (.ite (hq.enqueue.forEach fun _ _ hr => hr.lookup).onCore.awaitFills hq.enqueue)

theorem doStr {c t} (h : p₀.Keeps p) : p₀.Keeps (p.doStr c t) := h.orStall fun _ hq => hq.rangeChecked (.ite hq.refusedOp hq.enqueue)
theorem doMov {c t} (h : p₀.Keeps p) : p₀.Keeps (p.doMov c t) := h.orStall fun _ hq => hq.rangeChecked hq.enqueue
theorem doTrd {c t} (h : p₀.Keeps p) : p₀.Keeps (p.doTrd c t) := h.orStall fun _ hq => hq.rangeChecked hq.enqueue
theorem doSrd {c t} (h : p₀.Keeps p) : p₀.Keeps (p.doSrd c t) := h.orStall fun _ hq => hq.rangeChecked hq.enqueue
theorem doGath {c t} (h : p₀.Keeps p) : p₀.Keeps (p.doGath c t) := h.orStall fun _ hq => hq.rangeChecked hq.enqueue
theorem doCinv {c t} (h : p₀.Keeps p) : p₀.Keeps (p.doCinv c t) := h.orStall fun _ hq => hq.enqueue
theorem doSend {c t post} (h : p₀.Keeps p) : p₀.Keeps (p.doSend c t post) := h.orStall fun _ hq => hq.rangeChecked hq.enqueue

theorem doRecv {c t} (h : p₀.Keeps p) : p₀.Keeps (p.doRecv c t) := h.orStall fun _ hq => hq.rangeChecked <|
  .ite hq.refusedOp (.ite (hq.andIf (·.onTh)).enqueue (hq.andIf (·.onTh)).issued.fresh.onTh)

/-! ### Transfers -/

theorem readList {d} (h : p₀.Keeps p) : p₀.Keeps (p.readList d).1 := by
  unfold Part.readList
  split
  · exact h.readSpan
  · exact h

theorem doXfer {c t} (h : p₀.Keeps p) : p₀.Keeps (p.doXfer c t) := by
  refine h.orStall fun q hq => ?_
  dsimp only
  split
  · exact hq.rangeViolation
  · refine .ite hq.rowFault (.ite hq.refusedOp ?_)
    split
    next hx => exact (hq.readList.of_fst hx).coreRowFault
    next hx => exact .ite (hq.readList.of_fst hx).issued.fresh.frame.hubMark.onTh (hq.readList.of_fst hx).issued.fresh.frame.hubMark

theorem onXfer {uid f} (h : p₀.Keeps p) : p₀.Keeps (p.onXfer uid f) := h.frame

theorem reshape {x d} (h : p₀.Keeps p) : p₀.Keeps (p.reshape x d) := by
  unfold Part.reshape
  dsimp only
  split
  · exact h.dropReqs.rowFault
  · exact (h.forEach (fun _ _ hq => hq.bump)).frame.hubMark.onXfer

theorem submitRows {x} (h : p₀.Keeps p) : p₀.Keeps (p.submitRows x) := h.frame.onXfer

theorem advanceXfer {uid} (h : p₀.Keeps p) : p₀.Keeps (p.advanceXfer uid) := by
  unfold Part.advanceXfer
  dsimp only
  split
  · exact h
  · exact .ite (.ite h.reshape (.ite h.submitRows h)) h

theorem pumpXfer {uid} (h : p₀.Keeps p) : p₀.Keeps (p.pumpXfer uid) := h.moveDirect.advanceXfer.moveDirect

theorem endXfer {x} (h : p₀.Keeps p) : p₀.Keeps (p.endXfer x) := by
  unfold Part.endXfer
  refine .ite ?_ h.dropReqs.frame.completed
  refine .ite h ?_
  split
  · exact h.dropReqs.frame.coreRowFault
  · exact .ite h.dropReqs.frame.countRead.writePart.rowFault h.dropReqs.frame.countRead.writePart.bell.completed

/-! ### Matrix -/

theorem doMat {c t} (h : p₀.Keeps p) : p₀.Keeps (p.doMat c t) := by
  unfold Part.doMat
  dsimp only
  refine h.orStall fun _ hq => ?_
  split
  · exact hq.rangeViolation
  · refine .ite hq.raiseCore ?_
    split
    · exact hq.rangeViolation
    · exact .ite hq.raiseCore (hq.issued.fresh.onCore.forEach (fun _ _ hq => hq.onCore))

theorem setXs {cores tile xs} (h : p₀.Keeps p) : p₀.Keeps (p.setXs cores tile xs) := h.forEach fun _ _ hq => hq.setBytes
theorem cleanTile {cores tile} (h : p₀.Keeps p) : p₀.Keeps (p.cleanTile cores tile) := h.frame

theorem runTarget {m osr o na nb factors t} (h : p₀.Keeps p) : p₀.Keeps (p.runTarget m osr o na nb factors t) :=
  (Keeps.ite (.ite h h.setXs) (Keeps.ite h h.setXs).cleanTile).forEach fun _ _ hq => hq.onCore

theorem runStep {c m} (h : p₀.Keeps p) : p₀.Keeps (p.runStep c m) := by
  unfold Part.runStep
  dsimp only
  split
  · exact h.onCore.sramFault
  · exact .ite h.onCore.raiseCore (.ite h.onCore.raiseCore (h.onCore.forEach (fun _ _ hq => hq.runTarget)))

/-! ### Epilogue -/

theorem epiFault {p' c m e f} (hf : Part.epiFault p' c m e = some f) (h : p₀.Keeps p) : p₀.Keeps (f p) := by
  unfold Part.epiFault at hf
  dsimp only at hf
  split at hf
  · cases hf; exact h.rangeViolation
  · split at hf
    · cases hf; exact h.sramFault
    · split at hf
      · cases hf; exact h.sramFault
      · obtain ⟨y, -, hy⟩ := List.exists_of_findSome?_eq_some hf
        obtain ⟨x, -, rfl⟩ := Option.map_eq_some_iff.mp hy
        exact h.rowFault

theorem startEpilogue {c} (h : p₀.Keeps p) : p₀.Keeps (p.startEpilogue c) := by
  unfold Part.startEpilogue
  dsimp only
  split
  · split
    · exact h
    · split
      next hf => exact epiFault hf h.onCore
      next => exact h.onCore.onCore
  · exact h

theorem endEpilogue {c} (h : p₀.Keeps p) : p₀.Keeps (p.endEpilogue c) := by
  unfold Part.endEpilogue
  dsimp only
  split
  · exact (h.forEach (fun _ _ hq => hq.setHalf)).onCore.settle
  · exact h

/-! ### Vector -/

theorem setBuf {x b l} (h : p₀.Keeps p) : p₀.Keeps (p.setBuf x b l) := h.setBytes.frame
theorem storeLanes {x prog v} (h : p₀.Keeps p) : p₀.Keeps (p.storeLanes x prog v) := h.onCore.forEach fun _ _ hq => hq.setBuf
theorem doRun {c t} (h : p₀.Keeps p) : p₀.Keeps (p.doRun c t) := h.orStall fun _ hq => hq.issued.fresh.onCore

theorem startRun {c} (h : p₀.Keeps p) : p₀.Keeps (p.startRun c) := by
  unfold Part.startRun
  dsimp only
  split
  · refine .ite h ?_
    split
    · exact (h.onCore.forEach (fun _ _ hq => hq.setRegN)).sramFault
    · split
      · exact (h.onCore.forEach (fun _ _ hq => hq.setRegN)).rowFault
      · exact (h.onCore.forEach (fun _ _ hq => hq.setRegN)).forEach fun _ _ hq => hq.storeLanes
  · exact h

theorem endRun {c} (h : p₀.Keeps p) : p₀.Keeps (p.endRun c) := by
  unfold Part.endRun
  dsimp only
  split
  · exact (h.onCore.forEach (fun _ _ hq => hq.setRegN.bump32)).completed
  · exact h

/-! ### Units -/

theorem issueOp {c t} (h : p₀.Keeps p) : p₀.Keeps (p.issueOp c t) :=
  .ite h.doMat (.ite h.doRun (.ite h.doXfer (.ite h.doLdr
    (.ite h.doStr (.ite h.doMov (.ite h.doTrd (.ite h.doSrd (.ite h.doGath (.ite h.doCinv (.ite h.doSend (.ite h.doSend (.ite h.doRecv h))))))))))))

theorem unstallTh {c t} (h : p₀.Keeps p) : p₀.Keeps (p.unstallTh c t) := by
  unfold Part.unstallTh
  split
  · exact h.queueRecv
  · exact h.onTh.issueOp

theorem unstallF {c n} (h : p₀.Keeps p) : p₀.Keeps (Part.unstallF c n p) := by
  induction n generalizing p with
  | zero => exact h
  | succ n ih =>
    unfold Part.unstallF
    split
    · exact h
    · exact ih h.unstallTh

theorem unstall {c} (h : p₀.Keeps p) : p₀.Keeps (p.unstall c) := h.unstallF

theorem startStep {c} (h : p₀.Keeps p) : p₀.Keeps (p.startStep c) := by
  unfold Part.startStep
  split
  · exact h
  · exact .ite h.runStep h

theorem retireStep {c} (h : p₀.Keeps p) : p₀.Keeps (p.retireStep c) := by
  unfold Part.retireStep
  split
  · exact h
  · exact h.onCore.completed

/-! ### MoveEvents -/

theorem onRoute {c r f} (h : p₀.Keeps p) : p₀.Keeps (p.onRoute c r f) := h.onCore
theorem darkSend {c r task} (h : p₀.Keeps p) : p₀.Keeps (p.darkSend c r task) := .ite h.onRoute.raise h.bump32

theorem takeCredit {c r m} (h : p₀.Keeps p) : p₀.Keeps (p.takeCredit c r m) := by
  unfold Part.takeCredit
  dsimp only
  split
  · exact h.onRoute.frame
  · exact h

theorem countTx {c r} (h : p₀.Keeps p) : p₀.Keeps (p.countTx c r) := h.bump32
theorem spill {c r m} (h : p₀.Keeps p) : p₀.Keeps (p.spill c r m) := .ite h.onRoute.raise h.mergeRow.onRoute.countTx
theorem sendDone {c m} (h : p₀.Keeps p) : p₀.Keeps (p.sendDone c m) := h.onCore.completed

theorem offer {c r m wait} (h : p₀.Keeps p) (hq : p.offer c r m wait = .done q) : p₀.Keeps q := by
  simp only [Part.offer] at hq
  split at hq
  · exact Offer.done.inj hq ▸ h.darkSend
  · split at hq
    · exact Offer.done.inj hq ▸ h.takeCredit.countTx
    · split at hq
      · nomatch hq
      · exact Offer.done.inj hq ▸ h.spill

theorem pumpRoute {c r n} (h : p₀.Keeps p) : p₀.Keeps (Part.pumpRoute c r n p) := by
  induction n generalizing p with
  | zero => exact h
  | succ n ih =>
    unfold Part.pumpRoute
    dsimp only
    split
    · exact .ite h (.ite h.rowFault (ih h.onRoute.takeCredit))
    · split
      · split
        next hq => exact ih (.ite (h.offer hq).sendDone (h.offer hq))
        next => exact h
      · exact h

theorem placeTrouble {p' c code f} (hf : Part.placeTrouble p' c code = some f) (h : p₀.Keeps p) : p₀.Keeps (f p) := by
  unfold Part.placeTrouble at hf
  split at hf
  · cases hf; exact h.rowFault
  · split at hf
    · cases hf; exact h.sramFault
    · obtain ⟨x, -, rfl⟩ := Option.map_eq_some_iff.mp hf
      exact h.rowFault

theorem placesTrouble {p' c f} {α : Type} {l : List α} {code : α → Nat} (hf : l.findSome? (fun i => Part.placeTrouble p' c (code i)) = some f)
    (h : p₀.Keeps p) : p₀.Keeps (f p) := by
  obtain ⟨i, -, hi⟩ := List.exists_of_findSome?_eq_some hf
  exact placeTrouble hi h

theorem unlessTrouble {p' c} {α : Type} {l : List α} {code : α → Nat} (h : p₀.Keeps p) (hq : p₀.Keeps q) :
    p₀.Keeps (match l.findSome? (fun i => Part.placeTrouble p' c (code i)) with | some f => f p | none => q) := by
  split
  next hf => exact placesTrouble hf h
  next => exact hq

theorem begin {c m data rs} (h : p₀.Keeps p) : p₀.Keeps (p.begin c m data rs) := h.onCore.frame.hubMark

theorem startLdr {c m place addr n cached} (h : p₀.Keeps p) : p₀.Keeps (p.startLdr c m place addr n cached) := by
  have hq {d : Prop} [Decidable d] {l f} : p₀.Keeps (if d then p.refill c m.thread l
      else (Machine.forEach l (fun l x => x.lookup c m.thread l) p).onCore c f) :=
    .ite h.refill (h.forEach fun _ _ hr => hr.lookup).onCore
  unfold Part.startLdr
  dsimp only
  refine .ite (.ite (hq.andIf (·.awaitFills)) ?_) h.begin
  split
  · exact hq.rowFault
  · exact hq.begin

theorem startStr {c m place addr n cached} (h : p₀.Keeps p) : p₀.Keeps (p.startStr c m place addr n cached) := by
  unfold Part.startStr
  dsimp only
  split
  · exact h
  · refine h.unlessTrouble (.ite (h.begin.forEach fun _ _ hq => ?_) h.begin)
    split
    · exact hq.setRow
    · exact hq

theorem startGath {c m dst list e0 base n sh} (h : p₀.Keeps p) : p₀.Keeps (p.startGath c m dst list e0 base n sh) := by
  unfold Part.startGath
  dsimp only
  refine .ite h.rowFault ?_
  split
  · exact h.refusedOp
  · exact h.begin

theorem startCinv {c m all line} (h : p₀.Keeps p) : p₀.Keeps (p.startCinv c m all line) := .ite h h.begin.onCore

theorem startSend {c m place slot route wait} (h : p₀.Keeps p) : p₀.Keeps (p.startSend c m place slot route wait) := by
  unfold Part.startSend
  split
  next hf => exact placeTrouble hf h
  next =>
    dsimp only
    split
    next hq => exact .ite (h.begin.offer hq).sendDone (h.begin.offer hq)
    next => exact h.begin.onCore

theorem startRecv {c m q' place} (h : p₀.Keeps p) : p₀.Keeps (p.startRecv c m q' place) := by
  unfold Part.startRecv
  split
  · split
    · exact h
    · exact h.onCore.begin.returnCredit

theorem startMove {c} (h : p₀.Keeps p) : p₀.Keeps (p.startMove c) := by
  unfold Part.startMove
  split
  · exact h
  · split
    · exact h
    · split
      · exact h.startLdr
      · exact h.startStr
      · exact h.unlessTrouble h.begin
      · exact h.unlessTrouble h.begin
      · exact h.unlessTrouble h.begin
      · exact h.startGath
      · exact h.startCinv
      · exact h.startSend
      · exact h.startRecv

theorem writeMove {c m} (h : p₀.Keeps p) : p₀.Keeps (p.writeMove c m) := by
  unfold Part.writeMove
  split
  · exact h.forEach fun _ _ hq => hq.writePart
  · exact h.forEach fun _ _ hq => hq.setPlace

theorem endMove {c uid} (h : p₀.Keeps p) : p₀.Keeps (p.endMove c uid) := by
  unfold Part.endMove
  dsimp only
  split
  · exact h.moveDirect
  · split
    · exact h.moveDirect
    · exact .ite h.moveDirect.writeMove.dropReqs.onCore.completed h.moveDirect

theorem refillWaiting {c} (h : p₀.Keeps p) : p₀.Keeps (p.refillWaiting c) := by
  unfold Part.refillWaiting
  refine h.forEach fun _ _ hq => ?_
  split
  · exact hq.refill
  · exact hq

theorem landFill {c line} (h : p₀.Keeps p) : p₀.Keeps (p.landFill c line) := by
  unfold Part.landFill
  dsimp only
  split
  · exact h
  · split
    · exact h.moveDirect.setRow.onCore.dropReqs.settle.refillWaiting
    · exact h.moveDirect

theorem completeXfer {c uid} (h : p₀.Keeps p) : p₀.Keeps (p.completeXfer c uid) := by
  unfold Part.completeXfer
  dsimp only
  split
  · exact .ite h.pumpXfer.endXfer h.pumpXfer
  · exact h.pumpXfer

/-! ### MemoryEvents -/

theorem failChannel {a} (h : p₀.Keeps p) : p₀.Keeps (p.failChannel a) := .ite h h.orReg.orReg.raise

theorem rowArrived {r a} (h : p₀.Keeps p) : p₀.Keeps (p.rowArrived r a) := by
  have hrow : p₀.Keeps (match p.xferOf r.uid with
      | some x => p.pitRow x a (p.rowAt a) false
      | none => (p, p.rowAt a)).1 := by
    split
    · exact h.pitRow
    · exact h
  exact hrow.deliver.advanceXfer

theorem readRow {addr link ecc} (h : p₀.Keeps p) : p₀.Keeps (p.readRow addr link ecc) := by
  unfold Part.readRow
  dsimp only
  split
  · exact h
  · exact .ite h.reqFault (.ite h.failChannel.reqFault
    (.ite h.countRead.bumpSat.reqFault (.ite h.countRead.bumpSat.bumpSat.raise.rowArrived h.countRead.bumpSat.rowArrived)))

theorem writeTo {addr} (h : p₀.Keeps p) : p₀.Keeps (p.writeTo addr) := by
  unfold Part.writeTo
  dsimp only
  split
  · exact h
  · split
    · exact .ite (Keeps.ite h h.stepDirect.advanceXfer).put (.ite h h.stepDirect.advanceXfer)
    · exact .ite h h.stepDirect.advanceXfer

theorem mergePartial {addr} (h : p₀.Keeps p) : p₀.Keeps (p.mergePartial addr) := by
  unfold Part.mergePartial
  dsimp only
  split
  · exact h
  · exact .ite h.frame.noteDamaged.refuse h.frame.rmw.bell

theorem waited {ch ns} (h : p₀.Keeps p) : p₀.Keeps (p.waited ch ns) := h.setRegN

theorem refreshed {ch rate hot ns} (h : p₀.Keeps p) : p₀.Keeps (p.refreshed ch rate hot ns) :=
  .ite h.setFld.setFld.waited.orReg.raise h.setFld.setFld.waited

theorem retrained {ch ok ns} (h : p₀.Keeps p) : p₀.Keeps (p.retrained ch ok ns) := .ite h.bump32.waited.frame.orReg.orReg.raise h.bump32.waited.frame

theorem forReq {r f} (h : p₀.Keeps p) (hf : ∀ q, p₀.Keeps q → p₀.Keeps (f q)) : p₀.Keeps (p.forReq r f) := by
  unfold Part.forReq
  split
  · exact h.onTheCore fun _ hq => (hf _ hq).unstall
  · exact hf _ h

/-! ### Tasks -/

theorem readOvf {d} (h : p₀.Keeps p) : p₀.Keeps (p.readOvf d) := .ite h.readSpan.noteFault h

theorem letRun {k} (h : p₀.Keeps p) : p₀.Keeps (p.letRun k) := by
  unfold Part.letRun
  split
  · exact h
  · split
    · exact h.onTask
    · exact h.finish
    · exact h.onTask.place

theorem resolved {k} (h : p₀.Keeps p) : p₀.Keeps (p.resolved k) := by
  unfold Part.resolved
  split
  · exact h
  · exact .ite h.finish (.ite h.finish (.ite h.letRun h.onTask))

theorem addTask {t} (h : p₀.Keeps p) : p₀.Keeps (p.addTask t) := (Keeps.ite h.bump h).frame

theorem consume {src} (h : p₀.Keeps p) : p₀.Keeps (p.consume src) := by
  unfold Part.consume
  dsimp only
  split
  · exact h.setRegN.frame
  · exact h

theorem refuseTask {d src code} (h : p₀.Keeps p) : p₀.Keeps (p.refuseTask d src code) := by
  unfold Part.refuseTask
  dsimp only
  split
  · exact h.setRegN.putRecord
  · exact h.setRegN

theorem judge {s} (h : p₀.Keeps p) : p₀.Keeps (p.judge s) := by
  unfold Part.judge
  dsimp only
  split
  · exact .ite h.consume.readOvf.addTask.resolved h.consume.readOvf.addTask
  · exact (Keeps.ite h.consume.readOvf h.consume).refuseTask

theorem takeSubmission {s} (h : p₀.Keeps p) : p₀.Keeps (p.takeSubmission s) := h.frame.judge

theorem submit {a} (h : p₀.Keeps p) : p₀.Keeps (p.submit a) := by
  unfold Part.submit
  dsimp only
  split
  · split
    · exact .ite h.frame.takeSubmission h.frame
    · exact h.frame
  · split
    · exact h.takeSubmission
    · exact h

theorem predResolve {k} (h : p₀.Keeps p) : p₀.Keeps (p.predResolve k) := by
  unfold Part.predResolve
  split
  · exact .ite h.resolved h
  · exact h

theorem stgError {source t addr cause} (h : p₀.Keeps p) : p₀.Keeps (p.stgError source t addr cause) := h.raise

theorem predRead {k} (h : p₀.Keeps p) : p₀.Keeps (p.predRead k) := by
  unfold Part.predRead
  split
  · exact h
  · split
    · exact h
    · dsimp only
      split
      next hx => exact (h.onTask.readSpan.of_fst hx).noteFault.stgError
      next hx => exact .ite (h.onTask.readSpan.of_fst hx).letRun (h.onTask.readSpan.of_fst hx).finish

theorem fanHold {k} (h : p₀.Keeps p) : p₀.Keeps (p.fanHold k) := by
  unfold Part.fanHold
  dsimp only
  split
  · exact h
  · exact .ite h.onTask.finish h.onTask

theorem fanRead {k} (h : p₀.Keeps p) : p₀.Keeps (p.fanRead k) := by
  unfold Part.fanRead
  dsimp only
  split
  · exact h
  · exact .ite h (.ite h.readSpan.noteFault.stgError (.ite h.readSpan.onTask.fanHold h.readSpan.onTask))

theorem fanChild {k} (h : p₀.Keeps p) : p₀.Keeps (p.fanChild k) := by
  unfold Part.fanChild
  dsimp only
  split
  · exact h
  · split
    · exact h
    · exact .ite h (.ite h.onTask.addTask.place.fanHold h.onTask.addTask.place)

theorem endTick (h : p₀.Keeps p) : p₀.Keeps p.endTick := ((h.forEach (fun _ _ hq => hq.accrue)).forEach (fun _ _ hq => hq.setRegN)).frame
theorem shareTick (h : p₀.Keeps p) : p₀.Keeps p.shareTick := .ite h.endTick h

/-! ### HostIo -/

theorem readEntries {i k n} (h : p₀.Keeps p) : p₀.Keeps (p.readEntries i k n) := .ite (.ite h h.emit) (Keeps.ite h h.emit).emit
theorem sqDoorbell {port i v} (h : p₀.Keeps p) : p₀.Keeps (p.sqDoorbell port i v) := .ite h (.ite h.refuse (.ite h.event h.onRing.readEntries))

theorem ringRead {i entries} (h : p₀.Keeps p) : p₀.Keeps (p.ringRead i entries) := by
  unfold Part.ringRead
  dsimp only
  refine .ite h ?_
  split
  · exact h.setFld.event
  · exact h.frame

theorem cqDoorbell {port i v} (h : p₀.Keeps p) : p₀.Keeps (p.cqDoorbell port i v) := .ite h (.ite h.refuse h.onRing.flushHeld)

theorem cqTimeout {i} (h : p₀.Keeps p) : p₀.Keeps (p.cqTimeout i) := by
  unfold Part.cqTimeout
  dsimp only
  split
  · exact .ite h.signalRing h
  · exact h

theorem dropHeld {i} (h : p₀.Keeps p) : p₀.Keeps (p.dropHeld i) := h.onRing.forEach fun _ _ hq => hq.loseRecord
theorem writeMsix {port i v} (h : p₀.Keeps p) : p₀.Keeps (p.writeMsix port i v) := .ite h.setMsixDword.frame.signal h.setMsixDword

theorem bar4Write {port off v} (h : p₀.Keeps p) : p₀.Keeps (p.bar4Write port off v) :=
  .ite h (.ite (.ite h.sqDoorbell (.ite h.cqDoorbell h.refuse)) (.ite (.ite h.writeMsix h.refuse) (.ite h h.refuse)))

theorem flr {port} (h : p₀.Keeps p) : p₀.Keeps (p.flr port) :=
  .ite h ((h.forEach (fun _ _ hq => .ite hq.setFld hq)).forEach (fun _ _ hq => .ite hq.setFld.dropHeld hq)).setReg.frame

theorem noteFailed {ps} (h : p₀.Keeps p) : p₀.Keeps (p.noteFailed ps) := h.forEach fun _ _ hq => hq.noteDamaged
theorem drainRow {a} (h : p₀.Keeps p) : p₀.Keeps (p.drainRow a) := h.forEach fun _ _ hq => hq.mergePartial

theorem bar2Put {port a l} (h : p₀.Keeps p) : p₀.Keeps (p.bar2Put port a l) := by
  unfold Part.bar2Put
  dsimp only
  split
  · exact .ite h.drainRow.writeRow.bell h.frame
  · exact .ite h.drainRow.writeRow.bell h.frame
  · exact .ite h.writeRow h.rmw
  · exact h.viewPut
  · exact h

theorem bar2Get {x : Part × List Byte × Bool} {y} (h : p₀.Keeps x.1) : p₀.Keeps (Part.bar2Get x y).1 := by
  unfold Part.bar2Get
  dsimp only
  split
  · exact h.drainRow.countRead.noteDamaged.raise
  · exact h.drainRow.countRead

theorem bar2 {port off acc} (h : p₀.Keeps p) : p₀.Keeps (p.bar2 port off acc) := by
  cases acc with
  | read n =>
    exact .ite h (.ite h.noteFailed.refuse.emit (.ite h.holdView (foldlFst h fun _ _ hx => hx.bar2Get).emit))
  | write l =>
    exact .ite h (.ite h.noteFailed.refuse (.ite h.holdView (h.forEach fun _ _ hq => hq.bar2Put)))

/-! ### Clock -/

theorem setNow {v} (h : p₀.Keeps p) : p₀.Keeps (p.setNow v) := h.frame
theorem tick (h : p₀.Keeps p) : p₀.Keeps p.tick := .ite h (.ite h.frame.setRegN h.frame)
theorem correct {e} (h : p₀.Keeps p) : p₀.Keeps (p.correct e) := .ite h.setRegN.frame.setRegN.setNow.orReg h.setRegN.frame.setRegN

theorem pps (h : p₀.Keeps p) : p₀.Keeps p.pps := by
  unfold Part.pps
  dsimp only
  split
  · exact h
  · exact .ite h.frame.setReg.andNotReg.correct h.frame.setReg

theorem holdOver (h : p₀.Keeps p) : p₀.Keeps p.holdOver := .ite h.orReg (.ite h.orReg h)

theorem parentTime {e} (h : p₀.Keeps p) : p₀.Keeps (p.parentTime e) := by
  unfold Part.parentTime
  dsimp only
  split
  · exact h.frame.andNotReg.correct
  · exact h.frame.andNotReg

theorem timSet {v} (h : p₀.Keeps p) : p₀.Keeps (p.timSet v) := .ite h.orReg h.setNow

/-! ### Links -/

theorem onPort {n f} (h : p₀.Keeps p) : p₀.Keeps (p.onPort n f) := h.frame
theorem sendFlit {n kind seq fvc payload} (h : p₀.Keeps p) : p₀.Keeps (p.sendFlit n kind seq fvc payload) := h.onPort.emit

theorem freed {k} (h : p₀.Keeps p) : p₀.Keeps (p.freed k) := by
  unfold Part.freed
  dsimp only
  split
  · exact h
  · exact .ite h.onPort.sendFlit h.onPort

theorem pumpPort {n f} (h : p₀.Keeps p) : p₀.Keeps (Part.pumpPort n f p) := by
  induction f generalizing p with
  | zero => exact h
  | succ f ih =>
    unfold Part.pumpPort
    dsimp only
    split
    · exact h
    · split
      · exact h
      · exact ih h.onPort.sendFlit.bump48.bump

theorem pump {n} (h : p₀.Keeps p) : p₀.Keeps (p.pump n) := h.pumpPort
theorem markDepth {n v} (h : p₀.Keeps p) : p₀.Keeps (p.markDepth n v) := .ite h.setFld h
theorem portSend {n v k} (h : p₀.Keeps p) : p₀.Keeps (p.portSend n v k) := h.onPort.markDepth.pump
theorem sendCurt {n type c gen} (h : p₀.Keeps p) : p₀.Keeps (p.sendCurt n type c gen) := h.portSend

/-! ### Curtains -/

theorem onNode {cl c f} (h : p₀.Keeps p) : p₀.Keeps (p.onNode cl c f) := h.onCluster
theorem onRNode {anchor c f} (h : p₀.Keeps p) : p₀.Keeps (p.onRNode anchor c f) := h.onReplica
theorem onPCurt {k f} (h : p₀.Keeps p) : p₀.Keeps (p.onPCurt k f) := h.frame
theorem arrive {c t cur wait} (h : p₀.Keeps p) : p₀.Keeps (p.arrive c t cur wait) := .ite h.onTh h.setCore.onNode.onTh
theorem doCurt {c t} (h : p₀.Keeps p) : p₀.Keeps (p.doCurt c t) := h.issued.arrive

theorem releaseCore {c cur notify} (h : p₀.Keeps p) : p₀.Keeps (p.releaseCore c cur notify) := by
  unfold Part.releaseCore
  dsimp only
  refine .ite h ?_
  refine (Keeps.ite h.onCore.onCore h.onCore.addCounter).forEach fun _ _ hq => ?_
  split
  · exact .ite hq.arrive hq
  · exact hq

theorem releaseCluster {cl cur notify} (h : p₀.Keeps p) : p₀.Keeps (p.releaseCluster cl cur notify) :=
  h.onNode.forEach fun _ _ hq => hq.onTheCore (fun _ hr => hr.releaseCore)

theorem releaseReplica {r cur notify} (h : p₀.Keeps p) : p₀.Keeps (p.releaseReplica r cur notify) :=
  (h.onRNode.forEach (fun _ _ hq => hq.onNode)).forEach fun _ _ hq => hq.onTheCore (fun _ hr => hr.releaseCore)

theorem releasePackage {k} (h : p₀.Keeps p) : p₀.Keeps (p.releasePackage k) :=
  (Keeps.ite (h.onPCurt.forEach (fun _ _ hq => hq.sendCurt)) h.onPCurt).forEach fun _ _ hq => hq.forEach (fun _ _ hr => hr.releaseReplica)

theorem packageStep {k} (h : p₀.Keeps p) : p₀.Keeps (p.packageStep k) := .ite h (.ite (.ite h h.onPCurt.sendCurt) h.releasePackage)

theorem curtainStep {a} (h : p₀.Keeps p) : p₀.Keeps (p.curtainStep a) := by
  unfold Part.curtainStep
  dsimp only
  split
  · split
    · exact h
    · exact .ite h (.ite h.releaseCluster h.onRNode)
  · split
    · exact h
    · refine .ite h ?_
      refine .ite h.releaseReplica ?_
      refine .ite h ?_
      split
      · exact h.onPCurt
      · exact h
  · exact h.packageStep

theorem curtTimeout {k} (h : p₀.Keeps p) : p₀.Keeps (p.curtTimeout k) := by
  unfold Part.curtTimeout
  dsimp only
  split
  · exact .ite h (h.bumpSat.onPCurt.forEach (fun _ _ hq => hq.raise))
  · exact h

theorem remoteAdd {c} (h : p₀.Keeps p) : p₀.Keeps (p.remoteAdd c) := by
  unfold Part.remoteAdd
  dsimp only
  split
  · exact h.frame.addCounter
  · exact h

theorem forwarded {cl} (h : p₀.Keeps p) : p₀.Keeps (p.forwarded cl) := by
  unfold Part.forwarded
  dsimp only
  split
  · exact h.frame.fireWire
  · exact h

theorem cueEdge {i} (h : p₀.Keeps p) : p₀.Keeps (p.cueEdge i) := by
  unfold Part.cueEdge
  dsimp only
  split
  · exact h
  · exact .ite h (h.frame.setReg.bump.forEach (fun _ _ hq => hq.onCore))

/-! ### Ports -/

theorem showPort {n} (h : p₀.Keeps p) : p₀.Keeps (p.showPort n) := h.setRegN
theorem inject {e vc k} (h : p₀.Keeps p) : p₀.Keeps (p.inject e vc k) := h.frame
theorem resend {c u} (h : p₀.Keeps p) : p₀.Keeps (p.resend c u) := (h.forEach (fun _ _ hq => hq.inject)).frame

theorem writeWord {a v owner} (h : p₀.Keeps p) : p₀.Keeps (p.writeWord a v owner) := by
  -- Opened as a function, not applied: applied, the kernel would compute its addresses out.
  generalize hf : Part.writeWord = f
  delta Part.writeWord at hf
  subst hf
  beta_reduce
  split
  · exact h.rmw.bell
  · exact h.rowFault

theorem dropDesc {num} (h : p₀.Keeps p) : p₀.Keeps (p.dropDesc num) := h.frame

theorem failDesc {d status damaged} (h : p₀.Keeps p) : p₀.Keeps (p.failDesc d status damaged) := by
  unfold Part.failDesc
  dsimp only
  split
  · exact h.dropDesc.noteFault.raise
  · exact .ite h.dropDesc.noteFault.setFld.orReg.setRegN.raise.writeWord h.dropDesc.noteFault.setFld.orReg.setRegN.raise

theorem loseCircuit {c} (h : p₀.Keeps p) : p₀.Keeps (p.loseCircuit c) := by
  unfold Part.loseCircuit
  dsimp only
  refine .ite h ?_
  refine .ite h ?_
  split
  · exact h.frame.resend.orReg.raise
  · exact (h.orReg.forEach (fun _ _ hq => hq.failDesc)).raise

theorem loosen {n} (h : p₀.Keeps p) : p₀.Keeps (p.loosen n) := h.frame
theorem breakAt {n c} (h : p₀.Keeps p) : p₀.Keeps (p.breakAt n c) := .ite h.loseCircuit (.ite h h.inject)

theorem takeDown {n cause} (h : p₀.Keeps p) : p₀.Keeps (p.takeDown n cause) :=
  h.loosen.onPort.markDepth.showPort.orReg.raise.forEach fun _ _ hq => hq.breakAt

theorem goDown {n cause} (h : p₀.Keeps p) : p₀.Keeps (p.goDown n cause) := .ite h.takeDown h
theorem trained {n ok} (h : p₀.Keeps p) : p₀.Keeps (p.trained n ok) := .ite h (.ite h.onPort.showPort.pump h.onPort.showPort)

theorem fecCount {n fec} (h : p₀.Keeps p) : p₀.Keeps (p.fecCount n fec) := by
  unfold Part.fecCount
  split <;> exact h.bump

theorem sendNak {n} (h : p₀.Keeps p) : p₀.Keeps (p.sendNak n) := h.sendFlit
theorem sendIdle {n} (h : p₀.Keeps p) : p₀.Keeps (p.sendIdle n) := h.sendFlit

theorem receive {n b fec kind f} (h : p₀.Keeps p) (hf : ∀ a0 q, p₀.Keeps q → p₀.Keeps (f a0 q)) : p₀.Keeps (p.receive n b fec kind f) :=
  .ite h (.ite h.fecCount.sendNak (.ite h (hf _ _ h.fecCount.onPort)))

theorem discard {k} (h : p₀.Keeps p) : p₀.Keeps (p.discard k) := by
  unfold Part.discard
  split
  · exact h
  · exact h.onPort

theorem packetIn {n v k} (h : p₀.Keeps p) : p₀.Keeps (p.packetIn n v k) :=
  .ite h.bump48.bump.discard.bumpSat (.ite h.bump48.bump.onPort (.ite h.bump48.bump.discard.bumpSat h.bump48.bump.frame))

theorem ackFlit {n} (h : p₀.Keeps p) : p₀.Keeps (p.ackFlit n) := .ite h.pump.sendIdle h.pump
theorem dataIn {n fl} (h : p₀.Keeps p) : p₀.Keeps (p.dataIn n fl) := .ite h.pump (h.onPort.forEach (fun _ _ hq => hq.packetIn)).ackFlit
theorem replayAll {n} (h : p₀.Keeps p) : p₀.Keeps (p.replayAll n) := .ite h.pump (h.forEach (fun _ _ hq => hq.sendFlit)).bump.onPort.pump
theorem timeIn {n fl} (h : p₀.Keeps p) : p₀.Keeps (p.timeIn n fl) := (Keeps.ite h.onPort.parentTime h.onPort).pump
theorem timeOut {n} (h : p₀.Keeps p) : p₀.Keeps (p.timeOut n) := .ite h.sendFlit h

theorem forward {e} (h : p₀.Keeps p) : p₀.Keeps (p.forward e) := by
  unfold Part.forward
  dsimp only
  split
  · exact h
  · split
    · exact h.frame.frame
    · exact h.frame.freed.bumpSat
    · exact h.frame.frame
    · exact h.frame.freed.portSend
    · exact h

theorem escape {e i} (h : p₀.Keeps p) : p₀.Keeps (p.escape e i) := by
  unfold Part.escape
  dsimp only
  split
  · exact h
  · exact .ite h h.frame

theorem takeCurt {n type c g} (h : p₀.Keeps p) (hq : p.takeCurt n type = some (c, g, q)) : p₀.Keeps q := by
  obtain ⟨k, -, hk⟩ := Option.map_eq_some_iff.mp hq
  cases hk
  exact h.onPort.freed

theorem mismatch {c} (h : p₀.Keeps p) : p₀.Keeps (p.mismatch c) := h.bumpSat

theorem curtArrived {n} (h : p₀.Keeps p) : p₀.Keeps (p.curtArrived n) := by
  unfold Part.curtArrived
  split
  next => exact h
  next hq => exact .ite (h.takeCurt hq).mismatch (.ite (h.takeCurt hq).onPCurt (h.takeCurt hq))

theorem curtReleased {n} (h : p₀.Keeps p) : p₀.Keeps (p.curtReleased n) := by
  unfold Part.curtReleased
  split
  next => exact h
  next hq => exact .ite (h.takeCurt hq).mismatch (.ite (h.takeCurt hq).releasePackage (h.takeCurt hq))

/-! ### FabricNi -/

theorem fdDone {d} (h : p₀.Keeps p) : p₀.Keeps (p.fdDone d) := .ite h.dropDesc.bump.writeWord h.dropDesc.bump

theorem fdCheck {num} (h : p₀.Keeps p) : p₀.Keeps (p.fdCheck num) := by
  unfold Part.fdCheck
  split
  · exact .ite h.fdDone h
  · exact h

theorem onDesc {num f} (h : p₀.Keeps p) : p₀.Keeps (p.onDesc num f) := h.frame

theorem sendPacket {d r n dst fence} (h : p₀.Keeps p) : p₀.Keeps (p.sendPacket d r n dst fence) := by
  have hread : p₀.Keeps (if fdKind d.bytes = 0 ∨ fdKind d.bytes = 2 then p.readSpan (fdLocal d.bytes + 512 * r) (512 * n) else (p, none)).1 := by
    split
    · exact h.readSpan
    · exact h
  unfold Part.sendPacket
  dsimp only
  split
  · exact hread.failDesc
  · exact hread.failDesc
  · split
    · exact hread.failDesc
    · exact hread.onDesc.inject.frame

theorem trySend {d} (h : p₀.Keeps p) : p₀.KeepsAny (p.trySend d) := by
  unfold Part.trySend
  split
  · exact .none
  · refine .ite .none (.ite (.some h.onDesc.fdCheck) ?_)
    split
    · exact .some h.failDesc
    · exact .some h.sendPacket

theorem niPump {n} (h : p₀.Keeps p) : p₀.Keeps (Part.niPump n p) := by
  induction n generalizing p with
  | zero => exact h
  | succ n ih =>
    unfold Part.niPump
    split
    next q hq =>
      obtain ⟨d, -, hd⟩ := List.exists_of_findSome?_eq_some hq
      exact ih (h.trySend q hd)
    next => exact h

theorem ni (h : p₀.Keeps p) : p₀.Keeps p.ni := h.niPump

theorem ringQueue {q'} (h : p₀.Keeps p) : p₀.Keeps (p.ringQueue q') := by
  unfold Part.ringQueue
  dsimp only
  split
  · exact h
  · exact h.frame

theorem skipDropped {i n} (h : p₀.Keeps p) : p₀.Keeps (Part.skipDropped i n p) := by
  induction n generalizing p with
  | zero => exact h
  | succ n ih => exact .ite (ih h.frame.setRegN) h

theorem readSpanIf {c : Bool} {x : Part × Option RowFault} {a n} (h : p₀.Keeps x.1) :
    p₀.Keeps (if c then x.1.readSpan a n else (x.1, none)).1 := by
  split
  · exact h.readSpan
  · exact h

theorem startDesc {i} (h : p₀.Keeps p) : p₀.Keeps (p.startDesc i) := by
  have hi : p₀.Keeps (Part.skipDropped i 65536 p) := h.skipDropped
  have hr {o v a n x} : p₀.Keeps (({ Part.skipDropped i 65536 p with fab := x }.setRegN o v).readSpan a n).1 := hi.frame.setRegN.readSpan
  exact .ite hi (.ite hr.noteFault.orReg.raise (.ite hr.readSpanIf.frame.noteFault.failDesc hr.readSpanIf.frame.ni))

theorem take {e type x} (h : p₀.Keeps p) (hx : p.take e type = some x) : p₀.Keeps x.2 := by
  obtain ⟨y, -, rfl⟩ := Option.map_eq_some_iff.mp hx
  exact h.frame.freed

theorem answer {e h' type status rows n} (h : p₀.Keeps p) : p₀.Keeps (p.answer e h' type status rows n) := .ite h h.inject
theorem markSeen {h'} (h : p₀.Keeps p) : p₀.Keeps (p.markSeen h') := .ite h.frame h

theorem serve {e type ok f} (h : p₀.Keeps p) (hf : ∀ q k, p₀.Keeps q → p₀.Keeps (f q k).1) : p₀.Keeps (p.serve e type ok f) := by
  unfold Part.serve
  split
  next => exact h
  next hx =>
    have hq := h.take hx
    exact .ite hq.answer (.ite hq.markSeen.answer (.ite hq.markSeen.answer (.ite hq.markSeen.answer (hf _ _ hq.markSeen).answer)))

theorem homeDamaged {a} (h : p₀.Keeps p) : p₀.Keeps (p.homeDamaged a) := h.noteDamaged.raise

theorem doPut {k} (h : p₀.Keeps p) : p₀.Keeps (p.doPut k).1 := by
  refine foldlFst h fun x i hx => ?_
  dsimp only
  split
  · exact hx.noteDamaged
  · exact hx.writeRow.bell

theorem doSignal {add k} (h : p₀.Keeps p) : p₀.Keeps (p.doSignal add k).1 := by
  unfold Part.doSignal
  dsimp only
  split
  · exact h.noteDamaged
  · exact h.rmw.bell

theorem doRed {k} (h : p₀.Keeps p) : p₀.Keeps (p.doRed k).1 := by
  refine foldlFst h fun x i hx => ?_
  dsimp only
  split
  · exact hx.noteDamaged
  · split
    · exact hx.countRead.homeDamaged
    · exact hx.countRead.writeRow.bell

theorem serveGet {e} (h : p₀.Keeps p) : p₀.Keeps (p.serveGet e) := by
  unfold Part.serveGet
  split
  next => exact h
  next k p1 hx =>
    have hq : p₀.Keeps (if p1.repeated k.hdr then p1 else p1.markSeen k.hdr) := .ite (h.take hx) (h.take hx).markSeen
    refine .ite hq.bumpSat (.ite hq.answer (.ite hq.answer ?_))
    split
    next hr => exact (hq.readSpan.of_fst hr).homeDamaged.answer
    next hr => exact (hq.readSpan.of_fst hr).answer
    next hr => exact (hq.readSpan.of_fst hr).answer

theorem dropUnacked {u} (h : p₀.Keeps p) : p₀.Keeps (p.dropUnacked u) := h.frame

theorem settleAck {u status} (h : p₀.Keeps p) : p₀.Keeps (p.settleAck u status) := by
  unfold Part.settleAck
  dsimp only
  split
  · exact h.dropUnacked.ni
  · exact (Keeps.ite h.dropUnacked.fdCheck h.dropUnacked.failDesc).ni

theorem ackIn {e} (h : p₀.Keeps p) : p₀.Keeps (p.ackIn e) := by
  unfold Part.ackIn
  split
  next => exact h
  next hx =>
    split
    · exact (h.take hx).settleAck
    · exact h.take hx

theorem getIn {e} (h : p₀.Keeps p) : p₀.Keeps (p.getIn e) := by
  unfold Part.getIn
  split
  next => exact h
  next hx =>
    have hq := h.take hx
    dsimp only at hq ⊢
    split
    · exact hq
    · refine .ite hq.settleAck (.ite hq.settleAck ?_)
      split
      · exact hq.noteFault.settleAck
      · exact (hq.forEach fun _ _ hr => hr.writeRow.bell).settleAck

theorem breakIn {e} (h : p₀.Keeps p) : p₀.Keeps (p.breakIn e) := by
  unfold Part.breakIn
  split
  next => exact h
  next hx => exact (h.take hx).loseCircuit.ni

theorem ackLate {e i} (h : p₀.Keeps p) : p₀.Keeps (p.ackLate e i) := by
  unfold Part.ackLate
  split
  · exact h
  · refine .ite h ?_
    split
    · exact h.failDesc.ni
    · exact h.dropUnacked

/-! ### Channels -/

theorem dropMsg {c q'} (h : p₀.Keeps p) : p₀.Keeps (p.dropMsg c q') := h.bump32

theorem arriveMsg {c q'} (h : p₀.Keeps p) : p₀.Keeps (p.arriveMsg c q') := by
  unfold Part.arriveMsg
  dsimp only
  split
  · exact .ite h.frame.darkSend (.ite h.frame.dropMsg.returnCredit (.ite h h.frame.onCore.bump32.settle))
  · exact h

theorem creditBack {c r} (h : p₀.Keeps p) : p₀.Keeps (p.creditBack c r) := (Keeps.ite h.frame.onRoute h).pumpRoute

theorem watchdog {c t} (h : p₀.Keeps p) : p₀.Keeps (p.watchdog c t) := by
  unfold Part.watchdog
  split
  · exact h.onRoute.raiseCore
  · exact h

theorem dispatchOne {c q'} (h : p₀.Keeps p) : p₀.Keeps (Part.dispatchOne c q' p) := by
  unfold Part.dispatchOne
  split
  · refine .ite ?_ h
    split
    · exact h.onCore.onTh
    · exact h

theorem dispatch {c} (h : p₀.Keeps p) : p₀.Keeps (p.dispatch c) := .ite (h.forEach (fun _ _ hq => hq.dispatchOne)) h

/-! ### Starts -/

theorem takeTask {r t how} (h : p₀.Keeps p) : p₀.Keeps (p.takeTask r t how) := by
  unfold Part.takeTask
  dsimp only
  refine .onReplica (.onTask ?_)
  split
  case' h_1 | h_2 => refine .bump ?_
  all_goals
    split
    · exact Keeps.unboard (.ite h h.bump)
    · exact h

theorem startCore {c sh ptrs} (h : p₀.Keeps p) : p₀.Keeps (p.startCore c sh ptrs) := h.onCore
theorem startCurtains {r} (h : p₀.Keeps p) : p₀.Keeps (p.startCurtains r) := (h.forEach (fun _ _ hq => hq.onCluster)).onReplica

theorem startFresh {r t} (h : p₀.Keeps p) : p₀.Keeps (p.startFresh r t) := by
  unfold Part.startFresh
  dsimp only
  split
  · exact h.onTask.onReplica.rowFault
  · have hq {c : Prop} [Decidable c] {o f a g s} : p₀.Keeps (if c then (p.onTask o f).onReplica a g
        else ((p.onTask o f).onReplica a g).countRead s) :=
      .ite h.onTask.onReplica h.onTask.onReplica.countRead
    exact .ite hq.raise ((hq.startCurtains.forEach fun _ _ hr => hr.startCore).forEach fun _ _ hr => hr.dispatch)

theorem askRestore {r} (h : p₀.Keeps p) : p₀.Keeps (p.askRestore r) := h.onReplica.frame

theorem startOn {anchor} (h : p₀.Keeps p) : p₀.Keeps (p.startOn anchor) := by
  unfold Part.startOn
  dsimp only
  split
  · exact h
  · refine .ite h ?_
    split
    · exact h
    · exact (Keeps.ite h.takeTask.askRestore h.takeTask.startFresh).place

theorem freeReplica {anchor} (h : p₀.Keeps p) : p₀.Keeps (p.freeReplica anchor) := h.onReplica.frame

theorem completeOn {anchor} (h : p₀.Keeps p) : p₀.Keeps (p.completeOn anchor) := by
  unfold Part.completeOn
  split
  · exact h
  · split
    · exact h
    · exact .ite h.accrue.freeReplica.finish.place h

theorem askPreempt {anchor claim} (h : p₀.Keeps p) : p₀.Keeps (p.askPreempt anchor claim) := by
  unfold Part.askPreempt
  dsimp only
  split
  · exact h
  · refine .ite h ?_
    refine .frame ?_
    split
    · exact h.onReplica.onTask
    · exact h.onReplica

theorem withdraw {r} (h : p₀.Keeps p) : p₀.Keeps (p.withdraw r) := by
  unfold Part.withdraw
  dsimp only
  refine .frame ?_
  refine .onReplica ?_
  split
  · exact (h.forEach (fun _ _ hq => hq.onCore)).onTask
  · exact h.forEach fun _ _ hq => hq.onCore

theorem lapse {anchor} (h : p₀.Keeps p) : p₀.Keeps (p.lapse anchor) := by
  unfold Part.lapse
  dsimp only
  split
  · exact h
  · split
    · exact h
    · exact .ite h h.withdraw.bump

theorem unqueue {anchor} (h : p₀.Keeps p) : p₀.Keeps (p.unqueue anchor) := h.frame

theorem saveBegin {anchor} (h : p₀.Keeps p) : p₀.Keeps (p.saveBegin anchor) := by
  -- Opened as a function, not applied: applied, the kernel would compute its addresses out.
  generalize hf : Part.saveBegin = f
  obtain ⟨gran, hg⟩ : ∃ g, g = granules := ⟨_, rfl⟩
  delta Part.saveBegin at hf
  rw [← hg] at hf
  subst hf
  dsimp only
  split
  · exact h
  · refine .ite h ?_
    split
    · exact h
    · split
      · exact h.withdraw.bump
      · exact h.unqueue.onReplica.onTask.frame

theorem saveRow {a row good} (h : p₀.Keeps p) : p₀.Keeps (p.saveRow a row good) := h.writeRow

theorem saveCore {uid off c k a} (h : p₀.Keeps p) : p₀.Keeps (p.saveCore uid off c k a) :=
  ((h.forEach (fun _ _ hq => hq.saveRow)).forEach (fun _ _ hq => hq.saveRow)).forEach fun _ _ hq => hq.saveRow

theorem saveSection {uid base i cl rows ks} (h : p₀.Keeps p) : p₀.Keeps (p.saveSection uid base i cl rows ks) :=
  ((h.forEach (fun _ _ hq => hq.saveCore)).forEach (fun _ _ hq => hq.saveRow)).forEach fun _ _ hq => hq.saveRow

theorem psingoDrops {c} (h : p₀.Keeps p) : p₀.Keeps (p.psingoDrops c) := by
  unfold Part.psingoDrops
  dsimp only
  refine (h.forEach (fun _ _ hq => hq.bump32)).forEach fun _ _ hq => ?_
  split
  · exact hq.bump32
  · exact hq

theorem saveAll {r t d g} (h : p₀.Keeps p) : p₀.Keeps (p.saveAll r t d g) := by
  have hq {c : Prop} [Decidable c] {l : List Nat} {f : Core → Core} :
      p₀.Keeps (if c then Machine.forEach l (fun c x => (x.psingoDrops c).onCore c f) p else p) :=
    h.andIf fun _ => h.forEach fun _ _ hr => hr.psingoDrops.onCore
  exact (((((hq.andIf fun _ => (hq.forEach fun _ _ hr => hr.onCluster).onReplica).fresh.forEach fun _ _ hr => hr.saveRow).forEach
    fun _ _ hr => hr.saveSection).forEach fun _ _ hr => hr.onCore)).frame

theorem areaLost {k a} (h : p₀.Keeps p) : p₀.Keeps (p.areaLost k a) := h.noteDamaged.raise

theorem saveComplete {anchor} (h : p₀.Keeps p) : p₀.Keeps (p.saveComplete anchor) := by
  -- Opened as a function, not applied: applied, the kernel would compute its addresses out.
  generalize hf : Part.saveComplete = f
  obtain ⟨lost, hl⟩ : ∃ l, l = Part.lost := ⟨_, rfl⟩
  delta Part.saveComplete at hf
  rw [← hl] at hf
  subst hf
  dsimp only
  split
  · exact h
  · refine .ite h ?_
    split
    · exact h
    · split
      · exact h
      · split
        · exact h.rowFault
        · exact h.areaLost
        · exact Keeps.place (.ite h.accrue.saveAll.bump.freeReplica.onTask.finish h.accrue.saveAll.bump.freeReplica.onTask)

theorem restoreBegin {anchor} (h : p₀.Keeps p) : p₀.Keeps (p.restoreBegin anchor) := by
  unfold Part.restoreBegin
  split
  · exact h
  · split
    · exact h
    · exact .ite h h.unqueue.onTask

theorem restoreCore {c a sv} (h : p₀.Keeps p) : p₀.Keeps (p.restoreCore c a sv) := h.onCore

theorem resumeCore {c psingo} (h : p₀.Keeps p) : p₀.Keeps (p.resumeCore c psingo) := by
  unfold Part.resumeCore
  dsimp only
  refine .ite ?_ h.onCore
  refine h.onCore.forEach fun _ _ hq => ?_
  split
  · exact hq.arrive
  · exact hq.arrive
  · exact hq

theorem missedReleases {r sv} (h : p₀.Keeps p) : p₀.Keeps (p.missedReleases r sv) :=
  h.forEach (fun _ _ hq => .ite (hq.onRNode.forEach (fun _ _ hr => hr.onNode)).releaseReplica hq)

theorem restoreAll {r t sv base rows} (h : p₀.Keeps p) : p₀.Keeps (p.restoreAll r t sv base rows) := by
  unfold Part.restoreAll
  refine .forEach (.ite (.startCurtains (.onReplica (.forEach ?_ fun _ _ hq => hq.onCluster)))
    (.missedReleases (.onReplica (.forEach ?_ fun _ _ hq => hq.onCluster)))) fun _ _ hq => hq.resumeCore
  all_goals
    refine (h.forEach fun _ _ hq => hq.writeRow).forEach fun _ _ hq => ?_
    split
    exact hq.restoreCore

theorem restoreComplete {anchor} (h : p₀.Keeps p) : p₀.Keeps (p.restoreComplete anchor) := by
  have hq {l : List Nat} {a : Nat → Nat} : p₀.Keeps (Machine.forEach l (fun o x => x.countRead (a o)) p) := h.forEach fun _ _ hr => hr.countRead
  -- Opened as a function, not applied: applied, the kernel would compute its addresses out.
  generalize hf : Part.restoreComplete = f
  obtain ⟨lost, hl⟩ : ∃ l, l = Part.lost := ⟨_, rfl⟩
  obtain ⟨fault, hr⟩ : ∃ r, r = Part.readFault := ⟨_, rfl⟩
  delta Part.restoreComplete at hf
  rw [← hl, ← hr] at hf
  subst hf
  dsimp only
  split
  · exact h
  · refine .ite h ?_
    split
    · exact h
    · split
      · split
        · exact hq.areaLost
        · exact hq.noteDamaged.raise
        · exact hq.restoreAll.onReplica.freeSave.forEach fun _ _ hr => hr.settle.dispatch
      · exact h

/-! ### Pace -/

theorem monitor {d i loops temp} (h : p₀.Keeps p) : p₀.Keeps (p.monitor d i loops temp) := h.setFld.setFld.setFld

theorem showBay {d i loops temp} (h : p₀.Keeps p) : p₀.Keeps (p.showBay d i loops temp) := by
  unfold Part.showBay
  split
  · exact h.setFld.setFld
  · exact h.monitor

theorem onRail {d f} (h : p₀.Keeps p) : p₀.Keeps (p.onRail d f) := h.frame

theorem monitorWindow {d loops temps} (h : p₀.Keeps p) : p₀.Keeps (p.monitorWindow d loops temps) :=
  .ite h (h.forEach (fun _ _ hq => hq.showBay)).setFld.setRegN.onRail

theorem paceError {d} (h : p₀.Keeps p) : p₀.Keeps (p.paceError d) := h.raise
theorem calibrate {d loops} (h : p₀.Keeps p) : p₀.Keeps (p.calibrate d loops) := .ite h (.ite h.onRail (h.onRail.forEach (fun _ _ hq => hq.setFld)))
theorem overruns {d} (h : p₀.Keeps p) : p₀.Keeps (p.overruns d) := h.forEach fun _ _ hq => hq.onTask.bump

theorem deadlinePreempts {d} (h : p₀.Keeps p) : p₀.Keeps (p.deadlinePreempts d) := by
  unfold Part.deadlinePreempts
  dsimp only
  refine .ite h ?_
  refine h.forEach fun _ _ hq => ?_
  split
  · exact hq.askPreempt
  · exact hq

theorem command {d v} (h : p₀.Keeps p) : p₀.Keeps (p.command d v) := .ite h h.setFld.onRail.emit
theorem rise {d v} (h : p₀.Keeps p) : p₀.Keeps (p.rise d v) := .ite h.onRail (.ite h.command.onRail h.onRail)

theorem snapshot {d} (h : p₀.Keeps p) : p₀.Keeps (p.snapshot d) := by
  unfold Part.snapshot
  dsimp only
  refine .ite h (.andIf (.deadlinePreempts (.overruns ?_)) (·.rise))
  split
  · exact h.onRail.orReg
  · exact h.onRail

theorem moveCeilings {d} (h : p₀.Keeps p) : p₀.Keeps (p.moveCeilings d) := h.onRail.orReg

theorem steer {d} (h : p₀.Keeps p) : p₀.Keeps (p.steer d) :=
  ((Keeps.ite h.setFld.rise h.setFld.command.onRail).setFld.onRail.andIf (·.orReg.paceError)).andIf (·.setFld.paceError)

theorem meter (h : p₀.Keeps p) : p₀.Keeps p.meter := h.setRegN.forEach fun _ _ hq => hq.onRail.setRegN
theorem readRails (h : p₀.Keeps p) : p₀.Keeps p.readRails := h.forEach fun _ _ hq => hq.forEach (fun _ _ hr => hr.emit.emit)

theorem period (h : p₀.Keeps p) : p₀.Keeps p.period :=
  (((h.meter.forEach fun _ _ hq => hq.moveCeilings).andIf (·.orReg.bump)).forEach fun _ _ hq => hq.steer).frame.readRails

theorem refreshPoint {d j} (h : p₀.Keeps p) : p₀.Keeps (p.refreshPoint d j) := .ite h h.setFld.setFld
theorem avsFailed {d} (h : p₀.Keeps p) : p₀.Keeps (p.avsFailed d) := h.setFld.orReg

theorem avsWrite {d ok} (h : p₀.Keeps p) : p₀.Keeps (p.avsWrite d ok) := by
  unfold Part.avsWrite
  dsimp only
  split
  · exact h
  · exact .ite h.setFld.bump.onRail (.ite h.avsFailed.onRail.setFld.onRail.emit h.avsFailed.onRail.onRail)

theorem avsRead {l r kind value ok} (h : p₀.Keeps p) : p₀.Keeps (p.avsRead l r kind value ok) :=
  .ite (.ite h.frame h) (.ite h.avsFailed.frame.emit h.avsFailed)

theorem avsDone {link kind ok} (h : p₀.Keeps p) : p₀.Keeps (p.avsDone link kind ok) := by
  unfold Part.avsDone
  refine .ite h ?_
  split
  · exact h.avsWrite
  · exact .ite h.avsRead h
  · exact .ite h.avsRead h

theorem clearUnsteerable (h : p₀.Keeps p) : p₀.Keeps p.clearUnsteerable := h.forEach fun _ _ hq => hq.setFld.onRail

/-! ### Traverse -/

theorem addMove {h'} (h : p₀.Keeps p) : p₀.Keeps (p.addMove h') := h.frame
theorem countSent {cl n} (h : p₀.Keeps p) : p₀.Keeps (p.countSent cl n) := h.bump

theorem sendRead {r peer counts} (h : p₀.Keeps p) : p₀.Keeps (p.sendRead r peer counts) := by
  unfold Part.sendRead
  dsimp only
  split
  · exact h
  · exact h.onReq.addMove

theorem sendWrite {r peer} (h : p₀.Keeps p) : p₀.Keeps (p.sendWrite r peer) := by
  unfold Part.sendWrite
  dsimp only
  split
  · exact h
  · exact h.countSent.onReq.addMove

theorem netServe {h'} (h : p₀.Keeps p) : p₀.Keeps (p.netServe h') := by
  unfold Part.netServe
  dsimp only
  split
  · split
    · exact (Keeps.ite h.countSent h).onTheCore fun _ hq => hq.reqFault.unstall
    · exact (Keeps.ite h.countSent h).addMove
  · exact .ite h.countSent h

theorem netLand {h'} (h : p₀.Keeps p) : p₀.Keeps (p.netLand h') := by
  unfold Part.netLand
  split
  · exact h.onTheCore fun _ hq => hq.deliver.advanceXfer.settle.unstall
  · exact h

theorem netWrite {h'} (h : p₀.Keeps p) : p₀.Keeps (p.netWrite h') := by
  unfold Part.netWrite
  refine .ite h ?_
  split
  · exact h.onTheCore fun _ hq => hq.reqFault.unstall
  · exact h
  · exact h.writeRow.addMove

theorem netAck {h'} (h : p₀.Keeps p) : p₀.Keeps (p.netAck h') := by
  unfold Part.netAck
  split
  · exact h.onTheCore fun _ hq => hq.onReq.unstall
  · exact h

theorem netStep {h'} (h : p₀.Keeps p) : p₀.Keeps (p.netStep h') := by
  unfold Part.netStep
  split
  · exact h.netServe
  · exact h.netLand
  · exact h.netWrite
  · exact h.netAck

theorem landings {d} (h : p₀.Keeps p) : p₀.Keeps (p.landings d) :=
  (h.frame.forEach (fun _ _ hq => hq.netStep)).forEach fun _ _ hq => hq.onTheCore (fun _ hr => hr.arriveMsg)

theorem unitHalf {r} (h : p₀.Keeps p) : p₀.Keeps (p.unitHalf r) := .ite h.onReq (h.onTheCore (fun _ hq => hq.stepDirect.advanceXfer.unstall))

theorem carryUnit {cl kind} (h : p₀.Keeps p) : p₀.Keeps (p.carryUnit cl kind) := by
  unfold Part.carryUnit
  split
  · exact h.unitHalf
  · exact h

theorem houseStage {x : Part × List (Nat × Bool × Nat)} {r} (h : p₀.Keeps x.1) : p₀.Keeps (Part.houseStage x r).1 := by
  unfold Part.houseStage
  dsimp only
  split
  · exact h
  · split
    · exact h
    · exact .ite h.onReq h.unitHalf

theorem unscheduled {d} (h : p₀.Keeps p) : p₀.Keeps (p.unscheduled d) := foldlFst h fun _ _ hx => hx.houseStage

theorem carryEntry {cl e} (h : p₀.Keeps p) : p₀.Keeps (p.carryEntry cl e) := by
  unfold Part.carryEntry
  dsimp only
  split
  · refine .ite h ?_
    split
    · exact h.sendRead
    · exact h
  · refine .ite h ?_
    split
    · exact h.sendRead
    · exact h
  · split
    · exact h.sendWrite
    · exact h
  · split
    · exact h.sendWrite
    · exact h
  · exact .ite h h.frame.countSent
  · exact h.carryUnit
  · exact h

theorem carryMerge {peer ms} (h : p₀.Keeps p) : p₀.Keeps (p.carryMerge peer ms) := by
  unfold Part.carryMerge
  dsimp only
  split
  · exact h
  · refine ((h.forEach (fun _ _ hq => hq.bump)).forEach (fun _ _ hq => hq.bump)).forEach fun _ _ hq => ?_
    split
    · exact hq.sendRead
    · exact hq

theorem traverseBeat {d} (h : p₀.Keeps p) : p₀.Keeps (p.traverseBeat d) :=
  (h.landings.forEach (fun _ _ hq => hq.carryMerge)).forEach fun _ _ hq => hq.carryEntry

/-! ### RegReads -/

theorem placeFdr (h : p₀.Keeps p) : p₀.Keeps p.placeFdr := h.forEach fun _ _ hq => hq.setRegN

theorem refusedAccess {by_ off read} (h : p₀.Keeps p) : p₀.Keeps (p.refusedAccess by_ off read) := by
  unfold Part.refusedAccess
  dsimp only
  split
  · exact .ite h.refuse.emit h.refuse
  · exact h.refuse.emit

theorem refusedRead {by_ off width} (h : p₀.Keeps p) : p₀.Keeps (p.refusedRead by_ off width) := .ite h h.refusedAccess

/-! ### Scripts -/

theorem measure {m type version digest} (h : p₀.Keeps p) : p₀.Keeps (p.measure m type version digest) :=
  .ite (h.forEach (fun _ _ hq => hq.setRegN)).orReg ((h.forEach (fun _ _ hq => hq.setRegN)).forEach (fun _ _ hq => hq.setRegN)).setFld

theorem setPoolFree (h : p₀.Keeps p) : p₀.Keeps p.setPoolFree := h.setRegN
theorem storeScript {base b} (h : p₀.Keeps p) : p₀.Keeps (p.storeScript base b) := h.forEach fun _ _ hq => hq.setRow.countWrite
theorem clearConfig {cl} (h : p₀.Keeps p) : p₀.Keeps (p.clearConfig cl) := ⟨fun hp => Tab.wf_filter _ (h.1 hp), h.2⟩
theorem setNat {a n v} (h : p₀.Keeps p) : p₀.Keeps (p.setNat a n v) := h.setBytes
theorem translateWires {rep fs cl} (h : p₀.Keeps p) : p₀.Keeps (p.translateWires rep fs cl) := h.forEach fun _ _ hq => .ite hq.setNat hq

theorem translateSheet {rep cl} (h : p₀.Keeps p) : p₀.Keeps (p.translateSheet rep cl) :=
  .ite h ((h.setNat.forEach (fun _ _ hq => hq.setNat)).forEach (fun _ _ hq => .ite hq hq.setNat))

theorem translateRoutes {rep fs cl} (h : p₀.Keeps p) : p₀.Keeps (p.translateRoutes rep fs cl) := by
  unfold Part.translateRoutes
  dsimp only
  refine h.forEach fun _ _ hq => ?_
  refine .ite hq ?_
  split
  · exact hq.setNat
  · exact hq

theorem translateAll {rep} (h : p₀.Keeps p) : p₀.Keeps (p.translateAll rep) := h.forEach fun _ _ hq => hq.translateRoutes

theorem writeConfig {rep fs} (h : p₀.Keeps p) : p₀.Keeps (p.writeConfig rep fs) :=
  ((h.forEach (fun _ _ hq => hq.clearConfig)).forEach (fun _ _ hq => hq.setBytes)).forEach fun _ _ hq => hq.translateWires.translateSheet

theorem placeReplica {r old raw j fs} (h : p₀.Keeps p) : p₀.KeepsAny (p.placeReplica r old raw j fs) := by
  intro q hq
  obtain ⟨x, -, rfl⟩ := Option.map_eq_some_iff.mp hq
  exact h.frame.writeConfig

theorem placeRecs {names old l} (h : p₀.Keeps p) : p₀.KeepsAny (Part.placeRecs names old l p) := by
  induction l generalizing p with
  | nil => exact .some h
  | cons x l ih =>
    unfold Part.placeRecs
    split
    next q hq => exact ih (h.placeReplica q hq)
    next => exact .none

theorem candidate {num base mib k0 recs} (h : p₀.Keeps p) : p₀.KeepsAny (p.candidate num base mib k0 recs) :=
  h.frame.placeRecs.map fun _ hq => hq.forEach fun _ _ hr => hr.translateAll

/-! ### ScriptEvents -/

theorem acceptLoad {addr bell} (h : p₀.Keeps p) : p₀.Keeps (p.acceptLoad addr bell) := .ite h (.ite h.frame h.frame)

theorem takeBell (h : p₀.Keeps p) : p₀.Keeps p.takeBell := by
  unfold Part.takeBell
  dsimp only
  split
  · exact h
  · exact .ite h.frame.acceptLoad h.frame

theorem endLoad {req cause named} (h : p₀.Keeps p) : p₀.Keeps (p.endLoad req cause named) := by
  unfold Part.endLoad
  dsimp only
  refine .setPoolFree ?_
  refine .frame ?_
  split
  · exact h.rmw
  · exact h

theorem refuseScript {req cause named frame} (h : p₀.Keeps p) : p₀.Keeps (p.refuseScript req cause named frame) := h.setRegN.setRegN.bump.endLoad
theorem stage {s b} (h : p₀.Keeps p) : p₀.Keeps (p.stage s b) := h.storeScript.frame.setPoolFree

theorem checkNext (h : p₀.Keeps p) : p₀.Keeps p.checkNext := by
  unfold Part.checkNext
  dsimp only
  split
  · refine .ite h.frame.refuseScript ?_
    refine .ite h.frame.refuseScript ?_
    refine .ite h.frame.refuseScript ?_
    split
    · exact h.frame.refuseScript
    · exact h.frame.stage
  · exact h

theorem onStaged {f} (h : p₀.Keeps p) : p₀.Keeps (p.onStaged f) := h.frame
theorem setRetiring {l b} (h : p₀.Keeps p) : p₀.Keeps (p.setRetiring l b) := h.frame

theorem failTasks {s} (h : p₀.Keeps p) : p₀.Keeps (p.failTasks s) := by
  unfold Part.failTasks
  refine h.forEach fun _ _ hq => ?_
  split
  · exact .ite hq hq.abort
  · exact hq.abort

theorem dropRecoveries {l} (h : p₀.Keeps p) : p₀.Keeps (p.dropRecoveries l) := h.frame

theorem moveBoards {old} (h : p₀.Keeps p) : p₀.Keeps (p.moveBoards old) := by
  unfold Part.moveBoards
  dsimp only
  refine h.forEach fun _ _ hq => ?_
  split
  · exact .ite hq (hq.forEach (fun _ _ hq => hq.onTask)).onCluster.onCluster
  · exact hq.clearBoard

theorem holdInReset (h : p₀.Keeps p) : p₀.Keeps p.holdInReset := (h.forEach (fun _ _ hq => hq.onCore)).frame

theorem darken {s} (h : p₀.Keeps p) : p₀.Keeps (p.darken s) := by
  unfold Part.darken
  dsimp only
  split
  case' h_1 => refine .refuseScript (.forEach (.setRetiring ?_) fun _ _ hq => hq.onReplica)
  case' h_2 => refine .holdInReset (.onStaged (.setRetiring (.forEach (.moveBoards (.frame ?_)) fun _ _ hq => hq.touchBand)))
  all_goals
    refine (h.dropRecoveries.forEach fun _ _ hq => hq.onReplica).forEach fun _ _ hq => ?_
    split
    · exact hq.sendBack.place
    · exact hq

theorem writeAll {reps abs} (h : p₀.Keeps p) : p₀.Keeps (p.writeAll reps abs) :=
  ((h.forEach (fun _ _ hq => hq.writeConfig)).forEach (fun _ _ hq => hq.translateAll)).forEach fun _ _ hq => hq.setBytes

theorem writeData {a body} (h : p₀.Keeps p) : p₀.Keeps (p.writeData a body) := h.forEach fun _ _ hq => .ite hq.noteDamaged.raise hq.writeRow.bell
theorem showGolden (h : p₀.Keeps p) : p₀.Keeps p.showGolden := h.forEach fun _ _ hq => hq.setRegN
theorem prunePool (h : p₀.Keeps p) : p₀.Keeps p.prunePool := h.frame.setPoolFree

theorem releaseReplicaRegion {r} (h : p₀.Keeps p) : p₀.Keeps (p.releaseReplicaRegion r) :=
  ((h.forEach (fun _ _ hq => hq.onCore.resetQueues)).forEach (fun _ _ hq => hq.onCluster)).onReplica

theorem freshRoutes {r} (h : p₀.Keeps p) : p₀.Keeps (p.freshRoutes r) := by
  unfold Part.freshRoutes
  dsimp only
  refine h.forEach fun _ _ hq => ?_
  refine hq.forEach fun _ _ hr => ?_
  split
  · exact hr.onCore
  · exact hr

theorem releaseAll {reps} (h : p₀.Keeps p) : p₀.Keeps (p.releaseAll reps) :=
  ((h.forEach (fun _ _ hq => hq.releaseReplicaRegion)).forEach (fun _ _ hq => hq.freshRoutes)).place

theorem retireScene {s} (h : p₀.Keeps p) : p₀.Keeps (p.retireScene s) := h.failTasks.frame

theorem commitMismatch {s i} (h : p₀.Keeps p) : p₀.Keeps (p.commitMismatch s i) := by
  unfold Part.commitMismatch
  dsimp only
  split
  · split
    · exact h.setRegN.setRegN.retireScene.logEntry
    · exact h.setRegN.setRegN.retireScene
  · exact h.setRegN.setRegN.logEntry

theorem writeFrames {s} (h : p₀.Keeps p) : p₀.Keeps (p.writeFrames s) := (h.writeAll.forEach (fun _ _ hq => hq.writeData)).frame

theorem writeStage {s bad} (h : p₀.Keeps p) : p₀.Keeps (p.writeStage s bad) := by
  have hq {m a b c l o} : p₀.Keeps { Machine.forEach l (fun i x => x.commitMismatch s i) ((p.writeFrames s).measure m a b c) with cfg := o } :=
    (h.writeFrames.measure.forEach fun _ _ hq => hq.commitMismatch).frame
  exact .ite hq.releaseAll.setRetiring.bump.endLoad.prunePool.showGolden hq.releaseAll.setRetiring.endLoad.prunePool.showGolden

theorem commitStep {bad} (h : p₀.Keeps p) : p₀.Keeps (p.commitStep bad) := by
  unfold Part.commitStep
  split
  · exact h
  · refine .ite h ?_
    split
    · exact h.dropRecoveries.setRetiring.onStaged
    · exact .ite h.darken h
    · exact h.writeStage

theorem quietOver (h : p₀.Keeps p) : p₀.Keeps p.quietOver := by
  unfold Part.quietOver
  split
  · exact h
  · refine .ite h ?_
    refine h.forEach fun _ _ hq => ?_
    split
    · exact .ite hq.failTasks hq
    · exact hq

theorem compareGolden {d i} (h : p₀.Keeps p) : p₀.Keeps (p.compareGolden d i) := by
  unfold Part.compareGolden
  dsimp only
  split
  · exact h
  · exact .andIf (.ite (h.andIf (·.frame)) (h.andIf (·.frame)).setRegN.frame) (·.bump.setRegN)

theorem scrub {s} (h : p₀.Keeps p) : p₀.Keeps (p.scrub s) := by
  unfold Part.scrub
  split
  · exact h
  · exact h.raise
  · exact h.frame.raise

theorem houseBeat {d s golden} (h : p₀.Keeps p) : p₀.Keeps (p.houseBeat d s golden) :=
  (Keeps.ite h.landings.unscheduled.onRail.scrub h.landings.unscheduled.onRail).compareGolden

theorem repairRange {d g} (h : p₀.Keeps p) : p₀.Keeps (p.repairRange d g) := by
  unfold Part.repairRange
  dsimp only
  split
  · exact h.frame
  · exact .ite h.frame.raise (.ite h.frame.setBytes.frame.bump.raise.place h.frame.bumpSat.raise)

theorem prompterRepair {d} (h : p₀.Keeps p) : p₀.Keeps (p.prompterRepair d) := by
  unfold Part.prompterRepair
  split
  · exact h.repairRange
  · exact h

/-! ### Security -/

theorem setHidden {off v} (h : p₀.Keeps p) : p₀.Keeps (p.setHidden off v) := h.frame
theorem extendWrite {v} (h : p₀.Keeps p) : p₀.Keeps (p.extendWrite v) := .ite h.measure h
theorem provisionWrite {v} (h : p₀.Keeps p) : p₀.Keeps (p.provisionWrite v) := .ite h (.ite h.orReg h.setRegN.frame)

theorem buildOwner {iv} (h : p₀.Keeps p) : p₀.Keeps (p.buildOwner iv) :=
  .ite h ((h.forEach (fun _ _ hq => hq.setRegN)).forEach (fun _ _ hq => hq.setHidden)).setRegN.frame

theorem showQueued (h : p₀.Keeps p) : p₀.Keeps p.showQueued := h.setFld
theorem quoteWrite {v} (h : p₀.Keeps p) : p₀.Keeps (p.quoteWrite v) := .ite h (.ite h (.ite h.orReg (.ite h.orReg h.frame.showQueued)))

theorem signQuote (h : p₀.Keeps p) : p₀.Keeps p.signQuote := by
  unfold Part.signQuote
  dsimp only
  split
  · exact h
  · exact .ite h h.frame

theorem setWindow {b} (h : p₀.Keeps p) : p₀.Keeps (p.setWindow b) := h.forEach fun _ _ hq => hq.setRegN

theorem finishQuote (h : p₀.Keeps p) : p₀.Keeps p.finishQuote := by
  unfold Part.finishQuote
  dsimp only
  split
  · exact h
  · split
    · exact h
    · exact (Keeps.ite h.setWindow h.setWindow.writeData).frame.showQueued.bump.event

/-! ### Boot -/

theorem inReset : p₀.Keeps p.inReset := Keeps.setRegN (reset_of_eq rfl rfl rfl)
theorem powerOff : p₀.Keeps p.powerOff := reset_of_eq rfl rfl rfl
theorem stepReg {j} (h : p₀.Keeps p) : p₀.Keeps (p.stepReg j) := h.setRegN.setFld

theorem startRom (h : p₀.Keeps p) : p₀.Keeps p.startRom :=
  .ite h ((h.setRegN.setRegN.forEach (fun _ _ hq => hq.setRegN)).forEach (fun _ _ hq => hq.setRegN)).frame.stepReg.measure.stepReg

theorem auxAssert {random} (h : p₀.Keeps p) : p₀.Keeps (p.auxAssert random) := .ite h h.frame
theorem pwrAssert (h : p₀.Keeps p) : p₀.Keeps p.pwrAssert := .ite h h.frame.startRom
theorem pwrLoss (h : p₀.Keeps p) : p₀.Keeps p.pwrLoss := .ite inReset h
theorem resetAssert : p₀.Keeps p.resetAssert := inReset
theorem resetRelease (h : p₀.Keeps p) : p₀.Keeps p.resetRelease := .ite h h.frame.startRom
theorem bootFail {cause cfg} (h : p₀.Keeps p) : p₀.Keeps (p.bootFail cause cfg) := h.setFld.blackout
theorem chainFail {cfg} (h : p₀.Keeps p) : p₀.Keeps (p.chainFail cfg) := .ite h.bootFail h.blackout
theorem chainForward {type payload} (h : p₀.Keeps p) : p₀.Keeps (p.chainForward type payload) := h.chainSend.frame
theorem chainForwardAll {b} (h : p₀.Keeps p) : p₀.Keeps (p.chainForwardAll b) := h.forEach fun _ _ hq => hq.chainForward
theorem badBlock (h : p₀.Keeps p) : p₀.Keeps p.badBlock := .ite h.chainFail h
theorem heard (h : p₀.Keeps p) : p₀.Keeps p.heard := h.frame
theorem takeBoot {x} (h : p₀.Keeps p) : p₀.Keeps (p.takeBoot x) := .ite h.frame.chainForward h.frame

theorem takeStream {x} (h : p₀.Keeps p) : p₀.Keeps (p.takeStream x) := by
  unfold Part.takeStream
  dsimp only
  split
  · exact h.frame.frame
  · exact h.frame.chainForward
  · exact h.frame

theorem chainDataIn {b} (h : p₀.Keeps p) : p₀.Keeps (p.chainDataIn b) := by
  unfold Part.chainDataIn
  dsimp only
  refine .ite h ?_
  split
  · exact .ite h.heard (.ite h.heard.takeBoot h.heard.takeStream)
  · exact h.badBlock

theorem chainEndIn {b} (h : p₀.Keeps p) : p₀.Keeps (p.chainEndIn b) := by
  unfold Part.chainEndIn
  dsimp only
  refine .ite h ?_
  split
  · exact .ite h.heard (.ite h.heard.frame.chainForward h.heard.frame.chainFail)
  · exact h.badBlock

theorem chainAbortIn {b} (h : p₀.Keeps p) : p₀.Keeps (p.chainAbortIn b) := by
  unfold Part.chainAbortIn
  refine .ite h ?_
  split
  · exact .ite h.heard.chainFail h.heard
  · exact h.badBlock

theorem chainIdleIn {b} (h : p₀.Keeps p) : p₀.Keeps (p.chainIdleIn b) := by
  unfold Part.chainIdleIn
  dsimp only
  refine .ite h ?_
  split
  · exact .ite h.frame (.ite h.frame.chainFail h.frame.frame)
  · exact h.badBlock

theorem idleOut (h : p₀.Keeps p) : p₀.Keeps p.idleOut := .ite h.chainSend.frame h
theorem positionTimeout (h : p₀.Keeps p) : p₀.Keeps p.positionTimeout := .ite h.frame h
theorem upstreamOver (h : p₀.Keeps p) : p₀.Keeps p.upstreamOver := .ite h.chainFail h

theorem bootArea {flash puf} (h : p₀.Keeps p) : p₀.Keeps (p.bootArea flash puf) := by
  unfold Part.bootArea
  refine .ite h (.ite h ?_)
  split
  · exact h.bootFail
  · refine .ite h.bootFail ?_
    dsimp only
    split
    · exact h.setFld.bootFail
    · exact (Keeps.ite (h.setFld.frame.chainForwardAll.chainForwardAll.forEach fun _ _ hq => hq.chainForwardAll) h.setFld.frame).stepReg

theorem allDomains (h : p₀.Keeps p) : p₀.Keeps p.allDomains :=
  ((h.forEach (fun _ _ hq => hq.setRegN)).forEach (fun _ _ hq => hq.setRegN)).forEach fun _ _ hq => hq.setRegN

theorem verifyFirmware {image} (h : p₀.Keeps p) : p₀.Keeps (p.verifyFirmware image) :=
  .ite h (.ite h.bootFail (.ite h.bootFail ((h.allDomains.frame.forEach (fun _ _ hq => hq.setRegN)).forEach
    (fun _ _ hq => hq.setRegN)).measure.measure.measure.stepReg))

theorem setRoster {d m} (h : p₀.Keeps p) : p₀.Keeps (p.setRoster d m) := (h.forEach (fun _ _ hq => hq.setRegN)).setRegN
theorem bootVolts {d} (h : p₀.Keeps p) : p₀.Keeps (p.bootVolts d) := ((Keeps.ite h.emit h).forEach (fun _ _ hq => hq.emit)).setRegN

theorem enterProvision (h : p₀.Keeps p) : p₀.Keeps p.enterProvision :=
  ((h.forEach (fun _ _ hq => hq.setRegN)).forEach (fun _ _ hq => hq.setRegN)).setRegN.setRegN.frame.setFld.ibi

theorem setTrained {trained} (h : p₀.Keeps p) : p₀.Keeps (p.setTrained trained) := h.forEach fun _ _ hq => hq.orReg

theorem rehearse {passed trained rates temps} (h : p₀.Keeps p) : p₀.Keeps (p.rehearse passed trained rates temps) := by
  have hr {l : List (BitVec 400 × Nat)} : p₀.Keeps (Machine.forEach l (fun x q => q.setRoster x.2 x.1) (p.setTrained trained)) :=
    h.setTrained.forEach fun _ _ hq => hq.setRoster
  exact .ite h (.ite h.setTrained.bootFail (.ite h.setTrained.bootFail
    (((hr.forEach fun _ _ hq => hq.setRegN.setRegN).forEach fun _ _ hq => hq.bootVolts.forEach fun _ _ hs => hs.setRegN).frame.stepReg.andIf
      (·.enterProvision))))

theorem setPool {mib} (h : p₀.Keeps p) : p₀.Keeps (p.setPool mib) := h.setRegN.setRegN.setPoolFree

theorem commitBase {s b bad} (h : p₀.Keeps p) : p₀.Keeps (p.commitBase s b bad) := by
  unfold Part.commitBase
  dsimp only
  split
  · exact h.stage.blackout
  · split
    · exact h.stage.frame.setRegN.blackout
    · exact h.stage.frame.writeFrames.measure.releaseAll.bump.endLoad.prunePool.showGolden.stepReg

theorem loadBase {b bad} (h : p₀.Keeps p) : p₀.Keeps (p.loadBase b bad) := by
  unfold Part.loadBase
  dsimp only
  split
  · exact h.blackout
  · refine .ite h.blackout ?_
    split
    · exact h.frame.setPool.setRegN.blackout
    · exact .ite h.frame.setPool.commitBase h.frame.setPool.commitBase.frame

theorem loadFlash {b bad} (h : p₀.Keeps p) : p₀.Keeps (p.loadFlash b bad) := by
  have hq {l : List (Nat × List Byte)} : p₀.Keeps (Machine.forEach l (fun x q => q.chainForwardAll x.2) p) :=
    h.forEach fun _ _ hr => hr.chainForwardAll
  unfold Part.loadFlash
  split
  split
  · exact hq.blackout
  · exact .ite hq.loadBase (hq.loadBase.forEach fun _ _ hr => hr.chainForwardAll).chainForward.frame

theorem baseScript {stream bad} (h : p₀.Keeps p) : p₀.Keeps (p.baseScript stream bad) := by
  unfold Part.baseScript
  refine .ite h ?_
  refine .ite (.ite h.loadBase h) ?_
  split
  · exact h.blackout
  · exact h.loadFlash

theorem setHostPort {i x} (h : p₀.Keeps p) : p₀.Keeps (p.setHostPort i x) := by
  unfold Part.setHostPort
  split
  · exact h.setRegN
  · exact h

theorem becomeReady (h : p₀.Keeps p) : p₀.Keeps p.becomeReady :=
  ((Keeps.ite h h.andNotReg).forEach (fun _ _ hq => .ite hq hq.andNotReg)).frame.placeFdr.stepReg.ibi

theorem trainPorts {host fabric} (h : p₀.Keeps p) : p₀.Keeps (p.trainPorts host fabric) := by
  unfold Part.trainPorts
  dsimp only
  split
  · exact h.setHostPort
  · exact (h.setHostPort.setHostPort.forEach (fun _ _ hq => hq.trained)).stepReg.becomeReady
  · exact h

/-! ### RegWrites -/

theorem plainWrite {r off v} (h : p₀.Keeps p) : p₀.Keeps (p.plainWrite r off v) := h.setReg
theorem guardedWrite {r off v ok} (h : p₀.Keeps p) : p₀.Keeps (p.guardedWrite r off v ok) := .ite h.plainWrite h
theorem ringCfgWrite {r off v portBit} (h : p₀.Keeps p) : p₀.Keeps (p.ringCfgWrite r off v portBit) := .ite h.setFld (.ite h h.plainWrite)

theorem writeHost {r is off v} (h : p₀.Keeps p) : p₀.KeepsAny (p.writeHost r is off v) :=
  .ite (.some h.guardedWrite) <| .ite (.some h.guardedWrite) <| .ite (.some h.guardedWrite) <| .ite (.some h.ringCfgWrite) <|
  .ite (.some (.ite h.ringCfgWrite.dropHeld h.ringCfgWrite)) <| .ite (.some (.ite h.acceptLoad h)) .none

theorem writeSecurity {r off v} (h : p₀.Keeps p) : p₀.KeepsAny (p.writeSecurity r off v) :=
  .ite (.some h.setHidden) <| .ite (.some h.extendWrite) <| .ite (.some h.provisionWrite) <| .ite (.some h.quoteWrite) .none

theorem timCfgWrite {v} (h : p₀.Keeps p) : p₀.Keeps (p.timCfgWrite v) := .ite h.plainWrite h.plainWrite.frame
theorem paceCfgWrite {v} (h : p₀.Keeps p) : p₀.Keeps (p.paceCfgWrite v) := h.plainWrite
theorem releaseInputs {v} (h : p₀.Keeps p) : p₀.Keeps (p.releaseInputs v) := h.andNotReg
theorem clearMonitors {d v} (h : p₀.Keeps p) : p₀.Keeps (p.clearMonitors d v) := h.forEach fun _ _ hq => hq.setFld

theorem writeTime {r is off v} (h : p₀.Keeps p) : p₀.KeepsAny (p.writeTime r is off v) :=
  .ite (.some h.timCfgWrite) <| .ite (.some h.timSet) <| .ite (.some h.paceCfgWrite) <|
  .ite (.some (.ite h.plainWrite.clearUnsteerable h.plainWrite)) <| .ite (.some h.clearMonitors) <| .ite (.some h.guardedWrite) <|
  .ite (.some h.guardedWrite) <| .ite (.some h.guardedWrite) <| .ite (.some h.releaseInputs) .none

theorem seatWrite {s v} (h : p₀.Keeps p) : p₀.Keeps (p.seatWrite s v) :=
  .ite (.ite h.plainWrite.frame h.plainWrite.frame.setRegN.setRegN.setRegN) (.ite h.plainWrite.frame.setFld.frame h.plainWrite.frame)

theorem writeStageRegs {r is off v} (h : p₀.Keeps p) : p₀.KeepsAny (p.writeStageRegs r is off v) :=
  .ite (.some h.plainWrite) <| .ite (.some h.seatWrite) <| .ite (.some (.ite h.askPreempt h)) <| .ite (.some h.guardedWrite) .none

theorem fabCfgStore {v} (h : p₀.Keeps p) : p₀.Keeps (p.fabCfgStore v) := .ite h.orReg h.plainWrite
theorem swapTables {v} (h : p₀.Keeps p) : p₀.Keeps (p.swapTables v) := .ite h (.ite h.frame h.orReg)
theorem injectStopStore {v} (h : p₀.Keeps p) : p₀.Keeps (p.injectStopStore v) := .ite h.plainWrite h.plainWrite.ni
theorem routeWrite {j v} (h : p₀.Keeps p) : p₀.Keeps (p.routeWrite j v) := .ite h.frame h.frame
theorem circWrite {c upper v} (h : p₀.Keeps p) : p₀.Keeps (p.circWrite c upper v) := .ite h.orReg (.ite h.setRegN (.ite h.setRegN.frame h.setRegN))

theorem portCfgWrite {n v} (h : p₀.Keeps p) : p₀.Keeps (p.portCfgWrite n v) := by
  have hq {c d : Prop} [Decidable c] [Decidable d] {r off w dom bit} : p₀.Keeps (if c then p.plainWrite r off w
      else if d then (p.plainWrite r off w).orReg dom bit else (p.plainWrite r off w).andNotReg dom bit) :=
    .ite h.plainWrite (.ite h.plainWrite.orReg h.plainWrite.andNotReg)
  exact .ite h.plainWrite (.ite hq hq.loosen.onPort.showPort)

theorem retrain {n} (h : p₀.Keeps p) : p₀.Keeps (p.retrain n) := .ite h.onPort.showPort h
theorem clearMarks {n} (h : p₀.Keeps p) : p₀.Keeps (p.clearMarks n) := h.setRegN.setRegN
theorem portCtlWrite {n v} (h : p₀.Keeps p) : p₀.Keeps (p.portCtlWrite n v) := .ite (Keeps.ite h.retrain h).clearMarks (.ite h.retrain h)

theorem writeFabric {r is v} (h : p₀.Keeps p) : p₀.KeepsAny (p.writeFabric r is v) :=
  .ite (.some h.fabCfgStore) <| .ite (.some h.swapTables) <| .ite (.some h.injectStopStore) <| .ite (.some h.routeWrite) <|
  .ite (.some h.circWrite) <| .ite (.some h.circWrite) <| .ite (.some h.portCfgWrite) <| .ite (.some h.portCtlWrite) .none

theorem latchHead {cl k v} (h : p₀.Keeps p) : p₀.Keeps (p.latchHead cl k v) := h.setRegN.forEach fun _ _ hq => hq.setRegN
theorem clearRouteFlags {c j v} (h : p₀.Keeps p) : p₀.Keeps (p.clearRouteFlags c j v) := h.onCore

theorem writeCluster {r is v} (h : p₀.Keeps p) : p₀.KeepsAny (p.writeCluster r is v) :=
  .ite (.some h.latchHead) <| .ite (.some h.clearRouteFlags) <| .ite (.some h.setBytes) .none

theorem touchRegs {off} (h : p₀.Keeps p) : p₀.Keeps (p.touchRegs off) := .ite h h.touchBand

theorem regStore {off v} (h : p₀.Keeps p) : p₀.Keeps (p.regStore off v) := by
  unfold Part.regStore
  split
  · exact h.touchRegs
  · have hq := h.touchRegs (off := off)
    exact (hq.writeHost.orElse <| hq.writeSecurity.orElse <| hq.writeTime.orElse <| hq.writeStageRegs.orElse <| hq.writeFabric.orElse
      hq.writeCluster).getD hq.plainWrite

theorem regWrite {by_ off width v} (h : p₀.Keeps p) : p₀.Keeps (p.regWrite by_ off width v) := .ite h (.ite h.regStore h.refusedAccess)
theorem rowWrite {by_ r is v} (h : p₀.Keeps p) : p₀.Keeps (p.rowWrite by_ r is v) := .ite h.regWrite h

/-! ### Recovery -/

theorem noteCheck {e} (h : p₀.Keeps p) : p₀.Keeps (p.noteCheck e) := by
  unfold Part.noteCheck
  split
  · exact .ite h.orReg h
  · exact .ite h.orReg h
  · exact h

theorem errorEntry {e} (h : p₀.Keeps p) : p₀.Keeps (p.errorEntry e) := by
  unfold Part.errorEntry
  dsimp only
  split
  · exact h
  · split
    · split
      next q hq => exact (h.noteCheck.repair q hq).raise
      next => exact h.noteCheck.raise
    all_goals exact h.noteCheck.raise

theorem closeWindows (h : p₀.Keeps p) : p₀.Keeps p.closeWindows := h.frame
theorem clockLost (h : p₀.Keeps p) : p₀.Keeps p.clockLost := .ite h.raise h
theorem endRecovery {seq} (h : p₀.Keeps p) : p₀.Keeps (p.endRecovery seq) := h.frame
theorem trimGolden (h : p₀.Keeps p) : p₀.Keeps p.trimGolden := h.frame.showGolden

theorem removeReplica {r} (h : p₀.Keeps p) : p₀.Keeps (p.removeReplica r) :=
  (Keeps.ite h.clearBoard.frame h.clearBoard.frame.retireScene).trimGolden.prunePool.place

theorem replaceReplica {r rec_ n} (h : p₀.Keeps p) (hq : p.replaceReplica r rec_ = some (q, n)) : p₀.Keeps q := by
  unfold Part.replaceReplica at hq
  dsimp only at hq
  split at hq
  next => cases hq
  next x hx =>
    split at hq
    · cases hq
    · split at hq
      · cases hq
        exact (h.frame.placeReplica x hx).translateAll
      · cases hq

theorem finishRecovery {r n} (h : p₀.Keeps p) : p₀.Keeps (p.finishRecovery r n) :=
  (h.moveBoards.trimGolden.frame.forEach (fun _ _ hq => hq.touchBand)).releaseAll.showGolden

theorem recover {r cl seq mismatched} (h : p₀.Keeps p) : p₀.Keeps (p.recover r cl seq mismatched) := by
  have hr : p₀.Keeps (if cl < 1600 then p.retireCluster cl seq (p.depthOf seq) else p) := .ite h.retireCluster h
  refine .ite hr.raise ?_
  split
  next => exact hr.removeReplica.endRecovery
  next hx =>
    obtain ⟨rec_, -, hq⟩ := Option.bind_eq_some_iff.mp hx
    exact .ite (hr.replaceReplica hq).raise (hr.replaceReplica hq).finishRecovery.endRecovery

theorem retireOnly {cl seq} (h : p₀.Keeps p) : p₀.Keeps (p.retireOnly cl seq) := (Keeps.ite h.retireCluster h).endRecovery

theorem sceneRecover {anchor cluster mismatched} (h : p₀.Keeps p) : p₀.Keeps (p.sceneRecover anchor cluster mismatched) := by
  unfold Part.sceneRecover
  split
  · exact h
  · refine .ite h ?_
    split
    · exact .ite h.endRecovery (.ite h.retireOnly h.recover)
    · exact h.retireOnly

/-! ### Pins -/

theorem trip {die sensor celsius} (h : p₀.Keeps p) : p₀.Keeps (p.trip die sensor celsius) :=
  ((h.forEach (fun _ _ hq => hq.setRegN)).forEach (fun _ _ hq => .ite hq hq.onPort.showPort)).setRegN.frame.ibi

theorem sense {die sensor celsius} (h : p₀.Keeps p) : p₀.Keeps (p.sense die sensor celsius) := .ite h (.ite h.frame.trip h.frame)

theorem clearBand {d b} (h : p₀.Keeps p) : p₀.Keeps (p.clearBand d b) :=
  ⟨fun hp => Tab.wf_filter _ (h.1 hp), fun hp => Tab.wf_filter _ (h.2.1 hp), fun hp => Tab.wf_filter _ (h.2.2 hp)⟩

theorem bandOff {d b} (h : p₀.Keeps p) : p₀.Keeps (p.bandOff d b) := .ite h h.clearBand.andNotReg
theorem bandOn {d b} (h : p₀.Keeps p) : p₀.Keeps (p.bandOn d b) := .ite h h.touchBand
theorem onInput {i f} (h : p₀.Keeps p) : p₀.Keeps (p.onInput i f) := h.frame
theorem takeEdge {i} (h : p₀.Keeps p) : p₀.Keeps (p.takeEdge i) := .ite h.pps h.cueEdge

theorem filtered {i level start held} (h : p₀.Keeps p) : p₀.Keeps (p.filtered i level start held) :=
  .ite h (.ite (Keeps.ite h.takeEdge.onInput (.ite h.bump h)).onInput (.ite h.takeEdge.onInput (.ite h.bump h)))

theorem stick {i} (h : p₀.Keeps p) : p₀.Keeps (p.stick i) := .ite h h.orReg.setReg.ibi

/-! ### Manage -/

theorem boardWrite {off width v} (h : p₀.Keeps p) : p₀.Keeps (p.boardWrite off width v) := .ite h.regStore h
theorem onI3c {f} (h : p₀.Keeps p) : p₀.Keeps (p.onI3c f) := h.frame
theorem board {f} (h : p₀.Keeps p) (hf : ∀ q, p₀.Keeps q → p₀.Keeps (f q)) : p₀.Keeps (p.board f) := .ite (hf _ h) h

theorem addressed {f} (h : p₀.Keeps p) (hf : ∀ q, p₀.Keeps q → p₀.Keeps (f q)) : p₀.Keeps (p.addressed f) :=
  h.board fun _ hq => .ite (hf _ hq) hq.emit

theorem answerI3c {b} (h : p₀.Keeps p) : p₀.Keeps (p.answerI3c b) := h.emit

theorem takeIbi (h : p₀.Keeps p) : p₀.Keeps p.takeIbi := by
  unfold Part.takeIbi
  split
  · exact h
  · exact .ite h.onI3c.answerI3c.pumpIbi h

theorem privateRead (h : p₀.Keeps p) : p₀.Keeps p.privateRead := by
  unfold Part.privateRead
  dsimp only
  split
  · exact h.answerI3c.onI3c
  · exact h.answerI3c

theorem privateWrite {off wide v} (h : p₀.Keeps p) : p₀.Keeps (p.privateWrite off wide v) := (Keeps.ite h.boardWrite h).onI3c
theorem onJtag {f} (h : p₀.Keeps p) : p₀.Keeps (p.onJtag f) := h.frame
theorem instruct {ir drive float} (h : p₀.Keeps p) : p₀.Keeps (p.instruct ir drive float) := h.onJtag
theorem boundaryScan {ir drive cells} (h : p₀.Keeps p) : p₀.Keeps (p.boundaryScan ir drive cells) := h.fresh.emit.instruct.onJtag

theorem regAccess {dr} (h : p₀.Keeps p) : p₀.Keeps (p.regAccess dr) :=
  .ite h.emit.instruct.onJtag (.ite h.emit.instruct.boardWrite.onJtag h.emit.instruct.onJtag)

end Part.Keeps

/-! ### Commands on the state -/

/-- The outcome `o` of a command on `s`: an answer that leaves the queue and keeps the canonical form of each table. -/
def State.Keeps (s : State) (o : Host.Outcome State Fault Refusal) : Prop :=
  ∃ q, o = .next { s with part := q } ∧ s.part.Keeps q

namespace State.Keeps

variable {s : State} {f : Part → Part} {c t op d : Nat} {house : Bool}

theorem act (hf : ∀ q, s.part.Keeps q → s.part.Keeps (f q)) : s.Keeps (.next (s.act f)) :=
  ⟨_, rfl, hf _ (.refl _)⟩

theorem live (hf : ∀ q, s.part.Keeps q → s.part.Keeps (f q)) : s.Keeps (s.live f) :=
  act fun _ h => .ite (hf _ h) h

theorem event (hf : ∀ q, s.part.Keeps q → s.part.Keeps (f q)) : s.Keeps (s.event f) :=
  live fun _ h => (hf _ h).pumpViews

theorem coreCmd (hf : ∀ q, s.part.Keeps q → s.part.Keeps (f q)) : s.Keeps (s.coreCmd c f) :=
  live fun _ h => (h.onTheCore hf).pumpViews

theorem coreEvent (hf : ∀ q, s.part.Keeps q → s.part.Keeps (f q)) : s.Keeps (s.coreEvent c f) :=
  coreCmd fun _ h => (hf _ h).unstall

theorem cueOp (hf : ∀ q, s.part.Keeps q → s.part.Keeps (f q)) : s.Keeps (s.cueOp c t op f) :=
  live fun _ h => h.onTheCore fun _ hq => hq.issue hf

theorem beat (hf : ∀ q, s.part.Keeps q → s.part.Keeps (f q)) : s.Keeps (s.beat d house f) :=
  act fun _ h => .ite h (Part.Keeps.ite (hf _ h).pumpViews h).bump

end State.Keeps

/-! ### Every command -/

theorem exec_keeps (i : Instr) (s : State) : s.Keeps (exec i s) := by
  cases i with
  | endOp => exact .cueOp fun _ h => h.doEnd
  | nop => exact .cueOp fun _ h => h.issued
  | fence => exact .cueOp fun _ h => h.doFence
  | intv => exact .cueOp fun _ h => h.doIntv
  | loop => exact .cueOp fun _ h => h.doLoop
  | shop => exact .cueOp fun _ h => h.doShop
  | adda => exact .cueOp fun _ h => h.doAdda
  | ldr => exact .cueOp fun _ h => h.doLdr
  | str => exact .cueOp fun _ h => h.doStr
  | mov => exact .cueOp fun _ h => h.doMov
  | trd => exact .cueOp fun _ h => h.doTrd
  | srd => exact .cueOp fun _ h => h.doSrd
  | gath => exact .cueOp fun _ h => h.doGath
  | xfer => exact .cueOp fun _ h => h.doXfer
  | cinv => exact .cueOp fun _ h => h.doCinv
  | mat => exact .cueOp fun _ h => h.doMat
  | maux => exact .cueOp fun _ h => h.issued
  | run => exact .cueOp fun _ h => h.doRun
  | send => exact .cueOp fun _ h => h.doSend
  | post => exact .cueOp fun _ h => h.doSend
  | recv => exact .cueOp fun _ h => h.doRecv
  | wait => exact .cueOp fun _ h => h.doWait
  | cue => exact .cueOp fun _ h => h.doCue
  | curt => exact .cueOp fun _ h => h.doCurt
  | matrixStepStart => exact .coreEvent fun _ h => h.startStep
  | matrixStepRetire => exact .coreEvent fun _ h => h.retireStep
  | epilogueStart => exact .coreCmd fun _ h => h.startEpilogue
  | epilogueEnd => exact .coreCmd fun _ h => h.endEpilogue
  | elementRunStart => exact .coreEvent fun _ h => h.startRun
  | elementRunEnd => exact .coreCmd fun _ h => h.endRun
  | rowMoveStart => exact .coreEvent fun _ h => h.startMove
  | rowMoveComplete => exact .coreEvent fun _ h => h.endMove
  | cacheFillLands => exact .coreEvent fun _ h => h.landFill
  | transferComplete => exact .coreEvent fun _ h => h.completeXfer
  | rowRead => exact .event fun _ h => h.forReq fun _ hq => hq.readRow
  | rowWrite => exact .event fun _ h => h.forReq fun _ hq => hq.writeTo
  | partialWrite => exact .live fun _ h => h.mergePartial
  | refresh => exact .live fun _ h => .ite h.refreshed h
  | retrain => exact .live fun _ h => .ite h.retrained h
  | taskSubmit => exact .live fun _ h => h.submit
  | predecessorResolve => exact .live fun _ h => h.predResolve
  | predicateRead => exact .live fun _ h => h.predRead
  | taskStart => exact .live fun _ h => h.startOn
  | handlerDispatch => exact .live fun _ h => h.onTheCore fun _ hq => hq.dispatch
  | taskComplete => exact .live fun _ h => h.completeOn
  | fanListRead => exact .live fun _ h => h.fanRead
  | fanChildCreate => exact .live fun _ h => h.fanChild
  | shareTick => exact .live fun _ h => h.shareTick
  | preemptLapse => exact .live fun _ h => h.lapse
  | saveBegin => exact .event fun _ h => h.saveBegin
  | saveComplete => exact .event fun _ h => h.saveComplete
  | restoreBegin => exact .live fun _ h => h.restoreBegin
  | restoreComplete => exact .event fun _ h => h.restoreComplete
  | stgPreemptReq => exact .act fun _ h => h.rowWrite
  | seatEnable => exact .act fun _ h => h.rowWrite
  | seatDisable => exact .act fun _ h => h.rowWrite
  | stgShareCfg => exact .act fun _ h => h.rowWrite
  | cueRemoteAdd => exact .live fun _ h => h.onTheCore fun _ hq => hq.remoteAdd
  | wireForward => exact .live fun _ h => h.forwarded
  | cueInEdge => exact .act fun _ h => h.cueEdge
  | curtainRelease => exact .live fun _ h => h.curtainStep
  | packageCurtainTimeout => exact .event fun _ h => h.curtTimeout
  | messageArrive => exact .live fun _ h => h.onTheCore fun _ hq => hq.arriveMsg
  | creditReturn => exact .coreEvent fun _ h => h.creditBack
  | channelWatchdog => exact .coreCmd fun _ h => h.watchdog
  | cueSheetSlot => exact .beat fun _ h => h.traverseBeat
  | houseSlot => exact .beat fun _ h => h.houseBeat
  | prompterRepair => exact .live fun _ h => h.prompterRepair
  | beatMonitorWindow => exact .live fun _ h => h.monitorWindow
  | monitorCalibration => exact .live fun _ h => h.calibrate
  | demandSnapshot => exact .live fun _ h => h.snapshot
  | controlPeriod => exact .live fun _ h => h.period
  | rateTableRefresh => exact .live fun _ h => h.refreshPoint
  | avsTransactionComplete => exact .live fun _ h => h.avsDone
  | pceStatAvsClear => exact .act fun _ h => h.rowWrite
  | trvBmonClr => exact .act fun _ h => h.rowWrite
  | timebaseAlign => exact .act fun _ h => h.setNow
  | ppsEdge => exact .act fun _ h => h.pps
  | holdover => exact .act fun _ h => h.holdOver
  | timSet => exact .act fun _ h => h.rowWrite
  | portTraining => exact .live fun _ h => h.trained
  | portDown => exact .event fun _ h => h.goDown
  | dataFlit => exact .live fun _ h => h.receive fun _ _ hq => hq.dataIn
  | idleFlit => exact .live fun _ h => h.receive fun _ _ hq => hq.pump
  | nak => exact .live fun _ h => h.receive fun _ _ hq => hq.replayAll
  | timeFlit => exact .live fun _ h => h.receive fun _ _ hq => hq.timeIn
  | timeFlitSend => exact .live fun _ h => h.timeOut
  | packetForward => exact .live fun _ h => h.forward
  | escapeTimeout => exact .live fun _ h => h.escape
  | fabricDoorbell => exact .live fun _ h => h.ringQueue
  | fabricDescriptorStart => exact .event fun _ h => h.startDesc
  | put => exact .live fun _ h => h.serve fun _ _ hq => hq.doPut
  | getReq => exact .live fun _ h => h.serveGet
  | getResp => exact .event fun _ h => h.getIn
  | signal => exact .live fun _ h => h.serve fun _ _ hq => hq.doSignal
  | signalAdd => exact .live fun _ h => h.serve fun _ _ hq => hq.doSignal
  | red => exact .live fun _ h => h.serve fun _ _ hq => hq.doRed
  | ack => exact .event fun _ h => h.ackIn
  | curtArrive => exact .live fun _ h => h.curtArrived
  | curtRelease => exact .live fun _ h => h.curtReleased
  | brk => exact .event fun _ h => h.breakIn
  | ackTimeout => exact .event fun _ h => h.ackLate
  | fabSwap => exact .act fun _ h => h.rowWrite
  | injectStop => exact .act fun _ h => h.rowWrite
  | fabCfgWrite => exact .act fun _ h => h.rowWrite
  | circuitTableWrite => exact .act fun _ h => h.rowWrite
  | retrainPort => exact .act fun _ h => h.rowWrite
  | clearHighWater => exact .act fun _ h => h.rowWrite
  | cfgLoad => exact .act fun _ h => h.rowWrite
  | cfgLoadDoorbell => exact .live fun _ h => h.takeBell
  | scriptCheck => exact .live fun _ h => h.checkNext
  | scriptCommit => exact .event fun _ h => h.commitStep
  | sceneQuietTimeout => exact .event fun _ h => h.quietOver
  | chainData => exact .act fun _ h => h.chainDataIn
  | chainEnd => exact .act fun _ h => h.chainEndIn
  | abort => exact .act fun _ h => h.chainAbortIn
  | chainIdle => exact .act fun _ h => h.chainIdleIn
  | chainIdleSend => exact .act fun _ h => h.idleOut
  | chainPositionTimeout => exact .act fun _ h => h.positionTimeout
  | upstreamTimeout => exact .act fun _ h => h.upstreamOver
  | submissionDoorbell => exact .act fun _ h => h.bar4Write
  | ringEntryRead => exact .act fun _ h => h.ringRead
  | completionHeadDoorbell => exact .act fun _ h => h.bar4Write
  | completionTimeThreshold => exact .act fun _ h => h.cqTimeout
  | functionLevelReset => exact .act fun _ h => h.flr
  | hstWin => exact .act fun _ h => h.rowWrite
  | bar2Access => exact .act fun _ h => h.bar2
  | registerWrite => exact .act fun _ h => h.regWrite
  | cluChHsel => exact .act fun _ h => h.rowWrite
  | memChWaitMax => exact .act fun _ h => h.rowWrite
  | errLogRd => exact .act fun _ h => h.rowWrite
  | pwrLimit => exact .act fun _ h => h.rowWrite
  | stuckRelease => exact .act fun _ h => h.rowWrite
  | pwrGoodAssert => exact .act fun _ h => h.pwrAssert
  | pwrGoodLoss => exact .act fun _ h => h.pwrLoss
  | auxGoodLoss => exact .act fun _ _ => .powerOff
  | resetNAssert => exact .act fun _ _ => .resetAssert
  | resetNRelease => exact .act fun _ h => h.resetRelease
  | bootAreaRead => exact .act fun _ h => h.bootArea
  | firmwareVerify => exact .act fun _ h => h.verifyFirmware
  | rehearsal => exact .act fun _ h => h.rehearse
  | baseScriptLoad => exact .act fun _ h => h.baseScript
  | bootPortTraining => exact .act fun _ h => h.trainPorts
  | secProvCtl => exact .act fun _ h => h.rowWrite
  | ownerRecordBuilt => exact .act fun _ h => h.buildOwner
  | secExtend => exact .act fun _ h => h.rowWrite
  | secQctl => exact .act fun _ h => h.rowWrite
  | quoteSign => exact .act fun _ h => h.signQuote
  | quoteComplete => exact .act fun _ h => h.finishQuote
  | errorLogEntry => exact .act fun _ h => h.errorEntry.pumpViews
  | recoveryWindowExpiry => exact .act fun _ h => h.closeWindows
  | sceneRecovery => exact .event fun _ h => h.sceneRecover
  | refclkLoss => exact .act fun _ h => h.clockLost
  | thermalTrip => exact .act fun _ h => h.sense
  | bandGateOff => exact .live fun _ h => h.bandOff
  | bandPowerUp => exact .live fun _ h => h.bandOn
  | filteredEdge => exact .act fun _ h => h.filtered
  | stuckInput => exact .act fun _ h => h.stick
  | enec => exact .act fun _ h => h.board fun _ hq => hq.onI3c.pumpIbi
  | disec => exact .act fun _ h => h.board fun _ hq => hq.onI3c
  | rstdaa => exact .act fun _ h => h.board fun _ hq => hq.onI3c
  | entdaa => exact .act fun _ h => h.board fun _ hq => .ite hq hq.onI3c.pumpIbi
  | setdasa => exact .act fun _ h => h.board fun _ hq => .ite hq.emit hq.onI3c.pumpIbi
  | setnewda => exact .act fun _ h => h.addressed fun _ hq => hq.onI3c
  | setmwl => exact .act fun _ h => h.addressed fun _ hq => hq.onI3c
  | setmrl => exact .act fun _ h => h.addressed fun _ hq => hq.onI3c
  | getmwl => exact .act fun _ h => h.addressed fun _ hq => hq.answerI3c
  | getmrl => exact .act fun _ h => h.addressed fun _ hq => hq.answerI3c
  | getpid => exact .act fun _ h => h.addressed fun _ hq => hq.answerI3c
  | getbcr => exact .act fun _ h => h.addressed fun _ hq => hq.answerI3c
  | getdcr => exact .act fun _ h => h.addressed fun _ hq => hq.answerI3c
  | getstatus => exact .act fun _ h => h.addressed fun _ hq => hq.answerI3c
  | i3cRead => exact .act fun _ h => h.addressed fun _ hq => hq.onI3c
  | i3cWrite => exact .act fun _ h => h.addressed fun _ hq => hq.privateWrite
  | i3cPrivateRead => exact .act fun _ h => h.addressed fun _ hq => hq.privateRead
  | extest => exact .act fun _ h => h.board fun _ hq => hq.boundaryScan
  | idcode => exact .act fun _ h => h.board fun _ hq => hq.instruct.emit
  | samplePreload => exact .act fun _ h => h.board fun _ hq => hq.boundaryScan
  | extestPulse => exact .act fun _ h => h.board fun _ hq => hq.boundaryScan
  | extestTrain => exact .act fun _ h => h.board fun _ hq => hq.boundaryScan
  | jtagClamp => exact .act fun _ h => h.board fun _ hq => hq.instruct
  | highz => exact .act fun _ h => h.board fun _ hq => hq.instruct
  | bypass => exact .act fun _ h => h.board fun _ hq => hq.instruct
  | testLogicReset => exact .act fun _ h => h.board fun _ hq => hq.instruct
  | regacc => exact .act fun _ h => h.board fun _ hq => hq.regAccess
  | auxGoodAssert => exact .act fun _ h => h.auxAssert
  | ibiTaken => exact .act fun _ h => h.board fun _ hq => hq.takeIbi
  | unlistedCcc => exact .act fun _ h => h.board fun _ hq => hq.emit
  | msixTableWrite => exact .act fun _ h => h.bar4Write
  | bar0RefusedRead => exact .act fun _ h => h.refusedRead
  | fabPortCfg => exact .act fun _ h => h.rowWrite

theorem step_keeps {s u : State} (h : step s = .next u) : s.part.Keeps u.part := by
  unfold step at h
  split at h
  · cases h
    exact (Part.Keeps.refl _).tick
  next i rest _ =>
    obtain ⟨q, hq, hk⟩ := exec_keeps i { s with pending := rest }
    rw [hq] at h
    cases h
    exact hk

/-- Settles O57: bytes are written by `Part.setBytes` or dropped, and both keep the form (`step_keeps`). -/
theorem everyStepKeepsMemoryCanonical : Obligations.EveryStepKeepsMemoryCanonical :=
  fun _ _ hs h => (step_keeps h).1 hs

/-- Settles O58: registers and cores are written by `Part.setReg` and `Part.setCore` or dropped, and all keep the form (`step_keeps`). -/
theorem everyStepKeepsTablesCanonical : Obligations.EveryStepKeepsTablesCanonical :=
  fun _ _ hr hc h => ⟨(step_keeps h).2.1 hr, (step_keeps h).2.2 hc⟩

end Sys2Proof.Machine

/-! ## The register map and the register file -/

namespace Sys2Proof.Machine

open Sys2Proof

/-! ### The part in reset -/

theorem findReg_mem {off : Nat} {l : List RegRow} {r : RegRow} {is : List Nat} (h : findReg off l = some (r, is)) : r ∈ l := by
  induction l with
  | nil => nomatch h
  | cons x l ih =>
    rw [findReg] at h
    split at h
    · cases h
      exact List.mem_cons_self
    · exact List.mem_cons_of_mem x (ih h)

theorem Reg.reset_lt : ∀ r ∈ Reg.map, r.reset < 2 ^ 64 := by decide +kernel

theorem Part.regN_reset {r : RegRow} {is : List Nat} (h : findReg (r.at is) Reg.map = some (r, is)) : Part.reset.regN (r.at is) = r.reset := by
  have hr : resetOf (r.at is) = BitVec.ofNat 64 r.reset := by simp only [resetOf, h]
  have hz : Part.reset.reg (r.at is) = BitVec.ofNat 64 r.reset := by
    rw [Part.reg, hr]
    exact BitVec.zero_xor
  rw [Part.regN, hz, BitVec.toNat_ofNat]
  exact Nat.mod_eq_of_lt (Reg.reset_lt r (findReg_mem h))

theorem Core.th_reset (t : Nat) : Core.reset.th t = Thread.reset := by
  simp only [Core.th, Core.reset, List.getD_eq_getElem?_getD, List.getElem?_replicate]
  split <;> rfl

/-- Settles O59: the part in reset holds no entry in any table, so that each register reads as its Reset value (`Part.regN_reset`). -/
theorem resetIsAsTheSpecSays : Obligations.ResetIsAsTheSpecSays :=
  ⟨rfl, rfl, rfl, rfl, fun _ _ _ h => Part.regN_reset h, fun _ t => congrArg Thread.st (Core.th_reset t), rfl, rfl, rfl, rfl⟩

/-! ### A register write -/

/-- No bit of the map is both RW and W1C. -/
theorem Reg.rw_and_w1c : ∀ r ∈ Reg.map, r.rw &&& r.w1c = 0 := by decide +kernel

theorem RegRow.getLsbD_written (r : RegRow) (old : W64) (w : Nat) {i : Nat} (hi : i < 64) (hr : r.rw &&& r.w1c = 0) :
    (r.written old (BitVec.ofNat 64 w)).getLsbD i =
      if r.w1c.testBit i then old.getLsbD i && !w.testBit i else if r.rw.testBit i then w.testBit i else old.getLsbD i := by
  have hb : (r.rw.testBit i && r.w1c.testBit i) = false := by rw [← Nat.testBit_and, hr, Nat.zero_testBit]
  simp only [RegRow.written, BitVec.getLsbD_and, BitVec.getLsbD_or, BitVec.getLsbD_not, BitVec.getLsbD_ofNat, hi, decide_true, Bool.true_and]
  cases hc : r.w1c.testBit i <;> cases hw : r.rw.testBit i <;> simp_all

/-- A register whose writes have no rule of their own takes the plain write. -/
theorem Part.regStore_plain (p : Part) {off : Nat} {r : RegRow} {is : List Nat} (v : W64) (h : findReg off Reg.map = some (r, is))
    (hr : r ∉ ownWrites) : p.regStore off v = (p.touchRegs off).plainWrite r off v := by
  simp only [ownWrites, List.mem_cons, List.not_mem_nil, or_false, not_or] at hr
  simp [Part.regStore, h, Part.writeHost, Part.writeSecurity, Part.writeTime, Part.writeStageRegs, Part.writeFabric, Part.writeCluster, hr]

theorem Part.regWrite_plain {p : Part} {by_ : Agent} {off width : Nat} {v : W64} {r : RegRow} {is : List Nat} (hp : p.present by_ = true)
    (ha : p.accessOk off width = true) (h : findReg off Reg.map = some (r, is)) (hr : r ∉ ownWrites) :
    p.regWrite by_ off width v = (p.touchRegs off).plainWrite r off (BitVec.ofNat 64 (v.toNat % 2 ^ (8 * width))) := by
  rw [Part.regWrite, hp, ha, if_neg (by decide), if_pos rfl, Part.regStore_plain _ _ h hr]

theorem Part.touchRegs_low (p : Part) {off : Nat} (h : off < 0x2000000) : p.touchRegs off = p := if_pos h

theorem Part.inBlock_of_accessOk {p : Part} {off width : Nat} (h : p.accessOk off width = true) : inBlock off = true := by
  simp only [Part.accessOk, Bool.and_eq_true] at h
  exact h.1.1.2

theorem inBlock_cluster {off : Nat} (h : inBlock off = true) (ho : 0x2000000 ≤ off) : off < 0x4000000 ∧ off % 0x800000 < 0x640000 := by
  simp only [inBlock, Bool.or_eq_true, Bool.and_eq_true, decide_eq_true_eq] at h
  omega

theorem Part.reg_touchBand (p : Part) (cl o : Nat) : (p.touchBand cl).reg o =
    if o = Reg.PWR_DOM_C.at [cl / 400] then p.reg (Reg.PWR_DOM_C.at [cl / 400]) ||| BitVec.ofNat 64 (2 ^ bandOf cl) else p.reg o :=
  p.reg_orReg _ _ _

/-- The cluster band that an offset in the register block of a cluster powers (19 R563) is one of the offset's die. -/
theorem Part.reg_touchRegs (p : Part) {off o : Nat} (hb : inBlock off = true) (ho : 0x2000000 ≤ off)
    (h : o ≠ Reg.PWR_DOM_C.at [(off - 0x2000000) / 0x800000]) : (p.touchRegs off).reg o = p.reg o := by
  have hcl : (400 * ((off - 0x2000000) / 0x800000) + off % 0x800000 / 0x4000) / 400 = (off - 0x2000000) / 0x800000 := by
    have := (inBlock_cluster hb ho).2
    omega
  rw [Part.touchRegs, if_neg (Nat.not_lt.mpr ho), Part.reg_touchBand, hcl, if_neg h]

theorem Reg.at_pwrDomC (d : Nat) : Reg.PWR_DOM_C.at [d] = 0x600010 + 8 * d := by
  simp [RegRow.at, Reg.PWR_DOM_C]

theorem Reg.pwrDomC_ne {off : Nat} (hb : inBlock off = true) (ho : 0x2000000 ≤ off) : off ≠ Reg.PWR_DOM_C.at [(off - 0x2000000) / 0x800000] := by
  have := (inBlock_cluster hb ho).1
  rw [Reg.at_pwrDomC]
  omega

/-- A write of any register leaves the other fields of the part, but for the power state where a cluster band is woken. -/
theorem Part.plainWrite_touchRegs_frame (p : Part) (r : RegRow) (off : Nat) (v : W64) :
    let q := (p.touchRegs off).plainWrite r off v
    q = { p with regs := q.regs, pwr := q.pwr } := by
  unfold Part.touchRegs
  split <;> rfl

/-- Settles O24, by the bits of `RegRow.written` and, for a cluster's register, by what waking its band touches (`Part.reg_touchRegs`). -/
theorem registerWriteFollowsAccessCodes : Obligations.RegisterWriteFollowsAccessCodes := by
  intro s by_ off width v r is ⟨hp, ha⟩ hf hr w
  have hb := Part.inBlock_of_accessOk ha
  have hold : (s.part.touchRegs off).reg off = s.part.reg off := by
    by_cases ho : off < 0x2000000
    · rw [Part.touchRegs_low _ ho]
    · exact Part.reg_touchRegs _ hb (Nat.not_lt.mp ho) (Reg.pwrDomC_ne hb (Nat.not_lt.mp ho))
  refine ⟨s.act fun p => (p.touchRegs off).plainWrite r off (BitVec.ofNat 64 w),
    congrArg (fun p => Host.Outcome.next (s.act fun _ => p)) (Part.regWrite_plain hp ha hf hr), fun i hi => ?_, fun ho => ?_, fun ho => ?_⟩
  · change (((s.part.touchRegs off).plainWrite r off _).reg off).getLsbD i = _
    rw [Part.plainWrite, Part.reg_setReg_self, hold]
    exact r.getLsbD_written _ w hi (Reg.rw_and_w1c r (findReg_mem hf))
  · simp only [State.act, Part.touchRegs_low _ ho]
    exact ⟨rfl, fun o hn => Part.reg_setReg_ne _ _ (by simpa using hn), fun _ => rfl, fun _ _ => rfl⟩
  · have hq := Part.plainWrite_touchRegs_frame s.part r off (BitVec.ofNat 64 w)
    refine ⟨congrArg (fun p => { s with part := p }) hq, fun o hn => ?_, fun a => (congrArg (Part.byteAt · a) hq).trans rfl,
      fun c _ => (congrArg (Part.core · c) hq).trans rfl⟩
    simp only [List.mem_cons, List.not_mem_nil, or_false, not_or] at hn
    exact (Part.reg_setReg_ne _ _ hn.1).trans (Part.reg_touchRegs _ hb ho hn.2)

/-! ### The offsets of the register map -/

/-- What the indices `is` add to an offset in the dimensions `ds`. -/
def dimSum (ds : List (Nat × Nat)) (is : List Nat) : Nat := (List.zipWith (fun d i => d.1 * i) ds is).sum

/-- The most that indices below the counts of `ds` add. -/
def dimSpan (ds : List (Nat × Nat)) : Nat := (ds.map fun d => d.1 * (d.2 - 1)).sum

/-- Each stride is more than the dimensions after it add, so that an offset is read back from the first dimension on. -/
def dimNested : List (Nat × Nat) → Bool
  | [] => true
  | d :: ds => decide (dimSpan ds < d.1) && dimNested ds

/-- An index below the count of each dimension. -/
abbrev DimIndices : List (Nat × Nat) → List Nat → Prop := List.Forall₂ fun d i => i < d.2

theorem RegRow.at_eq (r : RegRow) (is : List Nat) : r.at is = r.base + dimSum r.dims is := by
  rw [RegRow.at, dimSum, List.sum_eq_foldl]

theorem dimSum_cons (d : Nat × Nat) (ds : List (Nat × Nat)) (i : Nat) (is : List Nat) :
    dimSum (d :: ds) (i :: is) = d.1 * i + dimSum ds is := rfl

theorem dimSum_le_dimSpan {ds : List (Nat × Nat)} {is : List Nat} (h : DimIndices ds is) : dimSum ds is ≤ dimSpan ds := by
  induction h with
  | nil => exact Nat.le_refl 0
  | @cons d i ds is hi _ ih => exact Nat.add_le_add (Nat.mul_le_mul_left d.1 (Nat.le_sub_one_of_lt hi)) ih

theorem dimIndex_dimSum {ds : List (Nat × Nat)} {is : List Nat} (hn : dimNested ds = true) (h : DimIndices ds is) :
    dimIndex ds (dimSum ds is) = some is := by
  induction h with
  | nil => rfl
  | @cons d i ds is hi his ih =>
    simp only [dimNested, Bool.and_eq_true, decide_eq_true_eq] at hn
    have hlt : dimSum ds is < d.1 := (dimSum_le_dimSpan his).trans_lt hn.1
    have hdiv : (d.1 * i + dimSum ds is) / d.1 = i := by
      rw [Nat.mul_add_div (by omega), Nat.div_eq_of_lt hlt, Nat.add_zero]
    have hmod : (d.1 * i + dimSum ds is) % d.1 = dimSum ds is := by
      rw [Nat.mul_add_mod, Nat.mod_eq_of_lt hlt]
    rw [dimSum_cons, dimIndex, hdiv, hmod, if_pos hi, ih hn.2, Option.map_some]

theorem dimIndices_of_dimIndex {ds : List (Nat × Nat)} {o : Nat} {is : List Nat} (h : dimIndex ds o = some is) :
    DimIndices ds is ∧ o = dimSum ds is := by
  induction ds generalizing o is with
  | nil =>
    obtain ⟨ho, rfl⟩ : o = 0 ∧ [] = is := by simpa [dimIndex] using h
    exact ⟨.nil, ho⟩
  | cons d ds ih =>
    simp only [dimIndex] at h
    split at h
    next hlt =>
      obtain ⟨js, hj, rfl⟩ := Option.map_eq_some_iff.mp h
      obtain ⟨hjs, hsum⟩ := ih hj
      exact ⟨.cons hlt hjs, by rw [dimSum_cons, ← hsum, Nat.div_add_mod]⟩
    next => nomatch h

theorem RegRow.index_at {r : RegRow} {is : List Nat} (hn : dimNested r.dims = true) (h : DimIndices r.dims is) : r.index (r.at is) = some is := by
  rw [RegRow.index, RegRow.at_eq, if_neg (Nat.not_lt.mpr (Nat.le_add_right _ _)), Nat.add_sub_cancel_left, dimIndex_dimSum hn h]

theorem RegRow.eq_at_of_index {r : RegRow} {off : Nat} {is : List Nat} (h : r.index off = some is) : DimIndices r.dims is ∧ off = r.at is := by
  rw [RegRow.index] at h
  split at h
  next => nomatch h
  next hle =>
    obtain ⟨his, hsum⟩ := dimIndices_of_dimIndex h
    exact ⟨his, by rw [RegRow.at_eq]; omega⟩

/-- The first and the last offset of the row, each modulo `m`, where the strides that `m` divides do not count. -/
def RegRow.window (r : RegRow) (m : Nat) : Nat × Nat := (r.base % m, r.base % m + dimSpan (r.dims.filter fun d => d.1 % m != 0))

theorem dimSum_modEq {ds : List (Nat × Nat)} {is : List Nat} (m : Nat) (h : DimIndices ds is) :
    ∃ x ≤ dimSpan (ds.filter fun d => d.1 % m != 0), dimSum ds is ≡ x [MOD m] := by
  induction h with
  | nil => exact ⟨0, Nat.le_refl 0, rfl⟩
  | @cons d i ds is hi _ ih =>
    obtain ⟨x, hx, heq⟩ := ih
    by_cases hd : d.1 % m = 0
    · have hz : d.1 * i ≡ 0 [MOD m] := Nat.modEq_zero_iff_dvd.mpr ((Nat.dvd_of_mod_eq_zero hd).mul_right i)
      exact ⟨x, by simpa [hd] using hx, (hz.add heq).trans (by rw [Nat.zero_add])⟩
    · refine ⟨d.1 * i + x, ?_, heq.add_left _⟩
      rw [List.filter_cons_of_pos (by simpa using hd)]
      exact Nat.add_le_add (Nat.mul_le_mul_left d.1 (Nat.le_sub_one_of_lt hi)) hx

theorem RegRow.at_mod_mem_window {r : RegRow} {is : List Nat} {m : Nat} (hm : (r.window m).2 < m) (h : DimIndices r.dims is) :
    (r.window m).1 ≤ r.at is % m ∧ r.at is % m ≤ (r.window m).2 := by
  obtain ⟨x, hx, heq⟩ := dimSum_modEq m h
  have hle : r.base % m + x ≤ (r.window m).2 := Nat.add_le_add_left hx _
  have hat : r.at is % m = r.base % m + x := by
    rw [RegRow.at_eq]
    exact Eq.trans ((Nat.mod_modEq r.base m).symm.add heq) (Nat.mod_eq_of_lt (hle.trans_lt hm))
  rw [hat]
  exact ⟨Nat.le_add_right _ _, hle⟩

/-- The windows of the two rows modulo `m` do not meet. -/
def RegRow.apartMod (r s : RegRow) (m : Nat) : Bool :=
  decide ((r.window m).2 < m) && decide ((s.window m).2 < m) &&
    (decide ((r.window m).2 < (s.window m).1) || decide ((s.window m).2 < (r.window m).1))

/-- The two rows are apart for one of the strides of the map's blocks, or (the first modulus) in the whole map. -/
def RegRow.apart (r s : RegRow) : Bool := [2 ^ 26, 0x400000, 0x4000, 0x200, 0x100, 0x40, 0x20, 0x10].any (r.apartMod s)

theorem RegRow.at_ne_of_apart {r s : RegRow} (h : r.apart s = true) {is js : List Nat} (hi : DimIndices r.dims is) (hj : DimIndices s.dims js) :
    r.at is ≠ s.at js := by
  obtain ⟨m, -, hm⟩ := List.any_eq_true.mp h
  simp only [RegRow.apartMod, Bool.and_eq_true, Bool.or_eq_true, decide_eq_true_eq] at hm
  obtain ⟨⟨hr, hs⟩, hlt⟩ := hm
  intro heq
  have hir := RegRow.at_mod_mem_window hr hi
  have hjs := RegRow.at_mod_mem_window hs hj
  rw [heq] at hir
  omega

theorem findReg_at {l : List RegRow} (hl : l.Pairwise fun r s => r.apart s = true) {r : RegRow} (hr : r ∈ l) (hn : dimNested r.dims = true)
    {is : List Nat} (h : DimIndices r.dims is) : findReg (r.at is) l = some (r, is) := by
  induction l with
  | nil => nomatch hr
  | cons s l ih =>
    obtain ⟨hs, hl⟩ := List.pairwise_cons.mp hl
    rw [findReg]
    rcases List.mem_cons.mp hr with rfl | hr
    · rw [RegRow.index_at hn h]
    · split
      next js hjs =>
        obtain ⟨hj, heq⟩ := RegRow.eq_at_of_index hjs
        exact absurd heq.symm (RegRow.at_ne_of_apart (hs r hr) hj h)
      next => exact ih hl hr

theorem Reg.map_nested : ∀ r ∈ Reg.map, dimNested r.dims = true := by decide +kernel

theorem Reg.map_apart : Reg.map.Pairwise fun r s => r.apart s = true := by decide +kernel

/-- Settles O28: a row reads its own indices back (`Reg.map_nested`) and shares no offset with a row before it (`Reg.map_apart`). -/
theorem registerOffsetsNameOneRegister : Obligations.RegisterOffsetsNameOneRegister := by
  intro r hr is hlen hlt
  exact findReg_at Reg.map_apart hr (Reg.map_nested r hr) (List.forall₂_iff_zip.mpr ⟨hlen.symm, fun {d i} hdi => hlt (d, i) hdi⟩)

end Sys2Proof.Machine

/-! ## The rehearsal and the training of the ports -/

namespace Sys2Proof.Machine

open Sys2Proof

/-! ### Fields of a register -/

theorem fld_lt (w lo len : Nat) : fld w lo len < 2 ^ len := Nat.mod_lt _ (Nat.two_pow_pos len)

/-- A word is the bits above a field, the field and the bits below it. -/
theorem fld_split (w lo len : Nat) : w = w / 2 ^ (lo + len) * 2 ^ (lo + len) + fld w lo len * 2 ^ lo + w % 2 ^ lo := by
  have hdiv : w >>> lo / 2 ^ len = w / 2 ^ (lo + len) := by rw [Nat.shiftRight_eq_div_pow, Nat.div_div_eq_div_mul, ← Nat.pow_add]
  have hlow : w = w >>> lo * 2 ^ lo + w % 2 ^ lo := by rw [Nat.shiftRight_eq_div_pow, Nat.mul_comm, Nat.div_add_mod]
  have hhigh : w >>> lo = w / 2 ^ (lo + len) * 2 ^ len + fld w lo len := by rw [fld, ← hdiv, Nat.mul_comm, Nat.div_add_mod]
  calc w = (w / 2 ^ (lo + len) * 2 ^ len + fld w lo len) * 2 ^ lo + w % 2 ^ lo := by rw [← hhigh, ← hlow]
    _ = _ := by rw [Nat.add_mul, Nat.mul_assoc, ← Nat.pow_add, Nat.add_comm len lo]

theorem fld_of_parts {a v b lo len : Nat} (hv : v < 2 ^ len) (hb : b < 2 ^ lo) : fld (a * 2 ^ (lo + len) + v * 2 ^ lo + b) lo len = v := by
  have h : a * 2 ^ (lo + len) + v * 2 ^ lo + b = (a * 2 ^ len + v) * 2 ^ lo + b := by
    rw [Nat.add_mul, Nat.mul_assoc, ← Nat.pow_add, Nat.add_comm len lo]
  rw [fld, Nat.shiftRight_eq_div_pow, h, Nat.add_comm, Nat.add_mul_div_right _ _ (Nat.two_pow_pos lo), Nat.div_eq_of_lt hb, Nat.zero_add,
    Nat.add_comm, Nat.add_mul_mod_self_right, Nat.mod_eq_of_lt hv]

theorem Part.regN_lt (p : Part) (o : Nat) : p.regN o < 2 ^ 64 := (p.reg o).isLt

theorem Part.regFld_setFld_self (p : Part) (o : Nat) {lo len v : Nat} (hl : lo + len ≤ 64) (hv : v < 2 ^ len) :
    (p.setFld o lo len v).regFld o lo len = v := by
  have hw := fld_split (p.regN o) lo len
  have hlow : p.regN o % 2 ^ lo < 2 ^ lo := Nat.mod_lt _ (Nat.two_pow_pos lo)
  generalize hf : fld (p.regN o) lo len = f at hw
  generalize ha : p.regN o / 2 ^ (lo + len) = a at hw
  generalize hb : p.regN o % 2 ^ lo = b at hw hlow
  have hnew : p.regN o - f * 2 ^ lo + v % 2 ^ len * 2 ^ lo = a * 2 ^ (lo + len) + v * 2 ^ lo + b := by
    rw [Nat.mod_eq_of_lt hv]; omega
  have hlt : a * 2 ^ (lo + len) + v * 2 ^ lo + b < 2 ^ 64 := by
    have h64 : 2 ^ 64 = 2 ^ (64 - (lo + len)) * 2 ^ (lo + len) := by rw [← Nat.pow_add]; congr 1; omega
    have ha' : a < 2 ^ (64 - (lo + len)) := by
      rw [← ha]; exact Nat.div_lt_of_lt_mul (by rw [Nat.mul_comm, ← h64]; exact p.regN_lt o)
    have hvb : v * 2 ^ lo + b < 2 ^ (lo + len) := by
      have : (v + 1) * 2 ^ lo ≤ 2 ^ len * 2 ^ lo := Nat.mul_le_mul_right _ hv
      rw [← Nat.pow_add, Nat.add_comm len lo, Nat.add_mul] at this
      omega
    have : (a + 1) * 2 ^ (lo + len) ≤ 2 ^ (64 - (lo + len)) * 2 ^ (lo + len) := Nat.mul_le_mul_right _ ha'
    rw [← h64, Nat.add_mul] at this
    omega
  rw [Part.regFld, Part.setFld, hf, hnew, Part.regN_setRegN_self _ _ _ hlt, fld_of_parts hv hlow]

/-! ### What stands after a loop -/

/-- What every round leaves, the loop leaves. -/
theorem forEach_leaves {α β γ : Type} {l : List α} {f : α → β → β} (g : β → γ) (hk : ∀ a ∈ l, ∀ q, g (f a q) = g q) (q : β) :
    g (forEach l f q) = g q := by
  unfold forEach
  induction l generalizing q with
  | nil => rfl
  | cons a l ih => rw [List.foldl_cons, ih (fun b hb => hk b (List.mem_cons_of_mem a hb)), hk a List.mem_cons_self]

/-- The round of `a` decides `g`, and no other round touches it. -/
theorem forEach_decides {α β γ : Type} {l : List α} {f : α → β → β} (g : β → γ) {a : α} {v : γ} (ha : a ∈ l) (hw : ∀ q, g (f a q) = v)
    (hk : ∀ b ∈ l, b ≠ a → ∀ q, g (f b q) = g q) (q : β) : g (forEach l f q) = v := by
  induction l generalizing q with
  | nil => nomatch ha
  | cons b l ih =>
    by_cases hl : a ∈ l
    · exact ih hl (fun c hc => hk c (List.mem_cons_of_mem b hc)) _
    · have hab : a = b := (List.mem_cons.mp ha).resolve_right hl
      have hrest : ∀ q, g (forEach l f q) = g q :=
        forEach_leaves g fun c hc => hk c (List.mem_cons_of_mem b hc) fun h => hl (h ▸ hc)
      exact (hrest (f b q)).trans (hab ▸ hw q)

/-- Nothing but registers changes. -/
def Part.OnlyRegs (p q : Part) : Prop := ∃ r, q = { p with regs := r }

namespace Part.OnlyRegs

variable {p₀ p q : Part}

theorem refl (p : Part) : p.OnlyRegs p := ⟨_, rfl⟩

theorem setReg {o v} (h : p₀.OnlyRegs p) : p₀.OnlyRegs (p.setReg o v) := by
  obtain ⟨r, rfl⟩ := h
  exact ⟨_, rfl⟩

theorem setRegN {o v} (h : p₀.OnlyRegs p) : p₀.OnlyRegs (p.setRegN o v) := h.setReg
theorem setFld {o lo len v} (h : p₀.OnlyRegs p) : p₀.OnlyRegs (p.setFld o lo len v) := h.setReg
theorem orReg {o m} (h : p₀.OnlyRegs p) : p₀.OnlyRegs (p.orReg o m) := h.setReg

theorem forEach {α : Type} {l : List α} {f : α → Part → Part} (h : p₀.OnlyRegs p) (hf : ∀ a q, p₀.OnlyRegs q → p₀.OnlyRegs (f a q)) :
    p₀.OnlyRegs (Machine.forEach l f p) := by
  unfold Machine.forEach
  induction l generalizing p with
  | nil => exact h
  | cons a l ih => exact ih (hf a p h)

end Part.OnlyRegs

/-- The registers of `K` stand as before. -/
def Part.Spares (K : Nat → Prop) (p q : Part) : Prop := ∀ o, K o → q.reg o = p.reg o

namespace Part.Spares

variable {K : Nat → Prop} {p₀ p q : Part}

theorem refl (p : Part) : p.Spares K p := fun _ _ => rfl
theorem frame (h : p₀.Spares K p) (hr : q.regs = p.regs) : p₀.Spares K q := fun o ho => (Part.reg_congr hr o).trans (h o ho)

theorem ite {c : Prop} [Decidable c] (h : p₀.Spares K p) (h' : p₀.Spares K q) : p₀.Spares K (if c then p else q) := by
  split
  · exact h
  · exact h'

theorem forEach {α : Type} {l : List α} {f : α → Part → Part} (h : p₀.Spares K p) (hf : ∀ a ∈ l, ∀ q : Part, q.Spares K (f a q)) :
    p₀.Spares K (Machine.forEach l f p) :=
  fun o ho => (forEach_leaves (·.reg o) (fun a ha q => hf a ha q o ho) p).trans (h o ho)

theorem setReg {o v} (h : p₀.Spares K p) (ho : ¬ K o) : p₀.Spares K (p.setReg o v) :=
  fun _ hj => (Part.reg_setReg_ne _ _ (by rintro rfl; exact ho hj)).trans (h _ hj)
theorem setRegN {o v} (h : p₀.Spares K p) (ho : ¬ K o) : p₀.Spares K (p.setRegN o v) := h.setReg ho
theorem setFld {o lo len v} (h : p₀.Spares K p) (ho : ¬ K o) : p₀.Spares K (p.setFld o lo len v) := h.setReg ho
theorem andNotReg {o m} (h : p₀.Spares K p) (ho : ¬ K o) : p₀.Spares K (p.andNotReg o m) := h.setReg ho
theorem bump {o n} (h : p₀.Spares K p) (ho : ¬ K o) : p₀.Spares K (p.bump o n) := h.setReg ho
theorem bump48 {o n} (h : p₀.Spares K p) (ho : ¬ K o) : p₀.Spares K (p.bump48 o n) := h.setReg ho

theorem regN (h : p₀.Spares K p) {o : Nat} (ho : K o) : p.regN o = p₀.regN o := congrArg BitVec.toNat (h o ho)
theorem regFld (h : p₀.Spares K p) {o : Nat} (ho : K o) (lo len : Nat) : p.regFld o lo len = p₀.regFld o lo len :=
  congrArg (fld · lo len) (h.regN ho)

end Part.Spares

/-- Bytes and cores are as before. -/
def Part.SameStore (p q : Part) : Prop := q.mem = p.mem ∧ q.cores = p.cores

namespace Part.SameStore

variable {p₀ p q r : Part}

theorem refl (p : Part) : p.SameStore p := ⟨rfl, rfl⟩
theorem trans (h : p.SameStore q) (h' : q.SameStore r) : p.SameStore r := ⟨h'.1.trans h.1, h'.2.trans h.2⟩

theorem forEach {α : Type} {l : List α} {f : α → Part → Part} (hf : ∀ a ∈ l, ∀ q : Part, q.SameStore (f a q)) :
    p.SameStore (Machine.forEach l f p) :=
  ⟨forEach_leaves (·.mem) (fun a ha q => (hf a ha q).1) p, forEach_leaves (·.cores) (fun a ha q => (hf a ha q).2) p⟩

theorem ite {c : Prop} [Decidable c] (h : p₀.SameStore p) (h' : p₀.SameStore q) : p₀.SameStore (if c then p else q) := by
  split
  · exact h
  · exact h'

end Part.SameStore

theorem State.sameBytes_of_store {s u : State} (h : s.part.SameStore u.part) : s.sameBytes u := fun a => Part.byteAt_congr h.1 a
theorem State.sameCores_of_store {s u : State} (h : s.part.SameStore u.part) : s.sameCores u [] := fun c _ => Part.core_congr h.2 c

/-! ### The in-band interrupt and the blackout (19 R577, 15 R470) -/

/-- An event for board management touches the I3C target alone. -/
theorem Part.ibi_eq (p : Part) (kind further : Nat) : p.ibi kind further = { p with i3c := (p.ibi kind further).i3c } := by
  unfold Part.ibi Part.pumpIbi
  split <;> rfl

theorem Part.Spares.ibi {K : Nat → Prop} {p₀ p : Part} {kind further : Nat} (h : p₀.Spares K p) : p₀.Spares K (p.ibi kind further) :=
  h.frame (by rw [p.ibi_eq])

theorem Part.sameStore_ibi (p : Part) (kind further : Nat) : p.SameStore (p.ibi kind further) := by
  rw [p.ibi_eq]
  exact ⟨rfl, rfl⟩

/-! ### Power domains, the failed boot and the stages of the rehearsal (17 R508, 01 R28, 13 R381, 19 R562) -/

/-- The offsets of the power domains' status registers (19 R562). -/
abbrev isDomainReg (o : Nat) : Prop := 0x600010 ≤ o ∧ o < 0x600040

theorem isDomainReg_c {d : Nat} (h : d < 4) : isDomainReg (Reg.PWR_DOM_C.at [d]) := by
  simp [isDomainReg, RegRow.at, Reg.PWR_DOM_C]; omega
theorem isDomainReg_m {m : Nat} (h : m < 2) : isDomainReg (Reg.PWR_DOM_M.at [m]) := by
  simp [isDomainReg, RegRow.at, Reg.PWR_DOM_M]; omega
theorem isDomainReg_e {e : Nat} (h : e < 2) : isDomainReg (Reg.PWR_DOM_E.at [e]) := by
  simp [isDomainReg, RegRow.at, Reg.PWR_DOM_E]; omega

theorem Part.Spares.darkDomains {K : Nat → Prop} {p₀ p : Part} (h : p₀.Spares K p) (hK : ∀ o, isDomainReg o → ¬ K o) :
    p₀.Spares K p.darkDomains :=
  ((h.forEach fun _ hd q => (Spares.refl q).setRegN (hK _ (isDomainReg_c (List.mem_range.mp hd)))).forEach fun _ hm q =>
    (Spares.refl q).setRegN (hK _ (isDomainReg_m (List.mem_range.mp hm)))).setRegN (hK _ (isDomainReg_e (by decide)))
    |>.setRegN (hK _ (isDomainReg_e (by decide)))

/-- The registers that a blackout writes. -/
abbrev isDarkReg (o : Nat) : Prop := isDomainReg o ∨ o ∈ [Reg.CFG_CAUSE.at [], Reg.HST_PORT_STAT.at [0], Reg.HST_PORT_STAT.at [1]]

theorem Part.Spares.blackout {K : Nat → Prop} {p₀ p : Part} {cause named : Nat} (h : p₀.Spares K p) (hK : ∀ o, isDarkReg o → ¬ K o) :
    p₀.Spares K (p.blackout cause named) := by
  have hl : ∀ o ∈ [Reg.CFG_CAUSE.at [], Reg.HST_PORT_STAT.at [0], Reg.HST_PORT_STAT.at [1]], ¬ K o := fun o ho => hK o (.inr ho)
  have hcause : p₀.Spares K ((p.chainSend 3 []).setRegN (Reg.CFG_CAUSE.at []) (cause + named * 256)) :=
    Spares.setRegN (h.frame rfl) (hl _ (by simp))
  have hdark := hcause.darkDomains fun o ho => hK o (.inl ho)
  unfold Part.blackout
  exact .ite h (.ibi (.frame (.setRegN (.setRegN (hdark.frame rfl) (hl _ (by simp))) (hl _ (by simp))) rfl))

theorem Part.OnlyRegs.darkDomains {p₀ p : Part} (h : p₀.OnlyRegs p) : p₀.OnlyRegs p.darkDomains :=
  ((h.forEach fun _ _ hq => hq.setRegN).forEach fun _ _ hq => hq.setRegN).setRegN.setRegN

/-- The part as its blackout begins: ABORT sent, the cause set. -/
def Part.aborted (p : Part) (w : Nat) : Part := (p.chainSend 3 []).setRegN (Reg.CFG_CAUSE.at []) w

/-- The registers in blackout. -/
def Part.darkRegs (p : Part) (w : Nat) : Part :=
  (((p.aborted w).darkDomains.dropContents).setRegN (Reg.HST_PORT_STAT.at [0]) 0).setRegN (Reg.HST_PORT_STAT.at [1]) 0

theorem State.darkFor_blackout {s u : State} {p : Part} {cause named : Nat} (hu : u.part = p.blackout cause named) (hphase : p.phase ≠ .blackout)
    (hout : p.out = s.part.out) (hchain : p.chain = s.part.chain) (hcause : cause + named * 256 < 2 ^ 64) : s.darkFor u cause named := by
  have hheader : p.chainHeader 3 = s.part.chainHeader 3 := by simp only [Part.chainHeader, hchain]
  have hregs : ∀ o, u.part.reg o = (p.darkRegs (cause + named * 256)).reg o := by
    intro o
    rw [hu, Part.blackout, if_neg hphase, Part.ibi_eq]
    rfl
  unfold Part.blackout at hu
  rw [if_neg hphase, Part.ibi_eq] at hu
  have hkept : (p.aborted (cause + named * 256)).Spares (· = Reg.CFG_CAUSE.at []) (p.darkRegs (cause + named * 256)) :=
    .setRegN (.setRegN (.frame (.darkDomains (.refl _) (by rintro _ ho rfl; exact absurd ho (by decide))) rfl) (by decide)) (by decide)
  refine ⟨by rw [hu], by rw [hu], ?_, by rw [hu], fun port hport => ?_, ?_⟩
  · rw [Part.regN, hregs, ← Part.regN, hkept.regN rfl]
    exact Part.regN_setRegN_self _ _ _ hcause
  · rw [Part.portUp, Part.regN, hregs]
    obtain rfl | rfl : port = 0 ∨ port = 1 := by omega
    · rw [Part.darkRegs, Part.reg_setRegN, if_neg (by decide), Part.reg_setRegN, if_pos rfl]
      rfl
    · rw [Part.darkRegs, Part.reg_setRegN, if_pos rfl]
      rfl
  · obtain ⟨r, hr⟩ := (Part.OnlyRegs.refl (p.aborted (cause + named * 256))).darkDomains
    rw [hu]
    change (p.aborted (cause + named * 256)).darkDomains.out = _
    rw [hr]
    simp only [Part.aborted, Part.chainSend, Part.setRegN_out, Part.emit, hout, hheader, List.append_nil]

theorem State.bootFails_bootFail {s u : State} {p : Part} {cause cfg : Nat} (hu : u.part = p.bootFail cause cfg) (hphase : p.phase ≠ .blackout)
    (hout : p.out = s.part.out) (hchain : p.chain = s.part.chain) (hcause : cause < 256) (hcfg : cfg < 256) : s.bootFails u cause cfg := by
  refine ⟨State.darkFor_blackout hu hphase hout hchain (by omega), ?_⟩
  have hkept : (p.setFld (Reg.SEC_BOOT_STAT.at []) 8 8 cause).Spares (· = Reg.SEC_BOOT_STAT.at []) (p.bootFail cause cfg) :=
    .blackout (.refl _) (by rintro _ ho rfl; exact absurd ho (by decide))
  rw [hu, hkept.regFld rfl]
  exact Part.regFld_setFld_self _ _ (by decide) hcause

/-! ### The rehearsal (17 R508, 01 R28 R30, 13 R381 R403) -/

theorem Part.OnlyRegs.setTrained {p₀ p : Part} {l : List Bool} (h : p₀.OnlyRegs p) : p₀.OnlyRegs (p.setTrained l) :=
  h.forEach fun _ _ hq => hq.orReg

/-- The rosters of the dies. -/
def Part.setRosters (p : Part) (l : List (BitVec 400)) : Part := forEach l.zipIdx (fun x q => q.setRoster x.2 x.1) p

/-- Configuration and capacity of both M-dies. -/
def Part.setMemories (p : Part) (cfg cap : Nat) : Part :=
  forEach (List.range 2) (fun m x => (x.setRegN (Reg.MEM_CFG.at [m]) cfg).setRegN (Reg.MEM_CAPACITY.at [m]) cap) p

/-- A point of the rate table of die `d`: the rate and the temperature. -/
def tableWord (rates : List (List Nat)) (temps : List Nat) (d j : Nat) : Nat :=
  (rates.getD d []).getD j 0 % 2 ^ 16 + (temps.getD d 0 % 256) * 2 ^ 16

/-- Die `d`'s rate table behind its first voltage commands. -/
def Part.setTable (p : Part) (rates : List (List Nat)) (temps : List Nat) (d : Nat) : Part :=
  forEach (List.range 15) (fun j y => y.setRegN (Reg.PCE_TABLE.at [d, j]) (tableWord rates temps d j)) (p.bootVolts d)

def Part.setTables (p : Part) (rates : List (List Nat)) (temps : List Nat) : Part := forEach (List.range 4) (fun d x => x.setTable rates temps d) p

theorem Reg.at_stgRoster (d i : Nat) : Reg.STG_ROSTER.at [d, i] = 0x1000400 + 0x400000 * d + 8 * i := by
  simp [RegRow.at, Reg.STG_ROSTER, Nat.add_assoc]
theorem Reg.at_stgRosterCount (d : Nat) : Reg.STG_ROSTER_COUNT.at [d] = 0x1000438 + 0x400000 * d := by
  simp [RegRow.at, Reg.STG_ROSTER_COUNT]

theorem Part.regN_setRoster_self (p : Part) (d : Nat) (m : BitVec 400) {i : Nat} (hi : i < 7) :
    (p.setRoster d m).regN (Reg.STG_ROSTER.at [d, i]) = fld m.toNat (64 * i) 64 := by
  have hcount : Reg.STG_ROSTER.at [d, i] ≠ Reg.STG_ROSTER_COUNT.at [d] := by
    rw [Reg.at_stgRoster, Reg.at_stgRosterCount]; omega
  rw [Part.setRoster, Part.regN, Part.reg_setRegN, if_neg hcount]
  refine forEach_decides (fun q : Part => q.regN (Reg.STG_ROSTER.at [d, i])) (List.mem_range.mpr hi)
    (fun q => Part.regN_setRegN_self _ _ _ (fld_lt _ _ _)) (fun j _ hji q => ?_) p
  have hne : Reg.STG_ROSTER.at [d, i] ≠ Reg.STG_ROSTER.at [d, j] := by
    rw [Reg.at_stgRoster, Reg.at_stgRoster]; omega
  exact congrArg BitVec.toNat (Part.reg_setReg_ne _ _ hne)

theorem Part.regN_setRoster_ne (p : Part) {d e : Nat} (m : BitVec 400) {i : Nat} (hi : i < 7) (hde : e ≠ d) :
    (p.setRoster e m).regN (Reg.STG_ROSTER.at [d, i]) = p.regN (Reg.STG_ROSTER.at [d, i]) := by
  refine (Spares.setRegN (.forEach (.refl p) fun j hj q => .setRegN (.refl q) ?_) ?_ : p.Spares (· = Reg.STG_ROSTER.at [d, i]) _).regN rfl
  · have := List.mem_range.mp hj
    rw [Reg.at_stgRoster, Reg.at_stgRoster]; omega
  · rw [Reg.at_stgRoster, Reg.at_stgRosterCount]; omega

theorem Part.OnlyRegs.setRosters {p₀ p : Part} {l : List (BitVec 400)} (h : p₀.OnlyRegs p) : p₀.OnlyRegs (p.setRosters l) :=
  h.forEach fun _ _ hq => (hq.forEach fun _ _ hr => hr.setRegN).setRegN

/-! #### The memories and the rate tables -/

theorem Part.regN_setMemories (p : Part) (cfg : Nat) {cap m : Nat} (hm : m < 2) (hcap : cap < 2 ^ 64) :
    (p.setMemories cfg cap).regN (Reg.MEM_CAPACITY.at [m]) = cap := by
  refine forEach_decides (fun q : Part => q.regN (Reg.MEM_CAPACITY.at [m])) (List.mem_range.mpr hm)
    (fun q => Part.regN_setRegN_self _ _ _ hcap) (fun j _ hjm q => ?_) p
  refine (Spares.setRegN (.setRegN (.refl q) ?_) ?_ : q.Spares (· = Reg.MEM_CAPACITY.at [m]) _).regN rfl
  all_goals simp [RegRow.at, Reg.MEM_CAPACITY, Reg.MEM_CFG]; omega

theorem Part.Spares.setMemories {K : Nat → Prop} {p₀ p : Part} {cfg cap : Nat} (h : p₀.Spares K p) (hK : ∀ o, K o → 0x1000000 ≤ o) :
    p₀.Spares K (p.setMemories cfg cap) := by
  refine h.forEach fun m hm q => .setRegN (.setRegN (.refl q) fun ho => ?_) fun ho => ?_
  all_goals
    have := List.mem_range.mp hm
    have := hK _ ho
    simp [RegRow.at, Reg.MEM_CAPACITY, Reg.MEM_CFG] at this
    omega

theorem Part.OnlyRegs.setMemories {p₀ p : Part} {cfg cap : Nat} (h : p₀.OnlyRegs p) : p₀.OnlyRegs (p.setMemories cfg cap) :=
  h.forEach fun _ _ hq => hq.setRegN.setRegN

theorem Reg.at_pceTable (d j : Nat) : Reg.PCE_TABLE.at [d, j] = 0x401200 + 0x40 * d + 4 * j := by
  simp [RegRow.at, Reg.PCE_TABLE, Nat.add_assoc]
theorem Reg.at_pceRailStat (d : Nat) : Reg.PCE_RAIL_STAT.at [d] = 0x401104 + 0x20 * d := by simp [RegRow.at, Reg.PCE_RAIL_STAT]

theorem Part.Spares.emit {K : Nat → Prop} {p₀ p : Part} {o : Output} (h : p₀.Spares K p) : p₀.Spares K (p.emit o) := h.frame rfl

theorem Part.Spares.bootVolts {K : Nat → Prop} {p₀ p : Part} {d : Nat} (h : p₀.Spares K p) (hd : ¬ K (Reg.PCE_RAIL_STAT.at [d])) :
    p₀.Spares K (p.bootVolts d) := by
  have hvolts : p.Spares K (p.bootVolts d) := .setRegN (.forEach (.ite (.emit (.refl p)) (.refl p)) fun _ _ q => .emit (.refl q)) hd
  exact fun o ho => (hvolts o ho).trans (h o ho)

theorem Part.Spares.setTable {K : Nat → Prop} {p₀ p : Part} {rates : List (List Nat)} {temps : List Nat} {d : Nat} (h : p₀.Spares K p)
    (hd : ¬ K (Reg.PCE_RAIL_STAT.at [d])) (hK : ∀ j < 15, ¬ K (Reg.PCE_TABLE.at [d, j])) : p₀.Spares K (p.setTable rates temps d) :=
  (h.bootVolts hd).forEach fun j hj q => .setRegN (.refl q) (hK j (List.mem_range.mp hj))

theorem tableWord_lt (rates : List (List Nat)) (temps : List Nat) (d j : Nat) : tableWord rates temps d j < 2 ^ 64 := by
  unfold tableWord
  have h16 := Nat.mod_lt ((rates.getD d []).getD j 0) (show 0 < 2 ^ 16 by decide)
  have h8 := Nat.mod_lt (temps.getD d 0) (show 0 < 256 by decide)
  omega

theorem Part.regN_setTable_self (p : Part) (rates : List (List Nat)) (temps : List Nat) (d : Nat) {j : Nat} (hj : j < 15) :
    (p.setTable rates temps d).regN (Reg.PCE_TABLE.at [d, j]) = tableWord rates temps d j := by
  refine forEach_decides (fun q : Part => q.regN (Reg.PCE_TABLE.at [d, j])) (List.mem_range.mpr hj)
    (fun q => Part.regN_setRegN_self _ _ _ (tableWord_lt _ _ _ _)) (fun i _ hij q => ?_) _
  have hne : Reg.PCE_TABLE.at [d, j] ≠ Reg.PCE_TABLE.at [d, i] := by
    rw [Reg.at_pceTable, Reg.at_pceTable]; omega
  exact congrArg BitVec.toNat (Part.reg_setReg_ne _ _ hne)

theorem Part.Spares.setTables {K : Nat → Prop} {p₀ p : Part} {rates : List (List Nat)} {temps : List Nat} (h : p₀.Spares K p)
    (hK : ∀ o, K o → 0x402000 ≤ o) : p₀.Spares K (p.setTables rates temps) := by
  refine h.forEach fun d hd q => .setTable (.refl q) (fun ho => ?_) fun j hj ho => ?_
  all_goals
    have hd := List.mem_range.mp hd
    have ho := hK _ ho
  · rw [Reg.at_pceRailStat] at ho; omega
  · rw [Reg.at_pceTable] at ho; omega

theorem Part.regN_setRosters (p : Part) (l : List (BitVec 400)) {d i : Nat} (hd : d < l.length) (hi : i < 7) :
    (p.setRosters l).regN (Reg.STG_ROSTER.at [d, i]) = fld (l.getD d 0).toNat (64 * i) 64 := by
  have hget : l.getD d 0 = l[d] := by rw [List.getD_eq_getElem?_getD, List.getElem?_eq_getElem hd, Option.getD_some]
  have hmem : (l[d], d) ∈ l.zipIdx := List.mk_mem_zipIdx_iff_getElem?.mpr (List.getElem?_eq_getElem hd)
  have hself : ∀ q : Part, (q.setRoster d l[d]).regN (Reg.STG_ROSTER.at [d, i]) = fld l[d].toNat (64 * i) 64 :=
    fun q => q.regN_setRoster_self d _ hi
  have hother : ∀ b ∈ l.zipIdx, b ≠ (l[d], d) → ∀ q : Part,
      (q.setRoster b.2 b.1).regN (Reg.STG_ROSTER.at [d, i]) = q.regN (Reg.STG_ROSTER.at [d, i]) := by
    rintro ⟨m, e⟩ hb hne q
    refine q.regN_setRoster_ne m hi fun hed => hne ?_
    subst hed
    rw [List.mk_mem_zipIdx_iff_getElem?, List.getElem?_eq_getElem hd] at hb
    rw [Option.some.inj hb]
  rw [hget]
  have hloop := forEach_decides (f := fun x q => Part.setRoster q x.2 x.1) (a := (l[d], d)) (v := fld l[d].toNat (64 * i) 64)
    (fun q : Part => q.regN (Reg.STG_ROSTER.at [d, i])) hmem hself hother
  exact hloop p

theorem Part.regN_setTables (p : Part) (rates : List (List Nat)) (temps : List Nat) {d j : Nat} (hd : d < 4) (hj : j < 15) :
    (p.setTables rates temps).regN (Reg.PCE_TABLE.at [d, j]) = tableWord rates temps d j := by
  have hself : ∀ q : Part, (q.setTable rates temps d).regN (Reg.PCE_TABLE.at [d, j]) = tableWord rates temps d j :=
    fun q => q.regN_setTable_self rates temps d hj
  have hother : ∀ e ∈ List.range 4, e ≠ d → ∀ q : Part,
      (q.setTable rates temps e).regN (Reg.PCE_TABLE.at [d, j]) = q.regN (Reg.PCE_TABLE.at [d, j]) := by
    intro e he hed q
    have he := List.mem_range.mp he
    have hs : q.Spares (· = Reg.PCE_TABLE.at [d, j]) (q.setTable rates temps e) := by
      refine Spares.setTable (.refl q) ?_ fun i hi => ?_
      · rw [Reg.at_pceTable, Reg.at_pceRailStat]; omega
      · rw [Reg.at_pceTable, Reg.at_pceTable]; omega
    exact hs.regN rfl
  have hloop := forEach_decides (f := fun d x => Part.setTable x rates temps d) (fun q : Part => q.regN (Reg.PCE_TABLE.at [d, j]))
    (List.mem_range.mpr hd) hself hother
  exact hloop p

theorem Part.sameStore_bootVolts (p : Part) (d : Nat) : p.SameStore (p.bootVolts d) := by
  have hfirst : p.SameStore (if d < 2 then p.emit (.avs d 3 (mVolt d)) else p) := .ite ⟨rfl, rfl⟩ (.refl p)
  have hpoints : ∀ q : Part, q.SameStore (forEach ((List.range 15).map (10 * ·) ++ [80]) (fun v x => x.emit (.avs d 0 (500 + (5 * v + 1) / 2))) q) :=
    fun _ => .forEach fun _ _ _ => ⟨rfl, rfl⟩
  have hrail : ∀ q : Part, q.SameStore (q.setRegN (Reg.PCE_RAIL_STAT.at [d]) (80 + 80 * 256)) := fun _ => ⟨rfl, rfl⟩
  exact (hfirst.trans (hpoints _)).trans (hrail _)

theorem Part.sameStore_setTables (p : Part) (rates : List (List Nat)) (temps : List Nat) : p.SameStore (p.setTables rates temps) :=
  .forEach fun d _ q => (q.sameStore_bootVolts d).trans (.forEach fun _ _ _ => ⟨rfl, rfl⟩)

theorem Part.Spares.stepReg {K : Nat → Prop} {p₀ p : Part} {j : Nat} (h : p₀.Spares K p) (hK : ∀ o, K o → o < 0x300000 ∨ 0x301000 ≤ o)
    (hj : j ≤ 10) :
    p₀.Spares K (p.stepReg j) := by
  refine (h.setRegN fun ho => ?_).setFld fun ho => ?_
  all_goals
    have := hK _ ho
    simp [RegRow.at, Reg.SEC_STEP_US, Reg.SEC_BOOT_STAT] at this
  omega

theorem Part.regFld_stepReg (p : Part) {j : Nat} (hj : j < 16) : (p.stepReg j).regFld (Reg.SEC_BOOT_STAT.at []) 0 4 = j :=
  Part.regFld_setFld_self _ _ (by decide) hj

theorem Part.Spares.enterProvision {K : Nat → Prop} {p₀ p : Part} (h : p₀.Spares K p) (hd : ∀ o, isDomainReg o → ¬ K o)
    (hb : ¬ K (Reg.SEC_BOOT_STAT.at [])) : p₀.Spares K p.enterProvision := by
  have hc := h.forEach (l := List.range 4) (f := fun d x => x.setRegN (Reg.PWR_DOM_C.at [d]) (2 ^ 49)) fun _ hm q =>
    .setRegN (.refl q) (hd _ (isDomainReg_c (List.mem_range.mp hm)))
  have hm := hc.forEach (l := List.range 2) (f := fun m x => x.setRegN (Reg.PWR_DOM_M.at [m]) (2 ^ 11)) fun _ hm q =>
    .setRegN (.refl q) (hd _ (isDomainReg_m (List.mem_range.mp hm)))
  have he := (hm.setRegN (v := 2 ^ 13 + 2 ^ 12 + 2 ^ 11 + 1) (hd _ (isDomainReg_e (e := 0) (by decide)))).setRegN (v := 2 ^ 13)
    (hd _ (isDomainReg_e (e := 1) (by decide)))
  exact .ibi (.setFld (.frame he rfl) hb)

theorem Part.sameStore_enterProvision (p : Part) : p.SameStore p.enterProvision := by
  have hc : p.SameStore (forEach (List.range 4) (fun d x => x.setRegN (Reg.PWR_DOM_C.at [d]) (2 ^ 49)) p) := .forEach fun _ _ _ => ⟨rfl, rfl⟩
  have hm : ∀ q : Part, q.SameStore (forEach (List.range 2) (fun m x => x.setRegN (Reg.PWR_DOM_M.at [m]) (2 ^ 11)) q) :=
    fun _ => .forEach fun _ _ _ => ⟨rfl, rfl⟩
  exact ((hc.trans (hm _)).trans ⟨rfl, rfl⟩).trans (Part.sameStore_ibi _ 5 0)

theorem Part.enterProvision_facts (p : Part) : p.enterProvision.phase = .provision ∧
    p.enterProvision.regFld (Reg.SEC_BOOT_STAT.at []) 0 4 = 11 ∧ p.enterProvision.sec.rpuf = none := by
  unfold Part.enterProvision
  rw [Part.ibi_eq]
  exact ⟨rfl, Part.regFld_setFld_self _ _ (by decide) (by decide), rfl⟩

/-! ### The outcomes of the rehearsal (17 R508 R511 R519) -/

/-- Step 7 is reached. -/
def Part.endRehearsal (p : Part) : Part := Part.stepReg { p with pce := { p.pce with mvolts := (List.range 2).map mVolt }, phase := .rehearsed } 7

/-- Step 7 is reached, and PROVISION behind it where the part has no owner (17 R519). -/
def Part.leaveRehearsal (p : Part) (ownerless : Bool) : Part := if ownerless then p.endRehearsal.enterProvision else p.endRehearsal

theorem Part.sameStore_leaveRehearsal (p : Part) (b : Bool) : p.SameStore (p.leaveRehearsal b) :=
  .ite (SameStore.trans ⟨rfl, rfl⟩ p.endRehearsal.sameStore_enterProvision) ⟨rfl, rfl⟩

theorem Part.Spares.leaveRehearsal {K : Nat → Prop} {p₀ p : Part} {b : Bool} (h : p₀.Spares K p)
    (hK : ∀ o, K o → 0x400000 ≤ o ∧ o < 0x600000 ∨ 0x800000 ≤ o) : p₀.Spares K (p.leaveRehearsal b) := by
  have hend : p₀.Spares K p.endRehearsal := .stepReg (.frame h rfl) (fun o ho => by have := hK o ho; omega) (by decide)
  refine .ite (hend.enterProvision (fun o hd ho => ?_) fun ho => ?_) hend
  · have := hK o ho
    omega
  · exact absurd (hK _ ho) (by decide)

theorem Part.leaveRehearsal_owned (p : Part) :
    (p.leaveRehearsal false).phase = .rehearsed ∧ (p.leaveRehearsal false).regFld (Reg.SEC_BOOT_STAT.at []) 0 4 = 7 :=
  ⟨rfl, Part.regFld_stepReg _ (by decide)⟩

theorem Part.leaveRehearsal_unowned (p : Part) : (p.leaveRehearsal true).phase = .provision ∧
    (p.leaveRehearsal true).regFld (Reg.SEC_BOOT_STAT.at []) 0 4 = 11 ∧ (p.leaveRehearsal true).sec.rpuf = none :=
  p.endRehearsal.enterProvision_facts

theorem capacityOf_lt {d r : Nat} (hd : d ≤ 2) (hr : r ≤ 1) : capacityOf d r < 2 ^ 64 := by
  interval_cases d <;> interval_cases r <;> decide

/-- A good rehearsal record names a density and a number of ranks (13 R381). -/
theorem ranges_of_memRecBad {r : List Byte} (h : memRecBad r = false) : leAt r 5 1 ≤ 2 ∧ leAt r 6 1 ≤ 1 := by
  simp only [memRecBad, Bool.or_eq_false_iff, decide_eq_false_iff_not] at h
  omega

/-- The clusters that passed, die by die. -/
def dieMaps (passed : List (BitVec 400)) : List (BitVec 400) := (List.range 4).map (fun d => passed.getD d 0)

/-- The rehearsal record is bad or a channel has not trained. -/
def Part.memoryBad (p : Part) (trained : List Bool) : Bool := memRecBad p.sec.memRec || !(List.range 128).all (fun c => trained.getD c false)

/-- The part with its rosters and, behind them, its memories set. -/
def Part.surveyed (p : Part) (passed : List (BitVec 400)) (trained : List Bool) : Part :=
  let r := p.sec.memRec
  ((p.setTrained trained).setRosters (dieMaps passed)).setMemories (leAt r 4 1 + leAt r 5 1 * 4 + leAt r 6 1 * 16) (capacityOf (leAt r 5 1) (leAt r 6 1))

theorem Part.setTrained_frame (p : Part) (trained : List Bool) : ∃ r, p.setTrained trained = { p with regs := r } :=
  (Part.OnlyRegs.refl p).setTrained

/-- What a rehearsal of the firmware's part does, one branch for each outcome of 17 R508. -/
theorem Part.rehearse_eq {p : Part} (h : p.phase = .firmware) (passed : List (BitVec 400)) (trained : List Bool) (rates : List (List Nat))
    (temps : List Nat) :
    p.rehearse passed trained rates temps =
      if p.memoryBad trained then (p.setTrained trained).bootFail 5 0
      else if rosterBad (dieMaps passed) then (p.setTrained trained).bootFail 6 0
      else ((p.surveyed passed trained).setTables rates temps).leaveRehearsal (noOwner p.sec.owner) := by
  obtain ⟨r, hr⟩ := p.setTrained_frame trained
  have hsec : (p.setTrained trained).sec = p.sec := by rw [hr]
  rw [Part.rehearse, if_neg (by simp [h])]
  simp only [hsec]
  rfl

theorem State.bootFails_rehearsal {s u : State} {trained : List Bool} {cause : Nat} (hu : u.part = (s.part.setTrained trained).bootFail cause 0)
    (h : s.part.phase = .firmware) (hc : cause < 256) : s.bootFails u cause 0 := by
  obtain ⟨r, hr⟩ := s.part.setTrained_frame trained
  rw [hr] at hu
  exact State.bootFails_bootFail hu (by rw [h]; decide) rfl rfl hc (by decide)

section
variable (p : Part) (passed : List (BitVec 400)) (trained : List Bool) (rates : List (List Nat)) (temps : List Nat) (b : Bool)

theorem Part.sameStore_surveyed : p.SameStore (p.surveyed passed trained) := by
  obtain ⟨r, hr⟩ := ((Part.OnlyRegs.refl p).setTrained (l := trained)).setRosters (l := dieMaps passed) |>.setMemories
    (cfg := leAt p.sec.memRec 4 1 + leAt p.sec.memRec 5 1 * 4 + leAt p.sec.memRec 6 1 * 16)
    (cap := capacityOf (leAt p.sec.memRec 5 1) (leAt p.sec.memRec 6 1))
  rw [Part.surveyed, hr]
  exact ⟨rfl, rfl⟩

/-- The part as a good rehearsal leaves it. -/
def Part.rehearsedWell : Part := ((p.surveyed passed trained).setTables rates temps).leaveRehearsal b

theorem Part.sameStore_rehearsedWell : p.SameStore (p.rehearsedWell passed trained rates temps b) :=
  ((p.sameStore_surveyed passed trained).trans (Part.sameStore_setTables _ rates temps)).trans (Part.sameStore_leaveRehearsal _ b)

theorem Part.capacity_rehearsedWell (h : p.memoryBad trained = false) {m : Nat} (hm : m < 2) :
    (p.rehearsedWell passed trained rates temps b).regN (Reg.MEM_CAPACITY.at [m]) = capacityOf (leAt p.sec.memRec 5 1) (leAt p.sec.memRec 6 1) := by
  have hrec : memRecBad p.sec.memRec = false := by
    simp only [Part.memoryBad, Bool.or_eq_false_iff] at h
    exact h.1
  obtain ⟨hdens, hranks⟩ := ranges_of_memRecBad hrec
  have hkept : (p.surveyed passed trained).Spares (0x800000 ≤ ·) (p.rehearsedWell passed trained rates temps b) :=
    .leaveRehearsal (.setTables (.refl _) fun o ho => by omega) fun o ho => .inr ho
  rw [hkept.regN (by simp [RegRow.at, Reg.MEM_CAPACITY]; omega)]
  exact Part.regN_setMemories _ _ hm (capacityOf_lt hdens hranks)

theorem Part.roster_rehearsedWell {d i : Nat} (hd : d < 4) (hi : i < 7) :
    (p.rehearsedWell passed trained rates temps b).regN (Reg.STG_ROSTER.at [d, i]) = fld ((dieMaps passed).getD d 0).toNat (64 * i) 64 := by
  have hkept : ((p.setTrained trained).setRosters (dieMaps passed)).Spares (0x1000000 ≤ ·) (p.rehearsedWell passed trained rates temps b) :=
    .leaveRehearsal (.setTables (.setMemories (.refl _) fun o ho => ho) fun o ho => by omega) fun o ho => .inr (by omega)
  rw [hkept.regN (by rw [Reg.at_stgRoster]; omega)]
  exact Part.regN_setRosters _ _ (by simpa [dieMaps] using hd) hi

theorem Part.table_rehearsedWell {d j : Nat} (hd : d < 4) (hj : j < 15) :
    (p.rehearsedWell passed trained rates temps b).regFld (Reg.PCE_TABLE.at [d, j]) 0 16 = (rates.getD d []).getD j 0 % 2 ^ 16 := by
  have hkept : ((p.surveyed passed trained).setTables rates temps).Spares (fun o => 0x400000 ≤ o ∧ o < 0x600000)
      (p.rehearsedWell passed trained rates temps b) := .leaveRehearsal (.refl _) fun o ho => .inl ho
  rw [hkept.regFld (by rw [Reg.at_pceTable]; omega), Part.regFld, Part.regN_setTables _ _ _ hd hj]
  simp [fld, tableWord]

end

theorem rehearsal_settles (s : State) (passed : List (BitVec 400)) (trained : List Bool) (rates : List (List Nat)) (temps : List Nat)
    (h : s.part.phase = .firmware) :
      let r := s.part.sec.memRec
      let l := (List.range 4).map (fun d => passed.getD d 0)
      let badMem := memRecBad r || !(List.range 128).all (fun c => trained.getD c false)
      ∃ u, exec (.rehearsal passed trained rates temps) s = .next u ∧
        (badMem = true → s.bootFails u 5 0) ∧ (badMem = false → rosterBad l = true → s.bootFails u 6 0) ∧
        (badMem = false → rosterBad l = false → s.sameBytes u ∧ s.sameCores u [] ∧
          (∀ m < 2, u.part.regN (Reg.MEM_CAPACITY.at [m]) = capacityOf (leAt r 5 1) (leAt r 6 1)) ∧
          (∀ d < 4, ∀ i < 7, u.part.regN (Reg.STG_ROSTER.at [d, i]) = fld (l.getD d 0).toNat (64 * i) 64) ∧
          (∀ d < 4, ∀ j < 15, u.part.regFld (Reg.PCE_TABLE.at [d, j]) 0 16 = (rates.getD d []).getD j 0 % 2 ^ 16) ∧
          (noOwner s.part.sec.owner = false → u.part.phase = .rehearsed ∧ u.part.regFld (Reg.SEC_BOOT_STAT.at []) 0 4 = 7) ∧
          (noOwner s.part.sec.owner = true → u.part.phase = .provision ∧ u.part.regFld (Reg.SEC_BOOT_STAT.at []) 0 4 = 11 ∧ u.part.sec.rpuf = none)) := by
  intro r l badMem
  have heq : (s.act (·.rehearse passed trained rates temps)).part = _ := Part.rehearse_eq h passed trained rates temps
  refine ⟨s.act (·.rehearse passed trained rates temps), rfl, fun hbad => ?_, fun hbad hroster => ?_, fun hbad hroster => ?_⟩
  · rw [if_pos (show s.part.memoryBad trained = true from hbad)] at heq
    exact State.bootFails_rehearsal heq h (by decide)
  · rw [show s.part.memoryBad trained = false from hbad, if_neg (by decide), if_pos (show rosterBad (dieMaps passed) = true from hroster)] at heq
    exact State.bootFails_rehearsal heq h (by decide)
  · rw [show s.part.memoryBad trained = false from hbad, if_neg (by decide), show rosterBad (dieMaps passed) = false from hroster, if_neg (by decide)] at heq
    have hu : (s.act (·.rehearse passed trained rates temps)).part = s.part.rehearsedWell passed trained rates temps (noOwner s.part.sec.owner) := heq
    clear heq
    generalize s.act (·.rehearse passed trained rates temps) = u at hu ⊢
    have hstore : s.part.SameStore u.part := hu ▸ s.part.sameStore_rehearsedWell passed trained rates temps _
    refine ⟨State.sameBytes_of_store hstore, State.sameCores_of_store hstore, fun m hm => ?_, fun d hd i hi => ?_, fun d hd j hj => ?_,
      fun howner => ?_, fun howner => ?_⟩
    all_goals rw [hu]
    · exact Part.capacity_rehearsedWell _ _ _ _ _ _ hbad hm
    · exact Part.roster_rehearsedWell _ _ _ _ _ _ hd hi
    · exact Part.table_rehearsedWell _ _ _ _ _ _ hd hj
    · rw [howner]
      exact Part.leaveRehearsal_owned _
    · rw [howner]
      exact Part.leaveRehearsal_unowned _

/-! ### Ports train (17 R508 R513) -/

/-- The registers of a host port's block. -/
abbrev isHostReg (o : Nat) : Prop := 0x100000 ≤ o ∧ o < 0x200000

theorem Part.Spares.onPort {K : Nat → Prop} {p₀ p : Part} {n : Nat} {f : Port → Port} (h : p₀.Spares K p) :
    p₀.Spares K (p.onPort n f) := h.frame rfl
theorem Part.Spares.sendFlit {K : Nat → Prop} {p₀ p : Part} {n kind seq fvc : Nat} {payload : List Byte} (h : p₀.Spares K p) :
    p₀.Spares K (p.sendFlit n kind seq fvc payload) := h.onPort.emit

theorem portReg_not {K : Nat → Prop} (hK : ∀ o, K o → o < 0x700000) {r : RegRow} (hr : 0x700000 ≤ r.base) (n : Nat) : ¬ K (portReg r n) := by
  intro ho
  have := hK _ ho
  rw [portReg, RegRow.at_eq] at this
  omega

theorem Part.Spares.pumpPort {K : Nat → Prop} {p₀ p : Part} {n f : Nat} (h : p₀.Spares K p) (hK : ∀ o, K o → o < 0x700000) :
    p₀.Spares K (Part.pumpPort n f p) := by
  induction f generalizing p with
  | zero => exact h
  | succ f ih =>
    unfold Part.pumpPort
    dsimp only
    refine .ite h ?_
    split
    · exact h
    · exact ih ((h.onPort.sendFlit.bump48 (portReg_not hK (by decide) n)).bump (portReg_not hK (by decide) n))

theorem Part.sameStore_pumpPort (n f : Nat) (p : Part) : p.SameStore (Part.pumpPort n f p) := by
  induction f generalizing p with
  | zero => exact .refl p
  | succ f ih =>
    unfold Part.pumpPort
    dsimp only
    refine .ite (.refl p) ?_
    split
    · exact .refl p
    · exact .trans ⟨rfl, rfl⟩ (ih _)

theorem Part.Spares.showPort {K : Nat → Prop} {p₀ p : Part} {n : Nat} (h : p₀.Spares K p) (hK : ∀ o, K o → o < 0x700000) :
    p₀.Spares K (p.showPort n) := h.setRegN (portReg_not hK (by decide) n)

theorem Part.Spares.trained {K : Nat → Prop} {p₀ p : Part} {n : Nat} {ok : Bool} (h : p₀.Spares K p) (hK : ∀ o, K o → o < 0x700000) :
    p₀.Spares K (p.trained n ok) := .ite h (.ite ((h.onPort.showPort hK).pumpPort hK) (h.onPort.showPort hK))

theorem Part.sameStore_trained (p : Part) (n : Nat) (ok : Bool) : p.SameStore (p.trained n ok) := by
  unfold Part.trained
  refine .ite (.refl p) (.ite (.trans ⟨rfl, rfl⟩ (Part.sameStore_pumpPort _ _ _)) ⟨rfl, rfl⟩)

/-! #### The feature directory lies below the registers (16 R502 to R504) -/

theorem fdrRecord_length (id : Nat) (body : List Byte) (next : Nat) : (fdrRecord id body next).length = 8 * ceilDiv (16 + body.length) 8 := by
  simp [fdrRecord, ceilDiv]
  omega

theorem fdrLayout_length (l : List (Nat × List Byte)) (off : Nat) :
    (fdrLayout off l).length = (l.map fun x => 8 * ceilDiv (16 + x.2.length) 8).sum := by
  induction l generalizing off with
  | nil => rfl
  | cons x l ih =>
    obtain ⟨id, body⟩ := x
    simp only [fdrLayout, List.length_append, fdrRecord_length, ih, List.map_cons, List.sum_cons]

theorem Part.fdr_length (p : Part) : (fdrLayout fdrBase p.fdrBodies).length = 224 := by
  rw [fdrLayout_length]
  simp [Part.fdrBodies, ceilDiv]

theorem Part.Spares.placeFdr {K : Nat → Prop} {p₀ p : Part} (h : p₀.Spares K p) (hK : ∀ o, K o → 0x100000 ≤ o) : p₀.Spares K p.placeFdr := by
  refine h.forEach fun i hi q => .setRegN (.refl q) fun ho => ?_
  have hi := List.mem_range.mp hi
  have ho := hK _ ho
  rw [Part.fdr_length] at hi
  unfold fdrBase at ho
  omega

theorem Part.sameStore_placeFdr (p : Part) : p.SameStore p.placeFdr := .forEach fun _ _ _ => ⟨rfl, rfl⟩

theorem Part.OnlyRegs.placeFdr {p₀ p : Part} (h : p₀.OnlyRegs p) : p₀.OnlyRegs p.placeFdr := h.forEach fun _ _ hq => hq.setRegN

/-- E1's host port and the fabric ports that no link uses go off. -/
def Part.dropPortDomains (p : Part) : Part :=
  forEach (List.range 16) (fun n x =>
    if bitOf (x.regN (portReg Reg.FAB_PORT_CFG n)) 0 then x else x.andNotReg (Reg.PWR_DOM_E.at [n / 8]) (2 ^ (n % 8 + 1)))
    (if p.portUp 1 then p else p.andNotReg (Reg.PWR_DOM_E.at [1]) 1)

theorem Part.Spares.dropPortDomains {K : Nat → Prop} {p₀ p : Part} (h : p₀.Spares K p) (hK : ∀ o, isDomainReg o → ¬ K o) :
    p₀.Spares K p.dropPortDomains := by
  refine Spares.forEach (.ite h (h.andNotReg (hK _ (isDomainReg_e (by decide))))) fun n hn q => .ite (.refl q) (.andNotReg (.refl q) (hK _ ?_))
  have := List.mem_range.mp hn
  exact isDomainReg_e (by omega)

theorem Part.sameStore_dropPortDomains (p : Part) : p.SameStore p.dropPortDomains := by
  have hoff : ∀ (q : Part) (o m : Nat), q.SameStore (q.andNotReg o m) := fun _ _ _ => ⟨rfl, rfl⟩
  unfold Part.dropPortDomains
  exact SameStore.trans (.ite (.refl p) (hoff p _ _)) (.forEach fun n _ q => .ite (.refl q) (hoff q _ _))

/-- READY is reached: the root secret is dropped, the bands and the control period start. -/
def Part.startReady (p : Part) (now : W64) : Part :=
  { p with
    phase := .ready
    sec := { p.sec with rpuf := none }
    pwr := { p.pwr with bandFree := (List.range 160).foldl (fun t i => Tab.put 0 t i now) [] }
    pce := { p.pce with lastPeriod := now } }

theorem Part.becomeReady_eq (p : Part) :
    p.becomeReady = (((p.dropPortDomains.startReady p.tim.interval).placeFdr).stepReg 10).ibi 1 0 := rfl

theorem Part.Spares.becomeReady {K : Nat → Prop} {p₀ p : Part} (h : p₀.Spares K p) (hK : ∀ o, K o → isHostReg o) :
    p₀.Spares K p.becomeReady := by
  rw [Part.becomeReady_eq]
  have hdrop := h.dropPortDomains fun o hd ho => by have := hK o ho; omega
  exact .ibi (.stepReg (.placeFdr (.frame hdrop rfl) fun o ho => (hK o ho).1) (fun o ho => by have := hK o ho; omega) (by decide))

theorem Part.sameStore_becomeReady (p : Part) : p.SameStore p.becomeReady := by
  rw [Part.becomeReady_eq]
  have hstart : ∀ q : Part, q.SameStore (q.startReady p.tim.interval) := fun _ => ⟨rfl, rfl⟩
  have hstep : ∀ q : Part, q.SameStore (q.stepReg 10) := fun _ => ⟨rfl, rfl⟩
  exact (((p.sameStore_dropPortDomains.trans (hstart _)).trans (Part.sameStore_placeFdr _)).trans (hstep _)).trans (Part.sameStore_ibi _ 1 0)

theorem Part.OnlyRegs.stepReg {p₀ p : Part} {j : Nat} (h : p₀.OnlyRegs p) : p₀.OnlyRegs (p.stepReg j) := h.setRegN.setFld

theorem Part.OnlyRegs.phase {p q : Part} (h : p.OnlyRegs q) : q.phase = p.phase := by
  obtain ⟨r, rfl⟩ := h
  rfl

theorem Part.OnlyRegs.sec {p q : Part} (h : p.OnlyRegs q) : q.sec = p.sec := by
  obtain ⟨r, rfl⟩ := h
  rfl

theorem Part.ibi_frame (p : Part) (kind further : Nat) : (p.ibi kind further).phase = p.phase ∧ (p.ibi kind further).sec = p.sec := by
  rw [p.ibi_eq]
  exact ⟨rfl, rfl⟩

theorem Part.startReady_facts (p : Part) (now : W64) : (p.startReady now).phase = .ready ∧ (p.startReady now).sec.rpuf = none := ⟨rfl, rfl⟩

theorem Part.becomeReady_facts (p : Part) : p.becomeReady.phase = .ready ∧ p.becomeReady.sec.rpuf = none ∧
    p.becomeReady.regFld (Reg.SEC_BOOT_STAT.at []) 0 4 = 10 := by
  rw [Part.becomeReady_eq]
  obtain ⟨hready, hroot⟩ := p.dropPortDomains.startReady_facts p.tim.interval
  generalize p.dropPortDomains.startReady p.tim.interval = q at hready hroot ⊢
  have hq : q.OnlyRegs (q.placeFdr.stepReg 10) := (Part.OnlyRegs.refl q).placeFdr.stepReg
  obtain ⟨hphase, hsec⟩ := (q.placeFdr.stepReg 10).ibi_frame 1 0
  have hstat := (Part.Spares.ibi (K := fun _ => True) (kind := 1) (further := 0) (.refl (q.placeFdr.stepReg 10))).regFld
    (o := Reg.SEC_BOOT_STAT.at []) trivial 0 4
  exact ⟨hphase.trans (hq.phase.trans hready), by rw [hsec, hq.sec, hroot], hstat.trans (Part.regFld_stepReg _ (by decide))⟩

/-- What HST_PORT_STAT shows of a trained link. -/
def hostWord (speed width : Nat) (flit : Bool) : Nat := speed % 8 + (width % 32) * 8 + 256 + flit.toNat * 512

theorem hostWord_lt (speed width : Nat) (flit : Bool) : hostWord speed width flit < 2 ^ 64 := by
  have h8 := Nat.mod_lt speed (show 0 < 8 by decide)
  have h32 := Nat.mod_lt width (show 0 < 32 by decide)
  have hflit := flit.toNat_le
  unfold hostWord
  omega

theorem Part.regN_setHostPort_self (p : Part) (i speed width : Nat) (flit : Bool) :
    (p.setHostPort i (some (speed, width, flit))).regN (Reg.HST_PORT_STAT.at [i]) = hostWord speed width flit :=
  Part.regN_setRegN_self _ _ _ (hostWord_lt speed width flit)

theorem Part.regN_setHostPort_ne (p : Part) {i j : Nat} (x : Option (Nat × Nat × Bool)) (h : j ≠ i) :
    (p.setHostPort i x).regN (Reg.HST_PORT_STAT.at [j]) = p.regN (Reg.HST_PORT_STAT.at [j]) := by
  cases x with
  | none => rfl
  | some x =>
    have hne : Reg.HST_PORT_STAT.at [j] ≠ Reg.HST_PORT_STAT.at [i] := by simp [RegRow.at, Reg.HST_PORT_STAT]; omega
    exact congrArg BitVec.toNat (Part.reg_setReg_ne _ _ hne)

theorem Part.sameStore_setHostPort (p : Part) (i : Nat) (x : Option (Nat × Nat × Bool)) : p.SameStore (p.setHostPort i x) := by
  cases x <;> exact ⟨rfl, rfl⟩

/-- Both host ports and the fabric ports have trained or failed to. -/
def Part.trainAll (p : Part) (host : List (Option (Nat × Nat × Bool))) (fabric : List Bool) : Part :=
  (forEach (List.range 16) (fun n x => x.trained n (fabric.getD n false))
    ((p.setHostPort 0 (host.getD 0 none)).setHostPort 1 (host.getD 1 none))).stepReg 9

theorem Part.trainPorts_based {p : Part} (h : p.phase = .based) (host : List (Option (Nat × Nat × Bool))) (fabric : List Bool) :
    p.trainPorts host fabric = (p.trainAll host fabric).becomeReady := by
  simp only [Part.trainPorts, h]
  rfl

theorem Part.sameStore_trainAll (p : Part) (host : List (Option (Nat × Nat × Bool))) (fabric : List Bool) : p.SameStore (p.trainAll host fabric) := by
  have hstep : ∀ q : Part, q.SameStore (q.stepReg 9) := fun _ => ⟨rfl, rfl⟩
  exact (((p.sameStore_setHostPort 0 _).trans (Part.sameStore_setHostPort _ 1 _)).trans
    (.forEach fun n _ q => q.sameStore_trained n _)).trans (hstep _)

theorem Part.regN_trainAll (p : Part) (host : List (Option (Nat × Nat × Bool))) (fabric : List Bool) {port speed width : Nat} {flit : Bool}
    (hport : port < 2) (h : host.getD port none = some (speed, width, flit)) :
    (p.trainAll host fabric).becomeReady.regN (Reg.HST_PORT_STAT.at [port]) = hostWord speed width flit := by
  have hkept : ((p.setHostPort 0 (host.getD 0 none)).setHostPort 1 (host.getD 1 none)).Spares isHostReg (p.trainAll host fabric).becomeReady :=
    .becomeReady (.stepReg (.forEach (.refl _) fun n _ q => .trained (.refl q) fun o ho => by omega) (fun o ho => by omega) (by decide)) fun o ho => ho
  rw [hkept.regN (by simp [RegRow.at, Reg.HST_PORT_STAT]; omega)]
  obtain rfl | rfl : port = 0 ∨ port = 1 := by omega
  · rw [Part.regN_setHostPort_ne _ _ (by decide), h, Part.regN_setHostPort_self]
  · rw [h, Part.regN_setHostPort_self]

theorem portTraining_readies (s : State) (host : List (Option (Nat × Nat × Bool))) (fabric : List Bool) (h : s.part.phase = .based) :
    ∃ u, exec (.bootPortTraining host fabric) s = .next u ∧ u.part.phase = .ready ∧ u.part.sec.rpuf = none ∧
        u.part.regFld (Reg.SEC_BOOT_STAT.at []) 0 4 = 10 ∧ s.sameBytes u ∧ s.sameCores u [] ∧
        ∀ port < 2, ∀ speed width flit, host.getD port none = some (speed, width, flit) →
          u.part.regN (Reg.HST_PORT_STAT.at [port]) = speed % 8 + (width % 32) * 8 + 256 + flit.toNat * 512 := by
  have hu : (s.act (·.trainPorts host fabric)).part = (s.part.trainAll host fabric).becomeReady := Part.trainPorts_based h host fabric
  refine ⟨s.act (·.trainPorts host fabric), rfl, ?_⟩
  generalize s.act (·.trainPorts host fabric) = u at hu ⊢
  have hstore : s.part.SameStore u.part := hu ▸ (s.part.sameStore_trainAll host fabric).trans (Part.sameStore_becomeReady _)
  obtain ⟨hphase, hroot, hstat⟩ := (s.part.trainAll host fabric).becomeReady_facts
  rw [← hu] at hphase hroot hstat
  exact ⟨hphase, hroot, hstat, State.sameBytes_of_store hstore, State.sameCores_of_store hstore,
    fun port hport speed width flit hx => hu ▸ s.part.regN_trainAll host fabric hport hx⟩

/-- Settles O43: each outcome of the rehearsal by its branch (`Part.rehearse_eq`), the registers by what the later stages spare (`Part.Spares`). -/
theorem rehearsalAndReady : Obligations.RehearsalAndReady := fun s passed trained rates temps =>
  ⟨rehearsal_settles s passed trained rates temps, fun host fabric h => portTraining_readies s host fabric h⟩

end Sys2Proof.Machine

/-! ## A SCENE recovery may put the cluster it has retired back on the roster -/

namespace Sys2Proof.Machine

open Sys2Proof

/-! ### Rows of the register map that no index takes to the roster's first word -/

/-- What divides the strides of every dimension of a row. -/
def RegRow.stride (r : RegRow) : Nat := r.dims.foldr (fun d g => Nat.gcd d.1 g) 0

/-- Whatever its indices, the row does not come to the first word of die 0's roster: it begins past it, or its stride misses it. -/
def RegRow.misses (r : RegRow) : Bool := decide (0x1000400 < r.base) || decide (r.base % r.stride ≠ 0x1000400 % r.stride)

theorem stride_dvd_dimSum (ds : List (Nat × Nat)) (is : List Nat) : ds.foldr (fun d g => Nat.gcd d.1 g) 0 ∣ dimSum ds is := by
  induction ds generalizing is with
  | nil => exact Nat.dvd_zero _
  | cons d ds ih =>
    cases is with
    | nil => exact Nat.dvd_zero _
    | cons i is => exact Nat.dvd_add ((Nat.gcd_dvd_left _ _).mul_right i) ((Nat.gcd_dvd_right _ _).trans (ih is))

theorem RegRow.at_ne_of_misses {r : RegRow} (h : r.misses = true) (is : List Nat) : r.at is ≠ 0x1000400 := by
  rw [RegRow.at_eq]
  rcases Bool.or_eq_true_iff.mp h with hlt | hmod
  · have := of_decide_eq_true hlt
    omega
  · intro heq
    obtain ⟨k, hk⟩ := stride_dvd_dimSum r.dims is
    refine of_decide_eq_true hmod ?_
    rw [← heq, hk]
    exact (Nat.add_mul_mod_self_left _ _ _).symm

/-! ### A cluster off the roster stays off while views are served -/

/-- Cluster 0 is off the roster. -/
def Part.Unlisted (p : Part) : Prop := (p.reg 0x1000400).getLsbD 0 = false

theorem Part.unlisted_iff (p : Part) : p.Unlisted ↔ p.onRoster 0 = false := by
  simp [Part.Unlisted, Part.onRoster, Part.regN, bitOf, fld, Reg.STG_ROSTER, RegRow.at, BitVec.getLsbD, Nat.testBit_zero]

namespace Part.Unlisted

variable {p q : Part}

theorem of_regs (h : p.Unlisted) (hr : q.regs = p.regs) : q.Unlisted := (congrArg (BitVec.getLsbD · 0) (Part.reg_congr hr _)).trans h

/-- The fields beside the registers are free. -/
theorem frame (h : p.Unlisted) {mem tagErr poison cores clusters reqs xfers partials views flight net retrainFails stg tim pce fab cfg chain hst sec err
    pwr i3c jtag phase out uid} :
    Part.Unlisted ⟨mem, tagErr, poison, p.regs, cores, clusters, reqs, xfers, partials, views, flight, net, retrainFails, stg, tim, pce, fab, cfg,
      chain, hst, sec, err, pwr, i3c, jtag, phase, out, uid⟩ := h

theorem ite {c : Prop} [Decidable c] (h : p.Unlisted) (h' : q.Unlisted) : Part.Unlisted (if c then p else q) := by
  split
  · exact h
  · exact h'

/-- A further step under a condition. -/
theorem andIf {c : Prop} [Decidable c] (h : p.Unlisted) (hq : p.Unlisted → q.Unlisted) : Part.Unlisted (if c then q else p) := ite (hq h) h

theorem forEach {α : Type} {l : List α} {f : α → Part → Part} (h : p.Unlisted) (hf : ∀ a ∈ l, ∀ q : Part, q.Unlisted → (f a q).Unlisted) :
    (Machine.forEach l f p).Unlisted := by
  unfold Machine.forEach
  induction l generalizing p with
  | nil => exact h
  | cons a l ih => exact ih (hf a List.mem_cons_self p h) fun b hb => hf b (List.mem_cons_of_mem a hb)

theorem foldlFst {α β : Type} {l : List β} {f : Part × α → β → Part × α} {x : Part × α} (h : x.1.Unlisted)
    (hf : ∀ y b, y.1.Unlisted → (f y b).1.Unlisted) : (l.foldl f x).1.Unlisted := by
  induction l generalizing x with
  | nil => exact h
  | cons b l ih => exact ih (hf x b h)

/-! #### Registers -/

theorem setReg {o v} (h : p.Unlisted) (ho : o ≠ 0x1000400) : (p.setReg o v).Unlisted :=
  (congrArg (BitVec.getLsbD · 0) (Part.reg_setReg_ne p v ho.symm)).trans h

theorem andNotReg {o m} (h : p.Unlisted) : (p.andNotReg o m).Unlisted := by
  by_cases ho : o = 0x1000400
  · subst ho
    unfold Part.Unlisted Part.andNotReg
    rw [Part.reg_setReg_self, BitVec.getLsbD_and, h, Bool.false_and]
  · exact h.setReg ho

theorem setRegN {o v} (h : p.Unlisted) (ho : o ≠ 0x1000400) : (p.setRegN o v).Unlisted := h.setReg ho
theorem setFld {o lo len v} (h : p.Unlisted) (ho : o ≠ 0x1000400) : (p.setFld o lo len v).Unlisted := h.setReg ho
theorem orReg {o m} (h : p.Unlisted) (ho : o ≠ 0x1000400) : (p.orReg o m).Unlisted := h.setReg ho
theorem bump {o n} (h : p.Unlisted) (ho : o ≠ 0x1000400) : (p.bump o n).Unlisted := h.setReg ho
theorem bump32 {o n} (h : p.Unlisted) (ho : o ≠ 0x1000400) : (p.bump32 o n).Unlisted := h.setReg ho
theorem bumpSat {o n} (h : p.Unlisted) (ho : o ≠ 0x1000400) : (p.bumpSat o n).Unlisted := h.setReg ho

/-! #### State outside the registers -/

theorem setRow {a row diff} (h : p.Unlisted) : (p.setRow a row diff).Unlisted := h.frame
theorem mergeRow {a l} (h : p.Unlisted) : (p.mergeRow a l).Unlisted := ite (h.frame) (h.frame)
theorem onCore {c f} (h : p.Unlisted) : (p.onCore c f).Unlisted := h.frame
theorem onCluster {cl f} (h : p.Unlisted) : (p.onCluster cl f).Unlisted := h.frame
theorem onReplica {anchor f} (h : p.Unlisted) : (p.onReplica anchor f).Unlisted := h.frame
theorem onTask {k f} (h : p.Unlisted) : (p.onTask k f).Unlisted := h.frame
theorem dropTask {k} (h : p.Unlisted) : (p.dropTask k).Unlisted := h.frame
theorem emit {o} (h : p.Unlisted) : (p.emit o).Unlisted := h.frame
theorem onRing {i f} (h : p.Unlisted) : (p.onRing i f).Unlisted := h.frame

theorem ibi {kind further} (h : p.Unlisted) : (p.ibi kind further).Unlisted := h.of_regs (by rw [p.ibi_eq])

/-! #### The host (16) -/

theorem signal {port v} (h : p.Unlisted) : (p.signal port v).Unlisted := ite (h.frame) (ite h.emit h)
theorem event {o m} (h : p.Unlisted) (ho : o ≠ 0x1000400) : (p.event o m).Unlisted := (h.orReg ho).signal.signal
theorem refuse {bit addr port} (h : p.Unlisted) : (p.refuse bit addr port).Unlisted := (h.setRegN (by decide)).event (by decide)
theorem signalRing {i} (h : p.Unlisted) : (p.signalRing i).Unlisted := h.onRing.signal

theorem writeRecord {i rec} (h : p.Unlisted) : (p.writeRecord i rec).Unlisted := by
  have hwritten {o v f} : (((p.emit o).setRegN (Reg.HST_CQ_TAIL.at [i]) v).onRing i f).Unlisted :=
    (h.emit.setRegN (RegRow.at_ne_of_misses (by decide) _)).onRing
  exact ite hwritten.signalRing hwritten

theorem loseRecord {i} (h : p.Unlisted) : (p.loseRecord i).Unlisted :=
  (h.bumpSat (RegRow.at_ne_of_misses (by decide) _)).event (RegRow.at_ne_of_misses (by decide) _)

theorem putRecord {i rec} (h : p.Unlisted) : (p.putRecord i rec).Unlisted := ite h.loseRecord (ite h.writeRecord (ite h.onRing h.loseRecord))
theorem putEvent {rec} (h : p.Unlisted) : (p.putEvent rec).Unlisted := ite h.putRecord h

/-! #### Tasks (10) -/

theorem placeAll {n} (h : p.Unlisted) : (Part.placeAll n p).Unlisted := by
  induction n generalizing p with
  | zero => exact h
  | succ n ih =>
    unfold Part.placeAll
    split
    · exact h
    · split
      · exact h
      · exact ih h.onTask.onCluster

theorem place (h : p.Unlisted) : p.place.Unlisted := h.placeAll

theorem accrue {r} (h : p.Unlisted) : (p.accrue r).Unlisted := by
  unfold Part.accrue
  dsimp only
  split
  · exact h
  · exact ite h ((h.bump (RegRow.at_ne_of_misses (by decide) _)).onTask.frame)

theorem seatDone {t} (h : p.Unlisted) : (p.seatDone t).Unlisted := by
  have hcounted {n} : ((p.bump (Reg.STG_SEAT_DONE.at [t.seat]) 1).setRegN (Reg.STG_SEAT_INFLIGHT.at [t.seat]) n).Unlisted :=
    (h.bump (RegRow.at_ne_of_misses (by decide) _)).setRegN (RegRow.at_ne_of_misses (by decide) _)
  exact ite h (ite ((hcounted.setFld (RegRow.at_ne_of_misses (r := Reg.STG_SEAT_CFG) (by decide) _)).frame) hcounted)

theorem seatDeadline {t} (h : p.Unlisted) : (p.seatDeadline t).Unlisted := by
  have hslack {v} : (p.setRegN (Reg.STG_SEAT_SLACK.at [t.seat]) v).Unlisted := h.setRegN (RegRow.at_ne_of_misses (by decide) _)
  unfold Part.seatDeadline
  dsimp only
  refine ite h (setRegN (ite (putEvent (setRegN (orReg (hslack.bumpSat ?_) ?_) ?_)) hslack) ?_) <;> exact RegRow.at_ne_of_misses (by decide) _

theorem freeSave {k} (h : p.Unlisted) : (p.freeSave k).Unlisted := by
  unfold Part.freeSave
  split
  · split
    · exact h.onTask.frame
    · exact h
  · exact h

theorem notifyDone {t code cause} (h : p.Unlisted) : (p.notifyDone t code cause).Unlisted := by
  unfold Part.notifyDone
  refine ite ?_ h
  split
  · exact h.putRecord
  · exact h

theorem outcomeReg_ne (d code : Nat) : outcomeReg d code ≠ 0x1000400 := by
  unfold outcomeReg
  split <;> exact RegRow.at_ne_of_misses (by decide) _

theorem finishOne {t code cause} (h : p.Unlisted) : (p.finishOne t code cause).Unlisted := by
  have hcounted : ((p.freeSave t.key).bump (outcomeReg t.home code) 1).Unlisted := h.freeSave.bump (outcomeReg_ne _ _)
  have hfail : Reg.STG_LAST_FAIL.at [t.home] ≠ 0x1000400 := RegRow.at_ne_of_misses (by decide) _
  unfold Part.finishOne
  dsimp only
  refine .frame (.andIf (.dropTask ?_) (·.frame))
  split
  case' h_1 => refine .onCluster ?_
  all_goals exact (hcounted.andIf (·.setRegN hfail)).seatDone.seatDeadline.notifyDone

theorem finish {k code cause} (h : p.Unlisted) : (p.finish k code cause).Unlisted := by
  unfold Part.finish
  dsimp only
  split
  · exact h
  · refine ite h.finishOne ?_
    split
    · exact h.finishOne
    · exact ite (ite h.finishOne.onTask.finishOne h.finishOne.onTask.finishOne) h.finishOne.onTask

theorem resetQueue {c i} (h : p.Unlisted) : (p.resetQueue c i).Unlisted := by
  have hset {k} : (p.setCore c k).Unlisted := h.frame
  exact forEach (ite hset (hset.bump32 (RegRow.at_ne_of_misses (by decide) _))) fun _ _ _ hq => hq.onCore

theorem resetQueues {c} (h : p.Unlisted) : (p.resetQueues c).Unlisted := h.forEach fun _ _ _ hq => hq.resetQueue

theorem stopReplica {r} (h : p.Unlisted) : (p.stopReplica r).Unlisted := by
  have hslept := h.forEach (l := r.cores) (f := fun c x => if p.quiet c then x else x.bump (coreReg Reg.CORE_SLEEPS c []) 1)
    fun _ _ _ hq => ite hq (hq.bump (RegRow.at_ne_of_misses (by decide) _))
  have hstopped := hslept.forEach (l := r.cores) (f := fun c x => ((x.vecIdle c).onCore c Core.stop).resetQueues c)
    fun _ _ _ hq => hq.andNotReg.onCore.resetQueues
  exact (hstopped.forEach (fun _ _ _ hq => hq.onCluster)).onReplica.frame

theorem sendBack {r k} (h : p.Unlisted) : (p.sendBack r k).Unlisted := by
  have hdropped : (((p.accrue r).stopReplica r).dropDescs k).Unlisted := h.accrue.stopReplica.frame
  exact (hdropped.freeSave.bump (RegRow.at_ne_of_misses (by decide) _)).onTask

theorem abortOn {r k fate} (h : p.Unlisted) : (p.abortOn r k fate).Unlisted := by
  unfold Part.abortOn
  split
  · exact h
  · split
    · exact h.sendBack.finish
    · exact ite h.sendBack.finish h.sendBack.place

theorem abort {k fate} (h : p.Unlisted) : (p.abort k fate).Unlisted := by
  unfold Part.abort
  split
  · exact h.abortOn
  · split
    · exact h.finish.place
    · exact h

/-! #### Errors (18) -/

theorem darkDomains (h : p.Unlisted) : p.darkDomains.Unlisted := by
  have hc {d} (hd : d ∈ List.range 4) : Reg.PWR_DOM_C.at [d] ≠ 0x1000400 := by have := isDomainReg_c (List.mem_range.mp hd); omega
  have hm {m} (hm : m ∈ List.range 2) : Reg.PWR_DOM_M.at [m] ≠ 0x1000400 := by have := isDomainReg_m (List.mem_range.mp hm); omega
  exact (((h.forEach fun _ ha _ hq => hq.setRegN (hc ha)).forEach fun _ ha _ hq => hq.setRegN (hm ha)).setRegN (by decide)).setRegN (by decide)

theorem blackout {cause named} (h : p.Unlisted) : (p.blackout cause named).Unlisted := by
  have hdark : (((p.chainSend 3 []).setRegN (Reg.CFG_CAUSE.at []) (cause + named * 256)).darkDomains).Unlisted := (setRegN (h.frame) (by decide)).darkDomains
  have hdown := (setRegN (o := Reg.HST_PORT_STAT.at [0]) (v := 0) (hdark.frame : (Part.dropContents _).Unlisted) (by decide)).setRegN
    (o := Reg.HST_PORT_STAT.at [1]) (v := 0) (by decide)
  exact ite h (ibi (hdown.frame))

theorem logEntry {e handled detected program escalated depth parent} (h : p.Unlisted) (hh : handled ≤ 3) :
    (p.logEntry e handled detected program escalated depth parent).Unlisted := by
  have hword (n : Nat) {i} (hi : i ∈ List.range 8) : Reg.ERR_LOG.at [n % 4096, i] ≠ 0x1000400 := by
    have := List.mem_range.mp hi
    simp [RegRow.at, Reg.ERR_LOG]
    omega
  have hcount : Reg.ERR_COUNT.at [handled] ≠ 0x1000400 := by
    simp [RegRow.at, Reg.ERR_COUNT]
    omega
  have hlog {v : Nat → Nat} : (Machine.forEach (List.range 8)
      (fun i x => x.setRegN (Reg.ERR_LOG.at [(p.reg (Reg.ERR_SEQ.at [])).toNat % 4096, i]) (v i)) p).Unlisted :=
    h.forEach fun _ ha _ hq => hq.setRegN (hword _ ha)
  exact ((((ite (((hlog.bump (by decide)).bumpSat (by decide)).event (by decide)) hlog).setReg (by decide)).bump hcount).event (by decide)).putEvent

theorem fatal {seq} (h : p.Unlisted) : (p.fatal seq).Unlisted := by
  have hset : (p.setReg (Reg.ERR_FATAL.at []) seq).Unlisted := h.setReg (by decide)
  exact (ibi (hset.frame)).blackout

theorem clearBoard {anchor} (h : p.Unlisted) : (p.clearBoard anchor).Unlisted := (h.forEach fun _ _ _ hq => hq.onTask).onCluster

theorem retireCluster {cl parent depth} (h : p.Unlisted) : (p.retireCluster cl parent depth).Unlisted := by
  have hcount {d} : Reg.STG_ROSTER_COUNT.at [d] ≠ 0x1000400 := RegRow.at_ne_of_misses (by decide) _
  unfold Part.retireCluster
  dsimp only
  refine ite h (logEntry (((andNotReg ?_).setFld hcount).setFld hcount) (by decide))
  split
  · exact h.clearBoard
  · exact h

theorem beginScene {e seq depth fate} (h : p.Unlisted) : (p.beginScene e seq depth fate).Unlisted := by
  unfold Part.beginScene
  dsimp only
  split
  next r hr =>
    have hdark : (p.onReplica r.anchor (fun x => { x with dark := true })).Unlisted := h.onReplica
    refine frame ?_
    split
    case' h_1 => refine ite ?_ (abort ?_)
    all_goals
      split
      · exact hdark.abortOn
      · exact hdark
  next =>
    split
    · exact (ite h.retireCluster h).abort
    · exact ite h.retireCluster h

theorem sourceClass_le {n det : Nat} {b : Bool} (h : sourceClass n = some (det, b)) : det ≤ 3 := by
  unfold sourceClass at h
  split at h <;> simp at h <;> omega

end Part.Unlisted

/-! #### The homes of addresses (06 R193, 09 R270) -/

theorem homeOf_store_lt {cap a cl off : Nat} (h : homeOf cap a = .store cl off) : cl < 1600 := by
  unfold homeOf storeBase at h
  dsimp only at h
  split_ifs at h with _ _ _ hin hn
  injection h with hcl
  have ⟨_, hhi⟩ := Bool.and_eq_true_iff.mp hin
  have := of_decide_eq_true hhi
  omega

theorem homeOf_view_lt {cap a c off : Nat} (h : homeOf cap a = .view c off) : c < 25600 := by
  unfold homeOf viewBase at h
  dsimp only at h
  split_ifs at h with _ _ _ _ _ hin hn
  injection h with hc
  have ⟨_, hhi⟩ := Bool.and_eq_true_iff.mp hin
  have := of_decide_eq_true hhi
  omega

namespace Part.Unlisted

variable {p q : Part}

theorem raise {e fate} (h : p.Unlisted) : (p.raise e fate).Unlisted := by
  unfold Part.raise
  dsimp only
  refine ite h ?_
  split
  · exact h
  next det program hsrc =>
    have hdet := sourceClass_le hsrc
    generalize hcls : (if 2 ≤ _ then 3 else _) = cls
    have hle : cls ≤ 3 := by
      rw [← hcls]
      generalize (if (program || det == 0) = true then none else p.parentOf e) = parent
      cases parent with
      | none => exact hdet
      | some r =>
        dsimp only
        split <;> omega
    split
    · exact h.logEntry hle
    · refine ite ?_ (ite (frame ?_) ?_)
      all_goals
        split
        · exact (h.logEntry hle).abort
        · exact h.logEntry hle
    · exact (h.logEntry hle).beginScene
    · exact (h.logEntry hle).fatal

theorem fixResid {c off n} (h : p.Unlisted) : (p.fixResid c off n).Unlisted := ite h h.onCore

theorem resting {cs f} (h : p.Unlisted) (hf : ∀ q : Part, q.Unlisted → (f q).Unlisted) : (p.resting cs f).Unlisted :=
  (hf p h).forEach fun _ _ _ hq => ite (hq.bump (RegRow.at_ne_of_misses (by decide) _)) hq

/-! #### Rows and views (13, 06 R194) -/

theorem noteDamaged {a} (h : p.Unlisted) : (p.noteDamaged a).Unlisted := by
  have hfault : Reg.MEM_FAULT.at [mdieOf a] ≠ 0x1000400 := RegRow.at_ne_of_misses (by decide) _
  have haddr : Reg.MEM_FAULT_ADDR.at [mdieOf a] ≠ 0x1000400 := RegRow.at_ne_of_misses (by decide) _
  unfold Part.noteDamaged
  dsimp only
  split
  · exact ((h.bumpSat (RegRow.at_ne_of_misses (by decide) _)).orReg hfault).setRegN haddr
  · exact (h.orReg hfault).setRegN haddr
  · exact h

theorem touchBand {cl} (h : p.Unlisted) (hcl : cl < 1600) : (p.touchBand cl).Unlisted := by
  have hband := isDomainReg_c (d := cl / 400) (by omega)
  have hoff : Reg.PWR_DOM_C.at [cl / 400] ≠ 0x1000400 := by omega
  exact (h.orReg hoff).frame

theorem touch {a} (h : p.Unlisted) : (p.touch a).Unlisted := by
  unfold Part.touch
  split
  next cl off hhome => exact h.touchBand (homeOf_store_lt hhome)
  next c off hhome =>
    have := homeOf_view_lt hhome
    exact h.touchBand (by omega)
  · exact h

theorem countRead {a} (h : p.Unlisted) : (p.countRead a).Unlisted := ite (h.bump (RegRow.at_ne_of_misses (by decide) _)) h.touch
theorem countWrite {a} (h : p.Unlisted) : (p.countWrite a).Unlisted := ite (h.bump (RegRow.at_ne_of_misses (by decide) _)) h.touch

theorem spoilCache {core off} (h : p.Unlisted) : (p.spoilCache core off).Unlisted := h.onCore.orReg (RegRow.at_ne_of_misses (by decide) _)

theorem writePart {a l} (h : p.Unlisted) : (p.writePart a l).Unlisted := by
  unfold Part.writePart
  dsimp only
  split
  · exact ite (ite h.touch.spoilCache h.touch.mergeRow) h.touch.fixResid.frame
  · exact h.touch.mergeRow.countWrite

theorem rmw {a l} (h : p.Unlisted) : (p.rmw a l).Unlisted := (ite h.countRead.noteDamaged.raise h.countRead).writePart

theorem writeRow {a row diff} (h : p.Unlisted) : (p.writeRow a row diff).Unlisted := by
  unfold Part.writeRow
  dsimp only
  split
  · exact ite (ite h.touch.spoilCache h.touch.setRow) h.touch.fixResid.frame
  · exact h.touch.setRow.countWrite

theorem viewGet {x : Part × List Byte × Bool} {y} (h : x.1.Unlisted) : (Part.viewGet x y).1.Unlisted := by
  unfold Part.viewGet
  dsimp only
  split
  · exact h.countRead.raise
  · exact h.countRead

theorem viewPut {x} (h : p.Unlisted) : (p.viewPut x).Unlisted := ite h.writeRow h.rmw

theorem viewAccess {port a acc} (h : p.Unlisted) : (p.viewAccess port a acc).Unlisted := by
  cases acc with
  | read n =>
    have hread : ((piecesOf a n).foldl Part.viewGet (p, [], false)).1.Unlisted := foldlFst h fun _ _ hx => hx.viewGet
    exact hread.emit
  | write l => exact h.forEach fun _ _ _ hq => hq.viewPut

theorem pumpViewsF {n} (h : p.Unlisted) : (Part.pumpViewsF n p).Unlisted := by
  induction n generalizing p with
  | zero => exact h
  | succ n ih =>
    unfold Part.pumpViewsF
    split
    · exact h
    · refine ih (h.resting fun q hq => ite ?_ hq.frame.viewAccess)
      dsimp only
      split
      · exact hq.frame.refuse.emit
      · exact hq.frame.refuse

theorem pumpViews (h : p.Unlisted) : p.pumpViews.Unlisted := h.pumpViewsF

end Part.Unlisted

/-! ### The recovery of a tall replica

The rows of a replica's rectangle are not bound by its die. Cluster number 524338400 = 400 · 1310846 of such a rectangle has band 0, and the
power-domain word that `touchBand` writes for it, `PWR_DOM_C` with index 1310846, is the first roster word of die 0. -/

theorem mem_rectClusters {die origin w h row col : Nat} (hrow : row < h) (hcol : col < w) :
    400 * die + origin + 20 * row + col ∈ rectClusters die origin w h :=
  List.mem_flatMap.mpr ⟨row, List.mem_range.mpr hrow, List.mem_map.mpr ⟨col, List.mem_range.mpr hcol, rfl⟩⟩

theorem Part.lists_touchBand (p : Part) : ¬ (p.touchBand 524338400).Unlisted := by
  have hoff : Reg.PWR_DOM_C.at [524338400 / 400] = 0x1000400 := by decide
  have hband : 2 ^ bandOf 524338400 = 1 := by decide
  have hreg : (p.touchBand 524338400).reg 0x1000400 = p.reg 0x1000400 ||| BitVec.ofNat 64 1 := by
    unfold Part.touchBand
    rw [hoff, hband]
    exact Part.reg_setReg_self p 0x1000400 _
  rw [Part.Unlisted, hreg, BitVec.getLsbD_or]
  simp

theorem Part.Unlisted.of_touchBand {p : Part} {cl : Nat} (h : (p.touchBand cl).Unlisted) : p.Unlisted := by
  by_cases hoff : Reg.PWR_DOM_C.at [cl / 400] = 0x1000400
  · have hreg : (p.touchBand cl).reg 0x1000400 = p.reg 0x1000400 ||| BitVec.ofNat 64 (2 ^ bandOf cl) := by
      unfold Part.touchBand
      rw [hoff]
      exact Part.reg_setReg_self p 0x1000400 _
    rw [Part.Unlisted, hreg, BitVec.getLsbD_or, Bool.or_eq_false_iff] at h
    exact h.1
  · have hreg : (p.touchBand cl).reg 0x1000400 = p.reg 0x1000400 := Part.reg_setReg_ne p _ (Ne.symm hoff)
    exact (congrArg (BitVec.getLsbD · 0) hreg).symm.trans h

/-- Bands are only ever switched on, so the bit stands at the end of the loop. -/
theorem Part.lists_touchBands {l : List Nat} (h : 524338400 ∈ l) (p : Part) : ¬ (forEach l (fun cl x => x.touchBand cl) p).Unlisted := by
  have hkept (l : List Nat) (q : Part) (hq : (forEach l (fun cl x => x.touchBand cl) q).Unlisted) : q.Unlisted := by
    induction l generalizing q with
    | nil => exact hq
    | cons cl l ih => exact (ih _ hq).of_touchBand
  obtain ⟨l₁, l₂, rfl⟩ := List.append_of_mem h
  unfold forEach
  rw [List.foldl_append]
  exact fun hl => Part.lists_touchBand _ (hkept l₂ _ hl)

/-! #### What else the end of a recovery does -/

theorem Part.placeAll_frame (n : Nat) (p : Part) : (Part.placeAll n p).regs = p.regs ∧ (Part.placeAll n p).views = p.views := by
  induction n generalizing p with
  | zero => exact ⟨rfl, rfl⟩
  | succ n ih =>
    unfold Part.placeAll
    split
    · exact ⟨rfl, rfl⟩
    · split
      · exact ⟨rfl, rfl⟩
      · exact ih _

/-- The release of a replica without clusters leaves registers and waiting views alone. -/
theorem Part.releaseAll_frame {n : Replica} (hn : n.clusters = []) (p : Part) :
    (p.releaseAll [n]).regs = p.regs ∧ (p.releaseAll [n]).views = p.views := by
  have hcores : n.cores = [] := by rw [Replica.cores, hn]; rfl
  have hreleased : p.releaseReplicaRegion n = p.onReplica n.anchor (fun x => { x with dark := false, curts := [] }) := by
    simp [Part.releaseReplicaRegion, hcores, hn, forEach]
  have hroutes (q : Part) : q.freshRoutes n = q := by simp [Part.freshRoutes, hcores, forEach]
  have hall : p.releaseAll [n] = ((p.releaseReplicaRegion n).freshRoutes n).place := rfl
  rw [hall, hroutes, hreleased]
  exact Part.placeAll_frame _ _

/-- One round of `Part.showGolden`. -/
def Part.showDie (d : Nat) (p : Part) : Part := p.setRegN (Reg.PRM_STAT.at [d]) (p.cfg.golden.filter (fun g => g.die == d)).length

theorem Part.showGolden_eq (p : Part) : p.showGolden = forEach (List.range 4) Part.showDie p := rfl

theorem Part.views_showGolden (p : Part) : p.showGolden.views = p.views := by
  rw [p.showGolden_eq]
  exact forEach_leaves (f := Part.showDie) (·.views) (fun _ _ _ => rfl) p

theorem Part.unlisted_of_showGolden {p : Part} (h : p.showGolden.Unlisted) : p.Unlisted := by
  rw [p.showGolden_eq] at h
  have hreg := forEach_leaves (l := List.range 4) (f := Part.showDie) (·.reg 0x1000400) (fun d hd q => Part.reg_setReg_ne q _ (by
    have := List.mem_range.mp hd
    simp [RegRow.at, Reg.PRM_STAT]
    omega)) p
  exact (congrArg (BitVec.getLsbD · 0) hreg).symm.trans h

theorem Part.views_clearBoard (p : Part) (anchor : Nat) : (p.clearBoard anchor).views = p.views :=
  forEach_leaves (f := fun k (x : Part) => x.onTask k (fun t => { t with st := .ready, anchor := none })) (·.views) (fun _ _ _ => rfl) p

theorem Part.views_moveBoards (p : Part) (old : List Replica) : (p.moveBoards old).views = p.views := by
  refine forEach_leaves (·.views) (fun r _ q => ?_) p
  dsimp only
  split
  · split
    · rfl
    · exact forEach_leaves (f := fun k (z : Part) => z.onTask k _) (·.views) (fun _ _ _ => rfl) q
  · exact q.views_clearBoard r.anchor

theorem Part.finishRecovery_lists {r n : Replica} (hr : 524338400 ∈ r.region) (hn : n.clusters = []) (p : Part) :
    ¬ (p.finishRecovery r n).Unlisted := by
  intro h
  have hreleased := Part.unlisted_of_showGolden h
  exact Part.lists_touchBands (List.mem_append_left _ hr) _ (hreleased.of_regs (Part.releaseAll_frame hn _).1.symm)

theorem Part.views_finishRecovery {n : Replica} (hn : n.clusters = []) (p : Part) (r : Replica) : (p.finishRecovery r n).views = p.views := by
  unfold Part.finishRecovery
  dsimp only
  rw [Part.views_showGolden, (Part.releaseAll_frame hn _).2]
  refine (forEach_leaves (f := fun cl (x : Part) => x.touchBand cl) (·.views) (fun _ _ _ => rfl) _).trans ?_
  exact (Part.views_showGolden _).trans (p.views_moveBoards [r])

/-! #### The state of the counterexample: that of the test of a recovery, its replica 26216921 rows high -/

def tallReplica : Replica := { Tests.rep1 with w := 1, h := 26216921 }

/-- The replica of cluster 0 awaits its recovery, and cluster 0 is to be retired. -/
def tallState : State :=
  Tests.st { Tests.placeS.part with
    stg := { Tests.placeS.part.stg with replicas := [tallReplica] }
    err := { Tests.placeS.part.err with scenes := [(0, 0, 3)] } }

/-- The part without the replica. -/
def tallBare : Part := { tallState.part with stg := { tallState.part.stg with replicas := [] } }

/-- The record's replica, which has no clusters. -/
def freshReplica : Replica := (sceneRec Tests.recS).replica 0

/-- The part with the record's replica in its place. -/
def tallPlaced : Part := { tallBare with stg := { tallBare.stg with replicas := [freshReplica] } }

theorem Replica.region_of_unfenced {r : Replica} (h : r.fenced = false) : r.region = r.clusters := by
  rw [Replica.region, regionClusters, h]
  rfl

theorem tallReplica_holds : tallReplica.holds 0 = true := List.elem_eq_true_of_mem (mem_rectClusters (row := 0) (col := 0) (by decide) (by decide))

theorem tallReplica_region : 524338400 ∈ tallReplica.region := by
  rw [Replica.region_of_unfenced rfl]
  have hmem := mem_rectClusters (die := 0) (origin := 0) (show 26216920 < 26216921 by decide) (show 0 < 1 by decide)
  exact hmem

theorem tallState_offRoster : tallState.part.onRoster 0 = false := by decide +kernel

theorem tallState_retireCluster (parent : W64) (depth : Nat) : tallState.part.retireCluster 0 parent depth = tallState.part := by
  rw [Part.retireCluster, tallState_offRoster]
  rfl

theorem tallState_poolLost : tallState.part.poolLost 1 = false := Tests.wit_scene_pool

theorem freshReplica_facts : freshReplica.clusters = [] ∧ freshReplica.scene = 1 ∧ freshReplica.j = 0 ∧ freshReplica.anchor = 0 ∧
    (sceneRec Tests.recS).pin 0 = none ∧ (sceneRec Tests.recS).w = 0 ∧ (List.range 4).filter (bitOf (sceneRec Tests.recS).dies) = [0] ∧
    tallBare.roomFor freshReplica = true ∧ { freshReplica with die := 0, origin := 0 } = freshReplica := by decide +kernel

/-- With die 0 alone in the mask, a replica that fits at its first origin is placed there. -/
theorem Part.placeOf_first {p : Part} {rep : Replica} {dies : Nat} {raw : List Replica} {fs : List SceneFrame}
    (hdies : (List.range 4).filter (bitOf dies) = [0]) (hplace : { rep with die := 0, origin := 0 } = rep) (hroom : p.roomFor rep = true)
    (hfit : p.sheetsFit rep raw fs = true) : p.placeOf rep dies none raw fs = some (0, 0) := by
  have hrange : List.range 400 = 0 :: (List.range 399).map Nat.succ := List.range_succ_eq_map
  simp only [Part.placeOf, hdies, hrange, List.findSome?_cons, List.find?_cons, hplace, hroom, hfit, Bool.and_self, Option.map_some]

theorem tallBare_places : tallBare.placeReplica (sceneRec Tests.recS) [tallReplica] [] 0 [] = some tallPlaced := by
  obtain ⟨hclusters, -, -, -, hpin, hw, hdies, hroom, hplace⟩ := freshReplica_facts
  have hwrite : ∀ q : Part, q.writeConfig freshReplica [] = q := fun q => by simp [Part.writeConfig, hclusters, forEach]
  have hmem : tallBare.mem = Tests.placeP1.mem := rfl
  have hroutes : tallBare.mem.any (fun c => isRouteCell c.1) = false := by
    rw [hmem]
    exact Tests.pool_routes
  have hplaced : ({ tallBare with stg := { tallBare.stg with replicas := tallBare.stg.replicas ++ [freshReplica] } } : Part) = tallPlaced := rfl
  have hfit : tallBare.sheetsFit freshReplica [] [] = true := by simp [Part.sheetsFit, hwrite, Part.routesFit, hroutes]
  have hstay : ([tallReplica].find? fun x => x.scene == (sceneRec Tests.recS).scene && x.j == 0 && x.w == (sceneRec Tests.recS).w &&
      x.h == (sceneRec Tests.recS).h) = none := by
    simp [tallReplica, hw]
  have hplaceOf : tallBare.placeOf freshReplica (sceneRec Tests.recS).dies none [] [] = some (0, 0) := Part.placeOf_first hdies hplace hroom hfit
  simp only [Part.placeReplica, hpin, hstay, Option.map_none]
  rw [← freshReplica, hplaceOf, Option.map_some, hplace, hwrite, hplaced]

theorem tallState_replaces : ((tallState.part.sceneOf 1).bind tallState.part.recordOf).bind (tallState.part.replaceReplica tallReplica) =
    some (tallPlaced, freshReplica) := by
  obtain ⟨hclusters, hscene, hj, -⟩ := freshReplica_facts
  have hsceneOf : tallState.part.sceneOf 1 = some { Tests.scene0 with num := 1, script := 3 } := rfl
  have hframes : tallBare.sceneFrames 1 = [] := Tests.no_frames tallBare rfl rfl
  have htranslate : tallPlaced.translateAll freshReplica = tallPlaced := by simp [Part.translateAll, hclusters, forEach]
  have hroutes : tallPlaced.routedQueues = [] := by simp [Part.routedQueues, tallPlaced, Replica.cores, hclusters]
  have hplaced := Tests.replace_some tallState.part tallBare tallPlaced tallReplica freshReplica (sceneRec Tests.recS) rfl
    ((congrArg _ hframes).trans tallBare_places) (by simp [tallPlaced, hscene, hj, tallReplica, Tests.rep1, Tests.rep0])
    (by rw [htranslate, hroutes]; exact List.nodup_nil)
  rw [hsceneOf, Option.bind_some, Tests.record_of tallState.part _ rfl rfl rfl rfl, Option.bind_some, hplaced, htranslate]

/-- The part as its recovery leaves it. -/
def tallRecovered : Part := (tallPlaced.finishRecovery tallReplica freshReplica).endRecovery 3

theorem tallRecovered_listed : ¬ tallRecovered.Unlisted :=
  fun h => Part.finishRecovery_lists tallReplica_region freshReplica_facts.1 tallPlaced h.frame

theorem Part.pumpViews_of_none {p : Part} (h : p.views = []) : p.pumpViews = p := by
  rw [Part.pumpViews, h]
  rfl

theorem Part.views_endRecovery (p : Part) (seq : W64) : (p.endRecovery seq).views = p.views := rfl

theorem tallRecovered_pumpViews : tallRecovered.pumpViews = tallRecovered := by
  have hviews : tallPlaced.views = [] := rfl
  refine Part.pumpViews_of_none ?_
  rw [tallRecovered, Part.views_endRecovery, Part.views_finishRecovery freshReplica_facts.1, hviews]

theorem tallState_leaving : tallState.part.leaving 1 = false := rfl

theorem tallState_due : tallState.part.err.scenes.find? (fun x => x.1 / 400 == 0 / 400) = some (0, 0, 3) := rfl

theorem tallState_replicaOf : tallState.part.replicaOf 0 = some tallReplica := rfl

/-- Steps 2 to 5 where the cluster is off the roster already and the replica has a place. -/
theorem Part.recover_placed {p q : Part} {r n : Replica} {cl : Nat} {seq : W64} (hretire : p.retireCluster cl seq (p.depthOf seq) = p)
    (hpool : p.poolLost r.scene = false) (hplaced : ((p.sceneOf r.scene).bind p.recordOf).bind (p.replaceReplica r) = some (q, n)) :
    p.recover r cl seq false = (q.finishRecovery r n).endRecovery seq := by
  simp [Part.recover, hretire, hpool, hplaced]

/-- The oldest recovery of the die, of a replica that holds the cluster at fault. -/
theorem Part.sceneRecover_held {p : Part} {a cl : Nat} {seq : W64} {r : Replica} {b : Bool}
    (hdue : p.err.scenes.find? (fun x => x.1 / 400 == a / 400) = some (a, cl, seq)) (hr : p.replicaOf a = some r)
    (hleaving : p.leaving r.scene = false) (hholds : r.holds cl = true) : p.sceneRecover a cl b = p.recover r cl seq b := by
  simp [Part.sceneRecover, hdue, hr, hleaving, hholds]

theorem exec_sceneRecovery_of_ready {s : State} (h : s.part.phase = .ready) (a c : Nat) (b : Bool) :
    exec (.sceneRecovery a c b) s = .next { s with part := (s.part.sceneRecover a c b).pumpViews } := by
  have hexec : exec (.sceneRecovery a c b) s = .next (s.act fun p => if p.phase = .ready then (p.sceneRecover a c b).pumpViews else p) := rfl
  rw [hexec, State.act, if_pos h]

theorem tallState_recover : tallState.part.recover tallReplica 0 3 false = tallRecovered :=
  Part.recover_placed (p := tallState.part) (r := tallReplica) (cl := 0) (seq := 3) (tallState_retireCluster 3 (tallState.part.depthOf 3)) tallState_poolLost
    tallState_replaces

theorem tallState_sceneRecover : tallState.part.sceneRecover 0 0 false = tallState.part.recover tallReplica 0 3 false :=
  Part.sceneRecover_held (p := tallState.part) (a := 0) (cl := 0) (seq := 3) (r := tallReplica) (b := false) tallState_due tallState_replicaOf
    tallState_leaving tallReplica_holds

theorem tallState_ready : tallState.part.phase = .ready := rfl

theorem tallState_exec : exec (.sceneRecovery 0 0 false) tallState = .next { tallState with part := tallRecovered } := by
  rw [exec_sceneRecovery_of_ready tallState_ready, tallState_sceneRecover, tallState_recover, tallRecovered_pumpViews]

/-- Refutes O47: its last clause does not bound the rows of the replica's rectangle. In `tallState` they reach far past the dies, and the power-domain
word that the recovery writes for a cluster there is the roster word of cluster 0, the cluster at fault, which so is on the roster at its end. -/
theorem not_sceneRecoveryPlacesOrRemoves : ¬ Obligations.SceneRecoveryPlacesOrRemoves := by
  unfold Obligations.SceneRecoveryPlacesOrRemoves
  intro h
  obtain ⟨-, hfound⟩ := h tallState 0 0 0 3 tallState_ready tallState_due fun _ => rfl
  obtain ⟨-, -, hrecovered⟩ := hfound tallReplica tallState_replicaOf
  rw [if_pos (by decide), tallState_retireCluster] at hrecovered
  obtain ⟨-, hplaced⟩ := hrecovered tallState_leaving (fun _ => tallReplica_holds) tallState_poolLost
  obtain ⟨u, -, hu, -, -, -, -, -, hoff⟩ := hplaced tallPlaced freshReplica tallState_replaces fun x hx _ => by
    rw [List.mem_singleton.mp hx]
    rfl
  have hpart : tallRecovered = u.part.pumpViews := by
    rw [tallState_exec] at hu
    injection hu with hu
    exact congrArg State.part hu
  have hunlisted : u.part.Unlisted := u.part.unlisted_iff.mpr (hoff (by decide))
  exact tallRecovered_listed (hpart ▸ hunlisted.pumpViews)

end Sys2Proof.Machine

/-! ## Matrix steps: their start, their retirement, and the sums that an integer step leaves -/

namespace Sys2Proof.Machine
open Sys2Proof

/-! ### Bytes written and read back -/

theorem Memory.writeN_append (m : List Host.Cell) (a : Nat) (l r : List Byte) :
    Memory.writeN m a (l ++ r) = Memory.writeN (Memory.writeN m a l) (a + l.length) r := by
  induction l generalizing m a with
  | nil => rfl
  | cons b bs ih =>
    simp only [List.cons_append, Memory.writeN, ih, List.length_cons]
    congr 1
    omega

theorem Memory.readN_congr {m m' : List Host.Cell} {a n : Nat} (h : ∀ x, a ≤ x → x < a + n → Memory.read m' x = Memory.read m x) :
    Memory.readN m' a n = Memory.readN m a n := by
  induction n generalizing a with
  | zero => rfl
  | succ n ih =>
    rw [Memory.readN, Memory.readN, h a (Nat.le_refl a) (by omega), ih fun x hx hlt => h x (by omega) (by omega)]

/-- Bytes written between others read as written. -/
theorem Part.bytesAt_setBytes_mid (p : Part) (a : Nat) (l x r : List Byte) :
    (p.setBytes a (l ++ x ++ r)).bytesAt (a + l.length) x.length = x := by
  simp only [Part.bytesAt, Part.setBytes, Memory.writeN_append]
  rw [Memory.readN_congr fun y _ hy => Memory.read_writeN_out _ _ _ _ (.inl (by simp only [List.length_append]; omega)), Memory.readN_writeN]

theorem length_flatMap_of_const {α β : Type} {f : α → List β} {k : Nat} (hf : ∀ x, (f x).length = k) (l : List α) :
    (l.flatMap f).length = k * l.length := by
  simp [List.length_flatMap, hf, Nat.mul_comm]

/-- Records of one length `k`, written one behind the other, read as written. -/
theorem Part.bytesAt_setBytes_record {α : Type} {f : α → List Byte} {k : Nat} (hf : ∀ x, (f x).length = k) (p : Part) (a : Nat) {l : List α}
    {i : Nat} (hi : i < l.length) : (p.setBytes a (l.flatMap f)).bytesAt (a + k * i) k = f l[i] := by
  have hsplit : l.flatMap f = (l.take i).flatMap f ++ f l[i] ++ (l.drop (i + 1)).flatMap f := by
    rw [List.append_assoc, ← List.flatMap_cons, ← List.drop_eq_getElem_cons hi, ← List.flatMap_append, List.take_append_drop]
  have hmid := p.bytesAt_setBytes_mid a ((l.take i).flatMap f) (f l[i]) ((l.drop (i + 1)).flatMap f)
  rwa [← hsplit, length_flatMap_of_const hf, hf, List.length_take_of_le hi.le] at hmid

/-! ### A command on a core -/

/-- The effect of a command on a core, its last part `g` kept apart from what precedes it. -/
theorem State.coreCmd_eq_after {s : State} (hready : s.part.phase = .ready) {c : Nat} {f g : Part → Part} {q : Part} (h : f s.part = g q) :
    s.coreCmd c f = .next (s.after c q g) := by
  rw [State.coreCmd, State.live_eq hready]
  simp only [State.act, State.after, Part.onTheCore, Part.resting, h]

/-! ### Completion fields (07 R201, 11 R330 R332) -/

theorem forEach_eq_self {α β : Type} {l : List α} {f : α → β → β} {b : β} (h : ∀ a ∈ l, f a b = b) : forEach l f b = b := by
  unfold forEach
  induction l with
  | nil => rfl
  | cons a l ih => rw [List.foldl_cons, h a List.mem_cons_self, ih fun x hx => h x (List.mem_cons_of_mem a hx)]

theorem Core.calm.th_on {k : Core} (h : k.calm) {t : Nat} (ht : t < 8) : (k.th t).on = .nothing := by
  obtain ⟨hlen, hon⟩ := h
  have htl : t < k.threads.length := hlen ▸ ht
  rw [Core.th, List.getD_eq_getElem _ _ htl]
  exact hon _ (List.getElem_mem htl)

theorem Part.testThread_of_nothing {p : Part} {c t : Nat} (h : (p.th c t).on = .nothing) : Part.testThread c t p = p := by
  simp only [Part.testThread, h]

theorem Part.testPlain_of_nothing {p : Part} {c t : Nat} (h : (p.th c t).on = .nothing) : Part.testPlain c t p = p := by
  simp only [Part.testPlain, h]

/-- With no thread waiting there is nothing to test. -/
theorem Part.settle_of_calm {p : Part} {c : Nat} (h : (p.core c).calm) : p.settle c = p := by
  have hon : ∀ t ∈ List.range 8, (p.th c t).on = .nothing := fun t ht => h.th_on (List.mem_range.mp ht)
  rw [Part.settle, forEach_eq_self fun t ht => Part.testThread_of_nothing (hon t ht),
    forEach_eq_self fun t ht => Part.testPlain_of_nothing (hon t ht)]

/-- An addition that stays below 2^32 (11 R330). -/
theorem Part.countUp_of_fits {p : Part} {c i v : Nat} (h : ((p.core c).cnt.getD i 0).toNat + v < 2 ^ 32) :
    p.countUp c i v = p.setCore c { p.core c with cnt := (p.core c).cnt.set i ((p.core c).cnt.getD i 0 + BitVec.ofNat 32 v) } := by
  have hsum : BitVec.ofNat 32 (((p.core c).cnt.getD i 0).toNat + v) = (p.core c).cnt.getD i 0 + BitVec.ofNat 32 v := by
    rw [BitVec.ofNat_add, BitVec.ofNat_toNat, BitVec.setWidth_eq]
  rw [Part.countUp]
  simp only [if_neg (Nat.not_le.mpr h), hsum, Part.onCore]

theorem Part.addCounter_of_calm {p : Part} {c i v : Nat} (hcalm : (p.core c).calm) (h : ((p.core c).cnt.getD i 0).toNat + v < 2 ^ 32) :
    p.addCounter c i v = p.setCore c { p.core c with cnt := (p.core c).cnt.set i ((p.core c).cnt.getD i 0 + BitVec.ofNat 32 v) } := by
  rw [Part.addCounter]
  simp only [if_neg (Nat.not_le.mpr h), Part.countUp_of_fits h]
  exact Part.settle_of_calm (by rw [Part.core_setCore_self]; exact hcalm)

/-- On a core where no thread waits a completion field does no more than its addition. -/
theorem Part.completed_of_calm {p : Part} {c done : Nat} (hcalm : (p.core c).calm) (hfits : (p.core c).countFits done) :
    p.completed c done = if bitOf done 4 then p.setCore c { p.core c with cnt := (p.core c).counted done } else p := by
  unfold Part.completed
  split
  next hbit => rw [Part.addCounter_of_calm hcalm (hfits hbit), Core.counted, if_pos hbit]; rfl
  next => exact Part.settle_of_calm hcalm

theorem Part.cnt_completed_of_calm {p : Part} {c done : Nat} (hcalm : (p.core c).calm) (hfits : (p.core c).countFits done) :
    ((p.completed c done).core c).cnt = (p.core c).counted done := by
  rw [Part.completed_of_calm hcalm hfits]
  split
  next => rw [Part.core_setCore_self]
  next hbit => rw [Core.counted, if_neg hbit]

/-! ### What a target's run leaves unchanged (03 R79) -/

/-- The part without what a matrix step writes: cores, bytes and poison marks. -/
def Part.bare (p : Part) : Part := { p with cores := [], mem := [], poison := [] }

/-- The core without its side records. -/
def Core.sideless (k : Core) : Core := { k with sides := [] }

theorem Part.sameRest_of_bare {p q : Part} (h : q.bare = p.bare) : p.sameRest q := by
  have hq := congrArg (fun x : Part => { x with cores := q.cores, regs := q.regs, mem := q.mem, tagErr := q.tagErr, poison := q.poison,
                                                reqs := q.reqs, xfers := q.xfers, uid := q.uid }) h
  exact hq

theorem Part.regs_of_bare {p q : Part} (h : q.bare = p.bare) : q.regs = p.regs := congrArg (·.regs) h

@[simp] theorem Part.bare_onCore (p : Part) (c : Nat) (f : Core → Core) : (p.onCore c f).bare = p.bare := rfl
@[simp] theorem Part.bare_cleanTile (p : Part) (cores : List Nat) (tile : Nat) : (p.cleanTile cores tile).bare = p.bare := rfl

@[simp] theorem Part.bare_setXs (p : Part) (cores : List Nat) (tile : Nat) (xs : List Int) : (p.setXs cores tile xs).bare = p.bare := by
  refine forEach_leaves Part.bare (fun _ _ _ => ?_) p
  rfl

@[simp] theorem Part.core_setXs (p : Part) (cores : List Nat) (tile : Nat) (xs : List Int) (d : Nat) : (p.setXs cores tile xs).core d = p.core d := by
  refine forEach_leaves (fun q : Part => q.core d) (fun _ _ _ => ?_) p
  rfl

theorem Part.sideless_onSide (p : Part) (c t d : Nat) (f : Side → Side) :
    ((p.onCore c (fun k => k.onSide t f)).core d).sideless = (p.core d).sideless := by
  by_cases h : d = c
  · subst h; rw [Part.core_onCore_self]; rfl
  · rw [Part.core_onCore_ne p _ h]

/-- A run of a target writes X, takes marks of poison away and updates side records: what none of these touches stands. -/
theorem Part.runTarget_leaves {γ : Type} (g : Part → γ) (hset : ∀ (q : Part) cores tile xs, g (q.setXs cores tile xs) = g q)
    (hclean : ∀ (q : Part) cores tile, g (q.cleanTile cores tile) = g q)
    (hside : ∀ (q : Part) c t f, g (q.onCore c (fun k => k.onSide t f)) = g q)
    (p : Part) (m : MatStep) (osr : Bool) (o : Operands) (na nb : List (Option Int)) (factors : List (Num × Bool)) (t : Target) :
    g (p.runTarget m osr o na nb factors t) = g p := by
  unfold Part.runTarget
  dsimp only
  rw [forEach_leaves g fun _ _ _ => hside _ _ _ _]
  have hx : ∀ xs, g (if m.acc && m.scan then p else p.setXs t.cores t.tile xs) = g p := fun xs => by
    split
    · rfl
    · exact hset _ _ _ _
  split
  · exact hx _
  · exact (hclean _ _ _).trans (hx _)

theorem Part.bare_runTarget (p : Part) (m : MatStep) (osr : Bool) (o : Operands) (na nb : List (Option Int)) (factors : List (Num × Bool))
    (t : Target) : (p.runTarget m osr o na nb factors t).bare = p.bare :=
  Part.runTarget_leaves Part.bare Part.bare_setXs Part.bare_cleanTile (fun _ _ _ _ => rfl) p m osr o na nb factors t

theorem Part.sideless_runTarget (p : Part) (m : MatStep) (osr : Bool) (o : Operands) (na nb : List (Option Int)) (factors : List (Num × Bool))
    (t : Target) (d : Nat) : ((p.runTarget m osr o na nb factors t).core d).sideless = (p.core d).sideless :=
  Part.runTarget_leaves (fun q => (q.core d).sideless) (fun _ _ _ _ => congrArg _ (Part.core_setXs _ _ _ _ _)) (fun _ _ _ => rfl)
    (fun _ _ _ _ => Part.sideless_onSide _ _ _ _ _) p m osr o na nb factors t

/-! ### The start of a step (03 R79) -/

/-- The sidecar records that a step reads (05 R145). -/
def Part.stepRecs (p : Part) (c : Nat) (m : MatStep) : List (List (Int × Bool × Bool × Nat)) :=
  if (p.chainOf c m.chain).sidecar && !m.acc then (List.range m.m).map (p.sidecar c (p.chainOf c m.chain) m.k) else []

/-- The operands that a step reads. -/
def Part.stepOperands (p : Part) (c : Nat) (m : MatStep) : Operands :=
  p.operands c m (if (p.chainOf c m.chain).osr && ((p.chainOf c m.chain).sidecar && !m.acc) then p.stepRecs c m else [])

/-- The row factors of a step, each with whether its row holds a NaN (05 R159 R161). -/
def Part.stepFactors (p : Part) (c : Nat) (m : MatStep) : List (Num × Bool) :=
  (p.stepRecs c m).map (fun l => (rowFactor (p.chainOf c m.chain) l, (p.chainOf c m.chain).osr && l.any (fun x => x.2.2.1)))

/-- The part with the step at the head of core `c`'s matrix queue under way. -/
def Part.underWay (p : Part) (c : Nat) (m : MatStep) : Part :=
  p.onCore c (fun k => { k with matq := k.matq.drop 1, matRun := k.matRun ++ [m] })

/-- The rules on operands and rows that stop a step (03 R89 R93, 02 R52). -/
def Part.stepSound (p : Part) (c : Nat) (m : MatStep) : Prop :=
  (∀ r ∈ p.rowsTouched c m (p.stepOperands c m).live, p.placePoisoned c r = false) ∧ (p.stepOperands c m).bad = false ∧
  ∀ t ∈ m.targets c, p.wild m (p.stepOperands c m) t = false

/-- A step that nothing stops runs on each of its targets. -/
theorem Part.runStep_of_sound {p : Part} {c : Nat} {m : MatStep} (h : p.stepSound c m) :
    p.runStep c m = forEach (m.targets c) (fun t q => q.runTarget m (p.chainOf c m.chain).osr (p.stepOperands c m)
      ((p.stepOperands c m).a.map (anchorOf (p.stepOperands c m).live)) ((p.stepOperands c m).b.map (anchorOf (p.stepOperands c m).live))
      (p.stepFactors c m) t) (p.underWay c m) := by
  obtain ⟨hrows, hbad, hwild⟩ := h
  have hrows' : (p.rowsTouched c m (p.stepOperands c m).live).find? (fun r => p.placePoisoned c r) = none := by
    simpa using hrows
  have hwild' : (m.targets c).any (p.wild m (p.stepOperands c m)) = false := by
    simpa using hwild
  unfold Part.stepOperands Part.stepRecs at hrows' hbad hwild'
  unfold Part.runStep
  simp only [hrows', hbad, hwild', Bool.false_eq_true, if_false]
  rfl

theorem Part.startStep_of_ready {p : Part} {c : Nat} {m : MatStep} {ms : List MatStep} (hq : (p.core c).matq = m :: ms)
    (h : p.stepReady c m = true) : p.startStep c = p.runStep c m := by
  simp only [Part.startStep, hq, h, if_true]

theorem Part.bare_runStep {p : Part} {c : Nat} {m : MatStep} (h : p.stepSound c m) : (p.runStep c m).bare = p.bare := by
  rw [Part.runStep_of_sound h, forEach_leaves Part.bare fun _ _ _ => Part.bare_runTarget _ _ _ _ _ _ _ _]
  rfl

/-- All that a step's start changes in its core but for side records: the step leaves the queue and is under way. -/
theorem Part.sideless_runStep {p : Part} {c : Nat} {m : MatStep} (h : p.stepSound c m) :
    ((p.runStep c m).core c).sideless = { p.core c with matq := (p.core c).matq.drop 1, matRun := (p.core c).matRun ++ [m], sides := [] } := by
  rw [Part.runStep_of_sound h, forEach_leaves (fun q : Part => (q.core c).sideless) fun _ _ _ => Part.sideless_runTarget _ _ _ _ _ _ _ _ _,
    Part.underWay, Part.core_onCore_self]
  rfl

theorem exec_matrixStepStart_of_ready {s : State} (hready : s.part.phase = .ready) {c : Nat} {m : MatStep} {ms : List MatStep}
    (hq : (s.part.core c).matq = m :: ms) (h : s.part.stepReady c m = true) :
    exec (.matrixStepStart c) s = .next (s.after c (s.part.runStep c m) (·.unstall c)) :=
  State.coreCmd_eq_after hready (f := fun q => (q.startStep c).unstall c) (by rw [Part.startStep_of_ready hq h])

/-! ### The retirement of a step (03 R79, 05 R141, 07 R226) -/

theorem exec_matrixStepRetire_of_ready {s : State} (hready : s.part.phase = .ready) {c : Nat} {m : MatStep} {ms : List MatStep}
    (hrun : (s.part.core c).matRun = m :: ms) :
    exec (.matrixStepRetire c) s = .next (s.after c
      (s.part.setCore c { s.part.core c with matRun := ms, epiq := if m.close then (s.part.core c).epiq ++ [m] else (s.part.core c).epiq })
      (fun q => (q.completed c m.done).unstall c)) :=
  State.coreCmd_eq_after hready (f := fun q => (q.retireStep c).unstall c) (by simp only [Part.retireStep, hrun, Part.onCore])

/-- Settles O6: a completion field by the calm core (`Part.completed_of_calm`), a start by what runs of targets leave
(`Part.bare_runTarget`, `Part.sideless_runTarget`), a retirement as it is defined. -/
theorem matrixStepsStartAndRetire : Obligations.MatrixStepsStartAndRetire := by
  unfold Obligations.MatrixStepsStartAndRetire
  refine ⟨fun p c done hcalm hfits => ⟨Part.completed_of_calm hcalm hfits, Part.cnt_completed_of_calm hcalm hfits⟩, ?_⟩
  intro s c m ms hready
  refine ⟨fun hq hstep hrows hbad hwild => ?_, exec_matrixStepRetire_of_ready hready⟩
  have hsound : s.part.stepSound c m := ⟨hrows, hbad, hwild⟩
  have hbare := Part.bare_runStep hsound
  have hcore := Part.sideless_runStep hsound
  rw [hq] at hcore
  exact ⟨s.act (·.runStep c m), exec_matrixStepStart_of_ready hready hq hstep, Part.sameRest_of_bare hbare,
    fun o _ => Part.reg_congr (Part.regs_of_bare hbare) o, congrArg (·.matq) hcore, congrArg (·.matRun) hcore, congrArg (·.threads) hcore,
    congrArg (·.sh) hcore, congrArg (·.ptrs) hcore, congrArg (·.cnt) hcore⟩

/-! ### What an integer step leaves (02 R42 R46, 03 R79) -/

theorem xAddr_eq (c tile i : Nat) : xAddr c tile i = xAddr c tile 0 + 12 * i := by
  simp only [xAddr, viewAddr]
  omega

theorem Part.setXs_single (p : Part) (c tile : Nat) (xs : List Int) :
    p.setXs [c] tile xs = p.setBytes (xAddr c tile 0) (xs.flatMap (fun x => leBytes 12 (wrapInt 96 x))) := by
  simp [Part.setXs, forEach]

theorem leBytes_wrapInt_length (x : Int) : (leBytes 12 (wrapInt 96 x)).length = 12 := leBytes_length 12 _

/-- Each value of a tile of one core reads back where its element lies (02 R44). -/
theorem Part.bytesAt_setXs_single (p : Part) (c tile : Nat) {xs : List Int} {i : Nat} (hi : i < xs.length) :
    (p.setXs [c] tile xs).bytesAt (xAddr c tile i) 12 = leBytes 12 (wrapInt 96 xs[i]) := by
  rw [Part.setXs_single, xAddr_eq c tile i]
  exact p.bytesAt_setBytes_record leBytes_wrapInt_length _ hi

theorem Part.byteAt_setXs_single_out (p : Part) (c tile : Nat) {xs : List Int} {a : Nat} (h : a < xAddr c tile 0 ∨ xAddr c tile xs.length ≤ a) :
    (p.setXs [c] tile xs).byteAt a = p.byteAt a := by
  rw [Part.setXs_single]
  refine p.byteAt_setBytes_out _ _ _ ?_
  rwa [length_flatMap_of_const leBytes_wrapInt_length, ← xAddr_eq]

/-- The sum of the products of the lines of element `i`, 0 outside M × N (02 R46). -/
def MatStep.plainSum (m : MatStep) (o : Operands) (i : Nat) : Int :=
  if i / 16 < m.m ∧ i % 16 < m.n then
    (((o.a.getD (i / 16) []).zip (o.b.getD (i % 16) [])).zip o.live).foldr (fun x acc => (if x.2 then x.1.1.n * x.1.2.n else 0) + acc) 0
  else 0

theorem dot_plain (live : List Bool) (al be : Option Int) (a b : List El) :
    dot .plain live al be a b = ((a.zip b).zip live).foldr (fun x acc => (if x.2 then x.1.1.n * x.1.2.n else 0) + acc) 0 := by
  simp only [dot, addend, bne_self_eq_false, Bool.and_false, Bool.false_eq_true, if_false, List.sum, List.foldr_map]

/-- A plain overwrite step writes its sums to the tile of a target that begins at element 0, whatever else it does to marks and side records. -/
theorem Part.runTarget_plain {γ : Type} (g : Part → γ) (hclean : ∀ (q : Part) cores tile, g (q.cleanTile cores tile) = g q)
    (hside : ∀ (q : Part) c t f, g (q.onCore c (fun k => k.onSide t f)) = g q) {m : MatStep} {osr : Bool} (hacc : m.acc = false)
    (hscan : m.scan = false) (hkind : m.kind osr = .plain) {t : Target} (hr : t.r0 = 0) (hc : t.c0 = 0) (p : Part) (o : Operands)
    (na nb : List (Option Int)) (factors : List (Num × Bool)) :
    g (p.runTarget m osr o na nb factors t) = g (p.setXs t.cores t.tile ((List.range 256).map (m.plainSum o))) := by
  have hsum : ∀ (i : Nat) (al be : Option Int),
      (if m.scan || !(decide (i / 16 < m.m) && decide (i % 16 < m.n)) then 0
       else 0 + dot .plain o.live al be (o.a.getD (i / 16) []) (o.b.getD (i % 16) [])) = m.plainSum o i := by
    intro i al be
    simp only [MatStep.plainSum, dot_plain, hscan, Int.zero_add, Bool.false_or]
    by_cases h : i / 16 < m.m ∧ i % 16 < m.n <;> simp [h]
  unfold Part.runTarget
  dsimp only
  rw [forEach_leaves g fun _ _ _ => hside _ _ _ _]
  simp only [MatStep.kindOn, hacc, hkind, hr, hc, Nat.zero_add, Bool.false_eq_true, if_false, Bool.false_and, hsum, hclean]

theorem MatStep.targets_single {m : MatStep} (h : m.shape = 0) (c : Nat) : m.targets c = [⟨[c], m.tile, 0, 0⟩] := by
  simp only [MatStep.targets, h]

theorem Part.wild_of_overwrite {m : MatStep} (h : m.acc = false) (p : Part) (o : Operands) (t : Target) : p.wild m o t = false := by
  simp only [Part.wild, h, Bool.false_and]

theorem Part.stepOperands_of_no_sidecar {p : Part} {c : Nat} {m : MatStep} (h : (p.chainOf c m.chain).sidecar = false) :
    p.stepOperands c m = p.operands c m [] := by
  simp only [Part.stepOperands, h, Bool.false_and, Bool.and_false, Bool.false_eq_true, if_false]

/-- A plain overwrite step on a tile of one core writes the bytes of its sums and no others. -/
theorem Part.mem_runStep_plain {p : Part} {c : Nat} {m : MatStep} (hsound : p.stepSound c m) (hshape : m.shape = 0) (hacc : m.acc = false)
    (hscan : m.scan = false) (hkind : m.kind (p.chainOf c m.chain).osr = .plain) :
    (p.runStep c m).mem = (p.setXs [c] m.tile ((List.range 256).map (m.plainSum (p.stepOperands c m)))).mem := by
  rw [Part.runStep_of_sound hsound, MatStep.targets_single hshape]
  refine (Part.runTarget_plain (·.mem) (fun _ _ _ => rfl) (fun _ _ _ _ => rfl) hacc hscan hkind (t := ⟨[c], m.tile, 0, 0⟩) rfl rfl
    _ _ _ _ _).trans ?_
  rw [Part.setXs_single, Part.setXs_single]
  rfl

/-- Settles O7: the run of the step's one target writes its 256 sums and no other byte (`Part.mem_runStep_plain`), and each reads back where its
element lies (`Part.bytesAt_setXs_single`). -/
theorem integerStepLeavesTheSums : Obligations.IntegerStepLeavesTheSums := by
  unfold Obligations.IntegerStepLeavesTheSums
  intro s c m ms hready e o hq hstep hrows hbad hshape hacc hscan hsidecar hkind
  have ho : s.part.stepOperands c m = o := Part.stepOperands_of_no_sidecar hsidecar
  have hsound : s.part.stepSound c m := by
    rw [Part.stepSound, ho]
    exact ⟨hrows, hbad, fun t _ => Part.wild_of_overwrite hacc _ _ t⟩
  have hmem := Part.mem_runStep_plain hsound hshape hacc hscan hkind
  rw [ho] at hmem
  refine ⟨s.act (·.runStep c m), exec_matrixStepStart_of_ready hready hq hstep, fun i hi => ?_, fun a ha => ?_⟩
  · have hread := s.part.bytesAt_setXs_single c m.tile (xs := (List.range 256).map (m.plainSum o)) (i := i) (by simpa using hi)
    rw [List.getElem_map, List.getElem_range] at hread
    exact (congrArg (Memory.readN · (xAddr c m.tile i) 12) hmem).trans hread
  · exact (Part.byteAt_congr hmem a).trans (s.part.byteAt_setXs_single_out c m.tile (by simpa using ha))

end Sys2Proof.Machine

/-! ## Element program runs: their start and their end -/

namespace Sys2Proof.Machine
open Sys2Proof

/-! ### A loop over cores, each visited once -/

/-- Where the round of `a` alone touches `g`, a loop that comes to `a` once does to `g` what that round does. -/
theorem forEach_once {α β γ : Type} {l : List α} {f : α → β → β} (g : β → γ) (h : γ → γ) {a : α} (hl : l.Nodup) (ha : a ∈ l)
    (hw : ∀ q, g (f a q) = h (g q)) (hk : ∀ b ∈ l, b ≠ a → ∀ q, g (f b q) = g q) (q : β) : g (forEach l f q) = h (g q) := by
  obtain ⟨l₁, l₂, rfl⟩ := List.append_of_mem ha
  obtain ⟨-, ⟨hnot₂, -⟩, hnot₁⟩ : l₁.Nodup ∧ (a ∉ l₂ ∧ l₂.Nodup) ∧ ∀ b ∈ l₁, b ≠ a ∧ ∀ x ∈ l₂, b ≠ x := by
    simpa [List.nodup_append] using hl
  have hbefore : ∀ q, g (forEach l₁ f q) = g q :=
    forEach_leaves g fun b hb => hk b (by simp [hb]) (hnot₁ b hb).1
  have hafter : ∀ q, g (forEach l₂ f q) = g q :=
    forEach_leaves g fun b hb => hk b (by simp [hb]) (ne_of_mem_of_not_mem hb hnot₂)
  calc g (forEach (l₁ ++ a :: l₂) f q) = g (forEach l₂ f (f a (forEach l₁ f q))) := by simp [forEach]
    _ = h (g q) := by rw [hafter, hw, hbefore]

theorem Part.self_mem_pairOf (p : Part) (c : Nat) : c ∈ p.pairOf c := by
  unfold Part.pairOf; split <;> simp

theorem Part.pairOf_nodup (p : Part) (c : Nat) : (p.pairOf c).Nodup := by
  unfold Part.pairOf; split <;> simp

/-! ### What a change of registers leaves -/

theorem Part.OnlyRegs.core {p q : Part} (h : p.OnlyRegs q) (d : Nat) : q.core d = p.core d := by
  obtain ⟨r, rfl⟩ := h
  rfl

theorem Part.OnlyRegs.byteAt {p q : Part} (h : p.OnlyRegs q) (a : Nat) : q.byteAt a = p.byteAt a := by
  obtain ⟨r, rfl⟩ := h
  rfl

theorem Part.OnlyRegs.sameRest_of_onCore {p q : Part} {c : Nat} {f : Core → Core} (h : (p.onCore c f).OnlyRegs q) : p.sameRest q := by
  obtain ⟨r, rfl⟩ := h
  rfl

/-! ### CORE_VEC_STATUS and CORE_VEC_RUNS (04 R128) -/

theorem coreReg_vecStatus (x : Nat) :
    coreReg Reg.CORE_VEC_STATUS x [] = 0x20021C0 + (0x800000 * (x / 6400) + 0x4000 * (x / 16 % 400) + 0x200 * (x % 16)) := by
  simp [coreReg, RegRow.at, Reg.CORE_VEC_STATUS]

theorem coreReg_vecRuns (x : Nat) : coreReg Reg.CORE_VEC_RUNS x [] = coreReg Reg.CORE_VEC_STATUS x [] + 4 := by
  simp [coreReg, RegRow.at, Reg.CORE_VEC_STATUS, Reg.CORE_VEC_RUNS]; omega

/-- No two cores share a status register. -/
theorem coreReg_vecStatus_ne {x y : Nat} (h : x ≠ y) : coreReg Reg.CORE_VEC_STATUS x [] ≠ coreReg Reg.CORE_VEC_STATUS y [] := by
  rw [coreReg_vecStatus, coreReg_vecStatus]; omega

theorem coreReg_vecRuns_ne {x y : Nat} (h : x ≠ y) : coreReg Reg.CORE_VEC_RUNS x [] ≠ coreReg Reg.CORE_VEC_RUNS y [] := by
  simpa only [coreReg_vecRuns, ne_eq, Nat.add_right_cancel_iff] using coreReg_vecStatus_ne h

/-- No core's status register is a core's count of runs. -/
theorem coreReg_vecStatus_ne_vecRuns (x y : Nat) : coreReg Reg.CORE_VEC_STATUS x [] ≠ coreReg Reg.CORE_VEC_RUNS y [] := by
  rw [coreReg_vecRuns, coreReg_vecStatus, coreReg_vecStatus]; omega

theorem Part.regN_setRegN_mod (p : Part) (o v : Nat) : (p.setRegN o v).regN o = v % 2 ^ 64 := by
  rw [Part.regN, Part.reg_setRegN, if_pos rfl, BitVec.toNat_ofNat]

theorem Part.regN_setRegN_ne (p : Part) {o j : Nat} (v : Nat) (h : j ≠ o) : (p.setRegN o v).regN j = p.regN j :=
  congrArg BitVec.toNat (Part.reg_setReg_ne p _ h)

/-! ### The start of a run (04 R105 R109) -/

/-- The core with the run `v` under way and the runs `vs` in its queue. -/
def Core.takeRun (v : VecRun) (vs : List VecRun) (k : Core) : Core := { k with vecq := vs, vecRun := some v }

/-- The run `v` has left the queue of core `c`, which keeps `vs`, and each core it runs on shows it. -/
def Part.runShown (p : Part) (c : Nat) (v : VecRun) (vs : List VecRun) : Part :=
  forEach (p.pairOf c) (fun x q => q.setRegN (coreReg Reg.CORE_VEC_STATUS x []) (vecStatus v true 0))
    (p.onCore c (Core.takeRun v vs))

/-- The run `v` writes its results on core `x`, from what the lanes and tile buffers of `p` hold. -/
def Part.runWrites (p : Part) (c : Nat) (v : VecRun) (x : Nat) (q : Part) : Part :=
  q.storeLanes x (p.program c v.prog) (p.runLanes x v.order (p.program c v.prog) (p.lanesOf x))

/-- The core without its lane registers. -/
def Core.laneless (k : Core) : Core := { k with lanes := [] }

/-- A run that nothing holds back and that reads no bad word shows itself and writes its results. -/
theorem Part.startRun_of_free {p : Part} {c : Nat} {v : VecRun} {vs : List VecRun} (hq : (p.core c).vecq = v :: vs)
    (hidle : (p.core c).vecRun = none)
    (hclear : p.clear c v.uid none ((p.program c v.prog).flatMap ElemStep.bufReads) ((p.program c v.prog).flatMap ElemStep.bufWrites) = true)
    (hpoison : p.vecPoison c (p.program c v.prog) = none) (hresid : p.vecResid c (p.program c v.prog) = none) :
    p.startRun c = forEach (p.pairOf c) (p.runWrites c v) (p.runShown c v vs) := by
  simp only [Part.startRun, hq, hidle, hclear, hpoison, hresid, Bool.not_true, Bool.false_eq_true, if_false]
  rfl

@[simp] theorem Part.setBuf_regs (p : Part) (x b : Nat) (l : List W32) : (p.setBuf x b l).regs = p.regs := rfl
@[simp] theorem Part.setBuf_cores (p : Part) (x b : Nat) (l : List W32) : (p.setBuf x b l).cores = p.cores := rfl

theorem Part.storeLanes_regs (p : Part) (x : Nat) (prog : List ElemStep) (v : Lanes) : (p.storeLanes x prog v).regs = p.regs := by
  unfold Part.storeLanes
  exact forEach_leaves (fun q : Part => q.regs) (fun _ _ q => q.setBuf_regs _ _ _) _

theorem Part.storeLanes_cores (p : Part) (x : Nat) (prog : List ElemStep) (v : Lanes) :
    (p.storeLanes x prog v).cores = (p.onCore x (fun k => { k with lanes := v.regs })).cores := by
  unfold Part.storeLanes
  exact forEach_leaves (fun q : Part => q.cores) (fun _ _ q => q.setBuf_cores _ _ _) _

theorem Part.core_storeLanes_ne (p : Part) {x d : Nat} (prog : List ElemStep) (v : Lanes) (h : d ≠ x) :
    (p.storeLanes x prog v).core d = p.core d :=
  (Part.core_congr (p.storeLanes_cores x prog v) d).trans (Part.core_onCore_ne p _ h)

theorem Part.laneless_storeLanes (p : Part) (x d : Nat) (prog : List ElemStep) (v : Lanes) :
    ((p.storeLanes x prog v).core d).laneless = (p.core d).laneless := by
  by_cases h : d = x
  · subst h
    rw [Part.core_congr (p.storeLanes_cores d prog v) d, Part.core_onCore_self]
    rfl
  · rw [Part.core_storeLanes_ne p prog v h]

/-- Showing a run changes its core's queue and registers alone. -/
theorem Part.onlyRegs_runShown (p : Part) (c : Nat) (v : VecRun) (vs : List VecRun) :
    (p.onCore c (Core.takeRun v vs)).OnlyRegs (p.runShown c v vs) :=
  (OnlyRegs.refl _).forEach fun _ _ hq => hq.setRegN

theorem Part.reg_runShown {p : Part} {c o : Nat} (v : VecRun) (vs : List VecRun)
    (h : o ∉ (p.pairOf c).map (fun x => coreReg Reg.CORE_VEC_STATUS x [])) : (p.runShown c v vs).reg o = p.reg o :=
  forEach_leaves (fun q : Part => q.reg o) (fun _ hx q => q.reg_setReg_ne _ fun ho => h (ho ▸ List.mem_map_of_mem hx))
    (p.onCore c (Core.takeRun v vs))

theorem Part.regN_runShown (p : Part) {c x : Nat} (v : VecRun) (vs : List VecRun) (hx : x ∈ p.pairOf c) :
    (p.runShown c v vs).regN (coreReg Reg.CORE_VEC_STATUS x []) = vecStatus v true 0 % 2 ^ 64 :=
  forEach_decides (fun q : Part => q.regN (coreReg Reg.CORE_VEC_STATUS x [])) hx (fun q => q.regN_setRegN_mod _ _)
    (fun _ _ hyx q => q.regN_setRegN_ne _ (coreReg_vecStatus_ne hyx.symm)) _

/-- The results of a run leave every register. -/
theorem Part.regs_runWrites (p q : Part) (c : Nat) (v : VecRun) : (forEach (p.pairOf c) (p.runWrites c v) q).regs = q.regs :=
  forEach_leaves (·.regs) (fun _ _ z => z.storeLanes_regs _ _ _) q

/-- The results of a run leave every core but its own. -/
theorem Part.core_runWrites_ne (p q : Part) {c d : Nat} (v : VecRun) (hd : d ∉ p.pairOf c) :
    (forEach (p.pairOf c) (p.runWrites c v) q).core d = q.core d :=
  forEach_leaves (fun z : Part => z.core d) (fun _ hx z => z.core_storeLanes_ne _ _ (ne_of_mem_of_not_mem hx hd).symm) q

/-- The results of a run leave of every core all but its lane registers. -/
theorem Part.laneless_runWrites (p q : Part) (c d : Nat) (v : VecRun) :
    ((forEach (p.pairOf c) (p.runWrites c v) q).core d).laneless = (q.core d).laneless :=
  forEach_leaves (fun z : Part => (z.core d).laneless) (fun _ _ z => z.laneless_storeLanes _ _ _ _) q

theorem exec_elementRunStart_of_ready {s : State} (hready : s.part.phase = .ready) (c : Nat) :
    exec (.elementRunStart c) s = .next (s.after c (s.part.startRun c) (·.unstall c)) :=
  State.coreCmd_eq_after hready rfl

/-! ### The end of a run (04 R128, 07 R229) -/

/-- Core `x` shows the run `v` as over and counts it. -/
def Part.countRun (v : VecRun) (x : Nat) (p : Part) : Part :=
  (p.setRegN (coreReg Reg.CORE_VEC_STATUS x []) (vecStatus v false 7)).bump32 (coreReg Reg.CORE_VEC_RUNS x []) 1

/-- The core with no run under way. -/
def Core.endRun (k : Core) : Core := { k with vecRun := none }

/-- The run `v` of core `c` is over and counted on each core it ran on; its completion field is still to be reached. -/
def Part.runCounted (p : Part) (c : Nat) (v : VecRun) : Part :=
  forEach (p.pairOf c) (Part.countRun v) (p.onCore c Core.endRun)

theorem exec_elementRunEnd_of_ready {s : State} (hready : s.part.phase = .ready) {c : Nat} {v : VecRun}
    (hrun : (s.part.core c).vecRun = some v) :
    exec (.elementRunEnd c) s = .next (s.after c (s.part.runCounted c v) (·.completed c v.done)) :=
  State.coreCmd_eq_after hready (f := fun q => q.endRun c) (by simp only [Part.endRun, hrun]; rfl)

theorem Part.regN_countRun_status (p : Part) (v : VecRun) (x : Nat) :
    (p.countRun v x).regN (coreReg Reg.CORE_VEC_STATUS x []) = vecStatus v false 7 % 2 ^ 64 := by
  rw [Part.countRun, Part.bump32, Part.regN_setRegN_ne _ _ (coreReg_vecStatus_ne_vecRuns x x), Part.regN_setRegN_mod]

theorem Part.regN_countRun_runs (p : Part) (v : VecRun) (x : Nat) :
    (p.countRun v x).regN (coreReg Reg.CORE_VEC_RUNS x []) = (p.regN (coreReg Reg.CORE_VEC_RUNS x []) + 1) % 2 ^ 32 := by
  rw [Part.countRun, Part.bump32, Part.regN_setRegN_self _ _ _ (by omega), Part.regN_setRegN_ne _ _ (coreReg_vecStatus_ne_vecRuns x x).symm]

theorem Part.reg_countRun_ne (p : Part) (v : VecRun) {x o : Nat} (hst : o ≠ coreReg Reg.CORE_VEC_STATUS x [])
    (hruns : o ≠ coreReg Reg.CORE_VEC_RUNS x []) : (p.countRun v x).reg o = p.reg o :=
  (Part.reg_setReg_ne _ _ hruns).trans (Part.reg_setReg_ne _ _ hst)

theorem Part.onlyRegs_runCounted (p : Part) (c : Nat) (v : VecRun) :
    (p.onCore c Core.endRun).OnlyRegs (p.runCounted c v) :=
  (OnlyRegs.refl _).forEach fun _ _ hq => hq.setRegN.setRegN

theorem Part.reg_runCounted {p : Part} {c o : Nat} (v : VecRun)
    (h : o ∉ (p.pairOf c).flatMap (fun x => [coreReg Reg.CORE_VEC_STATUS x [], coreReg Reg.CORE_VEC_RUNS x []])) :
    (p.runCounted c v).reg o = p.reg o := by
  have hne : ∀ x ∈ p.pairOf c, o ≠ coreReg Reg.CORE_VEC_STATUS x [] ∧ o ≠ coreReg Reg.CORE_VEC_RUNS x [] := by simpa using h
  exact forEach_leaves (fun q : Part => q.reg o) (fun x hx q => q.reg_countRun_ne v (hne x hx).1 (hne x hx).2) (p.onCore c Core.endRun)

theorem Part.regN_runCounted_status (p : Part) {c x : Nat} (v : VecRun) (hx : x ∈ p.pairOf c) :
    (p.runCounted c v).regN (coreReg Reg.CORE_VEC_STATUS x []) = vecStatus v false 7 % 2 ^ 64 :=
  forEach_decides (fun q : Part => q.regN (coreReg Reg.CORE_VEC_STATUS x [])) hx (fun q => q.regN_countRun_status v x)
    (fun y _ hyx q => congrArg BitVec.toNat (q.reg_countRun_ne v (coreReg_vecStatus_ne hyx.symm) (coreReg_vecStatus_ne_vecRuns x y))) _

theorem Part.regN_runCounted_runs (p : Part) {c x : Nat} (v : VecRun) (hx : x ∈ p.pairOf c) :
    (p.runCounted c v).regN (coreReg Reg.CORE_VEC_RUNS x []) = (p.regN (coreReg Reg.CORE_VEC_RUNS x []) + 1) % 2 ^ 32 :=
  forEach_once (fun q : Part => q.regN (coreReg Reg.CORE_VEC_RUNS x [])) (fun n => (n + 1) % 2 ^ 32) (p.pairOf_nodup c) hx
    (fun q => q.regN_countRun_runs v x)
    (fun y _ hyx q => congrArg BitVec.toNat
      (q.reg_countRun_ne v (coreReg_vecStatus_ne_vecRuns y x).symm (coreReg_vecRuns_ne hyx.symm))) _

/-- Settles O9: a start shows the run on its cores (`Part.runShown`) and writes its results, which leave registers and all of a core but its
lane registers; an end takes the run off its core and counts it once on each core it ran on (`Part.regN_runCounted_runs`). -/
theorem elementRunsStartAndEnd : Obligations.ElementRunsStartAndEnd := by
  unfold Obligations.ElementRunsStartAndEnd
  intro s c v vs hready
  refine ⟨fun hq hidle hclear hpoison hresid => ?_, fun hrun => ?_⟩
  · have hshown := s.part.onlyRegs_runShown c v vs
    have hstart := Part.startRun_of_free hq hidle hclear hpoison hresid
    have hregs : (s.part.startRun c).regs = (s.part.runShown c v vs).regs := by rw [hstart, Part.regs_runWrites]
    have hcore : ((s.part.startRun c).core c).laneless = { s.part.core c with vecq := vs, vecRun := some v, lanes := [] } := by
      rw [hstart, Part.laneless_runWrites, hshown.core, Part.core_onCore_self]
      rfl
    refine ⟨s.act (·.startRun c), exec_elementRunStart_of_ready hready c, congrArg (·.vecq) hcore, congrArg (·.vecRun) hcore,
      congrArg (·.threads) hcore, congrArg (·.matq) hcore, congrArg (·.moveq) hcore, fun d hd => ?_, fun o ho => ?_, fun x hx => ?_⟩
    · have hdc : d ≠ c := (ne_of_mem_of_not_mem (s.part.self_mem_pairOf c) hd).symm
      rw [State.act_part, hstart, Part.core_runWrites_ne _ _ v hd, hshown.core, Part.core_onCore_ne _ _ hdc]
    · exact (Part.reg_congr hregs o).trans (Part.reg_runShown v vs ho)
    · exact (congrArg BitVec.toNat (Part.reg_congr hregs _)).trans (s.part.regN_runShown v vs hx)
  · have hcounted := s.part.onlyRegs_runCounted c v
    exact ⟨s.act (·.runCounted c v), exec_elementRunEnd_of_ready hready hrun, hcounted.sameRest_of_onCore, hcounted.byteAt,
      fun d hd => (hcounted.core d).trans (Part.core_onCore_ne _ _ (List.mem_singleton.not.mp hd)),
      (hcounted.core c).trans (Part.core_onCore_self _ _ _), fun o ho => Part.reg_runCounted v ho,
      fun _ x hx => ⟨s.part.regN_runCounted_status v hx, s.part.regN_runCounted_runs v hx⟩⟩

end Sys2Proof.Machine

/-! ## MAT, RUN and XFER at issue -/

namespace Sys2Proof.Machine
open Sys2Proof

/-! ### What a command on a core adds to its effect (06 R175 R196) -/

theorem Part.OnlyRegs.ite {p q r : Part} {c : Prop} [Decidable c] (h : p.OnlyRegs q) (h' : p.OnlyRegs r) : p.OnlyRegs (if c then q else r) := by
  split
  · exact h
  · exact h'

/-- Entries into quiescence are counted in registers. -/
theorem Part.onlyRegs_onTheCore (p : Part) (c : Nat) (f : Part → Part) : (f p).OnlyRegs (p.onTheCore c f) :=
  (OnlyRegs.refl (f p)).forEach fun _ _ hq => .ite hq.setReg hq

@[simp] theorem Part.uid_onTheCore (p : Part) (c : Nat) (f : Part → Part) : (p.onTheCore c f).uid = (f p).uid := by
  obtain ⟨r, hr⟩ := p.onlyRegs_onTheCore c f
  rw [hr]

/-- Nothing but cores changes. -/
def Part.OnlyCores (p q : Part) : Prop := ∃ l, q = { p with cores := l }

namespace Part.OnlyCores

variable {p₀ p q r : Part}

theorem refl (p : Part) : p.OnlyCores p := ⟨_, rfl⟩

theorem trans (h : p.OnlyCores q) (h' : q.OnlyCores r) : p.OnlyCores r := by
  obtain ⟨l, rfl⟩ := h
  obtain ⟨l', rfl⟩ := h'
  exact ⟨l', rfl⟩

theorem onCore {c : Nat} {f : Core → Core} (h : p₀.OnlyCores p) : p₀.OnlyCores (p.onCore c f) := h.trans ⟨_, rfl⟩

theorem forEach {α : Type} {l : List α} {f : α → Part → Part} (h : p₀.OnlyCores p) (hf : ∀ a ∈ l, ∀ q, p₀.OnlyCores q → p₀.OnlyCores (f a q)) :
    p₀.OnlyCores (Machine.forEach l f p) := by
  unfold Machine.forEach
  induction l generalizing p with
  | nil => exact h
  | cons a l ih => exact ih (hf a List.mem_cons_self p h) fun b hb => hf b (List.mem_cons_of_mem a hb)

theorem mem (h : p.OnlyCores q) : q.mem = p.mem := by obtain ⟨l, rfl⟩ := h; rfl
theorem regs (h : p.OnlyCores q) : q.regs = p.regs := by obtain ⟨l, rfl⟩ := h; rfl
theorem stg (h : p.OnlyCores q) : q.stg = p.stg := by obtain ⟨l, rfl⟩ := h; rfl
theorem views (h : p.OnlyCores q) : q.views = p.views := by obtain ⟨l, rfl⟩ := h; rfl
theorem uid (h : p.OnlyCores q) : q.uid = p.uid := by obtain ⟨l, rfl⟩ := h; rfl

end Part.OnlyCores

/-- Two loops over one list whose rounds agree in `g` on what agrees in `g` agree in `g`. -/
theorem forEach_agree {α β γ : Type} {l : List α} {f f' : α → β → β} (g : β → γ)
    (hf : ∀ a ∈ l, ∀ q q', g q = g q' → g (f a q) = g (f' a q')) {q q' : β} (h : g q = g q') : g (forEach l f q) = g (forEach l f' q') := by
  unfold forEach
  induction l generalizing q q' with
  | nil => exact h
  | cons a l ih => exact ih (fun b hb => hf b (List.mem_cons_of_mem a hb)) (hf a List.mem_cons_self _ _ h)

theorem Part.regs_setReg_congr {p q : Part} (h : p.regs = q.regs) (o : Nat) (v : W64) : (p.setReg o v).regs = (q.setReg o v).regs := by
  simp only [Part.setReg, h]

theorem Part.regs_bump_congr {p q : Part} (h : p.regs = q.regs) (o n : Nat) : (p.bump o n).regs = (q.bump o n).regs := by
  rw [Part.bump, Part.bump, Part.reg_congr h, Part.regs_setReg_congr h]

/-- Effects that leave the same registers and the same cores at rest count the same entries into quiescence. -/
theorem Part.regs_onTheCore_congr {p : Part} {f g : Part → Part} (hregs : (f p).regs = (g p).regs) (hquiet : ∀ x, (f p).quiet x = (g p).quiet x)
    (c : Nat) : (p.onTheCore c f).regs = (p.onTheCore c g).regs := by
  refine forEach_agree (fun q : Part => q.regs) (fun x _ q q' h => ?_) hregs
  simp only [hquiet x, Part.reg_congr hregs]
  split
  · exact Part.regs_bump_congr h _ _
  · exact h

/-! ### An operation named and put into its unit's queue (06 R170 R171) -/

/-- Thread `t` of core `c` has issued an operation, and `g`, given the operation's name, puts it into a queue of the core. -/
def Part.queued (p : Part) (c t : Nat) (g : Nat → Core → Core) : Part := (p.issued c t).fresh.2.onCore c (g p.uid)

@[simp] theorem Part.orStall_of_not_full (p : Part) (c t : Nat) (f : Part → Part) : p.orStall c t false f = f p := rfl

@[simp] theorem Part.uid_queued (p : Part) (c t : Nat) (g : Nat → Core → Core) : (p.queued c t g).uid = p.uid + 1 := rfl
@[simp] theorem Part.mem_queued (p : Part) (c t : Nat) (g : Nat → Core → Core) : (p.queued c t g).mem = p.mem := rfl

theorem Part.core_queued_self (p : Part) (c t : Nat) (g : Nat → Core → Core) : (p.queued c t g).core c = g p.uid ((p.core c).stepped t) := by
  rw [Part.queued, Part.core_onCore_self]
  exact congrArg _ (Part.core_issued_self p c t)

/-- An operation in a unit's queue keeps the unit busy. -/
theorem Part.issues_queued {p : Part} {c t : Nat} {g : Nat → Core → Core} (h : (g p.uid ((p.core c).stepped t)).unitsIdle = false) :
    p.Issues (p.queued c t g) c where
  rest := rfl
  others k hk := (Part.core_onCore_ne _ _ hk).trans (Part.core_issued_ne p t hk)
  count := rfl
  units hidle := by rw [Part.core_queued_self, h] at hidle; nomatch hidle

theorem State.cueOp_eq_of_issues {s : State} {c t op : Nat} {f : Part → Part} (h : s.mayIssue c t op) (hissues : s.part.Issues (f s.part) c) :
    s.cueOp c t op f = .next (s.act (·.onTheCore c f)) :=
  State.cueOp_eq h (Part.taskOf_congr (congrArg Part.stg hissues.rest) c)

/-- An operation that only joins a queue changes what an issue changes, and its core as `g` says. -/
theorem State.cueOp_queued {s : State} {c t op : Nat} {f : Part → Part} {g : Nat → Core → Core} (h : s.mayIssue c t op)
    (hf : f s.part = s.part.queued c t g) (hbusy : (g s.part.uid ((s.part.core c).stepped t)).unitsIdle = false) :
    ∃ u, s.cueOp c t op f = .next u ∧ s.issueFrame u c ∧ u.part.uid = s.part.uid + 1 ∧
      u.part.core c = g s.part.uid ((s.part.core c).stepped t) := by
  have hissues : s.part.Issues (f s.part) c := hf ▸ Part.issues_queued hbusy
  refine ⟨s.act (·.onTheCore c f), State.cueOp_eq_of_issues h hissues, State.issueFrame_of hissues, ?_, ?_⟩
  · rw [State.act_part, Part.uid_onTheCore, hf, Part.uid_queued]
  · rw [State.act_part, hissues.core c, hf, Part.core_queued_self]

@[simp] theorem Core.vecq_stepped (k : Core) (t : Nat) : (k.stepped t).vecq = k.vecq := by
  unfold Core.stepped Core.beat Core.onTh; split <;> rfl
@[simp] theorem Core.matq_stepped (k : Core) (t : Nat) : (k.stepped t).matq = k.matq := by
  unfold Core.stepped Core.beat Core.onTh; split <;> rfl

/-! ### RUN (07 R229) -/

/-- The run joins the vector queue. -/
def Core.queueRun (v : VecRun) (k : Core) : Core := { k with vecq := k.vecq ++ [v] }

theorem Core.unitsIdle_queueRun (k : Core) (v : VecRun) : (k.queueRun v).unitsIdle = false := by
  simp [Core.unitsIdle, Core.queueRun]

/-- The run that the word at thread `t`'s cue pointer asks for, under the name `u`. -/
def Part.vecRunAt (p : Part) (c t u : Nat) : VecRun :=
  { uid := u, thread := t, prog := fld (p.wordAt c t) 54 4, order := bitOf (p.wordAt c t) 53, done := fld (p.wordAt c t) 48 5 }

theorem Part.doRun_of_room {p : Part} {c : Nat} (h : p.vecFull c = false) (t : Nat) :
    p.doRun c t = p.queued c t (fun u => Core.queueRun (p.vecRunAt c t u)) := by
  rw [Part.doRun, h, Part.orStall_of_not_full]
  rfl

theorem exec_run_of_room {s : State} {c t : Nat} (h : s.mayIssue c t Op.RUN) (hroom : s.part.vecFull c = false) :
    ∃ u, exec (.run c t) s = .next u ∧ s.issueFrame u c ∧ u.part.uid = s.part.uid + 1 ∧
      u.part.core c = ((s.part.core c).stepped t).queueRun (s.part.vecRunAt c t s.part.uid) :=
  State.cueOp_queued h (f := (·.doRun c t)) (Part.doRun_of_room hroom t) (Core.unitsIdle_queueRun _ _)

/-! ### MAT (07 R223 R224) -/

/-- The step joins the matrix queue. -/
def Core.queueStep (m : MatStep) (k : Core) : Core := { k with matq := k.matq ++ [m] }

theorem Core.unitsIdle_queueStep (k : Core) (m : MatStep) : (k.queueStep m).unitsIdle = false := by
  simp [Core.unitsIdle, Core.queueStep]

/-- The step has joined the matrix queue of core `c`; its tiles are still to be marked. -/
def Part.joined (c t : Nat) (m : MatStep) (p : Part) : Part := p.queued c t (fun u => Core.queueStep { m with uid := u })

/-- The core with the side records of the step's tiles as the step leaves them at its issue (02 R52 R581). -/
def Core.marked (m : MatStep) (k : Core) : Core := forEach m.tiles (fun y z => z.onSide y m.mark) k

/-- The step marks its tiles on each core that it targets. -/
def Part.marked (p : Part) (c : Nat) (m : MatStep) : Part := forEach (m.cores c) (fun x q => q.onCore x (Core.marked m)) p

theorem Core.sideless_marked (k : Core) (m : MatStep) : (k.marked m).sideless = k.sideless := by
  refine forEach_leaves Core.sideless (fun _ _ _ => ?_) k
  rfl

theorem Part.onlyCores_marked (p : Part) (c : Nat) (m : MatStep) : p.OnlyCores (p.marked c m) :=
  (OnlyCores.refl p).forEach fun _ _ _ hq => hq.onCore

/-- An update of one core that leaves `g` of that core leaves `g` of every core. -/
theorem Part.onCore_leaves {γ : Type} (g : Core → γ) {p : Part} {c : Nat} {f : Core → Core} (h : g (f (p.core c)) = g (p.core c)) (d : Nat) :
    g ((p.onCore c f).core d) = g (p.core d) := by
  by_cases hd : d = c
  · subst hd; rw [Part.core_onCore_self, h]
  · rw [Part.core_onCore_ne p _ hd]

theorem Part.sideless_marked (p : Part) (c d : Nat) (m : MatStep) : ((p.marked c m).core d).sideless = (p.core d).sideless :=
  forEach_leaves (fun q : Part => (q.core d).sideless) (fun _ _ _ => Part.onCore_leaves Core.sideless (Core.sideless_marked _ m) d) p

theorem Part.core_marked_ne (p : Part) {c d : Nat} {m : MatStep} (h : d ∉ m.cores c) : (p.marked c m).core d = p.core d :=
  forEach_leaves (fun q : Part => q.core d) (fun _ hx _ => Part.core_onCore_ne _ _ (ne_of_mem_of_not_mem hx h).symm) p

theorem Part.OnlyCores.issuer {p q : Part} (h : p.OnlyCores q) (x : Nat) : q.issuer x = p.issuer x := by
  simp [Part.issuer, Part.paired, Part.coreCfgWord, Part.natAt, Part.bytesAt, h.mem]

/-- Rest looks at no side record. -/
theorem Part.OnlyCores.quiet {p q : Part} (h : p.OnlyCores q) (hcore : ∀ d, (q.core d).sideless = (p.core d).sideless) (x : Nat) :
    q.quiet x = p.quiet x := by
  have hthreads : (q.core x).threads = (p.core x).threads := congrArg (·.threads) (hcore x)
  have hidle : (q.core (p.issuer x)).unitsIdle = (p.core (p.issuer x)).unitsIdle := by
    have hunits := congrArg Core.unitsIdle (hcore (p.issuer x))
    exact hunits
  rw [Part.quiet, Part.quiet, h.issuer, hthreads, hidle]
  simp only [Part.viewPending, h.views]

theorem Part.doMat_of_good {p : Part} {c t : Nat} (hroom : (p.core c).matq.length < 4)
    (ha : placeOver (matWord (p.wordAt c t)).arow (p.matStep c t).arow = false)
    (hb : placeOver (matWord (p.wordAt c t)).brow (p.matStep c t).brow = false) (hshape : p.shapeBad c (p.matStep c t) = false)
    (hrows : ∀ r ∈ (p.matStep c t).rowsRead, r < scratchRows (p.partition c))
    (hacc : (p.matStep c t).acc = true → ∀ x ∈ (p.matStep c t).tiles, ((p.core c).side x).refuses (p.matStep c t) = false) :
    p.doMat c t = (p.joined c t (p.matStep c t)).marked c (p.matStep c t) := by
  have hroom' : decide (4 ≤ (p.core c).matq.length) = false := by simpa using hroom
  have hrows' : (p.matStep c t).rowsRead.find? (fun r => decide (scratchRows (p.partition c) ≤ r)) = none := by simpa using hrows
  have hacc' : ((p.matStep c t).acc && (p.matStep c t).tiles.any (fun x => ((p.core c).side x).refuses (p.matStep c t))) = false := by
    simpa using hacc
  rw [Part.doMat, hroom', Part.orStall_of_not_full]
  simp only [ha, hb, hshape, hrows', hacc', Bool.false_eq_true, if_false]
  rfl

theorem MatStep.self_mem_cores (m : MatStep) (c : Nat) : c ∈ m.cores c := by
  unfold MatStep.cores; split <;> simp

/-- A step that joins the matrix queue changes the cores that it targets, its own but for side records as the queue does. -/
theorem State.cueOp_marked {s : State} {c t op : Nat} {f : Part → Part} {m : MatStep} (h : s.mayIssue c t op)
    (hf : f s.part = (s.part.joined c t m).marked c m) :
    ∃ u, s.cueOp c t op f = .next u ∧ u.part.uid = s.part.uid + 1 ∧ s.sameBytes u ∧
      s.sameRegs u [coreReg Reg.CORE_ISSUED c [], coreReg Reg.CORE_SLEEPS c []] ∧ s.sameCores u (m.cores c) ∧
      (u.part.core c).sideless = (((s.part.core c).stepped t).queueStep { m with uid := s.part.uid }).sideless := by
  have hissues : s.part.Issues (Part.joined c t m s.part) c := Part.issues_queued (Core.unitsIdle_queueStep _ _)
  have hmarked : (s.part.joined c t m).OnlyCores (f s.part) := hf ▸ Part.onlyCores_marked _ c m
  have hsideless : ∀ d, ((f s.part).core d).sideless = ((s.part.joined c t m).core d).sideless := fun d => hf ▸ Part.sideless_marked _ c d m
  obtain ⟨-, -, hsame, -⟩ := State.issueFrame_of (f := Part.joined c t m) hissues
  have hregs := Part.regs_onTheCore_congr (f := f) (g := Part.joined c t m) hmarked.regs (hmarked.quiet hsideless) c
  have hcore := (s.part.onlyRegs_onTheCore c f).core
  refine ⟨s.act (·.onTheCore c f), State.cueOp_eq h (Part.taskOf_congr (hmarked.stg.trans (congrArg Part.stg hissues.rest)) c), ?_, fun a => ?_,
    fun o ho => (Part.reg_congr hregs o).trans (hsame o ho), fun d hd => ?_, ?_⟩
  · rw [State.act_part, Part.uid_onTheCore, hmarked.uid, Part.joined, Part.uid_queued]
  · exact ((s.part.onlyRegs_onTheCore c f).byteAt a).trans (Part.byteAt_congr hmarked.mem a)
  · have hdc : d ≠ c := fun heq => hd (heq ▸ m.self_mem_cores c)
    exact (hcore d).trans ((hf ▸ Part.core_marked_ne _ hd).trans (hissues.others d hdc))
  · rw [State.act_part, hcore, hsideless, Part.joined, Part.core_queued_self]

/-! ### XFER (07 R221) -/

theorem Part.OnlyRegs.bump {p₀ p : Part} {o n : Nat} (h : p₀.OnlyRegs p) : p₀.OnlyRegs (p.bump o n) := h.setReg

/-- Nothing but registers and the last use of power bands changes: what reading a row does (13 R404, 19 R564). -/
def Part.OnlyTouched (p q : Part) : Prop := ∃ r w, q = { p with regs := r, pwr := w }

namespace Part.OnlyTouched

variable {p q r : Part}

theorem of_onlyRegs (h : p.OnlyRegs q) : p.OnlyTouched q := by
  obtain ⟨r, rfl⟩ := h
  exact ⟨r, _, rfl⟩

theorem refl (p : Part) : p.OnlyTouched p := of_onlyRegs (.refl p)

theorem trans (h : p.OnlyTouched q) (h' : q.OnlyTouched r) : p.OnlyTouched r := by
  obtain ⟨r, w, rfl⟩ := h
  obtain ⟨r', w', rfl⟩ := h'
  exact ⟨r', w', rfl⟩

theorem ite {c : Prop} [Decidable c] (h : p.OnlyTouched q) (h' : p.OnlyTouched r) : p.OnlyTouched (if c then q else r) := by
  split
  · exact h
  · exact h'

theorem mem (h : p.OnlyTouched q) : q.mem = p.mem := by obtain ⟨r, w, rfl⟩ := h; rfl
theorem cores (h : p.OnlyTouched q) : q.cores = p.cores := by obtain ⟨r, w, rfl⟩ := h; rfl
theorem stg (h : p.OnlyTouched q) : q.stg = p.stg := by obtain ⟨r, w, rfl⟩ := h; rfl
theorem xfers (h : p.OnlyTouched q) : q.xfers = p.xfers := by obtain ⟨r, w, rfl⟩ := h; rfl
theorem uid (h : p.OnlyTouched q) : q.uid = p.uid := by obtain ⟨r, w, rfl⟩ := h; rfl

end Part.OnlyTouched

theorem Part.onlyTouched_touch (p : Part) (a : Nat) : p.OnlyTouched (p.touch a) := by
  unfold Part.touch
  split
  · exact ⟨_, _, rfl⟩
  · exact ⟨_, _, rfl⟩
  · exact .refl p

theorem Part.onlyTouched_countRead (p : Part) (a : Nat) : p.OnlyTouched (p.countRead a) :=
  .ite (.of_onlyRegs (Part.OnlyRegs.refl p).bump) (p.onlyTouched_touch a)

theorem Part.onlyTouched_readSpan (p : Part) (a n : Nat) : p.OnlyTouched (p.readSpan a n).1 := by
  unfold Part.readSpan
  refine List.foldlRecOn (motive := fun x : Part × Option RowFault => p.OnlyTouched x.1) _ _ (.refl p) fun x hx i _ => ?_
  split
  · exact hx
  · exact .ite hx (hx.trans (Part.onlyTouched_countRead _ _))

theorem Part.onlyTouched_readList (p : Part) (d : Desc) : p.OnlyTouched (p.readList d).1 := by
  unfold Part.readList
  split
  · exact p.onlyTouched_readSpan _ _
  · exact .refl p

theorem Part.onlyRegs_hubMark (p : Part) : p.OnlyRegs p.hubMark :=
  (OnlyRegs.refl p).forEach fun _ _ hq => .ite hq.setFld hq

/-- The descriptor that the XFER of thread `t` puts in flight. -/
def Part.xferAt (p : Part) (c t : Nat) : Xfer :=
  let w := p.wordAt c t
  let bytes := p.bytesAt (viewAddr c (512 * fld w 51 7) + 64 * fld w 48 3) 64
  { uid := p.uid, core := c, thread := t, done := fld w 42 5, sync := bitOf w 47, desc := bytes, writing := !(Machine.descOf bytes).reshapes,
    submits := 0, task := p.taskOf c }

/-- Thread `t` has issued and the descriptor `x` is in flight with its first requests; the thread waits for it where it is to. -/
def Part.launch (p : Part) (c t : Nat) (x : Xfer) : Part :=
  let p1 := (p.issued c t).fresh.2
  let p2 := { p1 with xfers := p1.xfers ++ [x], reqs := p1.reqs ++ p1.descReqs c x.uid (Machine.descOf x.desc) }.hubMark
  if x.sync then p2.onTh c t (fun th => th.await 4 (.oper x.uid)) else p2

theorem Part.doXfer_of_good {p : Part} {c t : Nat} (hroom : p.xferOut c < 32)
    (hrow : fld (p.wordAt c t) 51 7 < scratchRows (p.partition c)) (hgood : p.rowGood (viewAddr c (512 * fld (p.wordAt c t) 51 7)) = true)
    (hbad : p.descBad (Machine.descOf (p.xferAt c t).desc) = false) (hin : p.descInside (Machine.descOf (p.xferAt c t).desc) = true)
    (hlist : (p.readList (Machine.descOf (p.xferAt c t).desc)).2 = none) :
    p.doXfer c t = (p.readList (Machine.descOf (p.xferAt c t).desc)).1.launch c t (p.xferAt c t) := by
  have hroom' : decide (32 ≤ p.xferOut c) = false := by simpa using hroom
  have hrow' : rowsBad (scratchRows (p.partition c)) (fld (p.wordAt c t) 51 7) 1 = none := by simpa [rowsBad] using hrow
  have htouched := p.onlyTouched_readList (Machine.descOf (p.xferAt c t).desc)
  rw [Part.doXfer, hroom', Part.orStall_of_not_full]
  generalize hread : p.readList (Machine.descOf (p.xferAt c t).desc) = read at *
  obtain ⟨q, f⟩ := read
  subst hlist
  simp only [Part.xferAt] at hread hbad hin
  simp only [hrow', hgood, hbad, hin, hread]
  have huid : (q.issued c t).fresh.1 = p.uid := htouched.uid
  have htask : (q.issued c t).fresh.2.taskOf c = p.taskOf c := Part.taskOf_congr htouched.stg c
  simp only [huid, htask, Bool.not_true, Bool.or_false, Bool.false_eq_true, if_false]
  rfl

/-- A descriptor put in flight changes the core, the requests, registers and the number of names; of the transfers it adds itself. -/
theorem Part.launch_eq (p : Part) (c t : Nat) (x : Xfer) :
    ∃ k l r, p.launch c t x = { p with cores := k, reqs := l, regs := r, xfers := p.xfers ++ [x], uid := p.uid + 1 } := by
  unfold Part.launch
  dsimp only
  rw [(Part.onlyRegs_hubMark _).choose_spec]
  split
  · exact ⟨_, _, _, rfl⟩
  · exact ⟨_, _, _, rfl⟩

/-- The core with thread `t` issued, which waits for operation `u` where `sync` is set. -/
def Core.issuedFor (t u : Nat) (sync : Bool) (k : Core) : Core :=
  (k.beat t).onTh t (fun x => if sync then { x.advance with st := .wait, why := 4, on := .oper u } else x.advance)

theorem Part.core_launch_self (p : Part) (c t : Nat) (x : Xfer) : (p.launch c t x).core c = (p.core c).issuedFor t x.uid x.sync := by
  have hstep : ∀ l m, Part.core (Part.hubMark { (p.issued c t).fresh.2 with xfers := l, reqs := m }) c = (p.core c).stepped t :=
    fun l m => ((Part.onlyRegs_hubMark _).core c).trans (Part.core_issued_self p c t)
  unfold Part.launch Core.issuedFor
  dsimp only
  split
  next hsync => rw [Part.core_onTh_self, hstep, Core.stepped, Core.onTh_onTh]; rfl
  next => exact hstep _ _

theorem Part.core_launch_ne (p : Part) {c d : Nat} (t : Nat) (x : Xfer) (h : d ≠ c) : (p.launch c t x).core d = p.core d := by
  have hstep : ∀ l m, Part.core (Part.hubMark { (p.issued c t).fresh.2 with xfers := l, reqs := m }) d = p.core d :=
    fun l m => ((Part.onlyRegs_hubMark _).core d).trans (Part.core_issued_ne p t h)
  unfold Part.launch
  dsimp only
  split
  · rw [Part.core_onTh_ne _ _ _ h, hstep]
  · exact hstep _ _

/-- An XFER that is not refused puts its descriptor in flight. -/
theorem State.cueOp_launch {s : State} {c t op : Nat} {f : Part → Part} {q : Part} {x : Xfer} (h : s.mayIssue c t op) (hq : s.part.OnlyTouched q)
    (hf : f s.part = q.launch c t x) :
    ∃ u, s.cueOp c t op f = .next u ∧ s.sameBytes u ∧ u.part.xfers = s.part.xfers ++ [x] ∧ u.part.uid = s.part.uid + 1 ∧ s.sameCores u [c] ∧
      u.part.core c = (s.part.core c).issuedFor t x.uid x.sync := by
  obtain ⟨k, l, r, hlaunch⟩ := q.launch_eq c t x
  obtain ⟨r', hr'⟩ := s.part.onlyRegs_onTheCore c f
  have hcore := (s.part.onlyRegs_onTheCore c f).core
  have hstg : (f s.part).stg = s.part.stg := by rw [hf, hlaunch]; exact hq.stg
  refine ⟨s.act (·.onTheCore c f), State.cueOp_eq h (Part.taskOf_congr hstg c), fun a => Part.byteAt_congr ?_ a, ?_, ?_, fun d hd => ?_, ?_⟩
  · rw [State.act_part, hr', hf, hlaunch]; exact hq.mem
  · rw [State.act_part, hr', hf, hlaunch, ← hq.xfers]
  · rw [State.act_part, hr', hf, hlaunch, ← hq.uid]
  · rw [State.act_part, hcore, hf, Part.core_launch_ne _ _ _ (List.mem_singleton.not.mp hd), Part.core_congr hq.cores]
  · rw [State.act_part, hcore, hf, Part.core_launch_self, Part.core_congr hq.cores]

/-- Settles O5: MAT and RUN join a queue (`State.cueOp_marked`, `State.cueOp_queued`), XFER puts its descriptor in flight
(`State.cueOp_launch`). -/
theorem matRunAndXferAreIssued : Obligations.MatRunAndXferAreIssued := by
  unfold Obligations.MatRunAndXferAreIssued
  refine ⟨fun s c t => ⟨fun h hroom ha hb hshape hrows hacc => ?_, fun h hroom => ?_⟩, fun s c t h hroom hrow hgood hbad hin hlist => ?_⟩
  · obtain ⟨u, hexec, huid, hbytes, hregs, hcores, hcore⟩ :=
      State.cueOp_marked h (f := (·.doMat c t)) (Part.doMat_of_good hroom ha hb hshape hrows hacc)
    have hmatq := congrArg (·.matq) hcore
    exact ⟨u, hexec, huid, hbytes, hregs, hcores, hmatq.trans (congrArg (· ++ _) (Core.matq_stepped _ _)), congrArg (·.threads) hcore⟩
  · obtain ⟨u, hexec, hframe, huid, hcore⟩ := exec_run_of_room h hroom
    rw [Core.queueRun, Core.vecq_stepped] at hcore
    exact ⟨u, hexec, hframe, huid, hcore⟩
  · exact State.cueOp_launch h (f := (·.doXfer c t)) (s.part.onlyTouched_readList _) (Part.doXfer_of_good hroom hrow hgood hbad hin hlist)

end Sys2Proof.Machine

/-! ## Row moves: their start, their completion and the transposed read -/

namespace Sys2Proof.Machine
open Sys2Proof

/-! ### The transposed read (06 R180) -/

@[simp] theorem Memory.length_readN (m : List Host.Cell) (a n : Nat) : (Memory.readN m a n).length = n := by
  induction n generalizing a with
  | zero => rfl
  | succ n ih => simp [Memory.readN, ih]

@[simp] theorem Part.length_half (p : Part) (c code : Nat) : (p.half c code).length = 512 := Memory.length_readN _ _ _

/-- Pieces of one length `n` one behind the other: element `n a + b` is element `b` of piece `a`. -/
theorem getElem?_flatMap_range {α : Type} {f : Nat → List α} {n m a b : Nat} (hf : ∀ k < m, (f k).length = n) (ha : a < m) (hb : b < n) :
    ((List.range m).flatMap f)[n * a + b]? = (f a)[b]? := by
  induction m with
  | zero => omega
  | succ m ih =>
    have hlen : ((List.range m).flatMap f).length = n * m := by
      rw [List.length_flatMap, List.map_congr_left fun k hk => hf k (by have := List.mem_range.mp hk; omega)]
      simp [Nat.mul_comm]
    rw [List.range_succ, List.flatMap_append]
    rcases Nat.lt_succ_iff_lt_or_eq.mp ha with hlt | rfl
    · have hin : n * a + b < n * m := by
        have := Nat.mul_le_mul_left n (Nat.succ_le_of_lt hlt)
        rw [Nat.mul_succ] at this
        omega
      rw [List.getElem?_append_left (by omega), ih (fun k hk => hf k (by omega)) hlt]
    · rw [List.getElem?_append_right (by omega), hlen, Nat.add_sub_cancel_left]
      simp

theorem Part.placeBytes_single {p : Part} {c : Nat} (h : p.paired c = false) (code : Nat) : p.placeBytes c code = p.half c code := by
  simp [Part.placeBytes, h]

/-- A piece of `n` bytes of a segment of a place of one core. -/
theorem Part.getElem?_segment (p : Part) (c code : Nat) {j k n y : Nat} (hk : n * k + n ≤ 32) (hy : y < n) :
    (((p.segment c code j).drop (n * k)).take n)[y]? = (p.placeBytes c code)[32 * j + n * k + y]? := by
  rw [Part.segment, List.getElem?_take_of_lt hy, List.getElem?_drop, List.getElem?_take_of_lt (by omega), List.getElem?_drop, Nat.add_assoc]

theorem Part.length_segment_piece {p : Part} {c : Nat} (h : p.paired c = false) (code : Nat) {j k n : Nat} (hj : j < 16) (hk : n * k + n ≤ 32) :
    (((p.segment c code j).drop (n * k)).take n).length = n := by
  simp [Part.segment, Part.placeBytes_single h]
  omega

theorem Part.getD_transposed {p : Part} {c row j w k i y : Nat} (hj : j < 16) (hk : k < 32 / 2 ^ w) (hi : i < 16) (hy : y < 2 ^ w)
    (h : p.paired c = false) :
    (p.transposed c row j w).getD ((16 * k + i) * 2 ^ w + y) 0 = (p.placeBytes c (row + i)).getD (32 * j + 2 ^ w * k + y) 0 := by
  have hfit : ∀ x < 32 / 2 ^ w, 2 ^ w * x + 2 ^ w ≤ 32 := fun x hx => by
    have := (Nat.le_div_iff_mul_le (Nat.two_pow_pos w)).mp (Nat.succ_le_of_lt hx)
    rwa [Nat.succ_mul, Nat.mul_comm] at this
  have hpiece : ∀ x < 32 / 2 ^ w, ∀ r, (((p.segment c (row + r) j).drop (2 ^ w * x)).take (2 ^ w)).length = 2 ^ w :=
    fun x hx r => Part.length_segment_piece h _ hj (hfit x hx)
  have hindex : (16 * k + i) * 2 ^ w + y = 2 ^ w * 16 * k + (2 ^ w * i + y) := by ring
  have hrow : ∀ x < 32 / 2 ^ w, ((List.range 16).flatMap fun r => ((p.segment c (row + r) j).drop (2 ^ w * x)).take (2 ^ w)).length = 2 ^ w * 16 :=
    fun x hx => by simpa using length_flatMap_of_const (hpiece x hx) (List.range 16)
  have hin : 2 ^ w * i + y < 2 ^ w * 16 := by
    have := Nat.mul_le_mul_left (2 ^ w) (Nat.succ_le_of_lt hi)
    rw [Nat.mul_succ] at this
    omega
  have hunits : 16 * p.units c = 16 := by simp [Part.units, h]
  rw [List.getD_eq_getElem?_getD, List.getD_eq_getElem?_getD, Part.transposed]
  rw [hunits, hindex, getElem?_flatMap_range hrow hk hin, getElem?_flatMap_range (fun r _ => hpiece k hk r) hi hy,
    Part.getElem?_segment _ _ _ (hfit k hk) hy]

/-! ### Places written and read back (06 R190 R193, 18 R529) -/

/-- Nothing changes but the store: bytes, row tags, poison marks, and what cores keep beside their bytes. -/
def Part.OnlyStored (p q : Part) : Prop := ∃ m t o k, q = { p with mem := m, tagErr := t, poison := o, cores := k }

namespace Part.OnlyStored

variable {p q r : Part}

theorem refl (p : Part) : p.OnlyStored p := ⟨_, _, _, _, rfl⟩

theorem trans (h : p.OnlyStored q) (h' : q.OnlyStored r) : p.OnlyStored r := by
  obtain ⟨m, t, o, k, rfl⟩ := h
  obtain ⟨m', t', o', k', rfl⟩ := h'
  exact ⟨m', t', o', k', rfl⟩

theorem of_onlyCores (h : p.OnlyCores q) : p.OnlyStored q := by
  obtain ⟨k, rfl⟩ := h
  exact ⟨_, _, _, _, rfl⟩

theorem forEach {α : Type} {l : List α} {f : α → Part → Part} (hf : ∀ a ∈ l, ∀ q : Part, q.OnlyStored (f a q)) :
    p.OnlyStored (Machine.forEach l f p) := by
  unfold Machine.forEach
  induction l generalizing p with
  | nil => exact .refl p
  | cons a l ih => exact (hf a List.mem_cons_self p).trans (ih fun b hb => hf b (List.mem_cons_of_mem a hb))

theorem regs (h : p.OnlyStored q) : q.regs = p.regs := by obtain ⟨m, t, o, k, rfl⟩ := h; rfl
theorem reqs (h : p.OnlyStored q) : q.reqs = p.reqs := by obtain ⟨m, t, o, k, rfl⟩ := h; rfl
theorem xfers (h : p.OnlyStored q) : q.xfers = p.xfers := by obtain ⟨m, t, o, k, rfl⟩ := h; rfl

end Part.OnlyStored

/-- A place begins at a row. -/
theorem viewAddr_placeOff_aligned (c code : Nat) : 512 * (viewAddr c (placeOff code) / 512) = viewAddr c (placeOff code) := by
  simp only [viewAddr, viewBase, placeOff]
  split_ifs <;> omega

/-- The views of two cores lie apart. -/
theorem viewAddr_succ (c code : Nat) : viewAddr c (placeOff code) + 512 ≤ viewAddr (c + 1) (placeOff code) := by
  simp only [viewAddr, viewBase]
  omega

theorem Part.onlyCores_fixResid (p : Part) (c off n : Nat) : p.OnlyCores (p.fixResid c off n) := by
  unfold Part.fixResid
  split
  · exact .refl p
  · exact (Part.OnlyCores.refl p).onCore

theorem Part.sideless_fixResid (p : Part) (c off n d : Nat) : ((p.fixResid c off n).core d).sideless = (p.core d).sideless := by
  unfold Part.fixResid
  split
  · rfl
  · exact Part.sideless_onSide _ _ _ _ _

theorem Part.onlyStored_setHalf (p : Part) (c code : Nat) (b : List Byte) (diff : W32) : p.OnlyStored (p.setHalf c code b diff) := by
  unfold Part.setHalf
  dsimp only
  split
  · exact ⟨_, _, _, _, rfl⟩
  · obtain ⟨k, hk⟩ := p.onlyCores_fixResid c (placeOff code) 512
    rw [hk]
    exact ⟨_, _, _, _, rfl⟩

theorem Part.sideless_setHalf (p : Part) (c code d : Nat) (b : List Byte) (diff : W32) :
    ((p.setHalf c code b diff).core d).sideless = (p.core d).sideless := by
  unfold Part.setHalf
  dsimp only
  split
  · rfl
  · exact p.sideless_fixResid c (placeOff code) 512 d

/-- A half of a place is written where its core's view holds it. -/
theorem Part.mem_setHalf (p : Part) (c code : Nat) (b : List Byte) (diff : W32) :
    (p.setHalf c code b diff).mem = (p.setBytes (viewAddr c (placeOff code)) (padTo 512 b)).mem := by
  unfold Part.setHalf
  dsimp only
  split
  · rw [Part.setRow, viewAddr_placeOff_aligned]
    rfl
  · rw [Part.setBytes, Part.fixResid_mem]
    rfl

theorem Part.half_setHalf (p : Part) (c code : Nat) (b : List Byte) (diff : W32) : (p.setHalf c code b diff).half c code = padTo 512 b := by
  have hread := p.bytesAt_setBytes (viewAddr c (placeOff code)) (padTo 512 b)
  rw [padTo_length] at hread
  exact (congrArg (Memory.readN · _ _) (p.mem_setHalf c code b diff)).trans hread

theorem Part.byteAt_setHalf_out (p : Part) {c code a : Nat} (b : List Byte) (diff : W32)
    (h : a < viewAddr c (placeOff code) ∨ viewAddr c (placeOff code) + 512 ≤ a) : (p.setHalf c code b diff).byteAt a = p.byteAt a :=
  (Part.byteAt_congr (p.mem_setHalf c code b diff) a).trans (p.byteAt_setBytes_out _ _ _ (by rwa [padTo_length]))

theorem Part.half_congr {p q : Part} {c code : Nat}
    (h : ∀ a, viewAddr c (placeOff code) ≤ a → a < viewAddr c (placeOff code) + 512 → q.byteAt a = p.byteAt a) : q.half c code = p.half c code :=
  Memory.readN_congr h

theorem Part.onlyStored_setPlace (p : Part) (c code : Nat) (b : List Byte) : p.OnlyStored (p.setPlace c code b) := by
  unfold Part.setPlace
  split
  · exact (p.onlyStored_setHalf _ _ _ _).trans (Part.onlyStored_setHalf _ _ _ _ _)
  · exact p.onlyStored_setHalf _ _ _ _

theorem Part.sideless_setPlace (p : Part) (c code d : Nat) (b : List Byte) : ((p.setPlace c code b).core d).sideless = (p.core d).sideless := by
  unfold Part.setPlace
  split
  · rw [Part.sideless_setHalf, Part.sideless_setHalf]
  · exact p.sideless_setHalf _ _ _ _ _

/-- A place written reads back, on a two-hander one half at each core. -/
theorem Part.half_setPlace (p : Part) (c : Nat) {code : Nat} (b : List Byte) :
    if p.paired c then (p.setPlace c code b).half c code = padTo 512 (b.take 512) ∧ (p.setPlace c code b).half (c + 1) code = padTo 512 (b.drop 512)
    else (p.setPlace c code b).half c code = padTo 512 b := by
  unfold Part.setPlace
  split
  · refine ⟨?_, Part.half_setHalf _ _ _ _ _⟩
    have hapart := viewAddr_succ c code
    rw [Part.half_congr fun a _ ha => Part.byteAt_setHalf_out _ _ _ (.inl (by omega)), Part.half_setHalf]
  · exact Part.half_setHalf _ _ _ _ _

/-- No byte but those of the place is written. -/
theorem Part.byteAt_setPlace_out (p : Part) {c code a : Nat} (b : List Byte)
    (h : ∀ x ∈ p.pairOf c, a < viewAddr x (placeOff code) ∨ viewAddr x (placeOff code) + 512 ≤ a) :
    (p.setPlace c code b).byteAt a = p.byteAt a := by
  have hself := h c (p.self_mem_pairOf c)
  unfold Part.setPlace
  split
  next hpaired => rw [Part.byteAt_setHalf_out _ _ _ (h (c + 1) (by simp [Part.pairOf, hpaired])), Part.byteAt_setHalf_out _ _ _ hself]
  next => exact p.byteAt_setHalf_out _ _ hself

/-! ### The start of a row move (07 R216 to R219) -/

/-- The core with the move `m` under way, which has read `data`, and the moves `ms` in its queue. -/
def Core.takeMove (m : MoveOp) (ms : List MoveOp) (data : List (Nat × List Byte)) (k : Core) : Core :=
  { k with moveq := ms, moving := k.moving ++ [{ m with data := data }] }

/-- A move that asks for no rows begins by leaving the queue. -/
theorem Part.onlyRegs_begin {p : Part} {c : Nat} {m : MoveOp} {ms : List MoveOp} (hq : (p.core c).moveq = m :: ms) (data : List (Nat × List Byte)) :
    (p.onCore c (Core.takeMove m ms data)).OnlyRegs (p.begin c m data []) := by
  have htake : p.onCore c (fun k => { k with moveq := k.moveq.drop 1, moving := k.moving ++ [{ m with data := data }] }) =
      p.onCore c (Core.takeMove m ms data) := by
    simp only [Part.onCore, Core.takeMove, hq, List.drop_one, List.tail_cons]
  rw [Part.begin, htake, List.append_nil]
  exact Part.onlyRegs_hubMark _

/-- What a move of one place, a transposed or a strided read finds, for its place `pl`. -/
def Part.finds (p : Part) (c : Nat) (m : Move) (pl : Nat) (b : List Byte) : Prop :=
  (∃ src, m = .mov pl src 1 ∧ b = p.placeBytes c src) ∨ (∃ r j w, m = .trd pl r j w ∧ b = p.transposed c r j w) ∨
    (∃ r d x, m = .srd pl r d x ∧ b = p.strided c r d x)

theorem Part.startMove_eq_begin {p : Part} {c : Nat} {m : MoveOp} {ms : List MoveOp} {pl : Nat} {b : List Byte} (hq : (p.core c).moveq = m :: ms)
    (hfinds : p.finds c m.what pl b)
    (hclear : p.clear c m.uid none ((m.what.reads (p.paired c)).map placeRes) (m.what.writes.map placeRes) = true)
    (hgood : ∀ r ∈ m.what.reads (p.paired c), (p.placeTrouble c r).isNone = true) : p.startMove c = p.begin c m [(pl, b)] [] := by
  have htrouble : (m.what.reads (p.paired c)).findSome? (fun r => p.placeTrouble c r) = none :=
    List.findSome?_eq_none_iff.mpr fun r hr => Option.isNone_iff_eq_none.mp (hgood r hr)
  simp only [Part.startMove, hq, hclear, Bool.not_true, Bool.false_eq_true, if_false]
  obtain ⟨src, hwhat, rfl⟩ | ⟨r, j, w, hwhat, rfl⟩ | ⟨r, d, x, hwhat, rfl⟩ := hfinds
  · rw [hwhat, Move.reads, List.findSome?_map] at htrouble
    simp only [hwhat]
    rw [show (List.range 1).findSome? (fun i => p.placeTrouble c (src + i)) = none from htrouble]
    rfl
  · simp only [hwhat] at htrouble ⊢
    rw [htrouble]
  · simp only [hwhat] at htrouble ⊢
    rw [htrouble]

theorem exec_rowMoveStart_of_ready {s : State} (hready : s.part.phase = .ready) (c : Nat) :
    exec (.rowMoveStart c) s = .next (s.after c (s.part.startMove c) (·.unstall c)) :=
  State.coreCmd_eq_after hready rfl

/-! ### The completion of a row move (07 R215) -/

theorem Part.moveDirect_of_none {p : Part} {u : Nat} (h : ∀ r ∈ p.reqs, r.uid ≠ u) : p.moveDirect u = p := by
  have hnone : p.reqs.filter (fun r => r.uid == u) = [] := by simpa using h
  rw [Part.moveDirect, hnone]
  rfl

theorem Part.dropReqs_of_none {p : Part} {u : Nat} (h : ∀ r ∈ p.reqs, r.uid ≠ u) : p.dropReqs u = p := by
  have hall : p.reqs.filter (fun r => r.uid ≠ u) = p.reqs := by simpa using h
  rw [Part.dropReqs, hall]

/-- The core without the move `u`. -/
def Core.dropMove (u : Nat) (k : Core) : Core := { k with moving := k.moving.filter (fun y => y.uid ≠ u) }

/-- The move `u` of core `c` has written `b` to the place `pl` and left the unit. -/
def Part.moved (p : Part) (c u pl : Nat) (b : List Byte) : Part := (p.setPlace c pl b).onCore c (Core.dropMove u)

theorem Part.writeMove_place {p : Part} {c pl : Nat} {m : MoveOp} {b : List Byte} (hrecv : ∀ q x y, m.what ≠ .recv q x y) :
    p.writeMove c { m with data := [(pl, b)] } = p.setPlace c pl b := by
  unfold Part.writeMove
  dsimp only
  split
  next q x y hwhat => exact absurd hwhat (hrecv q x y)
  next => rfl

theorem Part.endMove_of_landed {p : Part} {c pl : Nat} {m : MoveOp} {b : List Byte}
    (hfind : (p.core c).moving.find? (fun x => x.uid == m.uid) = some { m with data := [(pl, b)] }) (hrecv : ∀ q x y, m.what ≠ .recv q x y)
    (hsend : ∀ x y z w, m.what ≠ .send x y z w) (hreqs : ∀ r ∈ p.reqs, r.uid ≠ m.uid) :
    p.endMove c m.uid = (p.moved c m.uid pl b).completed c m.done := by
  have hlanded : p.reqsOf c m.uid = [] := by simpa [Part.reqsOf] using fun r hr _ => hreqs r hr
  have hdrop : (p.setPlace c pl b).dropReqs m.uid = p.setPlace c pl b :=
    Part.dropReqs_of_none fun r hr => hreqs r ((p.onlyStored_setPlace c pl b).reqs ▸ hr)
  unfold Part.endMove
  rw [Part.moveDirect_of_none hreqs]
  simp only [hfind, hlanded, List.all_nil, if_true, Part.writeMove_place hrecv, hdrop]
  rfl

theorem exec_rowMoveComplete_of_landed {s : State} (hready : s.part.phase = .ready) {c pl : Nat} {m : MoveOp} {b : List Byte}
    (hfind : (s.part.core c).moving.find? (fun x => x.uid == m.uid) = some { m with data := [(pl, b)] }) (hrecv : ∀ q x y, m.what ≠ .recv q x y)
    (hsend : ∀ x y z w, m.what ≠ .send x y z w) (hreqs : ∀ r ∈ s.part.reqs, r.uid ≠ m.uid) :
    exec (.rowMoveComplete c m.uid) s = .next (s.after c (s.part.moved c m.uid pl b) (fun q => (q.completed c m.done).unstall c)) :=
  State.coreCmd_eq_after hready (f := fun q => (q.endMove c m.uid).unstall c) (by rw [Part.endMove_of_landed hfind hrecv hsend hreqs])

theorem Part.onlyStored_moved (p : Part) (c u pl : Nat) (b : List Byte) : p.OnlyStored (p.moved c u pl b) :=
  (p.onlyStored_setPlace c pl b).trans (.of_onlyCores (Part.OnlyCores.refl _).onCore)

theorem Part.OnlyStored.sameRest {p q : Part} (h : p.OnlyStored q) : p.sameRest q := by
  obtain ⟨m, t, o, k, rfl⟩ := h
  rfl

/-- The core without its side records and what its row-move unit has under way. -/
def Core.moveless (k : Core) : Core := { k with sides := [], moving := [] }

theorem Part.moveless_moved (p : Part) (c u pl d : Nat) (b : List Byte) : ((p.moved c u pl b).core d).moveless = (p.core d).moveless := by
  have hplace := congrArg Core.moveless (p.sideless_setPlace c pl d b)
  exact (Part.onCore_leaves Core.moveless rfl d).trans hplace

theorem Part.moving_moved (p : Part) (c u pl : Nat) (b : List Byte) :
    ((p.moved c u pl b).core c).moving = (p.core c).moving.filter (fun y => y.uid ≠ u) := by
  have hplace : ((p.setPlace c pl b).core c).moving = (p.core c).moving := congrArg (·.moving) (p.sideless_setPlace c pl c b)
  rw [Part.moved, Part.core_onCore_self, Core.dropMove, hplace]

/-- Settles O10: a start by what `Part.begin` changes (`Part.onlyRegs_begin`), a completion by the place that it writes
(`Part.half_setPlace`, `Part.byteAt_setPlace_out`), the transposed read by its pieces of one length (`Part.getD_transposed`). -/
theorem rowMovesStartAndComplete : Obligations.RowMovesStartAndComplete := by
  unfold Obligations.RowMovesStartAndComplete
  refine ⟨fun s c m ms pl b hready => ⟨fun hq hfinds hclear hgood => ?_, fun hfind hrecv hsend hreqs _ => ?_⟩,
    fun p c row j w k i y _ hj hk hi hy h => Part.getD_transposed hj hk hi hy h⟩
  · have hbegin := Part.onlyRegs_begin hq [(pl, b)]
    rw [← Part.startMove_eq_begin hq hfinds hclear hgood] at hbegin
    refine ⟨s.act (·.startMove c), exec_rowMoveStart_of_ready hready c, hbegin.sameRest_of_onCore, hbegin.byteAt, fun d hd => ?_,
      (hbegin.core c).trans (Part.core_onCore_self _ _ _)⟩
    exact (hbegin.core d).trans (Part.core_onCore_ne _ _ (List.mem_singleton.not.mp hd))
  · have hstored := s.part.onlyStored_moved c m.uid pl b
    exact ⟨s.act (·.moved c m.uid pl b), exec_rowMoveComplete_of_landed hready hfind hrecv hsend hreqs, hstored.sameRest,
      fun o _ => Part.reg_congr hstored.regs o, s.part.moving_moved c m.uid pl b, fun d => s.part.moveless_moved c m.uid pl d b,
      s.part.half_setPlace c b, fun a ha => s.part.byteAt_setPlace_out b ha⟩

end Sys2Proof.Machine

/-! ## Rows that land, and the end of a transfer -/

namespace Sys2Proof.Machine
open Sys2Proof

/-! ### A cache fill (06 R185) -/

/-- Requests that can take no step at a direct home leave the part as it is. -/
theorem Part.moveDirect_of_stuck {p : Part} {u : Nat} (h : ∀ r ∈ p.reqs, r.uid = u → p.canDirect r = false) : p.moveDirect u = p := by
  have hnone : p.reqs.find? (fun r => r.uid == u && p.canDirect r) = none := by simpa using h
  unfold Part.moveDirect
  generalize 2 * (p.reqs.filter (fun r => r.uid == u)).length = n
  cases n with
  | zero => rfl
  | succ n => rw [Part.runDirect, hnone]

theorem Part.canDirect_of_read {p : Part} {r : Req} (hgot : r.got = true) (hdst : r.dst = none) : p.canDirect r = false := by
  simp [Part.canDirect, hgot, hdst]

theorem Part.canDirect_of_landed {p : Part} {r : Req} (h : r.landed = true) : p.canDirect r = false := by
  simp [Part.canDirect, h]

/-- The way `slot` of the core holds its line. -/
def Core.fillWay (slot : Nat) (k : Core) : Core := k.setWay slot { k.way slot with valid := true, filling := false }

@[simp] theorem Core.way_setWay_self (k : Core) (slot : Nat) (w : Way) : (k.setWay slot w).way slot = w := by
  simp [Core.way, Core.setWay]

/-- The fill that read the row of the request `r` has landed in way `slot` of core `c`. -/
def Part.filled (p : Part) (c slot : Nat) (r : Req) : Part :=
  ((p.setRow (viewAddr c (512 * (scratchRows (p.partition c) + slot))) r.row 0).onCore c (Core.fillWay slot)).dropReqs r.uid

theorem Part.landFill_of_got {p : Part} {c line slot : Nat} {r : Req}
    (hfind : p.reqs.find? (fun x => x.core == c && x.fill.isSome && x.src == some (512 * line)) = some r) (hone : ∀ x ∈ p.reqs, x.uid = r.uid → x = r)
    (hfill : r.fill = some slot) (hgot : r.got = true) (hdst : r.dst = none) :
    p.landFill c line = ((p.filled c slot r).settle c).refillWaiting c := by
  have hstuck : p.moveDirect r.uid = p := Part.moveDirect_of_stuck fun x hx hu => by
    rw [hone x hx hu]
    exact Part.canDirect_of_read hgot hdst
  have hmem : r ∈ p.reqs := List.mem_of_find?_eq_some hfind
  have hfound : p.reqs.find? (fun x => x.uid == r.uid && x.got) = some r := by
    obtain ⟨x, hx⟩ := Option.isSome_iff_exists.mp (List.find?_isSome.mpr ⟨r, hmem, by simp [hgot]⟩ :
      (p.reqs.find? (fun x => x.uid == r.uid && x.got)).isSome = true)
    have hxr := List.find?_some hx
    simp only [Bool.and_eq_true, beq_iff_eq] at hxr
    rw [hx, hone x (List.mem_of_find?_eq_some hx) hxr.1]
  simp only [Part.landFill, hfind, hstuck, hfound, hfill]
  rfl

theorem exec_cacheFillLands_of_got {s : State} (hready : s.part.phase = .ready) {c line slot : Nat} {r : Req}
    (hfind : s.part.reqs.find? (fun x => x.core == c && x.fill.isSome && x.src == some (512 * line)) = some r)
    (hone : ∀ x ∈ s.part.reqs, x.uid = r.uid → x = r) (hfill : r.fill = some slot) (hgot : r.got = true) (hdst : r.dst = none) :
    exec (.cacheFillLands c line) s =
      .next (s.after c (s.part.filled c slot r) (fun q => ((q.settle c).refillWaiting c).unstall c)) :=
  State.coreCmd_eq_after hready (f := fun q => (q.landFill c line).unstall c) (by rw [Part.landFill_of_got hfind hone hfill hgot hdst])

/-- A row written reads back. -/
theorem Part.bytesAt_setRow (p : Part) (a : Nat) (row : List Byte) (diff : W32) :
    (p.setRow a row diff).bytesAt (512 * (a / 512)) 512 = padTo 512 row := by
  have hread := p.bytesAt_setBytes (512 * (a / 512)) (padTo 512 row)
  rwa [padTo_length] at hread

theorem Part.byteAt_setRow_out (p : Part) {a x : Nat} (row : List Byte) (diff : W32) (h : x < 512 * (a / 512) ∨ 512 * (a / 512) + 512 ≤ x) :
    (p.setRow a row diff).byteAt x = p.byteAt x :=
  p.byteAt_setBytes_out _ _ _ (by rwa [padTo_length])

theorem Part.core_filled_self (p : Part) (c slot : Nat) (r : Req) : (p.filled c slot r).core c = (p.core c).fillWay slot :=
  Part.core_onCore_self _ _ _

theorem Part.core_filled_ne (p : Part) {c d : Nat} (slot : Nat) (r : Req) (h : d ≠ c) : (p.filled c slot r).core d = p.core d :=
  Part.core_onCore_ne _ _ h

/-! ### A row that a channel reads for a load (13 R395 R404) -/

/-- The read of the good row at `a` is counted, with the corrections on its link. -/
def Part.readCounted (p : Part) (a ecc : Nat) : Part :=
  (p.bump (chanReg Reg.MEM_CH_RD a) 1).bumpSat (chanReg Reg.MEM_CH_LECC a) ecc

/-- The row at `a` has been read for the request `r` and has landed in the place `d`. -/
def Part.rowLanded (p : Part) (a ecc : Nat) (r : Req) (d : Nat × Nat) : Part :=
  ((p.readCounted a ecc).setHalf d.1 d.2 (p.rowAt a) 0).onReq r (fun x => { x with got := true, landed := true })

theorem Part.advanceXfer_of_none {p : Part} {u : Nat} (h : p.xferOf u = none) : p.advanceXfer u = p := by
  simp only [Part.advanceXfer, h]

theorem Part.xferOf_congr {p q : Part} (h : q.xfers = p.xfers) (u : Nat) : q.xferOf u = p.xferOf u := by
  simp only [Part.xferOf, h]

theorem Part.rowArrived_of_load {p : Part} {a pl ad n : Nat} {r : Req} {m : MoveOp} (hx : p.xferOf r.uid = none) (hm : p.moveOf r = some m)
    (hwhat : m.what = .ldr pl ad n false) :
    p.rowArrived r a =
      (p.setHalf (p.landingPlace r pl).1 (p.landingPlace r pl).2 (p.rowAt a) 0).onReq r (fun x => { x with got := true, landed := true }) := by
  simp only [Part.rowArrived, hx, Part.deliver, hm, hwhat]
  exact Part.advanceXfer_of_none ((Part.xferOf_congr (p.onlyStored_setHalf _ _ _ _).xfers r.uid).trans hx)

theorem Part.readRow_of_good {p : Part} {a ecc pl ad n : Nat} {r : Req} {m : MoveOp} (ha : a % 512 = 0) (hr : p.readerOf a = some r)
    (hx : p.xferOf r.uid = none) (hhome : p.homeAt a = .lpddr) (hch : p.chFailed a = false) (hgood : p.rowGood a = true)
    (hm : p.moveOf r = some m) (hwhat : m.what = .ldr pl ad n false) :
    p.readRow a .clean ecc = p.rowLanded a ecc r (p.landingPlace r pl) := by
  have haddr : 512 * (a / 512) = a := by omega
  have hcount : (p.countRead a).bumpSat (chanReg Reg.MEM_CH_LECC a) ecc = p.readCounted a ecc := by rw [Part.countRead, if_pos hhome]; rfl
  have harrived : (p.readCounted a ecc).rowArrived r a = p.rowLanded a ecc r (p.landingPlace r pl) := Part.rowArrived_of_load hx hm hwhat
  simp [Part.readRow, hr, haddr, hch, hcount, hgood, harrived]

theorem exec_rowRead_of_good {s : State} (hready : s.part.phase = .ready) {a ecc pl ad n : Nat} {r : Req} {m : MoveOp} (ha : a % 512 = 0)
    (hr : s.part.readerOf a = some r) (hx : s.part.xferOf r.uid = none) (hhome : s.part.homeAt a = .lpddr) (hch : s.part.chFailed a = false)
    (hgood : s.part.rowGood a = true) (hm : s.part.moveOf r = some m) (hwhat : m.what = .ldr pl ad n false) :
    exec (.rowRead a .clean ecc) s =
      .next (s.after r.core (s.part.rowLanded a ecc r (s.part.landingPlace r pl)) (·.unstall r.core)) := by
  have hrow := Part.readRow_of_good (ecc := ecc) ha hr hx hhome hch hgood hm hwhat
  change s.event _ = _
  rw [State.event, State.live_eq hready]
  simp only [State.act, hr, Part.forReq, State.after, Part.onTheCore, Part.resting, hrow]

theorem chanReg_rd_ne_lecc (a : Nat) : chanReg Reg.MEM_CH_RD a ≠ chanReg Reg.MEM_CH_LECC a := by
  simp [chanReg, RegRow.at, Reg.MEM_CH_RD, Reg.MEM_CH_LECC]

theorem Part.reg_readCounted_rd (p : Part) (a ecc : Nat) :
    (p.readCounted a ecc).reg (chanReg Reg.MEM_CH_RD a) = p.reg (chanReg Reg.MEM_CH_RD a) + 1 := by
  rw [Part.readCounted, Part.reg_bumpSat, if_neg (chanReg_rd_ne_lecc a), Part.reg_bump, if_pos rfl]
  rfl

theorem Part.reg_readCounted_lecc (p : Part) (a ecc : Nat) :
    (p.readCounted a ecc).reg (chanReg Reg.MEM_CH_LECC a) = satAdd32 (p.reg (chanReg Reg.MEM_CH_LECC a)) ecc := by
  rw [Part.readCounted, Part.reg_bumpSat, if_pos rfl, Part.reg_bump, if_neg (chanReg_rd_ne_lecc a).symm]

theorem Part.reg_rowLanded (p : Part) (a ecc : Nat) (r : Req) (d : Nat × Nat) (o : Nat) :
    (p.rowLanded a ecc r d).reg o = (p.readCounted a ecc).reg o :=
  Part.reg_congr (Part.onlyStored_setHalf _ _ _ _ _).regs o

@[simp] theorem Part.length_bytesAt (p : Part) (a n : Nat) : (p.bytesAt a n).length = n := Memory.length_readN _ _ _

theorem padTo_of_length {n : Nat} {l : List Byte} (h : l.length = n) : padTo n l = l := by
  simp [padTo, h]

/-- A row at a row's address is what is read there. -/
theorem Part.rowAt_of_aligned (p : Part) {a : Nat} (h : a % 512 = 0) : p.rowAt a = p.bytesAt a 512 := by
  rw [Part.rowAt]
  congr 1
  omega

/-- The row lies in the place where it has landed. -/
theorem Part.half_rowLanded (p : Part) {a : Nat} (ecc : Nat) (r : Req) (d : Nat × Nat) (h : a % 512 = 0) :
    (p.rowLanded a ecc r d).half d.1 d.2 = p.bytesAt a 512 := by
  have hrow : padTo 512 (p.rowAt a) = p.bytesAt a 512 := by rw [p.rowAt_of_aligned h, padTo_of_length (p.length_bytesAt a 512)]
  exact ((p.readCounted a ecc).half_setHalf d.1 d.2 (p.rowAt a) 0).trans hrow

theorem Part.byteAt_rowLanded_out (p : Part) {a x : Nat} (ecc : Nat) (r : Req) (d : Nat × Nat)
    (h : x < viewAddr d.1 (placeOff d.2) ∨ viewAddr d.1 (placeOff d.2) + 512 ≤ x) : (p.rowLanded a ecc r d).byteAt x = p.byteAt x :=
  Part.byteAt_setHalf_out _ _ _ h

theorem Part.reqs_rowLanded (p : Part) (a ecc : Nat) (r : Req) (d : Nat × Nat) : (p.rowLanded a ecc r d).reqs =
    p.reqs.map (fun x => if x.uid = r.uid ∧ x.idx = r.idx then { x with got := true, landed := true } else x) := by
  rw [Part.rowLanded, Part.onReq, (Part.onlyStored_setHalf _ _ _ _ _).reqs]
  rfl

/-! ### The end of a transfer (13 R392 R394) -/

/-- The transfer has left the engine with its requests. -/
def Part.retired (p : Part) (x : Xfer) : Part :=
  { p.dropReqs x.uid with xfers := (p.dropReqs x.uid).xfers.filter (fun y => y.uid ≠ x.uid) }

/-- The transfer has left the engine and written the signal that it asks for. -/
def Part.signalled (p : Part) (x : Xfer) : Part :=
  let d := Machine.descOf x.desc
  if d.sig then (((p.retired x).countRead d.sigAddr).writePart d.sigAddr (leBytes 8 d.sigVal)).bell d.sigAddr 8 x.task else p.retired x

theorem Part.pumpXfer_of_landed {p : Part} {x : Xfer} (hx : p.xferOf x.uid = some x) (hwriting : x.writing = true)
    (hkind : (Machine.descOf x.desc).kind ≠ 4) (hreqs : ∀ r ∈ p.reqs, r.uid = x.uid → r.got = true ∧ r.landed = true) : p.pumpXfer x.uid = p := by
  have hstuck : p.moveDirect x.uid = p := Part.moveDirect_of_stuck fun r hr hu => Part.canDirect_of_landed (hreqs r hr hu).2
  have hadvance : p.advanceXfer x.uid = p := by
    simp [Part.advanceXfer, hx, hwriting, hkind]
  rw [Part.pumpXfer, hstuck, hadvance, hstuck]

theorem Part.xferDone_of_landed {p : Part} {x : Xfer} (hwriting : x.writing = true) (hkind : (Machine.descOf x.desc).kind ≠ 4)
    (hreqs : ∀ r ∈ p.reqs, r.uid = x.uid → r.got = true ∧ r.landed = true) : p.xferDone x = true := by
  have hall : (p.reqs.filter (fun r => r.uid == x.uid)).all (fun r => if r.dst.isNone then r.got else r.landed) = true := by
    refine List.all_eq_true.mpr fun r hr => ?_
    obtain ⟨hmem, hu⟩ := List.mem_filter.mp hr
    obtain ⟨hgot, hlanded⟩ := hreqs r hmem (beq_iff_eq.mp hu)
    simp [hgot, hlanded]
  simp only [Part.xferDone, hwriting, hall, Bool.true_and, bne_iff_ne.mpr hkind, Bool.true_or]

/-- What a signal asks of its address: nothing there waits, and the row takes a write. -/
def Part.mayEnd (p : Part) (x : Xfer) : Prop :=
  (Machine.descOf x.desc).sig = true → p.sigWaits (Machine.descOf x.desc).sigAddr = false ∧ p.homeAt (Machine.descOf x.desc).sigAddr = .lpddr ∧
    (p.writeFault (Machine.descOf x.desc).sigAddr 8).isNone = true ∧ p.rowGood (Machine.descOf x.desc).sigAddr = true

theorem Part.endXfer_of_good {p : Part} {x : Xfer} (h : p.mayEnd x) : p.endXfer x = (p.signalled x).completed x.core x.done := by
  by_cases hsig : (Machine.descOf x.desc).sig = true
  · obtain ⟨hwaits, -, hfault, hgood⟩ := h hsig
    simp only [Part.endXfer, Part.signalled, Part.retired, hsig, hwaits, Option.isNone_iff_eq_none.mp hfault, hgood, if_true, Bool.not_true,
      Bool.and_false, Bool.false_eq_true, if_false]
  · simp only [Part.endXfer, Part.signalled, Part.retired, if_neg hsig]

theorem Part.completeXfer_of_landed {p : Part} {x : Xfer} (hx : p.xferOf x.uid = some x) (hwriting : x.writing = true)
    (hkind : (Machine.descOf x.desc).kind ≠ 4) (hreqs : ∀ r ∈ p.reqs, r.uid = x.uid → r.got = true ∧ r.landed = true) (hend : p.mayEnd x) :
    p.completeXfer x.core x.uid = (p.signalled x).completed x.core x.done := by
  rw [Part.completeXfer, Part.pumpXfer_of_landed hx hwriting hkind hreqs]
  simp only [hx, Part.xferDone_of_landed hwriting hkind hreqs, and_self, if_true, Part.endXfer_of_good hend]

theorem exec_transferComplete_of_landed {s : State} (hready : s.part.phase = .ready) {x : Xfer} (hx : s.part.xferOf x.uid = some x)
    (hwriting : x.writing = true) (hkind : (descOf x.desc).kind ≠ 4)
    (hreqs : ∀ r ∈ s.part.reqs, r.uid = x.uid → r.got = true ∧ r.landed = true) (hend : s.part.mayEnd x) :
    exec (.transferComplete x.core x.uid) s =
      .next (s.after x.core (s.part.signalled x) (fun q => (q.completed x.core x.done).unstall x.core)) :=
  State.coreCmd_eq_after hready (f := fun q => (q.completeXfer x.core x.uid).unstall x.core)
    (by rw [Part.completeXfer_of_landed hx hwriting hkind hreqs hend])

theorem Part.onlyTouched_countWrite (p : Part) (a : Nat) : p.OnlyTouched (p.countWrite a) :=
  .ite (.of_onlyRegs (Part.OnlyRegs.refl p).bump) (p.onlyTouched_touch a)

theorem chanReg_rd_ne_capacity (a : Nat) : chanReg Reg.MEM_CH_RD a ≠ Reg.MEM_CAPACITY.at [0] := by
  simp [chanReg, RegRow.at, Reg.MEM_CH_RD, Reg.MEM_CAPACITY]
  omega

/-- A counted read changes no home. -/
theorem Part.homeAt_countRead_of_lpddr {p : Part} {a : Nat} (h : p.homeAt a = .lpddr) : (p.countRead a).homeAt a = .lpddr := by
  rw [Part.countRead, if_pos h, ← h, Part.homeAt, Part.homeAt, Part.cap, Part.cap, Part.regN, Part.regN, Part.reg_bump,
    if_neg (chanReg_rd_ne_capacity a).symm]

/-- Bytes written below a row of a channel: those bytes, the row's tag, the count of writes. -/
theorem Part.writePart_of_lpddr {p : Part} {a : Nat} (h : p.homeAt a = .lpddr) (l : List Byte) :
    ∃ t o r w, p.writePart a l = { p with mem := (p.setBytes a l).mem, tagErr := t, poison := o, regs := r, pwr := w } := by
  have htouch : p.touch a = p := by simp only [Part.touch, h]
  have hmerge : ∃ t o, p.mergeRow a l = { p with mem := (p.setBytes a l).mem, tagErr := t, poison := o } := by
    unfold Part.mergeRow
    split
    · exact ⟨_, _, rfl⟩
    · exact ⟨_, _, rfl⟩
  obtain ⟨t, o, hmerge⟩ := hmerge
  obtain ⟨r, w, hcount⟩ := (p.mergeRow a l).onlyTouched_countWrite a
  simp only [Part.writePart, htouch, h]
  rw [hcount, hmerge]
  exact ⟨t, o, r, w, rfl⟩

/-- What of the store and the engine a transfer's end changes. -/
theorem Part.signalled_of_sig {p : Part} {x : Xfer} (hsig : (Machine.descOf x.desc).sig = true)
    (hhome : p.homeAt (Machine.descOf x.desc).sigAddr = .lpddr) :
    (p.signalled x).mem = (p.setBytes (Machine.descOf x.desc).sigAddr (leBytes 8 (Machine.descOf x.desc).sigVal)).mem ∧
      (p.signalled x).cores = p.cores ∧ (p.signalled x).xfers = (p.retired x).xfers ∧ (p.signalled x).reqs = (p.retired x).reqs := by
  have hread : ((p.retired x).countRead (Machine.descOf x.desc).sigAddr).homeAt (Machine.descOf x.desc).sigAddr = .lpddr :=
    Part.homeAt_countRead_of_lpddr hhome
  obtain ⟨t, o, r, w, hwrite⟩ := Part.writePart_of_lpddr hread (leBytes 8 (Machine.descOf x.desc).sigVal)
  obtain ⟨r', w', hcount⟩ := (p.retired x).onlyTouched_countRead (Machine.descOf x.desc).sigAddr
  rw [Part.signalled, if_pos hsig, hwrite, hcount]
  exact ⟨rfl, rfl, rfl, rfl⟩

theorem Part.natAt_setBytes_leBytes (p : Part) (a n v : Nat) : (p.setBytes a (leBytes n v)).natAt a n = v % 256 ^ n := by
  have hread := p.bytesAt_setBytes a (leBytes n v)
  rw [leBytes_length] at hread
  rw [Part.natAt, hread, leNat_leBytes]

/-- Settles O11: a fill writes its row and marks its way (`Part.filled`), a channel's read writes one place (`Part.rowLanded`), a transfer's end
writes its signal (`Part.signalled_of_sig`). -/
theorem fillsReadsAndTransfersLand : Obligations.FillsReadsAndTransfersLand := by
  unfold Obligations.FillsReadsAndTransfersLand
  refine ⟨?_, ?_, ?_⟩
  · intro s c line slot r hready hfind hone hfill hgot hdst row
    have hway : ((s.part.filled c slot r).core c).way slot = { (s.part.core c).way slot with valid := true, filling := false } := by
      rw [Part.core_filled_self, Core.fillWay, Core.way_setWay_self]
    refine ⟨s.act (·.filled c slot r), exec_cacheFillLands_of_got hready hfind hone hfill hgot hdst, rfl,
      fun d hd => Part.core_filled_ne _ _ _ (List.mem_singleton.not.mp hd), fun o _ => rfl, congrArg (·.valid) hway, congrArg (·.filling) hway,
      congrArg (·.line) hway, s.part.bytesAt_setRow _ r.row 0, fun a ha => s.part.byteAt_setRow_out r.row 0 ha⟩
  · intro s a ecc r m pl ad n hready ha hr hx hhome hch hgood hm hwhat d v
    have hv : 512 * (v / 512) = v := viewAddr_placeOff_aligned _ _
    refine ⟨s.act (·.rowLanded a ecc r d), exec_rowRead_of_good hready ha hr hx hhome hch hgood hm hwhat, s.part.half_rowLanded ecc r d ha,
      s.part.reqs_rowLanded a ecc r d, (s.part.reg_rowLanded _ _ _ _ _).trans (s.part.reg_readCounted_rd a ecc),
      (s.part.reg_rowLanded _ _ _ _ _).trans (s.part.reg_readCounted_lecc a ecc), fun x hx => s.part.byteAt_rowLanded_out ecc r d ?_⟩
    rwa [hv] at hx
  · rintro s _ x hready hx rfl hwriting hkind hreqs d hsig
    refine ⟨s.act (·.signalled x), exec_transferComplete_of_landed hready hx hwriting hkind hreqs hsig, ?_⟩
    by_cases hd : d.sig = true
    · obtain ⟨hmem, hcores, hxfers, hreqs'⟩ := Part.signalled_of_sig hd (hsig hd).2.1
      refine ⟨hxfers, hreqs', fun k _ => Part.core_congr hcores k, fun _ => ?_, fun a ha => (Part.byteAt_congr hmem a).trans ?_⟩
      · exact (congrArg (fun l => leNat (Memory.readN l d.sigAddr 8)) hmem).trans (s.part.natAt_setBytes_leBytes d.sigAddr 8 d.sigVal)
      · refine s.part.byteAt_setBytes_out _ _ _ ?_
        rw [leBytes_length]
        exact ha.resolve_left (by simp [hd])
    · have hretired : s.part.signalled x = s.part.retired x := if_neg hd
      exact ⟨congrArg (·.xfers) hretired, congrArg (·.reqs) hretired, fun k _ => congrArg (·.core k) hretired, fun h => absurd h hd,
        fun a _ => congrArg (·.byteAt a) hretired⟩

end Sys2Proof.Machine

/-! ## Handlers are dispatched -/

namespace Sys2Proof.Machine
open Sys2Proof

/-! ### One queue (06 R173) -/

/-- What holds at first and each round keeps holds after the loop. -/
theorem forEach_keeps {α β : Type} {P : β → Prop} {l : List α} {f : α → β → β} {b : β} (h : P b) (hf : ∀ a ∈ l, ∀ q, P q → P (f a q)) :
    P (forEach l f b) := by
  unfold forEach
  induction l generalizing b with
  | nil => exact h
  | cons a l ih => exact ih (hf a List.mem_cons_self b h) fun c hc => hf c (List.mem_cons_of_mem a hc)

/-- Queue `q` of core `c` names a handler, runs none and holds a message that no RECV has claimed. -/
def Part.canDispatch (p : Part) (c q : Nat) : Bool :=
  bitOf (p.queueWord (queueHome c q).1 (queueHome c q).2) 0 && !((p.core (queueHome c q).1).queue (queueHome c q).2).running &&
    decide (0 < p.unclaimed c q)

/-- Queue `i` of the core runs its handler. -/
def Core.serve (i : Nat) (k : Core) : Core := k.onQueue i (fun y => { y with running := true })

/-- The thread as it starts the handler of queue `q` whose configuration word is `w`. -/
def Thread.handle (w q : Nat) (th : Thread) : Thread := { th.ready with ptr := fld w 1 10, handler := true, queue := q, took := false }

/-- Thread `t` of core `c` has started the handler of queue `q`. -/
def Part.handled (p : Part) (c q t : Nat) : Part :=
  (p.onCore (queueHome c q).1 (Core.serve (queueHome c q).2)).onTh c t (Thread.handle (p.queueWord (queueHome c q).1 (queueHome c q).2) q)

theorem Part.dispatchOne_of_not {p : Part} {c q : Nat} (h : p.canDispatch c q = false) : p.dispatchOne c q = p := by
  unfold Part.canDispatch at h
  simp only [Part.dispatchOne, h, Bool.false_eq_true, if_false]

theorem Part.dispatchOne_of_idle {p : Part} {c q t : Nat} (h : p.canDispatch c q = true)
    (ht : (List.range 8).find? (fun t => decide ((p.th c t).st = .idle)) = some t) : p.dispatchOne c q = p.handled c q t := by
  unfold Part.canDispatch at h
  simp only [Part.dispatchOne, h, if_true, ht]
  rfl

/-- One queue starts its handler on an IDLE thread, or nothing happens. -/
theorem Part.dispatchOne_cases (p : Part) (c q : Nat) :
    Part.dispatchOne c q p = p ∨ ∃ t, (p.th c t).st = .idle ∧ Part.dispatchOne c q p = p.handled c q t := by
  cases hcan : p.canDispatch c q with
  | false => exact .inl (Part.dispatchOne_of_not hcan)
  | true =>
    cases ht : (List.range 8).find? (fun t => decide ((p.th c t).st = .idle)) with
    | none =>
      left
      unfold Part.canDispatch at hcan
      simp only [Part.dispatchOne, hcan, if_true, ht]
    | some t => exact .inr ⟨t, by simpa using List.find?_some ht, Part.dispatchOne_of_idle hcan ht⟩

/-- The core without its threads and its queues. -/
def Core.unserved (k : Core) : Core := { k with threads := [], queues := [] }

section
variable (p : Part) (c q t : Nat)

theorem Part.onlyCores_handled : p.OnlyCores (p.handled c q t) := by
  unfold Part.handled Part.onTh
  exact (Part.OnlyCores.refl p).onCore.onCore

theorem Part.core_handled_ne {d : Nat} (hc : d ≠ c) (hq : d ≠ (queueHome c q).1) : (p.handled c q t).core d = p.core d :=
  (Part.core_onTh_ne _ _ _ hc).trans (Part.core_onCore_ne _ _ hq)

theorem Part.unserved_handled (d : Nat) : ((p.handled c q t).core d).unserved = (p.core d).unserved :=
  (Part.onCore_leaves Core.unserved rfl d).trans (Part.onCore_leaves Core.unserved rfl d)

theorem Part.threads_serve (d : Nat) : ((p.onCore (queueHome c q).1 (Core.serve (queueHome c q).2)).core d).threads = (p.core d).threads :=
  Part.onCore_leaves (fun k => k.threads) rfl d

theorem Part.th_serve (d j : Nat) : (p.onCore (queueHome c q).1 (Core.serve (queueHome c q).2)).th d j = p.th d j :=
  congrArg (fun l : List Thread => l.getD j Thread.reset) (p.threads_serve c q d)

/-- A thread that is not IDLE is not touched. -/
theorem Part.th_handled_of_busy {d j : Nat} (ht : (p.th c t).st = .idle) (hj : (p.th d j).st ≠ .idle) :
    (p.handled c q t).th d j = p.th d j := by
  rw [← p.th_serve c q]
  by_cases hd : d = c
  · subst hd
    have hjt : j ≠ t := by rintro rfl; exact hj ht
    rw [Part.th, Part.handled, Part.core_onTh_self, Core.th_onTh_ne _ _ hjt, Part.th]
  · rw [Part.th, Part.handled, Part.core_onTh_ne _ _ _ hd, Part.th]

theorem Part.th_handled_self (h : t < (p.core c).threads.length) :
    (p.handled c q t).th c t = (p.th c t).handle (p.queueWord (queueHome c q).1 (queueHome c q).2) q := by
  rw [← p.th_serve c q, Part.th, Part.handled, Part.core_onTh_self, Core.th_onTh_self _ _ (by rwa [p.threads_serve]), Part.th]

end

@[simp] theorem Core.queue_serve_self (k : Core) {i : Nat} (h : i < k.queues.length) : (k.serve i).queue i = { k.queue i with running := true } := by
  simp [Core.serve, Core.onQueue, Core.queue, modAt, h]

theorem Core.queue_serve_ne (k : Core) {i j : Nat} (h : j ≠ i) : (k.serve i).queue j = k.queue j := by
  simp [Core.serve, Core.onQueue, Core.queue, modAt, h.symm]

/-- Queue `q` of core `c`, or of its two-hander partner. -/
def Part.servedQueue (p : Part) (c q : Nat) : ChQueue := (p.core (queueHome c q).1).queue (queueHome c q).2

/-- No two queues of a two-hander are the same. -/
theorem queueHome_inj {c x y : Nat} (h : queueHome c x = queueHome c y) : x = y := by
  unfold queueHome at h
  split at h <;> split at h <;> simp only [Prod.mk.injEq] at h <;> omega

theorem Part.servedQueue_onTh (p : Part) (c q t : Nat) (f : Thread → Thread) : (p.onTh c t f).servedQueue c q = p.servedQueue c q :=
  congrArg (fun l : List ChQueue => l.getD (queueHome c q).2 ChQueue.reset) (Part.onCore_leaves (p := p) (c := c) (fun k => k.queues) rfl (queueHome c q).1)

theorem Part.servedQueue_handled_self (p : Part) {c q : Nat} (t : Nat) (h : (queueHome c q).2 < (p.core (queueHome c q).1).queues.length) :
    (p.handled c q t).servedQueue c q = { p.servedQueue c q with running := true } := by
  rw [Part.handled, Part.servedQueue_onTh, Part.servedQueue, Part.core_onCore_self, Core.queue_serve_self _ h, Part.servedQueue]

theorem Part.servedQueue_handled_ne (p : Part) {c q x : Nat} (t : Nat) (h : x ≠ q) : (p.handled c x t).servedQueue c q = p.servedQueue c q := by
  rw [Part.handled, Part.servedQueue_onTh, Part.servedQueue, Part.servedQueue]
  by_cases hhome : (queueHome c q).1 = (queueHome c x).1
  · have hindex : (queueHome c q).2 ≠ (queueHome c x).2 := fun hi => h (queueHome_inj (Prod.ext hhome hi)).symm
    rw [hhome, Part.core_onCore_self, Core.queue_serve_ne _ hindex]
  · rw [Part.core_onCore_ne _ _ hhome]

/-! ### All queues of a core (06 R174) -/

/-- What a round of one queue leaves of a part that has `P`, if starting a handler on an IDLE thread does. -/
theorem Part.dispatchOne_keeps {P : Part → Prop} {p : Part} {c q : Nat} (h : P p) (hP : ∀ t, (p.th c t).st = .idle → P (p.handled c q t)) :
    P (p.dispatchOne c q) := by
  rcases p.dispatchOne_cases c q with hnone | ⟨t, ht, hsome⟩
  · rwa [hnone]
  · rw [hsome]
    exact hP t ht

/-- The queues that core `i` serves dispatch, the lowest-numbered first. -/
def Part.dispatchFrom (p : Part) (i : Nat) (l : List Nat) : Part := forEach l (fun q x => x.dispatchOne i q) p

theorem Part.dispatchFrom_keeps {P : Part → Prop} {p : Part} {i : Nat} {l : List Nat} (h : P p)
    (hP : ∀ q ∈ l, ∀ x t, P x → (x.th i t).st = .idle → P (x.handled i q t)) : P (p.dispatchFrom i l) :=
  forEach_keeps h fun q hq x hx => Part.dispatchOne_keeps hx fun t => hP q hq x t hx

theorem Part.onlyCores_dispatchFrom (p : Part) (i : Nat) (l : List Nat) : p.OnlyCores (p.dispatchFrom i l) :=
  Part.dispatchFrom_keeps (.refl p) fun q _ x t hx _ => hx.trans (x.onlyCores_handled i q t)

theorem Part.unserved_dispatchFrom (p : Part) (i : Nat) (l : List Nat) (d : Nat) : ((p.dispatchFrom i l).core d).unserved = (p.core d).unserved :=
  Part.dispatchFrom_keeps (P := fun x => (x.core d).unserved = (p.core d).unserved) rfl
    fun q _ x t hx _ => (x.unserved_handled i q t d).trans hx

theorem Part.th_dispatchFrom_of_busy {p : Part} {d j : Nat} (h : (p.th d j).st ≠ .idle) (i : Nat) (l : List Nat) :
    (p.dispatchFrom i l).th d j = p.th d j :=
  Part.dispatchFrom_keeps (P := fun x => x.th d j = p.th d j) rfl
    fun q _ x t hx ht => (x.th_handled_of_busy i q t ht (by rwa [hx])).trans hx

theorem Part.servedQueue_dispatchFrom (p : Part) {i q : Nat} {l : List Nat} (h : q ∉ l) : (p.dispatchFrom i l).servedQueue i q = p.servedQueue i q :=
  Part.dispatchFrom_keeps (P := fun x => x.servedQueue i q = p.servedQueue i q) rfl
    fun _ hy x t hx _ => (x.servedQueue_handled_ne t (ne_of_mem_of_not_mem hy h)).trans hx

theorem Part.core_dispatchFrom_ne (p : Part) {i d : Nat} {l : List Nat} (hi : d ≠ i) (hl : ∀ q ∈ l, d ≠ (queueHome i q).1) :
    (p.dispatchFrom i l).core d = p.core d :=
  Part.dispatchFrom_keeps (P := fun x => x.core d = p.core d) rfl
    fun q hq x t hx _ => (x.core_handled_ne i q t hi (hl q hq)).trans hx

/-- The queues that core `i` serves: its own, and those of its two-hander partner (06 R191). -/
def Part.queuesOf (p : Part) (i : Nat) : List Nat := List.range (if p.paired i then 32 else 16)

theorem Part.dispatch_eq (p : Part) (c : Nat) :
    p.dispatch c = if p.running (p.issuer c) then p.dispatchFrom (p.issuer c) (p.queuesOf (p.issuer c)) else p := rfl

/-- The queues that a core serves lie in it or in its partner. -/
theorem Part.queueHome_mem_pairOf {p : Part} {i q : Nat} (h : q ∈ p.queuesOf i) : (queueHome i q).1 ∈ p.pairOf i := by
  unfold Part.queuesOf at h
  unfold queueHome Part.pairOf
  cases hpair : p.paired i <;> simp only [hpair, if_true, if_false, Bool.false_eq_true, List.mem_range] at h ⊢ <;> split <;> simp_all

theorem Part.core_dispatch_ne {p : Part} {c d : Nat} (h : d ∉ p.pairOf (p.issuer c)) : (p.dispatch c).core d = p.core d := by
  rw [Part.dispatch_eq]
  split
  · exact Part.core_dispatchFrom_ne p (ne_of_mem_of_not_mem (p.self_mem_pairOf _) h).symm
      fun x hx => (ne_of_mem_of_not_mem (Part.queueHome_mem_pairOf hx) h).symm
  · rfl

/-- The first queue that can dispatch starts its handler, and the later ones follow. -/
theorem Part.dispatchFrom_first {p : Part} {i q t n : Nat} (hq : q < n) (hcan : p.canDispatch i q = true)
    (hfirst : ∀ x < q, p.canDispatch i x = false) (ht : (List.range 8).find? (fun t => decide ((p.th i t).st = .idle)) = some t) :
    ∃ l, q ∉ l ∧ p.dispatchFrom i (List.range n) = (p.handled i q t).dispatchFrom i l := by
  obtain ⟨m, rfl⟩ : ∃ m, n = q + (m + 1) := ⟨n - q - 1, by omega⟩
  refine ⟨(List.range m).map (fun x => q + (x + 1)), by simp, ?_⟩
  have hbefore : p.dispatchFrom i (List.range q) = p :=
    forEach_eq_self fun x hx => Part.dispatchOne_of_not (hfirst x (List.mem_range.mp hx))
  have happ : ∀ (z : Part) (l r : List Nat), z.dispatchFrom i (l ++ r) = (z.dispatchFrom i l).dispatchFrom i r :=
    fun z l r => List.foldl_append
  have hcons : ∀ (z : Part) (x : Nat) (r : List Nat), z.dispatchFrom i (x :: r) = (z.dispatchOne i x).dispatchFrom i r := fun _ _ _ => rfl
  rw [List.range_add, List.range_succ_eq_map, List.map_cons, List.map_map, happ, hbefore, hcons, Nat.add_zero, Part.dispatchOne_of_idle hcan ht]
  rfl

/-- The registers of the entries into quiescence aside, a command on a core leaves the registers that its effect leaves. -/
theorem Part.reg_onTheCore {p : Part} {c o : Nat} (f : Part → Part) (h : o ∉ (p.pairOf c).map (fun x => coreReg Reg.CORE_SLEEPS x [])) :
    (p.onTheCore c f).reg o = (f p).reg o := by
  refine forEach_leaves (fun q : Part => q.reg o) (fun x hx q => ?_) (f p)
  dsimp only
  split
  · exact q.reg_setReg_ne _ fun ho => h (ho ▸ List.mem_map_of_mem hx)
  · rfl

/-- A dispatch of core `i` that starts the handler of queue `q` on thread `t` first (06 R173 R174). -/
structure Part.Dispatches (p u : Part) (i q t : Nat) : Prop where
  onlyCores : p.OnlyCores u
  others : ∀ d, d ∉ p.pairOf i → u.core d = p.core d
  thread : u.th i t = (p.th i t).handle (p.queueWord (queueHome i q).1 (queueHome i q).2) q
  queue : u.servedQueue i q = { p.servedQueue i q with running := true }
  busy : ∀ j, (p.th i j).st ≠ .idle → u.th i j = p.th i j

theorem Part.dispatch_dispatches {p : Part} {c q t : Nat} (hrun : p.running (p.issuer c) = true)
    (hq : q < if p.paired (p.issuer c) then 32 else 16) (hcan : p.canDispatch (p.issuer c) q = true)
    (hfirst : ∀ x < q, p.canDispatch (p.issuer c) x = false) (ht : t < 8) (hidle : (p.th (p.issuer c) t).st = .idle)
    (hbusy : ∀ j < t, (p.th (p.issuer c) j).st ≠ .idle) (hthreads : t < (p.core (p.issuer c)).threads.length)
    (hqueues : (queueHome (p.issuer c) q).2 < (p.core (queueHome (p.issuer c) q).1).queues.length) :
    p.Dispatches (p.dispatch c) (p.issuer c) q t := by
  have hothers : ∀ d, d ∉ p.pairOf (p.issuer c) → (p.dispatch c).core d = p.core d := fun d => Part.core_dispatch_ne
  rw [Part.dispatch_eq, if_pos hrun] at *
  generalize p.issuer c = i at *
  have hfind : (List.range 8).find? (fun t => decide ((p.th i t).st = .idle)) = some t := by
    simpa [List.find?_range_eq_some, hidle, ht] using hbusy
  obtain ⟨l, hql, hdispatch⟩ := Part.dispatchFrom_first hq hcan hfirst hfind
  have hstarted := p.th_handled_self i q t hthreads
  have hbusy' : ((p.handled i q t).th i t).st ≠ .idle := by rw [hstarted]; simp [Thread.handle, Thread.ready]
  constructor
  case onlyCores => exact p.onlyCores_dispatchFrom i _
  case others => exact hothers
  case thread => rw [Part.queuesOf, hdispatch, Part.th_dispatchFrom_of_busy hbusy', hstarted]
  case queue => rw [Part.queuesOf, hdispatch, Part.servedQueue_dispatchFrom _ hql, Part.servedQueue_handled_self _ _ hqueues]
  case busy => exact fun j hj => Part.th_dispatchFrom_of_busy hj i _

theorem exec_handlerDispatch_of_ready {s : State} (hready : s.part.phase = .ready) (c : Nat) :
    exec (.handlerDispatch c) s = .next (s.act (fun p => p.onTheCore (p.issuer c) (·.dispatch c))) :=
  State.live_eq hready _

end Sys2Proof.Machine

/-! ## A free replica runs a task -/

namespace Sys2Proof.Machine
open Sys2Proof

/-! ### Lists changed in one place -/

theorem find?_modFirst {α : Type} {q : α → Bool} {f : α → α} {l : List α} {x : α} (h : l.find? q = some x) (hf : q (f x) = true) :
    (modFirst q f l).find? q = some (f x) := by
  induction l with
  | nil => nomatch h
  | cons y ys ih =>
    rw [List.find?_cons] at h
    rw [modFirst]
    split at h
    next hy =>
      obtain rfl := Option.some.inj h
      rw [if_pos hy, List.find?_cons, hf]
    next hy => rw [if_neg (by simp [hy]), List.find?_cons, hy, ih h]

theorem any_modFirst {α : Type} {q g : α → Bool} {f : α → α} (h : ∀ x, g (f x) = g x) (l : List α) : (modFirst q f l).any g = l.any g := by
  induction l with
  | nil => rfl
  | cons y ys ih =>
    rw [modFirst]
    split
    · rw [List.any_cons, List.any_cons, h]
    · rw [List.any_cons, List.any_cons, ih]

theorem Part.replicaOf_onReplica {p : Part} {a : Nat} {r : Replica} {f : Replica → Replica} (h : p.replicaOf a = some r)
    (hf : (f r).anchor = r.anchor) : (p.onReplica a f).replicaOf a = some (f r) := by
  have hr := List.find?_some h
  exact find?_modFirst h (by rw [hf]; exact hr)

theorem Part.anchor_of_replicaOf {p : Part} {a : Nat} {r : Replica} (h : p.replicaOf a = some r) : r.anchor = a := by
  simpa using List.find?_some h

theorem Part.replicaOf_congr {p q : Part} (h : q.stg.replicas = p.stg.replicas) (a : Nat) : q.replicaOf a = p.replicaOf a := by
  rw [Part.replicaOf, h, Part.replicaOf]

/-- A change of a replica that leaves its region lit or dark changes no cluster's. -/
theorem Part.darkCluster_onReplica {p : Part} {f : Replica → Replica} (hf : ∀ r, (f r).dark = r.dark ∧ (f r).region = r.region) (a cl : Nat) :
    (p.onReplica a f).darkCluster cl = p.darkCluster cl := by
  have hany := any_modFirst (q := fun r => r.anchor == a) (f := f) (g := fun r : Replica => r.dark && r.region.elem cl)
    (fun r => by rw [(hf r).1, (hf r).2]) p.stg.replicas
  simp only [Part.darkCluster, Part.darkOnes, List.any_append, List.any_filter]
  exact congrArg (· || _) hany

/-! ### The task is taken (10 R310 R311 R326 R328) -/

/-- Nothing but registers and what clusters hold beside their stores changes. -/
def Part.OnlyBoards (p q : Part) : Prop := ∃ r l, q = { p with regs := r, clusters := l }

namespace Part.OnlyBoards

variable {p₀ p q : Part}

theorem refl (p : Part) : p.OnlyBoards p := ⟨_, _, rfl⟩

theorem bump {o n : Nat} (h : p₀.OnlyBoards p) : p₀.OnlyBoards (p.bump o n) := by
  obtain ⟨r, l, rfl⟩ := h
  exact ⟨_, _, rfl⟩

theorem onCluster {cl : Nat} {f : Cluster → Cluster} (h : p₀.OnlyBoards p) : p₀.OnlyBoards (p.onCluster cl f) := by
  obtain ⟨r, l, rfl⟩ := h
  exact ⟨_, _, rfl⟩

theorem ite {c : Prop} [Decidable c] (h : p₀.OnlyBoards p) (h' : p₀.OnlyBoards q) : p₀.OnlyBoards (if c then p else q) := by
  split
  · exact h
  · exact h'

end Part.OnlyBoards

/-- The registers that a start reads: those below the stage managers', and the base of the seat blocks. -/
abbrev isStartReg (o : Nat) : Prop := o < 0x1000000 ∨ o = Reg.STG_SEAT_BLOCK_BASE.at []

theorem not_isStartReg_stolen (cl : Nat) : ¬ isStartReg (cluReg Reg.CLU_CB_STOLEN cl []) := by
  simp [isStartReg, cluReg, RegRow.at, Reg.CLU_CB_STOLEN, Reg.STG_SEAT_BLOCK_BASE]
  omega
theorem not_isStartReg_local (d : Nat) : ¬ isStartReg (Reg.STG_STEAL_LOCAL.at [d]) := by
  simp [isStartReg, RegRow.at, Reg.STG_STEAL_LOCAL, Reg.STG_SEAT_BLOCK_BASE]
  omega
theorem not_isStartReg_remote (d : Nat) : ¬ isStartReg (Reg.STG_STEAL_REMOTE.at [d]) := by
  simp [isStartReg, RegRow.at, Reg.STG_STEAL_REMOTE, Reg.STG_SEAT_BLOCK_BASE]
  omega

/-- The task `t` is the replica's. -/
def Replica.take (t : Task) (r : Replica) : Replica := { r with task := some t.key, preempt := none }

/-- The task has left its callboard, where its theft is counted (10 R328). -/
def Part.offBoard (p : Part) (t : Task) (how : Nat) : Part :=
  t.anchor.elim p (fun a => (if how = 0 then p else p.bump (cluReg Reg.CLU_CB_STOLEN a []) 1).unboard a t.key)

/-- A theft is counted at the thief's die (10 R326). -/
def Part.theftCounted (p : Part) (d how : Nat) : Part :=
  if how = 1 then p.bump (Reg.STG_STEAL_LOCAL.at [d]) 1 else if how = 2 then p.bump (Reg.STG_STEAL_REMOTE.at [d]) 1 else p

theorem Part.takeTask_eq (p : Part) (r : Replica) (t : Task) (how : Nat) :
    p.takeTask r t how = (((p.offBoard t how).theftCounted r.die how).onTask t.key
      (fun y => { y with anchor := some r.anchor, claimed := none })).onReplica r.anchor (Replica.take t) := by
  unfold Part.takeTask Part.offBoard
  obtain _ | _ | _ | how := how
  all_goals
    cases t.anchor with
    | none => rfl
    | some a => rfl

theorem Part.offBoard_frame (p : Part) (t : Task) (how : Nat) : p.OnlyBoards (p.offBoard t how) ∧ p.Spares isStartReg (p.offBoard t how) := by
  unfold Part.offBoard
  cases t.anchor with
  | none => exact ⟨.refl p, .refl p⟩
  | some a =>
    unfold Option.elim Part.unboard
    exact ⟨(OnlyBoards.ite (.refl p) (OnlyBoards.refl p).bump).onCluster,
      (Spares.ite (.refl p) ((Spares.refl p).bump (not_isStartReg_stolen a))).frame rfl⟩

theorem Part.theftCounted_frame {p₀ p : Part} (d how : Nat) (h : p₀.OnlyBoards p) (hs : p₀.Spares isStartReg p) :
    p₀.OnlyBoards (p.theftCounted d how) ∧ p₀.Spares isStartReg (p.theftCounted d how) :=
  ⟨.ite h.bump (.ite h.bump h), .ite (hs.bump (not_isStartReg_local d)) (.ite (hs.bump (not_isStartReg_remote d)) hs)⟩

/-- What taking a task leaves: of the stage manager's state all but tasks and the replica that takes it. -/
theorem Part.takeTask_frame (p : Part) (r : Replica) (t : Task) (how : Nat) :
    p.Spares isStartReg (p.takeTask r t how) ∧ ∃ g l ts, p.takeTask r t how = { p.onReplica r.anchor (Replica.take t) with
      regs := g, clusters := l, stg := { (p.onReplica r.anchor (Replica.take t)).stg with tasks := ts } } := by
  obtain ⟨hboards, hspares⟩ := p.offBoard_frame t how
  obtain ⟨⟨g, l, heq⟩, hspares⟩ := Part.theftCounted_frame r.die how hboards hspares
  rw [Part.takeTask_eq]
  exact ⟨hspares.frame rfl, g, l, _, by rw [heq]; rfl⟩

/-! ### What a start reads is as before the task was taken -/

theorem homeAt_of_spares {p q : Part} (h : p.Spares isStartReg q) (a : Nat) : q.homeAt a = p.homeAt a := by
  rw [Part.homeAt, Part.cap, h.regN (.inl (by decide))]
  rfl

theorem isStartReg_chStat (a : Nat) : isStartReg (chanReg Reg.MEM_CH_STAT a) := by
  have := Tests.channelOf_lt a
  left
  simp [chanReg, RegRow.at, Reg.MEM_CH_STAT]
  omega

theorem Part.chFailed_of_spares {p q : Part} (h : p.Spares isStartReg q) (a : Nat) : q.chFailed a = p.chFailed a := by
  rw [Part.chFailed, h.regN (isStartReg_chStat a)]
  rfl

/-- A row reads as well as before where the store, the channels and the dark regions are the same. -/
theorem Part.readFault_congr {p q : Part} (hq : ∃ g l s, q = { p with regs := g, clusters := l, stg := s }) (hspares : p.Spares isStartReg q)
    (hdark : ∀ cl, q.darkCluster cl = p.darkCluster cl) (a : Nat) : q.readFault a = p.readFault a := by
  have hhome := homeAt_of_spares hspares a
  have hch := Part.chFailed_of_spares hspares a
  unfold Part.readFault
  rw [hhome, hch]
  simp only [hdark]
  obtain ⟨g, l, s, rfl⟩ := hq
  rfl

/-- The row of the task's shape record is read (08 R247). -/
def Part.recordRead (p : Part) (t : Task) : Part := if t.shape = 0 then p else p.countRead t.shape

/-- The words of a task's shape record, or of its scene's (08 R247). -/
def Part.shapeWords (p : Part) (t : Task) (sc : Scene) : List Nat :=
  (List.range 16).map (fun i => leAt (if t.shape = 0 then sc.shape else p.bytesAt t.shape 64) (4 * i) 4)

/-- The task runs on the replica. -/
def Part.taskRunning (p : Part) (r : Replica) (t : Task) : Part :=
  (p.onTask t.key (fun x => { x with
    st := .running, charged := p.tim.now, beat0 := p.reg (Reg.TRV_BEAT.at [r.die]), overrun := false })).onReplica r.anchor
    (fun x => { x with st := .running })

/-! ### The cores start (06 R169, 07 R202) -/

/-- The threads of core `c` as a task starts on it: those of the start mask at their entries. -/
def Part.startThreads (p : Part) (c : Nat) : List Thread :=
  (List.range 8).map (fun t => if bitOf (p.startMask c) t then { Thread.reset.ready with ptr := p.entry c t } else Thread.reset)

/-- The core as a task starts on it. -/
def Core.startAs (th : List Thread) (sh : List W32) (ptrs : List W48) (k : Core) : Core :=
  { k with
    threads := th, sh := sh, ptrs := ptrs, cnt := List.replicate 16 0, wire := 0, xcue := 0, arrivals := []
    sides := k.sides.map (fun s => { s with isOpen := false })
    pads := (sh.drop 12).take 4 }

def Part.startCores (p : Part) (l : List Nat) (sh : List W32) (ptrs : List W48) : Part := forEach l (fun c x => x.startCore c sh ptrs) p

def Part.dispatchAll (p : Part) (l : List Nat) : Part := forEach l (fun c x => x.dispatch c) p

theorem Part.startCore_eq (p : Part) (c : Nat) (sh : List W32) (ptrs : List W48) :
    p.startCore c sh ptrs = p.onCore c (Core.startAs (p.startThreads c) sh ptrs) := rfl

theorem Part.OnlyCores.startThreads {p q : Part} (h : p.OnlyCores q) (c : Nat) : q.startThreads c = p.startThreads c := by
  obtain ⟨l, rfl⟩ := h
  rfl

theorem Part.OnlyCores.pairOf {p q : Part} (h : p.OnlyCores q) (c : Nat) : q.pairOf c = p.pairOf c := by
  obtain ⟨l, rfl⟩ := h
  rfl

section
variable (p : Part) (l : List Nat) (sh : List W32) (ptrs : List W48)

theorem Part.onlyCores_startCores : p.OnlyCores (p.startCores l sh ptrs) :=
  (Part.OnlyCores.refl p).forEach fun _ _ _ hq => hq.trans ⟨_, rfl⟩

theorem Part.core_startCores_ne {d : Nat} (h : d ∉ l) : (p.startCores l sh ptrs).core d = p.core d :=
  forEach_leaves (f := fun c (x : Part) => x.startCore c sh ptrs) (fun q : Part => q.core d)
    (fun _ hc q => (congrArg (Part.core · d) (q.startCore_eq _ sh ptrs)).trans (Part.core_onCore_ne _ _ (ne_of_mem_of_not_mem hc h).symm)) p

theorem Part.core_startCores {c : Nat} (h : c ∈ l) : ∃ k : Core, (p.startCores l sh ptrs).core c = k.startAs (p.startThreads c) sh ptrs := by
  induction l generalizing p with
  | nil => nomatch h
  | cons b l ih =>
    by_cases hl : c ∈ l
    · obtain ⟨k, hk⟩ := ih (p.startCore b sh ptrs) hl
      exact ⟨k, hk.trans (congrArg (k.startAs · sh ptrs) ((Part.OnlyCores.refl p).onCore.startThreads c))⟩
    · obtain rfl : c = b := by simpa [hl] using h
      exact ⟨p.core c, (Part.core_startCores_ne (p.startCore c sh ptrs) l sh ptrs hl).trans (Part.core_onCore_self _ _ _)⟩

end

/-! #### Waiting messages start their handlers (06 R173) -/

theorem Part.dispatch_keeps {P : Part → Prop} {p : Part} {c : Nat} (h : P p) (hP : ∀ i l, P (p.dispatchFrom i l)) : P (p.dispatch c) := by
  rw [Part.dispatch_eq]
  split
  · exact hP _ _
  · exact h

theorem Part.onlyCores_dispatchAll (p : Part) (l : List Nat) : p.OnlyCores (p.dispatchAll l) :=
  forEach_keeps (.refl p) fun _ _ x hx => Part.dispatch_keeps hx fun i l => hx.trans (x.onlyCores_dispatchFrom i l)

theorem Part.unserved_dispatchAll (p : Part) (l : List Nat) (d : Nat) : ((p.dispatchAll l).core d).unserved = (p.core d).unserved :=
  forEach_leaves (fun q : Part => (q.core d).unserved)
    (fun _ _ q => Part.dispatch_keeps (P := fun x => (x.core d).unserved = (q.core d).unserved) rfl fun i l => q.unserved_dispatchFrom i l d) p

theorem Part.th_dispatchAll_of_busy {p : Part} {d j : Nat} (h : (p.th d j).st ≠ .idle) (l : List Nat) : (p.dispatchAll l).th d j = p.th d j :=
  forEach_keeps (P := fun x : Part => x.th d j = p.th d j) rfl fun _ _ x hx =>
    Part.dispatch_keeps (P := fun y => y.th d j = p.th d j) hx fun i l => (Part.th_dispatchFrom_of_busy (by rwa [hx]) i l).trans hx

theorem Part.core_dispatchAll_ne (p : Part) {l : List Nat} {d : Nat} (h : ∀ c ∈ l, d ∉ p.pairOf (p.issuer c)) :
    (p.dispatchAll l).core d = p.core d := by
  have hboth : p.OnlyCores (p.dispatchAll l) ∧ (p.dispatchAll l).core d = p.core d := by
    refine forEach_keeps (P := fun x => p.OnlyCores x ∧ x.core d = p.core d) ⟨.refl p, rfl⟩ fun c hc x hx => ?_
    obtain ⟨hcores, hcore⟩ := hx
    refine ⟨Part.dispatch_keeps hcores fun i l => hcores.trans (x.onlyCores_dispatchFrom i l), (Part.core_dispatch_ne ?_).trans hcore⟩
    rw [hcores.issuer, hcores.pairOf]
    exact h c hc
  exact hboth.2

theorem Replica.mem_cores {r : Replica} {c : Nat} : c ∈ r.cores ↔ c / 16 ∈ r.clusters := by
  simp only [Replica.cores, List.mem_flatMap, List.mem_map, List.mem_range]
  constructor
  · rintro ⟨cl, hcl, k, hk, rfl⟩
    rwa [show (16 * cl + k) / 16 = cl by omega]
  · exact fun h => ⟨c / 16, h, c % 16, by omega, by omega⟩

/-- The cores that the units of a replica's cores work on are the replica's, or issue for one of them. -/
theorem Replica.mem_of_mem_pairOf {p : Part} {r : Replica} {c d : Nat} (hc : c ∈ r.cores) (hd : d ∈ p.pairOf (p.issuer c)) :
    d ∈ r.cores ++ r.cores.map p.issuer := by
  have hissuer : p.issuer c ∈ r.cores.map p.issuer := List.mem_map_of_mem hc
  rw [List.mem_append]
  by_cases heq : d = p.issuer c
  · exact .inr (heq ▸ hissuer)
  · left
    unfold Part.pairOf at hd
    split at hd
    next hpair =>
      obtain rfl : d = p.issuer c + 1 := by simpa [heq] using hd
      by_cases hodd : (p.paired c && c % 2 == 1) = true
      · rw [Part.issuer, if_pos hodd]
        have hmod : c % 2 = 1 := by simpa using (Bool.and_eq_true_iff.mp hodd).2
        rwa [show c - 1 + 1 = c by omega]
      · have hself : p.issuer c = c := by rw [Part.issuer, if_neg hodd]
        rw [hself] at hpair ⊢
        have hmod : c % 2 ≠ 1 := fun h => hodd (by simp [hpair, h])
        rw [Replica.mem_cores] at hc ⊢
        rwa [show (c + 1) / 16 = c / 16 by omega]
    next => exact absurd (List.mem_singleton.mp hd) heq

/-! ### A fresh start (08 R247, 10 R318) -/

/-- A fresh task starts with the shape registers `sh`: every core starts, then waiting messages their handlers. -/
def Part.coresStarted (p : Part) (r : Replica) (t : Task) (sh : List W32) : Part :=
  ((p.startCurtains r).startCores r.cores sh (p.startPtrs t)).dispatchAll r.cores

theorem Part.startFresh_of_good {p : Part} {r : Replica} {t : Task} {sc : Scene} (hsc : p.sceneOf r.scene = some sc)
    (hfault : t.shape = 0 ∨ (p.taskRunning r t).readFault t.shape = none) (hrec : badRecord (p.shapeWords t sc) sc.limits = false) :
    p.startFresh r t = ((p.taskRunning r t).recordRead t).coresStarted r t ((p.shapeWords t sc).map (BitVec.ofNat 32)) := by
  have hnone : (if t.shape = 0 then none else (p.taskRunning r t).readFault t.shape) = none := by
    rcases hfault with h | h <;> simp [h]
  have hscene : (p.taskRunning r t).sceneOf r.scene = some sc := hsc
  have hwords : (List.range 16).map (fun i => leAt (if t.shape = 0 then sc.shape else (p.taskRunning r t).bytesAt t.shape 64) (4 * i) 4) =
    p.shapeWords t sc := rfl
  unfold Part.startFresh
  rw [← Part.taskRunning]
  simp only [hnone, hscene, hwords, hrec, if_false, Bool.false_eq_true]
  rfl

theorem Part.OnlyBoards.forEach {α : Type} {l : List α} {f : α → Part → Part} {p₀ p : Part} (h : p₀.OnlyBoards p)
    (hf : ∀ a q, p₀.OnlyBoards q → p₀.OnlyBoards (f a q)) : p₀.OnlyBoards (Machine.forEach l f p) :=
  forEach_keeps h fun a _ => hf a

/-- The curtains of a starting task are its replica's and its clusters' alone (11 R344). -/
theorem Part.startCurtains_frame (p : Part) (r : Replica) : ∃ gens g l,
    p.startCurtains r = { p.onReplica r.anchor (fun x => { x with curts := gens }) with regs := g, clusters := l } := by
  unfold Part.startCurtains
  dsimp only
  generalize forEach (List.range 16) _ _ = gens
  have hboards : p.OnlyBoards (forEach r.clusters (fun cl x => x.onCluster cl (fun k => { k with curts := gens })) p) :=
    (OnlyBoards.refl p).forEach fun _ _ hq => hq.onCluster
  obtain ⟨g, l, heq⟩ := hboards
  exact ⟨gens, g, l, by rw [heq]; rfl⟩

section
variable (p : Part) (r : Replica) (t : Task) (sh : List W32)

theorem Part.onlyCores_coresStarted : (p.startCurtains r).OnlyCores (p.coresStarted r t sh) :=
  (Part.onlyCores_startCores _ _ _ _).trans (Part.onlyCores_dispatchAll _ _)

theorem Part.mem_coresStarted : (p.coresStarted r t sh).mem = p.mem := by
  obtain ⟨gens, g, l, hcurts⟩ := p.startCurtains_frame r
  rw [(p.onlyCores_coresStarted r t sh).mem, hcurts]
  rfl

theorem Part.replicaOf_coresStarted {x : Replica} (h : p.replicaOf r.anchor = some x) :
    ∃ gens, (p.coresStarted r t sh).replicaOf r.anchor = some { x with curts := gens } := by
  obtain ⟨gens, g, l, hcurts⟩ := p.startCurtains_frame r
  refine ⟨gens, ?_⟩
  rw [Part.replicaOf_congr (congrArg (·.replicas) (p.onlyCores_coresStarted r t sh).stg), hcurts]
  exact Part.replicaOf_onReplica h rfl

theorem Part.core_coresStarted_ne {d : Nat} (h : d ∉ r.cores ++ r.cores.map p.issuer) : (p.coresStarted r t sh).core d = p.core d := by
  obtain ⟨gens, g, l, hcurts⟩ := p.startCurtains_frame r
  have hstart := Part.onlyCores_startCores (p.startCurtains r) r.cores sh (p.startPtrs t)
  have hissuer : (p.startCurtains r).issuer = p.issuer := by rw [hcurts]; rfl
  have hbefore : (p.startCurtains r).core d = p.core d := by rw [hcurts]; rfl
  rw [← hissuer] at h
  rw [Part.coresStarted, Part.core_dispatchAll_ne, Part.core_startCores_ne _ _ _ _ fun hd => h (List.mem_append_left _ hd), hbefore]
  intro c hc hd
  rw [hstart.issuer, hstart.pairOf] at hd
  exact h (Replica.mem_of_mem_pairOf hc hd)

theorem Part.core_coresStarted {c : Nat} (h : c ∈ r.cores) : ∃ k : Core,
    ((p.coresStarted r t sh).core c).unserved = (k.startAs (p.startThreads c) sh (p.startPtrs t)).unserved := by
  obtain ⟨k, hk⟩ := Part.core_startCores (p.startCurtains r) r.cores sh (p.startPtrs t) h
  refine ⟨k, ?_⟩
  rw [Part.coresStarted, Part.unserved_dispatchAll, hk]
  rfl

theorem Part.th_coresStarted {c j : Nat} (h : c ∈ r.cores) (hj : j < 8) (hmask : bitOf (p.startMask c) j = true) :
    (p.coresStarted r t sh).th c j = { Thread.reset.ready with ptr := p.entry c j } := by
  obtain ⟨gens, g, l, hcurts⟩ := p.startCurtains_frame r
  have hthreads : (p.startCurtains r).startThreads c = p.startThreads c := by rw [hcurts]; rfl
  obtain ⟨k, hk⟩ := Part.core_startCores (p.startCurtains r) r.cores sh (p.startPtrs t) h
  have hstarted : ((p.startCurtains r).startCores r.cores sh (p.startPtrs t)).th c j = { Thread.reset.ready with ptr := p.entry c j } := by
    rw [Part.th, hk, hthreads]
    simp [Core.th, Core.startAs, Part.startThreads, hj, hmask]
  rw [Part.coresStarted, Part.th_dispatchAll_of_busy, hstarted]
  rw [hstarted]
  simp [Thread.ready]

end

/-! ### Ready tasks are placed (10 R311 R312) -/

/-- Nothing but what clusters hold beside their stores and the tasks changes, and there are as many tasks as before. -/
def Part.OnlyPlaced (p q : Part) : Prop :=
  ∃ l ts, q = { p with clusters := l, stg := { p.stg with tasks := ts } } ∧ ts.length = p.stg.tasks.length

theorem length_modFirst {α : Type} (q : α → Bool) (f : α → α) (l : List α) : (modFirst q f l).length = l.length := by
  induction l with
  | nil => rfl
  | cons x xs ih =>
    rw [modFirst]
    split
    · rfl
    · rw [List.length_cons, ih, List.length_cons]

theorem Part.onlyPlaced_placeOn (p : Part) (k : TaskKey) (a : Nat) : p.OnlyPlaced (p.placeOn k a) := ⟨_, _, rfl, length_modFirst _ _ _⟩

theorem Part.OnlyPlaced.trans {p q r : Part} (h : p.OnlyPlaced q) (h' : q.OnlyPlaced r) : p.OnlyPlaced r := by
  obtain ⟨l, ts, rfl, hlen⟩ := h
  obtain ⟨l', ts', rfl, hlen'⟩ := h'
  exact ⟨l', ts', rfl, hlen'.trans hlen⟩

theorem Part.onlyPlaced_placeAll (n : Nat) (p : Part) : p.OnlyPlaced (Part.placeAll n p) := by
  have hrefl : p.OnlyPlaced p := ⟨_, _, rfl, rfl⟩
  induction n generalizing p with
  | zero => exact hrefl
  | succ n ih =>
    rw [Part.placeAll]
    split
    · exact hrefl
    next t _ =>
      split
      · exact hrefl
      next r _ => exact (p.onlyPlaced_placeOn t.key r.anchor).trans (ih _ ⟨_, _, rfl, rfl⟩)

theorem Part.onlyPlaced_place (p : Part) : p.OnlyPlaced p.place := Part.onlyPlaced_placeAll _ p

/-! ### A free replica takes a task (10 R310 R318 R321) -/

theorem Part.startOn_of_free {p : Part} {a how : Nat} {r : Replica} {t : Task} (hr : p.replicaOf a = some r) (htask : r.task = none)
    (hdark : r.dark = false) (hfree : r.st = .free) (hchoose : p.choose r = some (t, how)) :
    p.startOn a = (if t.save.isSome then (p.takeTask r t how).askRestore r else (p.takeTask r t how).startFresh r t).place := by
  simp only [Part.startOn, hr, htask, hdark, hfree, hchoose, Option.isSome_none, Bool.or_false, ne_eq, not_true_eq_false, decide_false,
    Bool.false_eq_true, if_false]

/-- The read of a row changes no register of the seat blocks' base. -/
theorem Part.seatBase_countRead (p : Part) (a : Nat) :
    (p.countRead a).reg (Reg.STG_SEAT_BLOCK_BASE.at []) = p.reg (Reg.STG_SEAT_BLOCK_BASE.at []) := by
  have hband : ∀ cl < 1600, (p.touchBand cl).reg (Reg.STG_SEAT_BLOCK_BASE.at []) = p.reg (Reg.STG_SEAT_BLOCK_BASE.at []) := by
    intro cl hcl
    refine Part.reg_setReg_ne _ _ ?_
    simp [RegRow.at, Reg.STG_SEAT_BLOCK_BASE, Reg.PWR_DOM_C]
    omega
  unfold Part.countRead
  split
  · refine Part.reg_setReg_ne _ _ ?_
    have := Tests.channelOf_lt a
    simp [chanReg, RegRow.at, Reg.STG_SEAT_BLOCK_BASE, Reg.MEM_CH_RD]
    omega
  · unfold Part.touch
    split
    next cl off hhome => exact hband cl (homeOf_store_lt hhome)
    next c off hhome =>
      have := homeOf_view_lt hhome
      exact hband (c / 16) (by omega)
    · rfl

theorem Part.onlyTouched_recordRead (p : Part) (t : Task) : p.OnlyTouched (p.recordRead t) := .ite (.refl p) (p.onlyTouched_countRead t.shape)

theorem Part.startPtrs_congr {p q : Part} (h : q.reg (Reg.STG_SEAT_BLOCK_BASE.at []) = p.reg (Reg.STG_SEAT_BLOCK_BASE.at [])) (t : Task) :
    q.startPtrs t = p.startPtrs t := by
  simp only [Part.startPtrs, Part.regN, h]

theorem Part.startPtrs_recordRead (p : Part) (t : Task) : (p.recordRead t).startPtrs t = p.startPtrs t := by
  refine Part.startPtrs_congr ?_ t
  unfold Part.recordRead
  split
  · rfl
  · exact p.seatBase_countRead t.shape

section
variable (p : Part) (r : Replica) (t : Task) (how : Nat)

/-- The part with the task taken and running on the replica, as its cores are about to start. -/
def Part.aboutToStart : Part := ((p.takeTask r t how).taskRunning r t).recordRead t

theorem Part.sameStore_aboutToStart : p.SameStore (p.aboutToStart r t how) := by
  obtain ⟨-, g, l, ts, htake⟩ := p.takeTask_frame r t how
  have hread := ((p.takeTask r t how).taskRunning r t).onlyTouched_recordRead t
  exact ⟨hread.mem.trans (by rw [htake]; rfl), hread.cores.trans (by rw [htake]; rfl)⟩

theorem Part.startPtrs_aboutToStart : (p.aboutToStart r t how).startPtrs t = p.startPtrs t := by
  obtain ⟨hspares, -⟩ := p.takeTask_frame r t how
  exact (Part.startPtrs_recordRead _ t).trans (Part.startPtrs_congr (hspares _ (.inr rfl)) t)

theorem Part.replicaOf_takeTask {p : Part} {r : Replica} (h : p.replicaOf r.anchor = some r) (t : Task) (how : Nat) :
    (p.takeTask r t how).replicaOf r.anchor = some (r.take t) := by
  obtain ⟨-, g, l, ts, htake⟩ := p.takeTask_frame r t how
  rw [htake]
  exact Part.replicaOf_onReplica h rfl

theorem Part.replicaOf_aboutToStart {p : Part} {r : Replica} (h : p.replicaOf r.anchor = some r) (t : Task) (how : Nat) :
    (p.aboutToStart r t how).replicaOf r.anchor = some { r.take t with st := .running } := by
  have hread := ((p.takeTask r t how).taskRunning r t).onlyTouched_recordRead t
  rw [Part.aboutToStart, Part.replicaOf_congr (congrArg (·.replicas) hread.stg)]
  exact Part.replicaOf_onReplica (p := (p.takeTask r t how).onTask _ _) (Part.replicaOf_takeTask h t how) rfl

/-- The row of the record reads as it did before the task was taken. -/
theorem Part.readFault_taskRunning (a : Nat) : ((p.takeTask r t how).taskRunning r t).readFault a = p.readFault a := by
  obtain ⟨hspares, g, l, ts, htake⟩ := p.takeTask_frame r t how
  have hrest : (p.takeTask r t how).taskRunning r t =
      { p with regs := g, clusters := l, stg := ((p.takeTask r t how).taskRunning r t).stg } := by rw [htake]; rfl
  refine Part.readFault_congr ⟨g, l, _, hrest⟩ (hspares.frame rfl) (fun cl => ?_) a
  rw [Part.taskRunning, Part.darkCluster_onReplica (f := fun x => { x with st := .running }) fun x => ⟨rfl, rfl⟩, htake]
  exact Part.darkCluster_onReplica (f := Replica.take t) (fun x => ⟨rfl, rfl⟩) r.anchor cl

theorem Part.startFresh_takeTask {p : Part} {r : Replica} {t : Task} {sc : Scene} (how : Nat) (hsc : p.sceneOf r.scene = some sc)
    (hfault : t.shape = 0 ∨ p.readFault t.shape = none) (hrec : badRecord (p.shapeWords t sc) sc.limits = false) :
    (p.takeTask r t how).startFresh r t = (p.aboutToStart r t how).coresStarted r t ((p.shapeWords t sc).map (BitVec.ofNat 32)) := by
  obtain ⟨-, g, l, ts, htake⟩ := p.takeTask_frame r t how
  have hwords : (p.takeTask r t how).shapeWords t sc = p.shapeWords t sc := by rw [htake]; rfl
  rw [Part.startFresh_of_good (sc := sc) (by rw [htake]; exact hsc) (by rwa [Part.readFault_taskRunning]) (by rwa [hwords]), hwords]
  rfl

end

/-- What a fresh start leaves: it changes no byte and no core but those of the replica. -/
structure Part.StartsTask (p u : Part) (r : Replica) (t : Task) (sh : List W32) : Prop where
  mem : u.mem = p.mem
  replica : ∃ gens, u.replicaOf r.anchor = some { r.take t with st := .running, curts := gens }
  others : ∀ d, d ∉ r.cores ++ r.cores.map p.issuer → u.core d = p.core d
  core : ∀ c ∈ r.cores, ∃ k : Core, (u.core c).unserved = (k.startAs (p.startThreads c) sh (p.startPtrs t)).unserved
  thread : ∀ c ∈ r.cores, ∀ j < 8, bitOf (p.startMask c) j = true → u.th c j = { Thread.reset.ready with ptr := p.entry c j }

/-- Placing changes nothing that a start leaves. -/
theorem Part.StartsTask.place {p q : Part} {r : Replica} {t : Task} {sh : List W32} (h : p.StartsTask q r t sh) : p.StartsTask q.place r t sh := by
  obtain ⟨l, ts, hplace, -⟩ := q.onlyPlaced_place
  rw [hplace]
  exact ⟨h.mem, h.replica, h.others, h.core, h.thread⟩

theorem Part.coreCfgWord_congr {p q : Part} (h : q.mem = p.mem) (c : Nat) : q.coreCfgWord c = p.coreCfgWord c := by
  rw [Part.coreCfgWord, Part.natAt, Part.bytesAt, h, Part.coreCfgWord, Part.natAt, Part.bytesAt]

theorem Part.startMask_congr {p q : Part} (h : q.mem = p.mem) (c : Nat) : q.startMask c = p.startMask c :=
  congrArg (fld · 4 8) (Part.coreCfgWord_congr h c)

theorem Part.entry_congr {p q : Part} (h : q.mem = p.mem) (c j : Nat) : q.entry c j = p.entry c j := by
  rw [Part.entry, Part.natAt, Part.bytesAt, h, Part.entry, Part.natAt, Part.bytesAt]

theorem Part.startsTask_of_good {p : Part} {r : Replica} {t : Task} {sc : Scene} (how : Nat) (hr : p.replicaOf r.anchor = some r)
    (hsc : p.sceneOf r.scene = some sc) (hfault : t.shape = 0 ∨ p.readFault t.shape = none)
    (hrec : badRecord (p.shapeWords t sc) sc.limits = false) :
    p.StartsTask ((p.takeTask r t how).startFresh r t) r t ((p.shapeWords t sc).map (BitVec.ofNat 32)) := by
  rw [Part.startFresh_takeTask how hsc hfault hrec]
  obtain ⟨hmem, hcores⟩ := p.sameStore_aboutToStart r t how
  have hptrs := p.startPtrs_aboutToStart r t how
  have hreplica := Part.replicaOf_aboutToStart hr t how
  generalize p.aboutToStart r t how = x at *
  have hissuer : x.issuer = p.issuer := funext fun c => by rw [Part.issuer, Part.paired, Part.coreCfgWord_congr hmem, ← Part.paired, ← Part.issuer]
  have hthreads : x.startThreads = p.startThreads := funext fun c => by simp only [Part.startThreads, Part.startMask_congr hmem, Part.entry_congr hmem]
  constructor
  case mem => exact (x.mem_coresStarted r t _).trans hmem
  case replica => exact x.replicaOf_coresStarted r t _ hreplica
  case others => exact fun d hd => (x.core_coresStarted_ne r t _ (hissuer ▸ hd)).trans (Part.core_congr hcores d)
  case core =>
    rw [← hthreads, ← hptrs]
    exact fun c hc => x.core_coresStarted r t _ hc
  case thread =>
    intro c hc j hj hbit
    rw [← Part.startMask_congr hmem] at hbit
    rw [← Part.entry_congr hmem]
    exact x.th_coresStarted r t _ hc hj hbit

/-- What a task that waits for its restore leaves: it changes no byte and no core. -/
structure Part.AsksRestore (p u : Part) (r : Replica) (t : Task) : Prop where
  store : p.SameStore u
  replica : u.replicaOf r.anchor = some { r.take t with st := .restoring }
  saveq : u.stg.saveq = p.stg.saveq ++ [r.anchor]

theorem Part.asksRestore_place {p : Part} {r : Replica} (hr : p.replicaOf r.anchor = some r) (t : Task) (how : Nat) :
    p.AsksRestore ((p.takeTask r t how).askRestore r).place r t := by
  obtain ⟨l, ts, hplace, -⟩ := ((p.takeTask r t how).askRestore r).onlyPlaced_place
  obtain ⟨-, g, l', ts', htake⟩ := p.takeTask_frame r t how
  constructor
  case store => rw [hplace, htake]; exact ⟨rfl, rfl⟩
  case replica => rw [hplace]; exact Part.replicaOf_onReplica (Part.replicaOf_takeTask hr t how) rfl
  case saveq => rw [hplace, htake]; rfl

theorem exec_taskStart_of_ready {s : State} (hready : s.part.phase = .ready) (a : Nat) :
    exec (.taskStart a) s = .next (s.act (·.startOn a)) :=
  State.live_eq hready _

end Sys2Proof.Machine

/-! ## A task that is over completes -/

namespace Sys2Proof.Machine
open Sys2Proof

/-! ### The books that a completion writes (10 R303 R315 R316, 16 R496 to R498) -/

/-- The counters of tasks that completed DONE, one for each C-die. -/
abbrev isDone (o : Nat) : Prop := ∃ d < 4, o = Reg.STG_DONE.at [d]

/-- A register of a block of 64 bytes for each seat or ring lies at another place of its block than the counters do. -/
theorem not_isDone_of_block {r : RegRow} {n : Nat} (hdims : r.dims = [(0x40, n)]) (hbase : r.base % 0x40 ≠ 0x10) (i : Nat) : ¬ isDone (r.at [i]) := by
  rintro ⟨d, -, heq⟩
  simp [RegRow.at, hdims, Reg.STG_DONE] at heq
  omega

theorem not_isDone_seatDone {s : Nat} (h : s < 4096) : ¬ isDone (Reg.STG_SEAT_DONE.at [s]) := by
  rintro ⟨d, -, heq⟩
  simp [RegRow.at, Reg.STG_SEAT_DONE, Reg.STG_DONE] at heq
  omega

theorem not_isDone_lastFail (i : Nat) : ¬ isDone (Reg.STG_LAST_FAIL.at [i]) := by
  rintro ⟨d, -, heq⟩
  simp [RegRow.at, Reg.STG_LAST_FAIL, Reg.STG_DONE] at heq
  omega

theorem not_isDone_shareUsed {g : Nat} (h : g < 64) : ¬ isDone (Reg.STG_SHARE_USED.at [0, g]) := by
  rintro ⟨d, -, heq⟩
  simp [RegRow.at, Reg.STG_SHARE_USED, Reg.STG_DONE] at heq
  omega

/-- Memories, cores, replicas, tasks and the registers of `K` are as before. -/
structure Part.Books (K : Nat → Prop) (p q : Part) : Prop where
  store : p.SameStore q
  replicas : q.stg.replicas = p.stg.replicas
  tasks : q.stg.tasks = p.stg.tasks
  spares : p.Spares K q

namespace Part.Books

variable {K : Nat → Prop} {p₀ p q : Part}

theorem refl (p : Part) : p.Books K p := ⟨.refl p, rfl, rfl, .refl p⟩

theorem frame (h : p₀.Books K p) (hstore : p.SameStore q) (hreplicas : q.stg.replicas = p.stg.replicas) (htasks : q.stg.tasks = p.stg.tasks)
    (hregs : q.regs = p.regs) : p₀.Books K q :=
  ⟨h.store.trans hstore, hreplicas.trans h.replicas, htasks.trans h.tasks, h.spares.frame hregs⟩

theorem ite {c : Prop} [Decidable c] (h : p₀.Books K p) (h' : p₀.Books K q) : p₀.Books K (if c then p else q) := by
  split
  · exact h
  · exact h'

theorem setReg {o v} (h : p₀.Books K p) (ho : ¬ K o) : p₀.Books K (p.setReg o v) := ⟨h.store, h.replicas, h.tasks, h.spares.setReg ho⟩
theorem setRegN {o v} (h : p₀.Books K p) (ho : ¬ K o) : p₀.Books K (p.setRegN o v) := h.setReg ho
theorem setFld {o lo len v} (h : p₀.Books K p) (ho : ¬ K o) : p₀.Books K (p.setFld o lo len v) := h.setReg ho
theorem bump {o n} (h : p₀.Books K p) (ho : ¬ K o) : p₀.Books K (p.bump o n) := h.setReg ho
theorem bumpSat {o n} (h : p₀.Books K p) (ho : ¬ K o) : p₀.Books K (p.bumpSat o n) := h.setReg ho
theorem orReg {o m} (h : p₀.Books K p) (ho : ¬ K o) : p₀.Books K (p.orReg o m) := h.setReg ho

theorem emit {o} (h : p₀.Books K p) : p₀.Books K (p.emit o) := h.frame ⟨rfl, rfl⟩ rfl rfl rfl
theorem onRing {i f} (h : p₀.Books K p) : p₀.Books K (p.onRing i f) := h.frame ⟨rfl, rfl⟩ rfl rfl rfl
theorem signal {port v} (h : p₀.Books K p) : p₀.Books K (p.signal port v) := ite (h.frame ⟨rfl, rfl⟩ rfl rfl rfl) (ite h.emit h)
theorem event {o m} (h : p₀.Books K p) (ho : ¬ K o) : p₀.Books K (p.event o m) := (h.orReg ho).signal.signal
theorem signalRing {i} (h : p₀.Books K p) : p₀.Books K (p.signalRing i) := h.onRing.signal

section
variable (hK : ∀ o, K o → isDone o)
include hK

/-- What lies in a block of 64 bytes may be written. -/
theorem block_not {r : RegRow} {n : Nat} (hdims : r.dims = [(0x40, n)]) (hbase : r.base % 0x40 ≠ 0x10) (i : Nat) : ¬ K (r.at [i]) :=
  fun ho => not_isDone_of_block hdims hbase i (hK _ ho)

theorem writeRecord {i rec} (h : p₀.Books K p) : p₀.Books K (p.writeRecord i rec) := by
  have hwritten {o v f} : p₀.Books K (((p.emit o).setRegN (Reg.HST_CQ_TAIL.at [i]) v).onRing i f) :=
    (h.emit.setRegN (block_not hK rfl (by decide) i)).onRing
  exact ite hwritten.signalRing hwritten

theorem loseRecord {i} (h : p₀.Books K p) : p₀.Books K (p.loseRecord i) :=
  (h.bumpSat (block_not hK rfl (by decide) i)).event (block_not hK (r := Reg.HST_RING_STAT) rfl (by decide) i)

theorem putRecord {i rec} (h : p₀.Books K p) : p₀.Books K (p.putRecord i rec) :=
  ite (h.loseRecord hK) (ite (h.writeRecord hK) (ite h.onRing (h.loseRecord hK)))

theorem putEvent {rec} (h : p₀.Books K p) : p₀.Books K (p.putEvent rec) := ite (h.putRecord hK) h

theorem seatDone {t : Task} (h : p₀.Books K p) (hseat : ¬ K (Reg.STG_SEAT_DONE.at [t.seat])) : p₀.Books K (p.seatDone t) := by
  have hcounted {n} : p₀.Books K ((p.bump (Reg.STG_SEAT_DONE.at [t.seat]) 1).setRegN (Reg.STG_SEAT_INFLIGHT.at [t.seat]) n) :=
    (h.bump hseat).setRegN (block_not hK rfl (by decide) _)
  have hcleared {n m} := (hcounted (n := n)).setFld (lo := 0) (len := 1) (v := m) (block_not hK (r := Reg.STG_SEAT_CFG) rfl (by decide) t.seat)
  exact ite h (ite (hcleared.frame ⟨rfl, rfl⟩ rfl rfl rfl) hcounted)

theorem seatDeadline {t : Task} (h : p₀.Books K p) : p₀.Books K (p.seatDeadline t) := by
  have hslack {v} : p₀.Books K (p.setRegN (Reg.STG_SEAT_SLACK.at [t.seat]) v) := h.setRegN (block_not hK rfl (by decide) _)
  unfold Part.seatDeadline
  dsimp only
  refine ite h (setRegN (ite (putEvent hK (setRegN (orReg (hslack.bumpSat ?_) ?_) ?_)) hslack) ?_) <;> exact block_not hK rfl (by decide) _

theorem notifyDone {t : Task} {code cause} (h : p₀.Books K p) : p₀.Books K (p.notifyDone t code cause) := by
  unfold Part.notifyDone
  refine ite ?_ h
  split
  · exact h.putRecord hK
  · exact h

end

end Part.Books

/-! ### One task completes (10 R303 R304) -/

/-- Memories, cores and replicas are as before. -/
def Part.SameReplicas (p q : Part) : Prop := p.SameStore q ∧ q.stg.replicas = p.stg.replicas

namespace Part.SameReplicas

variable {p q r : Part}

theorem refl (p : Part) : p.SameReplicas p := ⟨.refl p, rfl⟩
theorem trans (h : p.SameReplicas q) (h' : q.SameReplicas r) : p.SameReplicas r := ⟨h.1.trans h'.1, h'.2.trans h.2⟩

end Part.SameReplicas

theorem Part.key_of_task {p : Part} {k : TaskKey} {t : Task} (h : p.task k = some t) : t.key = k := by simpa using List.find?_some h

theorem Part.task_onTask {p : Part} {k : TaskKey} {t : Task} {f : Task → Task} (h : p.task k = some t) (hf : (f t).key = t.key) :
    (p.onTask k f).task k = some (f t) :=
  find?_modFirst h (by simp [hf, Part.key_of_task h])

/-- What a save area's return to its pool leaves. -/
theorem Part.freeSave_frame (p : Part) (k : TaskKey) : p.SameReplicas (p.freeSave k) ∧ (p.freeSave k).regs = p.regs ∧
    (p.freeSave k).stg.tasks.length = p.stg.tasks.length ∧ ∀ t, p.task k = some t → ∃ t', (p.freeSave k).task k = some t' := by
  have hsame : p.SameReplicas p ∧ p.regs = p.regs ∧ p.stg.tasks.length = p.stg.tasks.length ∧ ∀ t, p.task k = some t → ∃ t', p.task k = some t' :=
    ⟨.refl p, rfl, rfl, fun t ht => ⟨t, ht⟩⟩
  unfold Part.freeSave
  split
  next t ht =>
    split
    · refine ⟨⟨⟨rfl, rfl⟩, rfl⟩, rfl, length_modFirst _ _ _, fun x hx => ⟨{ x with save := none }, ?_⟩⟩
      exact Part.task_onTask (f := fun y => { y with save := none }) hx rfl
    · exact hsame
  · exact hsame

/-- The part once the books show that the task has completed; its slot is still to be freed. -/
def Part.booked (p : Part) (t : Task) (code cause : Nat) : Part :=
  let p1 := (p.freeSave t.key).bump (outcomeReg t.home code) 1
  let p2 := if code = 2 then
      p1.setRegN (Reg.STG_LAST_FAIL.at [t.home]) (t.key.id.toNat + t.key.gen.toNat * 2 ^ 32 + cause * 2 ^ 48)
    else p1
  ((p2.seatDone t).seatDeadline t).notifyDone t code cause

theorem Part.books_booked {K : Nat → Prop} (hK : ∀ o, K o → isDone o) (p : Part) {t : Task} (hseat : ¬ K (Reg.STG_SEAT_DONE.at [t.seat])) (code cause : Nat) :
    ((p.freeSave t.key).bump (outcomeReg t.home code) 1).Books K (p.booked t code cause) :=
  ((((Part.Books.refl _).setRegN fun ho => not_isDone_lastFail _ (hK _ ho)).ite (.refl _)).seatDone hK hseat).seatDeadline hK |>.notifyDone hK

/-- The tasks once one has left its slot and its successors have learned its outcome. -/
def Task.resolved (k : TaskKey) (code : Nat) (l : List Task) : List Task :=
  if k.child = 0xFFFF then (dropFirst (fun t => decide (t.key = k)) l).map (resolveTask k code) else dropFirst (fun t => decide (t.key = k)) l

theorem Part.finishOne_eq (p : Part) (t : Task) (code cause : Nat) : ∃ l e, p.finishOne t code cause =
    { p.booked t code cause with
      clusters := l, err := e, stg := { (p.booked t code cause).stg with tasks := Task.resolved t.key code (p.booked t code cause).stg.tasks } } := by
  unfold Part.finishOne Task.resolved
  dsimp only
  rw [← Part.booked]
  cases t.anchor with
  | none => split <;> exact ⟨_, _, rfl⟩
  | some a => split <;> exact ⟨_, _, rfl⟩

theorem Part.sameReplicas_finishOne (p : Part) (t : Task) (code cause : Nat) : p.SameReplicas (p.finishOne t code cause) := by
  obtain ⟨hsave, -⟩ := p.freeSave_frame t.key
  have hbooks := p.books_booked (K := fun _ => False) (t := t) (fun _ h => h.elim) id code cause
  obtain ⟨l, e, hfinish⟩ := p.finishOne_eq t code cause
  rw [hfinish]
  exact hsave.trans ⟨hbooks.store, hbooks.replicas⟩

theorem length_dropFirst {α : Type} {q : α → Bool} {l : List α} {x : α} (h : l.find? q = some x) : (dropFirst q l).length + 1 = l.length := by
  induction l with
  | nil => nomatch h
  | cons y ys ih =>
    rw [List.find?_cons] at h
    rw [dropFirst]
    split at h
    next hy => rw [if_pos hy, List.length_cons]
    next hy => rw [if_neg (by simp [hy]), List.length_cons, List.length_cons, ih h]

theorem Task.length_resolved {k : TaskKey} {l : List Task} {x : Task} (h : l.find? (fun t => decide (t.key = k)) = some x) (code : Nat) :
    (Task.resolved k code l).length + 1 = l.length := by
  unfold Task.resolved
  split
  · rw [List.length_map, length_dropFirst h]
  · exact length_dropFirst h

/-- A task that completes DONE leaves its slot and is counted at its home die. -/
theorem Part.finishOne_done {p : Part} {t x : Task} (hx : p.task t.key = some x) (hhome : t.home < 4) (hseat : t.seat < 4096) (cause : Nat) :
    (p.finishOne t 0 cause).stg.tasks.length + 1 = p.stg.tasks.length ∧
      (p.finishOne t 0 cause).reg (Reg.STG_DONE.at [t.home]) = p.reg (Reg.STG_DONE.at [t.home]) + 1 := by
  obtain ⟨-, hregs, hlen, hfound⟩ := p.freeSave_frame t.key
  have hbooks := p.books_booked (fun _ => id) (not_isDone_seatDone hseat) 0 cause
  have htasks : (p.booked t 0 cause).stg.tasks = (p.freeSave t.key).stg.tasks := hbooks.tasks
  obtain ⟨l, e, hfinish⟩ := p.finishOne_eq t 0 cause
  rw [hfinish]
  constructor
  · obtain ⟨x', hx'⟩ := hfound x hx
    have hbooked : (p.booked t 0 cause).task t.key = some x' := by rw [Part.task, htasks]; exact hx'
    exact (Task.length_resolved hbooked 0).trans (htasks ▸ hlen)
  · calc (p.booked t 0 cause).reg (Reg.STG_DONE.at [t.home])
      _ = ((p.freeSave t.key).bump (Reg.STG_DONE.at [t.home]) 1).reg (Reg.STG_DONE.at [t.home]) := hbooks.spares _ ⟨t.home, hhome, rfl⟩
      _ = (p.freeSave t.key).reg (Reg.STG_DONE.at [t.home]) + 1 := by rw [Part.reg_bump, if_pos rfl]; rfl
      _ = p.reg (Reg.STG_DONE.at [t.home]) + 1 := by rw [Part.reg_congr hregs]

theorem Part.finish_of_root {p : Part} {k : TaskKey} {t : Task} (ht : p.task k = some t) (hroot : k.child = 0xFFFF) (code cause : Nat) :
    p.finish k code cause = p.finishOne t code cause := by
  simp only [Part.finish, ht, if_pos hroot]

theorem Part.sameReplicas_finish (p : Part) (k : TaskKey) (code cause : Nat) : p.SameReplicas (p.finish k code cause) := by
  unfold Part.finish
  dsimp only
  split
  · exact .refl p
  next t _ =>
    have hone := p.sameReplicas_finishOne t code cause
    split
    · exact hone
    · split
      · exact hone
      next f _ =>
        have hfan {g : Task → Task} {k : TaskKey} : p.SameReplicas ((p.finishOne t code cause).onTask k g) := hone
        split
        · split
          · exact hfan.trans (Part.sameReplicas_finishOne _ _ _ _)
          · exact hfan.trans (Part.sameReplicas_finishOne _ _ _ _)
        · exact hfan

/-! ### The replica is free again (10 R303 R314 R325) -/

/-- What a charge of a replica's task leaves. -/
theorem Part.accrue_frame {p : Part} {r : Replica} {k : TaskKey} {t : Task} (hk : r.task = some k) (ht : p.task k = some t) :
    p.SameReplicas (p.accrue r) ∧ (p.accrue r).stg.tasks.length = p.stg.tasks.length ∧ (∃ n, (p.accrue r).task k = some { t with charged := n }) ∧
      (p.groupOf t < 64 → p.Spares isDone (p.accrue r)) := by
  obtain rfl := Part.key_of_task ht
  have hbind : r.task.bind p.task = some t := by rw [hk]; exact ht
  simp only [Part.accrue, hbind]
  split
  · exact ⟨.refl p, rfl, ⟨t.charged, ht⟩, fun _ => .refl p⟩
  · refine ⟨⟨⟨rfl, rfl⟩, rfl⟩, length_modFirst _ _ _, ⟨p.tim.now, ?_⟩, fun hg => ?_⟩
    · exact Part.task_onTask (f := fun x => { x with charged := p.tim.now }) ht rfl
    · exact ((Part.Spares.refl p).bump (not_isDone_shareUsed hg)).frame rfl

theorem Part.groupOf_lt (p : Part) {t : Task} (h : t.group < 64) : p.groupOf t < 64 := by
  unfold Part.groupOf
  split
  · exact fld_lt _ _ _
  · exact h

/-- The replica is free and runs no task. -/
def Replica.freed (r : Replica) : Replica := { r with st := .free, task := none, preempt := none }

/-- What the completion of a replica's task leaves: it changes no byte and no core, and the task, unless it is a fan's child, is counted as DONE. -/
structure Part.Completes (p u : Part) (r : Replica) (k : TaskKey) (t : Task) : Prop where
  store : p.SameStore u
  replica : u.replicaOf r.anchor = some r.freed
  done : t.fits → k.child = 0xFFFF → u.stg.tasks.length + 1 = p.stg.tasks.length ∧
    u.reg (Reg.STG_DONE.at [t.home]) = p.reg (Reg.STG_DONE.at [t.home]) + 1

theorem Part.completeOn_completes {p : Part} {r : Replica} {k : TaskKey} {t : Task} (hr : p.replicaOf r.anchor = some r) (hk : r.task = some k)
    (hrun : r.st = .running) (hdone : p.taskDone r k = true) (ht : p.task k = some t) : p.Completes (p.completeOn r.anchor) r k t := by
  have heq : p.completeOn r.anchor = (((p.accrue r).freeReplica r.anchor).finish k 0 0).place := by
    simp only [Part.completeOn, hr, hk, hrun, hdone, decide_true, Bool.and_self, if_true]
  obtain rfl := Part.key_of_task ht
  obtain ⟨⟨hstore, hreplicas⟩, hlen, ⟨n, htask⟩, hspares⟩ := Part.accrue_frame hk ht
  obtain ⟨hstore', hreplicas'⟩ := ((p.accrue r).freeReplica r.anchor).sameReplicas_finish t.key 0 0
  obtain ⟨l, ts, hplace, hplaced⟩ := (((p.accrue r).freeReplica r.anchor).finish t.key 0 0).onlyPlaced_place
  rw [heq, hplace]
  constructor
  case store => exact hstore.trans hstore'
  case replica =>
    have haccrued : (p.accrue r).replicaOf r.anchor = some r := (Part.replicaOf_congr hreplicas _).trans hr
    have hfreed : ((p.accrue r).freeReplica r.anchor).replicaOf r.anchor = some r.freed := Part.replicaOf_onReplica (f := Replica.freed) haccrued rfl
    exact (Part.replicaOf_congr hreplicas' _).trans hfreed
  case done =>
    intro hfits hroot
    obtain ⟨hhome, hseat, hgroup⟩ := hfits
    have htask' : ((p.accrue r).freeReplica r.anchor).task t.key = some { t with charged := n } := htask
    obtain ⟨hcount, hreg⟩ := Part.finishOne_done (t := { t with charged := n }) htask' hhome hseat 0
    rw [← Part.finish_of_root htask' hroot] at hcount hreg
    have haccrued := hspares (p.groupOf_lt hgroup) _ ⟨t.home, hhome, rfl⟩
    exact ⟨by rw [← hlen]; exact (congrArg (· + 1) hplaced).trans hcount, hreg.trans (congrArg (· + 1) haccrued)⟩

theorem exec_taskComplete_of_ready {s : State} (hready : s.part.phase = .ready) (a : Nat) :
    exec (.taskComplete a) s = .next (s.act (·.completeOn a)) :=
  State.live_eq hready _

/-! ### Settling O15 -/

/-- A free replica that takes a task starts it, or asks for its restore (10 R318 R321). -/
theorem taskStart_runs {s : State} {a how : Nat} {r : Replica} {t : Task} {sc : Scene} (hready : s.part.phase = .ready)
    (hr : s.part.replicaOf a = some r) (htask : r.task = none) (hdark : r.dark = false) (hfree : r.st = .free)
    (hchoose : s.part.choose r = some (t, how)) (hsc : s.part.sceneOf r.scene = some sc)
    (hgood : t.save.isSome = true ∨
      ((t.shape = 0 ∨ s.part.readFault t.shape = none) ∧ badRecord (s.part.shapeWords t sc) sc.limits = false)) :
    ∃ u, exec (.taskStart a) s = .next u ∧ if t.save.isSome then s.part.AsksRestore u.part r t
      else s.part.StartsTask u.part r t ((s.part.shapeWords t sc).map (BitVec.ofNat 32)) := by
  obtain rfl := Part.anchor_of_replicaOf hr
  refine ⟨_, exec_taskStart_of_ready hready r.anchor, ?_⟩
  rw [State.act_part, Part.startOn_of_free hr htask hdark hfree hchoose]
  split
  · exact Part.asksRestore_place hr t how
  next hsave =>
    obtain ⟨hfault, hrec⟩ := hgood.resolve_left hsave
    exact (Part.startsTask_of_good how hr hsc hfault hrec).place

/-- Settles O15: a task starts, a handler is dispatched and a task completes as `Part.StartsTask` (or `Part.AsksRestore`), `Part.Dispatches` and
`Part.Completes` say. -/
theorem tasksHandlersAndReplicasRun : Obligations.TasksHandlersAndReplicasRun := by
  unfold Obligations.TasksHandlersAndReplicasRun
  refine ⟨?_, ?_, ?_⟩
  · intro s a how r t sc hready hr htask hdark hfree hchoose hsc w hgood
    obtain ⟨u, hexec, hu⟩ := taskStart_runs hready hr htask hdark hfree hchoose hsc hgood
    obtain rfl := Part.anchor_of_replicaOf hr
    split at hu
    next hsave =>
      refine ⟨u, _, hexec, State.sameBytes_of_store hu.store, hu.replica, rfl, fun d _ => Part.core_congr hu.store.2 d, ?_⟩
      rw [if_pos hsave]
      exact ⟨rfl, hu.saveq⟩
    next hsave =>
      obtain ⟨gens, hreplica⟩ := hu.replica
      refine ⟨u, _, hexec, fun x => Part.byteAt_congr hu.mem x, hreplica, rfl, hu.others, ?_⟩
      rw [if_neg hsave]
      refine ⟨rfl, fun c hc => ?_⟩
      obtain ⟨k, hk⟩ := hu.core c hc
      refine ⟨congrArg (·.sh) hk, congrArg (·.cnt) hk, (congrArg (·.ptrs) hk).trans ?_, fun j hj hbit => ?_⟩
      · exact List.map_congr_left fun i _ => (apply_ite (BitVec.ofNat 48) _ _ _).symm
      · rw [hu.thread c hc j hj hbit]
        exact ⟨rfl, rfl⟩
  · intro s c q t hready i home can hrun hq hcan hfirst ht hidle hbusy hthreads hqueues
    have hdispatch := Part.dispatch_dispatches hrun hq hcan hfirst ht hidle hbusy hthreads hqueues
    have hrest := s.part.onlyRegs_onTheCore (s.part.issuer c) (·.dispatch c)
    have hthread : ∀ j, (s.part.onTheCore (s.part.issuer c) (·.dispatch c)).th i j = (s.part.dispatch c).th i j :=
      fun j => congrArg (Core.th · j) (hrest.core i)
    have hqueue : (s.part.onTheCore (s.part.issuer c) (·.dispatch c)).servedQueue i q = { s.part.servedQueue i q with running := true } :=
      (congrArg (Core.queue · (home q).2) (hrest.core (home q).1)).trans hdispatch.queue
    refine ⟨_, exec_handlerDispatch_of_ready hready c, fun a => ?_, fun d hd => ?_, fun o ho => ?_, ?_, ?_, ?_, ?_, ?_, ?_, fun j hj => ?_⟩
    · exact (hrest.byteAt a).trans (Part.byteAt_congr hdispatch.onlyCores.mem a)
    · exact (hrest.core d).trans (hdispatch.others d hd)
    · exact (Part.reg_onTheCore (·.dispatch c) ho).trans (Part.reg_congr hdispatch.onlyCores.regs o)
    · exact congrArg Thread.st ((hthread t).trans hdispatch.thread)
    · exact congrArg Thread.ptr ((hthread t).trans hdispatch.thread)
    · exact congrArg Thread.handler ((hthread t).trans hdispatch.thread)
    · exact congrArg Thread.queue ((hthread t).trans hdispatch.thread)
    · exact congrArg ChQueue.running hqueue
    · exact (congrArg ChQueue.msgs hqueue :)
    · exact (hthread j).trans (hdispatch.busy j hj)
  · intro s a r k t hready hr hk hrun hdone ht
    obtain rfl := Part.anchor_of_replicaOf hr
    have hcompletes := Part.completeOn_completes hr hk hrun hdone ht
    exact ⟨_, _, exec_taskComplete_of_ready hready r.anchor, State.sameBytes_of_store hcompletes.store, State.sameCores_of_store hcompletes.store,
      hcompletes.replica, rfl, rfl, rfl, hcompletes.done⟩

end Sys2Proof.Machine

/-! ## The words of the cue operations read back -/

namespace Sys2Proof.Machine
open Sys2Proof

/-! ### Fields put side by side -/

/-- Fields (value, lowest bit, width) from bit `top` down that fit their widths and do not overlap. -/
def Packed : Nat → List (Nat × Nat × Nat) → Prop
  | _, [] => True
  | top, (v, lo, len) :: l => v < 2 ^ len ∧ lo + len ≤ top ∧ Packed lo l

/-- The word that fields with their widths make. -/
def packFields (l : List (Nat × Nat × Nat)) : Nat := putFields (l.map fun f => (f.1, f.2.1))

/-- A word holds every field of a list. -/
def Spells (w : Nat) (l : List (Nat × Nat × Nat)) : Prop := ∀ f ∈ l, fld w f.2.1 f.2.2 = f.1

theorem packFields_cons (v lo len : Nat) (l : List (Nat × Nat × Nat)) : packFields ((v, lo, len) :: l) = v * 2 ^ lo + packFields l := by
  simp [packFields, putFields]

theorem packFields_lt {top : Nat} {l : List (Nat × Nat × Nat)} (h : Packed top l) : packFields l < 2 ^ top := by
  induction l generalizing top with
  | nil => exact Nat.two_pow_pos top
  | cons f l ih =>
    obtain ⟨v, lo, len⟩ := f
    obtain ⟨hv, htop, hl⟩ := h
    rw [packFields_cons]
    calc v * 2 ^ lo + packFields l < v * 2 ^ lo + 2 ^ lo := Nat.add_lt_add_left (ih hl) _
      _ = (v + 1) * 2 ^ lo := (Nat.succ_mul v _).symm
      _ ≤ 2 ^ len * 2 ^ lo := Nat.mul_le_mul_right _ hv
      _ = 2 ^ (lo + len) := by rw [Nat.add_comm, Nat.pow_add]
      _ ≤ 2 ^ top := Nat.pow_le_pow_right (by decide) htop

/-- A field is read where it was put, the bits below it being smaller than its lowest bit. -/
theorem fld_add_self {v r lo len : Nat} (hv : v < 2 ^ len) (hr : r < 2 ^ lo) : fld (v * 2 ^ lo + r) lo len = v := by
  simpa using fld_of_parts (a := 0) hv hr

/-- What lies above a field does not reach it. -/
theorem fld_add_above {p lo len : Nat} (h : lo + len ≤ p) (v r : Nat) : fld (v * 2 ^ p + r) lo len = fld r lo len := by
  obtain ⟨d, rfl⟩ := Nat.exists_eq_add_of_le h
  have hsplit : v * 2 ^ (lo + len + d) = 2 ^ lo * (2 ^ len * (v * 2 ^ d)) := by ring
  rw [fld, fld, Nat.shiftRight_eq_div_pow, Nat.shiftRight_eq_div_pow, hsplit, Nat.mul_add_div (Nat.two_pow_pos lo), Nat.mul_add_mod]

theorem Packed.le_of_mem {top : Nat} {l : List (Nat × Nat × Nat)} (h : Packed top l) {f : Nat × Nat × Nat} (hf : f ∈ l) :
    f.2.1 + f.2.2 ≤ top := by
  induction l generalizing top with
  | nil => exact absurd hf List.not_mem_nil
  | cons g l ih =>
    obtain ⟨-, htop, hl⟩ := h
    rcases List.mem_cons.mp hf with rfl | hf
    · exact htop
    · exact (ih hl hf).trans ((Nat.le_add_right _ _).trans htop)

theorem packFields_spells {top : Nat} {l : List (Nat × Nat × Nat)} (h : Packed top l) : Spells (packFields l) l := by
  induction l generalizing top with
  | nil => exact fun f hf => absurd hf List.not_mem_nil
  | cons g l ih =>
    obtain ⟨v, lo, len⟩ := g
    obtain ⟨hv, -, hl⟩ := h
    intro f hf
    rw [packFields_cons]
    rcases List.mem_cons.mp hf with rfl | hf
    · exact fld_add_self hv (packFields_lt hl)
    · rw [fld_add_above (hl.le_of_mem hf), ih hl f hf]

/-! ### The fields of a cue operation -/

/-- The opcode of an operation (07 R198). -/
def CueWord.op : CueWord → Nat
  | .endOp => 0x00 | .nop => 0x01 | .fence _ _ => 0x02 | .intv => 0x03 | .loop _ => 0x04 | .shop _ => 0x05 | .adda _ => 0x06
  | .ldr _ => 0x08 | .str _ => 0x09 | .mov _ => 0x0A | .trd _ => 0x0B | .srd _ => 0x0C | .gath _ => 0x0D | .xfer _ _ _ _ => 0x0E | .cinv _ => 0x0F
  | .mat _ => 0x10 | .maux _ => 0x11 | .run _ _ _ => 0x12 | .send _ => 0x18 | .post _ => 0x19 | .recv _ => 0x1A
  | .wait _ _ _ _ => 0x1C | .cue _ _ _ _ => 0x1D | .curt _ _ => 0x1E

def LdrWord.fields (x : LdrWord) : List (Nat × Nat × Nat) :=
  [(x.place, 46, 12), (x.preg, 43, 3), (x.off, 23, 20), (x.cnt, 18, 5), (x.lvl, 16, 2), (x.sreg, 12, 4), (x.ix.toNat, 11, 1),
    (x.cached.toNat, 10, 1), (x.sync.toNat, 9, 1), (x.done, 4, 5)]

def SendWord.fields (x : SendWord) : List (Nat × Nat × Nat) := [(x.src, 46, 12), (x.slot, 42, 4), (x.route, 38, 4), (x.done, 33, 5)]

/-- The operands of an operation: value, lowest bit and width (07 R206 R209 to R213 R217 to R223 R227 R229 R230 R232 to R235). -/
def CueWord.operands : CueWord → List (Nat × Nat × Nat)
  | .endOp | .nop | .intv => []
  | .fence m s => [(m, 51, 7), (s.toNat, 50, 1)]
  | .loop x => [(x.lvl, 56, 2), (x.stop, 46, 10), (x.src.toNat, 45, 1), (x.reg, 41, 4), (x.sh, 36, 5), (x.imm, 11, 25)]
  | .shop x => [(x.d, 54, 4), (x.a, 50, 4), (x.b, 46, 4), (x.fn, 43, 3), (x.bimm.toNat, 42, 1), (x.alc.toNat, 41, 1), (x.lvl, 39, 2), (x.imm, 7, 32)]
  | .adda x => [(x.d, 55, 3), (x.a, 52, 3), (x.b, 48, 4), (x.useb.toNat, 47, 1), (x.sh, 42, 5), (x.imm, 10, 32)]
  | .ldr x | .str x => x.fields
  | .mov x => [(x.dst, 46, 12), (x.src, 34, 12), (x.n - 1, 29, 5), (x.done, 24, 5)]
  | .trd x => [(x.dst, 46, 12), (x.row, 34, 12), (x.j, 29, 5), (x.w, 27, 2), (x.done, 22, 5)]
  | .srd x => [(x.dst, 46, 12), (x.row, 34, 12), (x.d, 27, 7), (x.s, 22, 5), (x.done, 17, 5)]
  | .gath x => [(x.dst, 46, 12), (x.list, 39, 7), (x.e0, 32, 7), (x.preg, 29, 3), (x.n - 1, 24, 5),
      (x.sh, 20, 4), (x.sync.toNat, 19, 1), (x.done, 14, 5)]
  | .xfer r s y d => [(r, 51, 7), (s, 48, 3), (y.toNat, 47, 1), (d, 42, 5)]
  | .cinv x => [(x.all.toNat, 57, 1), (x.preg, 54, 3), (x.off, 34, 20), (x.done, 29, 5)]
  | .mat x => [(x.arow, 46, 12), (x.brow, 34, 12), (x.atag, 29, 5), (x.btag, 24, 5), (x.shape, 22, 2), (x.acc.toNat, 21, 1), (x.scan.toNat, 20, 1),
      (x.tile, 18, 2), (x.chain, 14, 4), (x.close.toNat, 13, 1), (x.sreg, 9, 4),
      (x.done, 4, 5), (x.slc, 2, 2), (x.tri.toNat, 1, 1), (x.aux.toNat, 0, 1)]
  | .maux x => [(x.mrow, 51, 7), (x.pat, 48, 3), (x.amap, 46, 2), (x.bmap, 44, 2), (x.amrow, 37, 7), (x.bmrow, 30, 7), (x.asrow, 23, 7),
      (x.bsrow, 16, 7), (x.count, 3, 13)]
  | .run p o d => [(p, 54, 4), (o.toNat, 53, 1), (d, 48, 5)]
  | .send x | .post x => x.fields
  | .recv x => [(x.dst, 46, 12), (x.slot, 42, 4), (x.q, 37, 5), (x.done, 32, 5)]
  | .wait k s c v => [(k, 56, 2), (s, 49, 7), (c.toNat, 48, 1), (v, 32, 16)]
  | .cue k s n v => [(k, 56, 2), (s, 50, 6), (n, 46, 4), (v, 30, 16)]
  | .curt c w => [(c, 54, 4), (w.toNat, 53, 1)]

/-- All fields of an operation, its opcode first (07 R197). -/
def CueWord.fields (i : CueWord) : List (Nat × Nat × Nat) := (i.op, 58, 6) :: i.operands

theorem writeCue_eq_packFields (i : CueWord) : writeCue i = packFields i.fields := by
  cases i <;> rfl

/-- Operands at values that their bits admit lie side by side below the opcode. -/
theorem CueWord.packed_operands {i : CueWord} (h : i.fits = true) : Packed 58 i.operands := by
  cases i <;> simp only [CueWord.fits, below, Bool.and_eq_true, decide_eq_true_eq] at h <;>
    simp [CueWord.operands, LdrWord.fields, SendWord.fields, Packed, Bool.toNat_le] <;> omega

theorem CueWord.op_lt (i : CueWord) : i.op < 2 ^ 6 := by
  cases i <;> simp [CueWord.op]

theorem CueWord.packed_fields {i : CueWord} (h : i.fits = true) : Packed 64 i.fields :=
  ⟨i.op_lt, Nat.le_refl 64, i.packed_operands h⟩

/-- A word that holds the opcode and the operands of an operation is read as that operation: its reader takes each operand where
`CueWord.operands` lists it. -/
theorem readCue_of_spells {w : Nat} {i : CueWord} (hi : i.fits = true) (h : Spells w i.fields) : readCue w = some i := by
  have hop : opcode w = i.op := h _ List.mem_cons_self
  have hargs : Spells w i.operands := fun f hf => h f (List.mem_cons_of_mem _ hf)
  cases i <;> simp only [CueWord.fits, below, Bool.and_eq_true, decide_eq_true_eq] at hi <;>
    simp only [CueWord.op, CueWord.operands, LdrWord.fields, SendWord.fields, Spells, List.forall_mem_cons] at hop hargs <;>
    simp [readCue, hop, hargs, bitOf, loopWord, shopWord, addaWord, ldrWord, movWord, trdWord, srdWord, gathWord, cinvWord, matWord, mauxWord,
      sendWord, recvWord, hi]

/-- Settles O60: the fields of an operation lie side by side (`CueWord.packed_fields`), so that its word holds each of them
(`packFields_spells`), and a word that holds them spells the operation (`readCue_of_spells`). -/
theorem cueWordsReadBack : Obligations.CueWordsReadBack := by
  unfold Obligations.CueWordsReadBack
  refine ⟨fun i hi => ?_, rfl, rfl, ⟨_, rfl, rfl, rfl, rfl, rfl, rfl, rfl, rfl, rfl⟩, rfl, fun w hw => ?_⟩
  · rw [writeCue_eq_packFields]
    exact ⟨packFields_lt (i.packed_fields hi), readCue_of_spells hi (packFields_spells (i.packed_fields hi))⟩
  · simp only [List.mem_cons, List.not_mem_nil, or_false] at hw
    rcases hw with h | h | h | h | h | h <;> simp [readCue, h]

end Sys2Proof.Machine

/-! ## Operations that act on their own core at issue -/

namespace Sys2Proof.Machine
open Sys2Proof

/-! ### A slot taken (06 R170) -/

section
variable (k : Core) (t : Nat)

@[simp] theorem Core.threads_beat : (k.beat t).threads = k.threads := by unfold Core.beat; split <;> rfl
@[simp] theorem Core.sh_beat : (k.beat t).sh = k.sh := by unfold Core.beat; split <;> rfl
@[simp] theorem Core.ptrs_beat : (k.beat t).ptrs = k.ptrs := by unfold Core.beat; split <;> rfl
@[simp] theorem Core.cnt_beat : (k.beat t).cnt = k.cnt := by unfold Core.beat; split <;> rfl
@[simp] theorem Core.wire_beat : (k.beat t).wire = k.wire := by unfold Core.beat; split <;> rfl
@[simp] theorem Core.xcue_beat : (k.beat t).xcue = k.xcue := by unfold Core.beat; split <;> rfl
@[simp] theorem Core.queues_beat : (k.beat t).queues = k.queues := by unfold Core.beat; split <;> rfl
@[simp] theorem Core.arrivals_beat : (k.beat t).arrivals = k.arrivals := by unfold Core.beat; split <;> rfl
@[simp] theorem Core.unitsIdle_beat : (k.beat t).unitsIdle = k.unitsIdle := by unfold Core.beat; split <;> rfl
@[simp] theorem Core.th_beat (j : Nat) : (k.beat t).th j = k.th j := by simp [Core.th]

/-- What is under way in the units of a core, or queued for them. -/
def Core.work : List MatStep × List MatStep × List MatStep × Option MatStep × List VecRun × Option VecRun × List MoveOp × List MoveOp :=
  (k.matq, k.matRun, k.epiq, k.epiRun, k.vecq, k.vecRun, k.moveq, k.moving)

@[simp] theorem Core.work_beat : (k.beat t).work = k.work := by unfold Core.beat; split <;> rfl
@[simp] theorem Core.work_onTh (f : Thread → Thread) : (k.onTh t f).work = k.work := rfl

end

@[simp] theorem Thread.on_advance (th : Thread) : th.advance.on = th.on := rfl

/-- What an update leaves of the thread it updates, it leaves of every thread. -/
theorem Core.onTh_leaves {γ : Type} (g : Thread → γ) {f : Thread → Thread} (hf : ∀ x, g (f x) = g x) (k : Core) (t j : Nat) :
    g ((k.onTh t f).th j) = g (k.th j) := by
  simp only [Core.th, Core.onTh, modAt, List.getD_eq_getElem?_getD, List.getElem?_modify]
  cases k.threads[j]? with
  | none => rfl
  | some x =>
    simp only [Option.getD_some]
    split
    · exact hf x
    · rfl

/-! ### Only the issuing core changes -/

/-- Nothing changes but core `c`, whose units become no emptier. -/
structure Part.OnlyAt (c : Nat) (p q : Part) : Prop where
  cores : p.OnlyCores q
  others : ∀ d, d ≠ c → q.core d = p.core d
  units : (q.core c).unitsIdle = true → (p.core c).unitsIdle = true

namespace Part.OnlyAt

variable {c : Nat} {p₀ p q : Part}

theorem refl (p : Part) : p.OnlyAt c p := ⟨.refl p, fun _ _ => rfl, id⟩

theorem onCore {f : Core → Core} (h : p₀.OnlyAt c p) (hf : (f (p.core c)).unitsIdle = true → (p.core c).unitsIdle = true) :
    p₀.OnlyAt c (p.onCore c f) where
  cores := h.cores.onCore
  others d hd := (Part.core_onCore_ne p f hd).trans (h.others d hd)
  units hidle := h.units (hf (by rwa [Part.core_onCore_self] at hidle))

theorem onTh {t : Nat} {f : Thread → Thread} (h : p₀.OnlyAt c p) : p₀.OnlyAt c (p.onTh c t f) := h.onCore id

theorem ite {b : Prop} [Decidable b] (h : p₀.OnlyAt c p) (h' : p₀.OnlyAt c q) : p₀.OnlyAt c (if b then p else q) := by
  split
  · exact h
  · exact h'

theorem forEach {α : Type} {l : List α} {f : α → Part → Part} (h : p₀.OnlyAt c p) (hf : ∀ a q, p₀.OnlyAt c q → p₀.OnlyAt c (f a q)) :
    p₀.OnlyAt c (Machine.forEach l f p) := by
  unfold Machine.forEach
  induction l generalizing p with
  | nil => exact h
  | cons a l ih => exact ih (hf a p h)

end Part.OnlyAt

/-- The part with one more issue of core `c` counted (06 R196). -/
def Part.counted (p : Part) (c : Nat) : Part := p.bump (coreReg Reg.CORE_ISSUED c []) 1

theorem Part.onlyAt_takeSlot (p : Part) (c t : Nat) : (p.counted c).OnlyAt c (p.takeSlot c t) :=
  (OnlyAt.refl _).onCore fun h => by rwa [Core.unitsIdle_beat] at h

theorem Part.onlyAt_issued (p : Part) (c t : Nat) : (p.counted c).OnlyAt c (p.issued c t) := (p.onlyAt_takeSlot c t).onTh

@[simp] theorem Part.core_takeSlot_self (p : Part) (c t : Nat) : (p.takeSlot c t).core c = (p.core c).beat t := Part.core_onCore_self _ _ _

theorem Part.OnlyAt.issues {p q : Part} {c : Nat} (h : (p.counted c).OnlyAt c q) : p.Issues q c := by
  obtain ⟨⟨l, rfl⟩, hothers, hunits⟩ := h
  exact ⟨rfl, hothers, rfl, hunits⟩

/-- An operation that acts on its own core alone changes what an issue changes. -/
theorem State.cueOp_onlyAt {s : State} {c t op : Nat} {f : Part → Part} (h : s.mayIssue c t op) (hf : (s.part.counted c).OnlyAt c (f s.part)) :
    ∃ u, s.cueOp c t op f = .next u ∧ s.issueFrame u c ∧ u.part.core c = (f s.part).core c ∧ u.part.uid = s.part.uid := by
  refine ⟨s.act (·.onTheCore c f), State.cueOp_eq_of_issues h hf.issues, State.issueFrame_of hf.issues, hf.issues.core c, ?_⟩
  rw [State.act_part, Part.uid_onTheCore, hf.cores.uid]
  rfl

/-- An operation that leaves tasks and replicas alone is its effect, with entries into quiescence counted. -/
theorem State.cueOp_onlyRegs {s : State} {c t op : Nat} {f : Part → Part} (h : s.mayIssue c t op) (hstg : (f s.part).stg = s.part.stg) :
    ∃ u, s.cueOp c t op f = .next u ∧ (f s.part).OnlyRegs u.part :=
  ⟨s.act (·.onTheCore c f), State.cueOp_eq h (Part.taskOf_congr hstg c), s.part.onlyRegs_onTheCore c f⟩

/-- A thread that moves on and then takes another step. -/
theorem Part.core_issued_onTh (p : Part) (c t : Nat) (f : Thread → Thread) :
    ((p.issued c t).onTh c t f).core c = ((p.core c).beat t).onTh t (fun x => f x.advance) := by
  simp

end Sys2Proof.Machine

/-! ## NOP, MAUX, FENCE, INTV, LOOP and END -/

namespace Sys2Proof.Machine
open Sys2Proof

/-! ### FENCE and INTV (07 R211 R212) -/

theorem Part.pendingKind_congr {p q : Part} {c : Nat} (hreqs : q.reqs = p.reqs) (hxfers : q.xfers = p.xfers)
    (hwork : (q.core c).work = (p.core c).work) (hon : ∀ j, ((q.core c).th j).on = ((p.core c).th j).on) (t : Nat) (scope : Bool) (mark i : Nat) :
    q.pendingKind c t scope mark i = p.pendingKind c t scope mark i := by
  simp only [Core.work, Prod.mk.injEq] at hwork
  unfold Part.pendingKind
  simp only [hreqs, hxfers, hwork, hon]

theorem Part.pendingKind_issued (p : Part) (c t : Nat) (scope : Bool) (mark i : Nat) :
    (p.issued c t).pendingKind c t scope mark i = p.pendingKind c t scope mark i :=
  have hcore := p.core_issued_self c t
  Part.pendingKind_congr (p := p) (q := p.issued c t) rfl rfl (by rw [hcore, Core.work_onTh, Core.work_beat])
    (fun j => by rw [hcore, Core.onTh_leaves Thread.on Thread.on_advance, Core.th_beat]) t scope mark i

theorem Part.fenceMet_issued (p : Part) (c t mask : Nat) (scope : Bool) (mark : Nat) :
    (p.issued c t).fenceMet c t mask scope mark = p.fenceMet c t mask scope mark := by
  simp only [Part.fenceMet, Part.pendingKind_issued]

/-- A FENCE issues, and its thread waits where what it names is outstanding. -/
theorem Part.doFence_eq (p : Part) (c t : Nat) : p.doFence c t =
    if p.fenceMet c t (fld (p.wordAt c t) 51 7) (bitOf (p.wordAt c t) 50) p.uid then p.issued c t
    else (p.issued c t).onTh c t (·.await 5 (.fence (BitVec.ofNat 7 (fld (p.wordAt c t) 51 7)) (bitOf (p.wordAt c t) 50) p.uid)) := by
  rw [← Part.fenceMet_issued]
  rfl

theorem exec_fence {s : State} {c t : Nat} (h : s.mayIssue c t Op.FENCE) : ∃ u, exec (.fence c t) s = .next u ∧ s.issueFrame u c ∧
    if s.part.fenceMet c t (fld (s.part.wordAt c t) 51 7) (bitOf (s.part.wordAt c t) 50) s.part.uid then
      u.part.core c = (s.part.core c).stepped t
    else u.part.core c = ((s.part.core c).beat t).onTh t (fun th => th.advance.await 5
      (.fence (BitVec.ofNat 7 (fld (s.part.wordAt c t) 51 7)) (bitOf (s.part.wordAt c t) 50) s.part.uid)) := by
  have hacts := s.part.onlyAt_issued c t
  have hfence := s.part.doFence_eq c t
  obtain ⟨u, hexec, hframe, hcore, -⟩ := State.cueOp_onlyAt h (f := (·.doFence c t)) (by
    rw [hfence]
    exact .ite hacts hacts.onTh)
  refine ⟨u, hexec, hframe, ?_⟩
  rw [hcore, hfence]
  split
  · exact Part.core_issued_self _ _ _
  · exact Part.core_issued_onTh _ _ _ _

/-- A pre-emption is asked for of the replica that holds core `c` (10 R320). -/
def Part.asked (p : Part) (c : Nat) : Bool := (p.replicaAt (clusterOf c)).any (fun r => r.preempt.isSome)

theorem Part.doIntv_of_not_asked {p : Part} {c : Nat} (h : p.asked c = false) (t : Nat) : p.doIntv c t = p.issued c t := by
  unfold Part.asked at h
  unfold Part.doIntv
  cases hr : p.replicaAt (clusterOf c) with
  | none => rfl
  | some r =>
    rw [hr, Option.any_some] at h
    simp only [h]
    rfl

/-- The thread parks on its INTV, or waits for its operations first. -/
theorem Part.doIntv_of_asked {p : Part} {c : Nat} (h : p.asked c = true) (t : Nat) :
    ∃ on, p.doIntv c t = (p.takeSlot c t).onTh c t (·.await 5 on) := by
  unfold Part.asked at h
  unfold Part.doIntv
  cases hr : p.replicaAt (clusterOf c) with
  | none => rw [hr] at h; nomatch h
  | some r =>
    rw [hr, Option.any_some] at h
    simp only [h, Bool.not_true, Bool.false_eq_true, if_false]
    split
    · exact ⟨_, rfl⟩
    · exact ⟨_, rfl⟩

theorem exec_intv_of_not_asked {s : State} {c t : Nat} (h : s.mayIssue c t Op.INTV) (hasked : s.part.asked c = false) :
    ∃ u, exec (.intv c t) s = .next u ∧ s.issueFrame u c ∧ u.part.core c = (s.part.core c).stepped t := by
  have hintv := Part.doIntv_of_not_asked hasked t
  obtain ⟨u, hexec, hframe, hcore, -⟩ := State.cueOp_onlyAt h (f := (·.doIntv c t)) (hintv ▸ s.part.onlyAt_issued c t)
  exact ⟨u, hexec, hframe, hcore.trans (hintv ▸ Part.core_issued_self _ _ _)⟩

theorem exec_intv_of_asked {s : State} {c t : Nat} (h : s.mayIssue c t Op.INTV) (hasked : s.part.asked c = true) :
    ∃ u on, exec (.intv c t) s = .next u ∧ s.issueFrame u c ∧ u.part.core c = ((s.part.core c).beat t).onTh t (·.await 5 on) := by
  obtain ⟨on, hintv⟩ := Part.doIntv_of_asked hasked t
  obtain ⟨u, hexec, hframe, hcore, -⟩ := State.cueOp_onlyAt h (f := (·.doIntv c t)) (hintv ▸ (s.part.onlyAt_takeSlot c t).onTh)
  exact ⟨u, on, hexec, hframe, hcore.trans (by rw [hintv, Part.core_onTh_self, Part.core_takeSlot_self])⟩

/-! ### LOOP (07 R206 R207) -/

theorem LoopWord.count_eq (l : LoopWord) (sh : List W32) : l.count sh =
    if l.src then BitVec.ofNat 32 (((sh.getD l.reg 0).toNat + 2 ^ l.sh - 1) % 2 ^ 33 / 2 ^ l.sh) else BitVec.ofNat 32 l.imm := by
  rw [LoopWord.count, Nat.shiftRight_eq_div_pow]

theorem exec_loop {s : State} {c t : Nat} (h : s.mayIssue c t Op.LOOP) : ∃ u, exec (.loop c t) s = .next u ∧ s.issueFrame u c ∧
    u.part.core c = ((s.part.core c).beat t).onTh t (·.beginLoop (loopWord (s.part.wordAt c t))
      ((loopWord (s.part.wordAt c t)).count ((s.part.core c).asOf t).sh)) := by
  obtain ⟨u, hexec, hframe, hcore, -⟩ := State.cueOp_onlyAt h (f := (·.doLoop c t)) (s.part.onlyAt_takeSlot c t).onTh
  exact ⟨u, hexec, hframe, hcore.trans (by rw [Part.doLoop, Part.core_onTh_self, Part.core_takeSlot_self])⟩

/-! ### END (07 R205, 06 R173) -/

theorem Part.doEnd_of_ordinary {p : Part} {c t : Nat} (h : (p.th c t).handler = false) : p.doEnd c t = (p.issued c t).onTh c t Thread.ended := by
  rw [Part.doEnd, h]
  rfl

theorem exec_end_of_ordinary {s : State} {c t : Nat} (h : s.mayIssue c t Op.END) (hth : (s.part.th c t).handler = false) :
    ∃ u, exec (.endOp c t) s = .next u ∧ s.issueFrame u c ∧ u.part.core c = ((s.part.core c).beat t).onTh t (fun x => x.advance.ended) := by
  have hend := Part.doEnd_of_ordinary hth
  obtain ⟨u, hexec, hframe, hcore, -⟩ := State.cueOp_onlyAt h (f := (·.doEnd c t)) (hend ▸ (s.part.onlyAt_issued c t).onTh)
  exact ⟨u, hexec, hframe, hcore.trans (hend ▸ Part.core_issued_onTh _ _ _ _)⟩

/-- The queue may dispatch again. -/
def ChQueue.stop (y : ChQueue) : ChQueue := { y with running := false }

/-- The end of a handler marks its queue, after what it may discard from it. -/
theorem Part.endHandler_cases (p : Part) (c t : Nat) :
    ∃ q, p.endHandler c t = q.onCore (queueHome c (p.th c t).queue).1 (·.onQueue (queueHome c (p.th c t).queue).2 ChQueue.stop) ∧
      (q = p ∨ ∃ m n o, q = ((p.onCore (queueHome c (p.th c t).queue).1
        (·.onQueue (queueHome c (p.th c t).queue).2 (fun y => { y with msgs := y.msgs.eraseIdx n }))).bump32 o 1).returnCredit m) := by
  refine ⟨_, rfl, ?_⟩
  split
  · exact .inl rfl
  · split
    · exact .inl rfl
    · exact .inr ⟨_, _, _, rfl⟩

theorem Part.endHandler_frame (p : Part) (c t : Nat) :
    (p.endHandler c t).mem = p.mem ∧ (p.endHandler c t).stg = p.stg ∧ ∀ d, ((p.endHandler c t).core d).threads = (p.core d).threads := by
  obtain ⟨q, hq, hcases⟩ := p.endHandler_cases c t
  have hthreads : ∀ (r : Part) (k j : Nat) (f : ChQueue → ChQueue) (d : Nat),
      ((r.onCore k (·.onQueue j f)).core d).threads = (r.core d).threads :=
    fun r k j f d => Part.onCore_leaves Core.threads (by rfl) d
  rw [hq]
  rcases hcases with rfl | ⟨m, n, o, rfl⟩
  · exact ⟨rfl, rfl, hthreads _ _ _ _⟩
  · exact ⟨rfl, rfl, fun d => (hthreads _ _ _ _ d).trans (hthreads p _ _ _ d)⟩

theorem Core.queue_onQueue_self (k : Core) {q : Nat} (f : ChQueue → ChQueue) (h : q < k.queues.length) :
    (k.onQueue q f).queue q = f (k.queue q) := by
  simp [Core.queue, Core.onQueue, modAt, h]

theorem Core.length_onQueue (k : Core) (q : Nat) (f : ChQueue → ChQueue) : (k.onQueue q f).queues.length = k.queues.length := modAt_length _ _ _

/-- The queue of a core's own handler runs no handler after its END. -/
theorem Part.running_endHandler {p : Part} {c t : Nat} (hq : (p.th c t).queue < 16) (hlen : (p.th c t).queue < (p.core c).queues.length) :
    (((p.endHandler c t).core c).queue (p.th c t).queue).running = false := by
  obtain ⟨q, hend, hcases⟩ := p.endHandler_cases c t
  have hhome : queueHome c (p.th c t).queue = (c, (p.th c t).queue) := if_pos hq
  rw [hhome] at hend hcases
  have hlen' : (p.th c t).queue < (q.core c).queues.length := by
    rcases hcases with rfl | ⟨m, n, o, rfl⟩
    · exact hlen
    · have hcore := p.core_onCore_self c (·.onQueue (p.th c t).queue (fun y => { y with msgs := y.msgs.eraseIdx n }))
      exact (congrArg (·.queues.length) hcore).trans (Core.length_onQueue _ _ _) ▸ hlen
  rw [hend, Part.core_onCore_self, Core.queue_onQueue_self _ _ hlen']
  rfl

theorem Part.doEnd_of_handler {p : Part} {c t : Nat} (h : (p.th c t).handler = true) :
    p.doEnd c t = ((p.endHandler c t).issued c t).onTh c t Thread.ended := by
  rw [Part.doEnd, h]
  rfl

theorem exec_end_of_handler {s : State} {c t : Nat} (h : s.mayIssue c t Op.END) (hth : (s.part.th c t).handler = true) :
    ∃ u, exec (.endOp c t) s = .next u ∧ s.sameBytes u ∧
      u.part.core c = (((s.part.endHandler c t).core c).beat t).onTh t (fun x => x.advance.ended) := by
  have hend := Part.doEnd_of_handler hth
  obtain ⟨hmem, hstg, -⟩ := s.part.endHandler_frame c t
  obtain ⟨u, hexec, hu⟩ := State.cueOp_onlyRegs h (f := (·.doEnd c t)) (by rw [hend]; exact hstg)
  refine ⟨u, hexec, fun a => ?_, ?_⟩
  · rw [hu.byteAt, hend]
    exact Part.byteAt_congr hmem a
  · rw [hu.core, hend, Part.core_issued_onTh]

/-- The thread of an END, from its core's threads. -/
theorem Part.th_of_ended {p : Part} {c t : Nat} {k : Core} (h : (p.core c).threads = (k.onTh t (fun x => x.advance.ended)).threads)
    (ht : t < k.threads.length) : p.th c t = (k.th t).advance.ended := by
  rw [Part.th, Core.th, h]
  exact Core.th_onTh_self k _ ht

/-- Settles O1: each operation acts on its core alone (`State.cueOp_onlyAt`), but for the END of a handler, which also stops its queue
(`Part.running_endHandler`). -/
theorem controlOperationsIssue : Obligations.ControlOperationsIssue := by
  unfold Obligations.ControlOperationsIssue
  refine ⟨fun s c t i op hi h => ?_, fun s c t => ⟨fun h => ?_, fun h => ?_⟩, fun s c t h => ?_, fun s c t h => ?_⟩
  · have hacts := s.part.onlyAt_issued c t
    obtain ⟨u, hexec, hframe, hcore, huid⟩ := State.cueOp_onlyAt h (f := (·.issued c t)) hacts
    rw [Part.core_issued_self] at hcore
    simp only [List.mem_cons, Prod.mk.injEq, List.not_mem_nil, or_false] at hi
    rcases hi with ⟨rfl, rfl⟩ | ⟨rfl, rfl⟩
    · exact ⟨u, hexec, hframe, hcore, huid⟩
    · exact ⟨u, hexec, hframe, hcore, huid⟩
  · exact exec_fence h
  · split
    next hasked =>
      obtain ⟨u, on, hexec, hframe, hcore⟩ := exec_intv_of_asked h hasked
      have hth : ∀ j, u.part.th c j = (((s.part.core c).beat t).onTh t (·.await 5 on)).th j := fun j => congrArg (Core.th · j) hcore
      refine ⟨u, hexec, hframe, ?_, fun ht => ?_⟩
      · rw [hth]
        exact (Core.onTh_leaves Thread.ptr (f := (·.await 5 on)) (fun _ => rfl) _ t t).trans (congrArg Thread.ptr (Core.th_beat _ t t))
      · rw [hth, Core.th_onTh_self _ _ (by rwa [Core.threads_beat])]
        exact ⟨rfl, rfl⟩
    next hasked => exact exec_intv_of_not_asked h (Bool.not_eq_true _ ▸ hasked)
  · obtain ⟨u, hexec, hframe, hcore⟩ := exec_loop h
    refine ⟨u, hexec, hframe, hcore.trans (Core.onTh_congr _ _ ?_)⟩
    rw [Core.th_beat, LoopWord.count_eq]
    rfl
  · cases hth : (s.part.th c t).handler with
    | false =>
      obtain ⟨u, hexec, hframe, hcore⟩ := exec_end_of_ordinary h hth
      have ⟨_, _, _, _, _, hbytes⟩ := hframe
      refine ⟨u, hexec, fun ht => ?_, fun _ => ⟨hframe, hcore⟩, (nomatch ·), hbytes⟩
      rw [Part.th_of_ended (congrArg Core.threads hcore) (by rwa [Core.threads_beat])]
      exact ⟨rfl, rfl, rfl, rfl⟩
    | true =>
      obtain ⟨u, hexec, hbytes, hcore⟩ := exec_end_of_handler h hth
      obtain ⟨-, -, hthreads⟩ := s.part.endHandler_frame c t
      refine ⟨u, hexec, fun ht => ?_, (nomatch ·), fun _ hq hlen => ?_, hbytes⟩
      · rw [Part.th_of_ended (congrArg Core.threads hcore) (by rwa [Core.threads_beat, hthreads])]
        exact ⟨rfl, rfl, rfl, rfl⟩
      · rw [hcore, Core.queue, Core.onTh, Core.queues_beat]
        exact Part.running_endHandler hq hlen

end Sys2Proof.Machine

/-! ## SHOP and ADDA -/

namespace Sys2Proof.Machine
open Sys2Proof

/-- Shape register `i` written. -/
def Core.setSh (i : Nat) (v : W32) (k : Core) : Core := { k with sh := k.sh.set i v }
/-- Pointer register `i` written. -/
def Core.setPtr (i : Nat) (v : W48) (k : Core) : Core := { k with ptrs := k.ptrs.set i v }

@[simp] theorem Core.unitsIdle_setSh (k : Core) (i : Nat) (v : W32) : (k.setSh i v).unitsIdle = k.unitsIdle := rfl
@[simp] theorem Core.unitsIdle_setPtr (k : Core) (i : Nat) (v : W48) : (k.setPtr i v).unitsIdle = k.unitsIdle := rfl

theorem Core.setSh_stepped (k : Core) (t i : Nat) (v : W32) : (k.stepped t).setSh i v = { k.stepped t with sh := k.sh.set i v } := by
  rw [Core.setSh, ← Core.sh_beat k t]
  rfl

theorem Core.setPtr_stepped (k : Core) (t i : Nat) (v : W48) : (k.stepped t).setPtr i v = { k.stepped t with ptrs := k.ptrs.set i v } := by
  rw [Core.setPtr, ← Core.ptrs_beat k t]
  rfl

/-- An operation that issues and does no more than `g` to its core, whose units `g` leaves. -/
theorem State.cueOp_issued_onCore {s : State} {c t op : Nat} {f : Part → Part} {g : Core → Core} (h : s.mayIssue c t op)
    (hf : f s.part = (s.part.issued c t).onCore c g) (hg : ∀ k, (g k).unitsIdle = k.unitsIdle) :
    ∃ u, s.cueOp c t op f = .next u ∧ s.issueFrame u c ∧ u.part.core c = g ((s.part.core c).stepped t) := by
  have hacts : (s.part.counted c).OnlyAt c (f s.part) := hf ▸ (s.part.onlyAt_issued c t).onCore fun hidle => hg _ ▸ hidle
  obtain ⟨u, hexec, hframe, hcore, -⟩ := State.cueOp_onlyAt h hacts
  refine ⟨u, hexec, hframe, hcore.trans ?_⟩
  rw [hf, Part.core_onCore_self]
  exact congrArg g (Part.core_issued_self _ _ _)

/-! ### Values (07 R209 R210) -/

theorem toNat_shopResult_min (x y : W32) : (shopResult 2 x y).toNat = min x.toNat y.toNat := by
  have hlt : y < x ↔ y.toNat < x.toNat := BitVec.lt_def
  simp only [shopResult, hlt]
  split <;> omega

/-- The table of shape register arithmetic (07 R209). -/
theorem shopResult_table (fn : Nat) (x y : W32) :
    (fn = 0 → shopResult fn x y = x + y) ∧ (fn = 1 → shopResult fn x y = x - y) ∧
    (fn = 2 → (shopResult fn x y).toNat = min x.toNat y.toNat) ∧ (fn = 3 → shopResult fn x y = y) ∧
    (fn = 4 → (shopResult fn x y).toNat = x.toNat * 2 ^ y.toNat % 2 ^ 32) ∧ (fn = 5 → (shopResult fn x y).toNat = x.toNat / 2 ^ y.toNat) ∧
    (fn = 6 → shopResult fn x y = x &&& y) ∧ (fn = 7 → (shopResult fn x y).toNat = x.toNat * y.toNat % 2 ^ 32) := by
  refine ⟨?_, ?_, ?_, ?_, ?_, ?_, ?_, ?_⟩ <;> rintro rfl
  · rfl
  · rfl
  · exact toNat_shopResult_min x y
  · rfl
  · exact BitVec.toNat_shiftLeft.trans (congrArg (· % 2 ^ 32) (Nat.shiftLeft_eq _ _))
  · exact (BitVec.toNat_ushiftRight x y.toNat).trans (Nat.shiftRight_eq_div_pow _ _)
  · rfl
  · exact BitVec.toNat_mul x y

/-- The sum of an ADDA modulo 2^48, over the integers. -/
theorem AddaWord.toNat_value (o : AddaWord) (k : Core) : ((o.value k).toNat : Int) =
    ((k.ptrs.getD o.a 0).toNat + (if o.useb then ((k.sh.getD o.b 0).toNat : Int) * 2 ^ o.sh else 0) + (BitVec.ofNat 32 o.imm).toInt) % 2 ^ 48 := by
  have himm : (((BitVec.ofNat 32 o.imm).signExtend 48).toNat : Int) = (BitVec.ofNat 32 o.imm).toInt % 2 ^ 48 := by
    rw [BitVec.signExtend, BitVec.toNat_ofInt, Int.toNat_of_nonneg (Int.emod_nonneg _ (by decide))]
    rfl
  have hz : ((if o.useb then BitVec.ofNat 48 ((k.sh.getD o.b 0).toNat * 2 ^ o.sh) else 0).toNat : Int) =
      (if o.useb then ((k.sh.getD o.b 0).toNat : Int) * 2 ^ o.sh else 0) % 2 ^ 48 := by
    split
    · simp
    · rfl
  rw [AddaWord.value, BitVec.toNat_add, BitVec.toNat_add, Int.natCast_mod, Nat.cast_add, Int.natCast_mod, Nat.cast_add, himm, hz]
  simp only [Nat.cast_pow, Nat.cast_ofNat, Int.emod_add_emod, Int.add_emod_emod]

/-- Settles O2: each operation writes one register of its core (`State.cueOp_issued_onCore`); the values are those of 32-bit and 48-bit
arithmetic. -/
theorem shapeAndPointerArithmetic : Obligations.ShapeAndPointerArithmetic := by
  unfold Obligations.ShapeAndPointerArithmetic
  refine ⟨fun s c t h => ?_, fun s c t h => ?_⟩
  · obtain ⟨u, hexec, hframe, hcore⟩ := State.cueOp_issued_onCore h (f := (·.doShop c t)) (by rfl) fun k => k.unitsIdle_setSh _ _
    rw [Core.setSh_stepped] at hcore
    exact ⟨u, _, hexec, hframe, hcore, shopResult_table _ _ _⟩
  · obtain ⟨u, hexec, hframe, hcore⟩ := State.cueOp_issued_onCore h (f := (·.doAdda c t)) (by rfl) fun k => k.unitsIdle_setPtr _ _
    rw [Core.setPtr_stepped] at hcore
    exact ⟨u, _, hexec, hframe, hcore, AddaWord.toNat_value _ _⟩

end Sys2Proof.Machine

/-! ## WAIT -/

namespace Sys2Proof.Machine
open Sys2Proof

theorem State.mayIssue.lt {s : State} {c t op : Nat} (h : s.mayIssue c t op) : t < 8 := by
  have hissues := h.2
  simp only [Part.issues, Bool.and_eq_true, decide_eq_true_eq] at hissues
  obtain ⟨⟨⟨⟨ht, -⟩, -⟩, -⟩, -⟩ := hissues
  exact ht

theorem State.mayIssue.ready {s : State} {c t op : Nat} (h : s.mayIssue c t op) : (s.part.th c t).st = .ready := by
  have hissues := h.2
  simp only [Part.issues, Bool.and_eq_true, decide_eq_true_eq] at hissues
  obtain ⟨⟨⟨-, hst⟩, -⟩, -⟩ := hissues
  exact hst

/-! ### The tests of waiting threads touch their core alone (11 R332) -/

theorem Part.OnlyAt.testThread {c t : Nat} {p₀ p : Part} (h : p₀.OnlyAt c p) : p₀.OnlyAt c (Part.testThread c t p) := by
  unfold Part.testThread
  dsimp only
  split
  · exact .ite (h.onCore id) h
  · exact .ite h h.onTh
  · exact .ite h h.onTh
  · exact .ite h.onTh h
  · exact .ite h.onTh h
  · refine .ite ?_ h.onTh
    split
    · exact .ite h.onTh h.onTh
    · exact h.onTh
  · exact .ite h (.ite h.onTh (h.onCore fun hidle => by simp [Core.unitsIdle, Core.onTh] at hidle))
  · exact h

theorem Part.OnlyAt.testPlain {c t : Nat} {p₀ p : Part} (h : p₀.OnlyAt c p) : p₀.OnlyAt c (Part.testPlain c t p) := by
  unfold Part.testPlain
  split
  · exact .ite h.onTh h
  · exact h

theorem Part.OnlyAt.settle {c : Nat} {p₀ p : Part} (h : p₀.OnlyAt c p) : p₀.OnlyAt c (p.settle c) :=
  (h.forEach fun _ _ hq => hq.testThread).forEach fun _ _ hq => hq.testPlain

/-! ### One thread waits on a counter -/

/-- A loop in which only the round of `a` does anything is that round. -/
theorem forEach_only {α β : Type} {l : List α} {f : α → β → β} {a : α} {b : β} (hl : l.Nodup) (ha : a ∈ l)
    (hb : ∀ x ∈ l, x ≠ a → f x b = b) (hfb : ∀ x ∈ l, x ≠ a → f x (f a b) = f a b) : forEach l f b = f a b := by
  unfold forEach
  induction l with
  | nil => nomatch ha
  | cons x l ih =>
    obtain ⟨hx, hl⟩ := List.nodup_cons.mp hl
    rw [List.foldl_cons]
    by_cases hxa : x = a
    · subst hxa
      exact forEach_eq_self fun y hy => hfb y (List.mem_cons_of_mem _ hy) (ne_of_mem_of_not_mem hy hx)
    · rw [hb x List.mem_cons_self hxa]
      exact ih hl ((List.mem_cons.mp ha).resolve_left (Ne.symm hxa)) (fun y hy => hb y (List.mem_cons_of_mem _ hy))
        fun y hy => hfb y (List.mem_cons_of_mem _ hy)

/-- No thread but `t` waits or stalls. -/
def Core.alone (k : Core) (t : Nat) : Prop := ∀ j, j < 8 → j ≠ t → (k.th j).on = .nothing

theorem Core.alone.onTh {k : Core} {t : Nat} (h : k.alone t) (f : Thread → Thread) : (k.onTh t f).alone t :=
  fun j hj hjt => by rw [Core.th_onTh_ne k f hjt]; exact h j hj hjt

theorem Core.calm.alone {k : Core} (h : k.calm) (t : Nat) : k.alone t := fun _ hj _ => h.th_on hj

theorem Part.settle_of_alone {p : Part} {c t : Nat} (ht : t < 8) (h : (p.core c).alone t) (h' : ((Part.testThread c t p).core c).alone t)
    (h'' : ((Part.testPlain c t (Part.testThread c t p)).core c).alone t) : p.settle c = Part.testPlain c t (Part.testThread c t p) := by
  have hmem : t ∈ List.range 8 := List.mem_range.mpr ht
  rw [Part.settle,
    forEach_only List.nodup_range hmem (fun j hj hjt => Part.testThread_of_nothing (h j (List.mem_range.mp hj) hjt))
      fun j hj hjt => Part.testThread_of_nothing (h' j (List.mem_range.mp hj) hjt),
    forEach_only List.nodup_range hmem (fun j hj hjt => Part.testPlain_of_nothing (h' j (List.mem_range.mp hj) hjt))
      fun j hj hjt => Part.testPlain_of_nothing (h'' j (List.mem_range.mp hj) hjt)]

/-- The wait of thread `t` on counter `i` ends, and takes the value where it consumes (11 R331). -/
def Core.counterMet (t i : Nat) (v : W16) (consume : Bool) (k : Core) : Core :=
  (if consume then { k with cnt := modAt k.cnt i (· - v.setWidth 32) } else k).onTh t Thread.ready

theorem Core.alone.counterMet {k : Core} {t : Nat} (h : k.alone t) (i : Nat) (v : W16) (consume : Bool) : (k.counterMet t i v consume).alone t := by
  cases consume
  · exact h.onTh Thread.ready
  · exact Core.alone.onTh (k := { k with cnt := modAt k.cnt i (· - v.setWidth 32) }) h Thread.ready

theorem Part.settle_counter {p : Part} {c t i : Nat} {v : W16} {consume : Bool} (ht : t < 8) (hlen : t < (p.core c).threads.length)
    (halone : (p.core c).alone t) (hon : (p.th c t).on = .counter i v consume) :
    p.settle c = if v.toNat ≤ ((p.core c).cnt.getD i 0).toNat then p.onCore c (·.counterMet t i v consume) else p := by
  have hend : ((if v.toNat ≤ ((p.core c).cnt.getD i 0).toNat then p.onCore c (·.counterMet t i v consume) else p).core c).alone t := by
    split
    · rw [Part.core_onCore_self]
      exact halone.counterMet i v consume
    · exact halone
  cases consume with
  | false =>
    have hthread : Part.testThread c t p = p := by simp only [Part.testThread, hon]
    have hplain : Part.testPlain c t p =
        if v.toNat ≤ ((p.core c).cnt.getD i 0).toNat then p.onCore c (·.counterMet t i v false) else p := by
      simp only [Part.testPlain, hon]
      rfl
    rw [Part.settle_of_alone ht halone (by rwa [hthread]) (by rw [hthread, hplain]; exact hend), hthread, hplain]
  | true =>
    have hthread : Part.testThread c t p =
        if v.toNat ≤ ((p.core c).cnt.getD i 0).toNat then p.onCore c (·.counterMet t i v true) else p := by
      simp only [Part.testThread, hon]
      rfl
    have hplain : Part.testPlain c t (Part.testThread c t p) = Part.testThread c t p := by
      rw [hthread]
      split
      · refine Part.testPlain_of_nothing ?_
        rw [Part.th, Part.core_onCore_self]
        exact congrArg Thread.on (Core.th_onTh_self { p.core c with cnt := modAt (p.core c).cnt i (· - v.setWidth 32) } Thread.ready hlen)
      · simp only [Part.testPlain, hon]
    rw [Part.settle_of_alone ht halone (by rw [hthread]; exact hend) (by rw [hplain, hthread]; exact hend), hplain, hthread]

/-! ### WAIT at issue (07 R233) -/

theorem Core.pendingWire_stepped (k : Core) (t sel : Nat) : (k.stepped t).pendingWire sel = k.pendingWire sel := by
  have hwire : (k.stepped t).wire = k.wire := Core.wire_beat k t
  have hxcue : (k.stepped t).xcue = k.xcue := Core.xcue_beat k t
  simp only [Core.pendingWire, hwire, hxcue]

@[simp] theorem Core.unitsIdle_takeWire (k : Core) (sel : Nat) : (k.takeWire sel).unitsIdle = k.unitsIdle := by
  unfold Core.takeWire
  split <;> rfl

/-- The fields of the WAIT at thread `t`'s cue pointer. -/
def Part.waitKind (p : Part) (c t : Nat) : Nat := fld (p.wordAt c t) 56 2
def Part.waitSel (p : Part) (c t : Nat) : Nat := fld (p.wordAt c t) 49 7
def Part.waitTakes (p : Part) (c t : Nat) : Bool := bitOf (p.wordAt c t) 48
def Part.waitValue (p : Part) (c t : Nat) : Nat := fld (p.wordAt c t) 32 16
/-- What its thread waits for where it names a counter. -/
def Part.counterWait (p : Part) (c t : Nat) : Waiting := .counter (p.waitSel c t) (BitVec.ofNat 16 (p.waitValue c t)) (p.waitTakes c t)

theorem Part.doWait_wire {p : Part} {c t : Nat} (h : p.waitKind c t = 0) :
    p.doWait c t = if ((p.issued c t).core c).pendingWire (p.waitSel c t) then (p.issued c t).onCore c (·.takeWire (p.waitSel c t))
      else (p.issued c t).onTh c t (·.await 1 (.wire (p.waitSel c t))) := by
  unfold Part.waitKind at h
  simp only [Part.doWait, h]
  rfl

/-- The thread of a WAIT on a counter before the counter is tested. -/
def Part.waitsOnCounter (p : Part) (c t : Nat) : Part :=
  (p.issued c t).onTh c t (·.await 2 (p.counterWait c t))

theorem Part.doWait_counter {p : Part} {c t : Nat} (h : p.waitKind c t = 1) :
    p.doWait c t = if (p.waitsOnCounter c t).countsDue c then p.waitsOnCounter c t else (p.waitsOnCounter c t).settle c := by
  unfold Part.waitKind at h
  simp only [Part.doWait, h]
  rfl

theorem Part.msgs_issued (p : Part) (c t d q : Nat) : (((p.issued c t).core d).queue q).msgs = ((p.core d).queue q).msgs := by
  by_cases hd : d = c
  · subst hd
    rw [Part.core_issued_self, Core.queue, Core.onTh, Core.queues_beat]
    rfl
  · rw [Part.core_issued_ne p t hd]

theorem Part.doWait_queue {p : Part} {c t : Nat} (h : 2 ≤ p.waitKind c t) :
    p.doWait c t =
      if (((p.issued c t).core (queueHome c (p.waitSel c t)).1).queue (queueHome c (p.waitSel c t)).2).msgs.isEmpty then
        (p.issued c t).onTh c t (·.await 3 (.queue (p.waitSel c t)))
      else p.issued c t := by
  unfold Part.waitKind at h
  obtain ⟨n, hn⟩ := Nat.exists_eq_add_of_le' h
  simp only [Part.doWait, hn]
  rfl

theorem Part.onlyAt_doWait (p : Part) (c t : Nat) : (p.counted c).OnlyAt c (p.doWait c t) := by
  have hissued := p.onlyAt_issued c t
  by_cases h0 : p.waitKind c t = 0
  · rw [Part.doWait_wire h0]
    exact .ite (hissued.onCore fun hidle => by rwa [Core.unitsIdle_takeWire] at hidle) hissued.onTh
  · by_cases h1 : p.waitKind c t = 1
    · rw [Part.doWait_counter h1]
      exact .ite hissued.onTh hissued.onTh.settle
    · rw [Part.doWait_queue (by omega)]
      exact .ite hissued.onTh hissued

/-- What is left of a beat comes after the thread that has just taken its slot. -/
theorem Core.lt_of_mem_due {k : Core} {t j : Nat} (h : j ∈ (k.beat t).due) : t < j := by
  unfold Core.beat at h
  split at h
  · exact of_decide_eq_true (List.mem_filter.mp h).2
  · simp only [List.mem_filter, Bool.and_eq_true, decide_eq_true_eq] at h
    exact h.2.1

theorem Part.wordAt_congr {p q : Part} {c j : Nat} (hmem : q.mem = p.mem) (hth : q.th c j = p.th c j) : q.wordAt c j = p.wordAt c j := by
  simp only [Part.wordAt, Part.cueWord, Part.natAt, Part.bytesAt, hmem, hth]

theorem Part.core_waitsOnCounter (p : Part) (c t : Nat) : (p.waitsOnCounter c t).core c = ((p.core c).beat t).onTh t (fun x => x.advance.await 2
    (p.counterWait c t)) :=
  Part.core_issued_onTh _ _ _ _

theorem Part.countsDue_waitsOnCounter {p : Part} {c t : Nat} (h : ∀ j ∈ ((p.core c).beat t).due, opcode (p.wordAt c j) ∉ [Op.CUE, Op.WAIT]) :
    (p.waitsOnCounter c t).countsDue c = false := by
  have hcore := p.core_waitsOnCounter c t
  rw [Part.countsDue, List.any_eq_false]
  intro j hj
  have hdue : j ∈ ((p.core c).beat t).due := by rwa [hcore] at hj
  have hjt : j ≠ t := (Core.lt_of_mem_due hdue).ne'
  have hth : (p.waitsOnCounter c t).th c j = p.th c j := by
    rw [Part.th, hcore, Core.th_onTh_ne _ _ hjt, Core.th_beat]
    rfl
  have hin : inList [Op.CUE, Op.WAIT] (opcode ((p.waitsOnCounter c t).wordAt c j)) = false := by
    rw [Part.wordAt_congr (p := p) (q := p.waitsOnCounter c t) rfl hth]
    simpa [inList] using h j hdue
  rw [hin, Bool.and_false]
  exact Bool.false_ne_true

/-- The test of the counter on a core where no other thread waits. -/
theorem Part.core_settle_waitsOnCounter {p : Part} {c t : Nat} (ht : t < 8) (hcalm : (p.core c).calm) :
    ((p.waitsOnCounter c t).settle c).core c =
      if p.waitValue c t ≤ ((p.core c).cnt.getD (p.waitSel c t) 0).toNat then
        ((p.waitsOnCounter c t).core c).counterMet t (p.waitSel c t) (BitVec.ofNat 16 (p.waitValue c t)) (p.waitTakes c t)
      else (p.waitsOnCounter c t).core c := by
  have ⟨hlen, _⟩ := hcalm
  have hcore := p.core_waitsOnCounter c t
  have halone : ((p.waitsOnCounter c t).core c).alone t := by
    rw [hcore]
    exact Core.alone.onTh (fun j hj _ => by rw [Core.th_beat]; exact hcalm.th_on hj) _
  have hin : t < ((p.core c).beat t).threads.length := by rw [Core.threads_beat, hlen]; exact ht
  have hon : ((p.waitsOnCounter c t).th c t).on =
      p.counterWait c t := by
    rw [Part.th, hcore, Core.th_onTh_self _ _ hin]
    rfl
  have hcnt : ((p.waitsOnCounter c t).core c).cnt = (p.core c).cnt := by
    rw [hcore]
    exact Core.cnt_beat _ _
  have hvalue : (BitVec.ofNat 16 (p.waitValue c t)).toNat = p.waitValue c t :=
    Nat.mod_eq_of_lt (fld_lt _ _ _)
  rw [Part.settle_counter ht (by rw [hcore, Core.onTh, modAt_length]; exact hin) halone hon, hcnt, hvalue]
  split
  · exact Part.core_onCore_self _ _ _
  · rfl

/-- A WAIT acts on its core alone, whatever it waits for. -/
theorem exec_wait {s : State} {c t : Nat} (h : s.mayIssue c t Op.WAIT) :
    ∃ u, exec (.wait c t) s = .next u ∧ s.issueFrame u c ∧ u.part.core c = (s.part.doWait c t).core c := by
  obtain ⟨u, hexec, hframe, hcore, -⟩ := State.cueOp_onlyAt h (f := (·.doWait c t)) (s.part.onlyAt_doWait c t)
  exact ⟨u, hexec, hframe, hcore⟩

theorem Part.core_doWait_wire {p : Part} {c t : Nat} (h : p.waitKind c t = 0) : (p.doWait c t).core c =
    if (p.core c).pendingWire (p.waitSel c t) then ((p.core c).stepped t).takeWire (p.waitSel c t)
    else ((p.core c).beat t).onTh t (fun x => x.advance.await 1 (.wire (p.waitSel c t))) := by
  have hstepped : (p.issued c t).core c = (p.core c).stepped t := p.core_issued_self c t
  rw [Part.doWait_wire h, hstepped, Core.pendingWire_stepped]
  split
  · rw [Part.core_onCore_self, hstepped]
  · exact Part.core_issued_onTh _ _ _ _

theorem Part.core_doWait_met {p : Part} {c t : Nat} (ht : t < 8) (h : p.waitKind c t = 1) (hcalm : (p.core c).calm)
    (hmet : p.waitValue c t ≤ ((p.core c).cnt.getD (p.waitSel c t) 0).toNat)
    (hdue : ∀ j ∈ ((p.core c).beat t).due, opcode (p.wordAt c j) ∉ [Op.CUE, Op.WAIT]) : (p.doWait c t).core c =
    if p.waitTakes c t then
      { ((p.core c).beat t).onTh t (fun x => x.advance.ready) with
        cnt := modAt (p.core c).cnt (p.waitSel c t) (· - BitVec.ofNat 32 (p.waitValue c t)) }
    else ((p.core c).beat t).onTh t (fun x => x.advance.ready) := by
  have hvalue : (BitVec.ofNat 16 (p.waitValue c t)).setWidth 32 = BitVec.ofNat 32 (p.waitValue c t) :=
    BitVec.setWidth_ofNat_of_le_of_lt (by decide) (fld_lt _ _ _)
  rw [Part.doWait_counter h, Part.countsDue_waitsOnCounter hdue, if_neg Bool.false_ne_true, Part.core_settle_waitsOnCounter ht hcalm, if_pos hmet,
    Part.core_waitsOnCounter, Core.counterMet, hvalue]
  have hcnt : (((p.core c).beat t).onTh t (·.advance.await 2 (p.counterWait c t))).cnt = (p.core c).cnt := Core.cnt_beat _ t
  split
  · rw [hcnt]
    exact Core.onTh_onTh { (p.core c).beat t with cnt := modAt (p.core c).cnt _ _ } t _ _
  · exact Core.onTh_onTh _ t _ _

theorem Part.core_doWait_unmet {p : Part} {c t : Nat} (ht : t < 8) (h : p.waitKind c t = 1) (hcalm : (p.core c).calm)
    (hunmet : ((p.core c).cnt.getD (p.waitSel c t) 0).toNat < p.waitValue c t) : (p.doWait c t).core c =
    ((p.core c).beat t).onTh t (fun x => x.advance.await 2 (p.counterWait c t)) := by
  rw [Part.doWait_counter h]
  split
  · exact p.core_waitsOnCounter c t
  · rw [Part.core_settle_waitsOnCounter ht hcalm, if_neg (Nat.not_le.mpr hunmet), Part.core_waitsOnCounter]

theorem Part.core_doWait_queue {p : Part} {c t : Nat} (h : 2 ≤ p.waitKind c t) : (p.doWait c t).core c =
    if ((p.core (queueHome c (p.waitSel c t)).1).queue (queueHome c (p.waitSel c t)).2).msgs ≠ [] then (p.core c).stepped t
    else ((p.core c).beat t).onTh t (fun x => x.advance.await 3 (.queue (p.waitSel c t))) := by
  rw [Part.doWait_queue h, Part.msgs_issued]
  split
  next hempty => rw [if_neg (not_not.mpr (List.isEmpty_iff.mp hempty)), Part.core_issued_onTh]
  next hmsgs => rw [if_pos (mt List.isEmpty_iff.mpr hmsgs), Part.core_issued_self, Core.stepped]

end Sys2Proof.Machine

/-! ## CUE and CURT -/

namespace Sys2Proof.Machine
open Sys2Proof

/-! ### A firing of a wire (11 R334) -/

/-- Core `k` of a cluster, if the wire's configuration `cfg` names it. -/
def Part.fireOne (cfg cl w k : Nat) (p : Part) : Part := if bitOf cfg k then p.onCore (16 * cl + k) (·.fire w) else p

theorem Part.onlyCores_fireOne (cfg cl w k : Nat) (p : Part) : p.OnlyCores (p.fireOne cfg cl w k) := by
  unfold Part.fireOne
  split
  · exact (OnlyCores.refl p).onCore
  · exact .refl p

theorem Part.core_fireOne_self (cfg cl w k : Nat) (p : Part) :
    (p.fireOne cfg cl w k).core (16 * cl + k) = if bitOf cfg k then (p.core (16 * cl + k)).fire w else p.core (16 * cl + k) := by
  unfold Part.fireOne
  split
  · exact Part.core_onCore_self _ _ _
  · rfl

theorem Part.core_fireOne_ne {cl k d : Nat} (h : d ≠ 16 * cl + k) (cfg w : Nat) (p : Part) : (p.fireOne cfg cl w k).core d = p.core d := by
  unfold Part.fireOne
  split
  · exact Part.core_onCore_ne _ _ h
  · rfl

theorem Part.fireWire_eq (p : Part) (cl w : Nat) : p.fireWire cl w = forEach (List.range 16) (Part.fireOne (p.wireCfg cl w) cl w) p := rfl

theorem Part.onlyCores_fireWire (p : Part) (cl w : Nat) : p.OnlyCores (p.fireWire cl w) :=
  (OnlyCores.refl p).forEach fun k _ q hq => hq.trans (Part.onlyCores_fireOne _ cl w k q)

theorem Part.core_fireWire (p : Part) (cl w d : Nat) : (p.fireWire cl w).core d =
    if clusterOf d = cl ∧ bitOf (p.wireCfg cl w) (d % 16) then (p.core d).fire w else p.core d := by
  rw [Part.fireWire_eq]
  by_cases hcl : clusterOf d = cl
  · have hd : 16 * cl + d % 16 = d := by
      rw [← hcl, clusterOf]
      omega
    have hself := fun q => Part.core_fireOne_self (p.wireCfg cl w) cl w (d % 16) q
    simp only [hd] at hself
    simp only [hcl, true_and]
    exact forEach_once (fun q : Part => q.core d) (fun k => if bitOf (p.wireCfg cl w) (d % 16) then k.fire w else k) List.nodup_range
      (List.mem_range.mpr (Nat.mod_lt d (by decide))) hself (fun k _ hk q => Part.core_fireOne_ne (by omega) _ w q) p
  · rw [if_neg fun h => hcl h.1]
    refine forEach_leaves (fun q : Part => q.core d) (fun k hk q => Part.core_fireOne_ne (fun hd => hcl ?_) _ w q) p
    have hk := List.mem_range.mp hk
    rw [hd, clusterOf]
    omega

/-! ### CUE (07 R234) -/

/-- The fields of the CUE at thread `t`'s cue pointer. -/
def Part.cueKind (p : Part) (c t : Nat) : Nat := fld (p.wordAt c t) 56 2
def Part.cueSel (p : Part) (c t : Nat) : Nat := fld (p.wordAt c t) 50 6
def Part.cueValue (p : Part) (c t : Nat) : Nat := fld (p.wordAt c t) 30 16

/-- The firing that a CUE sends to another cluster, where its wire is so configured (11 R336). -/
def Part.forwards (p : Part) (c sel : Nat) : List Flight :=
  if bitOf (p.wireCfg (clusterOf c) sel) 16 then
    [.fire (400 * (clusterOf c / 400) + fld (p.wireCfg (clusterOf c) sel) 17 9) (fld (p.wireCfg (clusterOf c) sel) 26 6)]
  else []

theorem Part.doCue_fires {p : Part} {c t : Nat} (h : p.cueKind c t = 0) :
    p.doCue c t = { (p.issued c t).fireWire (clusterOf c) (p.cueSel c t) with flight := p.flight ++ p.forwards c (p.cueSel c t) } := by
  have hflight : ((p.issued c t).fireWire (clusterOf c) (p.cueSel c t)).flight = p.flight := by
    obtain ⟨l, hl⟩ := (p.issued c t).onlyCores_fireWire (clusterOf c) (p.cueSel c t)
    rw [hl]
    rfl
  have hdo : p.doCue c t = if bitOf (p.wireCfg (clusterOf c) (p.cueSel c t)) 16 then
      { (p.issued c t).fireWire (clusterOf c) (p.cueSel c t) with
        flight := ((p.issued c t).fireWire (clusterOf c) (p.cueSel c t)).flight ++ [.fire (400 * (clusterOf c / 400) +
          fld (p.wireCfg (clusterOf c) (p.cueSel c t)) 17 9) (fld (p.wireCfg (clusterOf c) (p.cueSel c t)) 26 6)] }
      else (p.issued c t).fireWire (clusterOf c) (p.cueSel c t) := by
    unfold Part.cueKind at h
    simp only [Part.doCue, h]
    rfl
  rw [hdo, Part.forwards]
  split
  · rw [hflight]
  · rw [List.append_nil, ← hflight]

/-- `v` added to counter `i`. -/
def Core.addCnt (i v : Nat) (k : Core) : Core := { k with cnt := k.cnt.set i (k.cnt.getD i 0 + BitVec.ofNat 32 v) }

@[simp] theorem Core.unitsIdle_addCnt (k : Core) (i v : Nat) : (k.addCnt i v).unitsIdle = k.unitsIdle := rfl

theorem Core.addCnt_stepped (k : Core) (t i v : Nat) :
    (k.stepped t).addCnt i v = { k.stepped t with cnt := k.cnt.set i (k.cnt.getD i 0 + BitVec.ofNat 32 v) } := by
  rw [Core.addCnt, ← Core.cnt_beat k t]
  rfl

theorem Core.calm_stepped {k : Core} (h : k.calm) (t : Nat) : (k.stepped t).calm := by
  have ⟨hlen, _⟩ := h
  have hlen' : (k.stepped t).threads.length = 8 := by
    rw [Core.stepped, Core.onTh, modAt_length, Core.threads_beat, hlen]
  refine ⟨hlen', fun th hth => ?_⟩
  obtain ⟨j, hj, rfl⟩ := List.mem_iff_getElem.mp hth
  have hat : (k.stepped t).threads[j] = (k.stepped t).th j := (List.getD_eq_getElem _ _ hj).symm
  rw [hat, Core.stepped, Core.onTh_leaves Thread.on Thread.on_advance, Core.th_beat]
  exact h.th_on (hlen' ▸ hj)

theorem Part.doCue_adds {p : Part} {c t : Nat} (h : p.cueKind c t = 1) (hcalm : (p.core c).calm)
    (hfits : ((p.core c).cnt.getD (p.cueSel c t % 16) 0).toNat + p.cueValue c t < 2 ^ 32) :
    p.doCue c t = (p.issued c t).onCore c (Core.addCnt (p.cueSel c t % 16) (p.cueValue c t)) := by
  have hstepped : (p.issued c t).core c = (p.core c).stepped t := p.core_issued_self c t
  have hcnt : ((p.issued c t).core c).cnt = (p.core c).cnt := by
    rw [hstepped]
    exact Core.cnt_beat _ _
  rw [← hcnt] at hfits
  have hdo : p.doCue c t = if (p.issued c t).countsDue c then (p.issued c t).countUp c (p.cueSel c t % 16) (p.cueValue c t)
      else (p.issued c t).addCounter c (p.cueSel c t % 16) (p.cueValue c t) := by
    unfold Part.cueKind at h
    simp only [Part.doCue, h]
    rfl
  rw [hdo, Part.countUp_of_fits hfits, Part.addCounter_of_calm (hstepped ▸ Core.calm_stepped hcalm t) hfits, ite_self]
  rfl

theorem Part.doCue_sends {p : Part} {c t : Nat} (h : 2 ≤ p.cueKind c t) :
    p.doCue c t = { p.issued c t with
      flight := p.flight ++ [.add (16 * clusterOf c + fld (p.wordAt c t) 46 4) (p.cueSel c t % 16) (BitVec.ofNat 16 (p.cueValue c t))] } := by
  unfold Part.cueKind at h
  obtain ⟨n, hn⟩ := Nat.exists_eq_add_of_le' h
  simp only [Part.doCue, hn]
  rfl

theorem exec_cue_fires {s : State} {c t : Nat} (h : s.mayIssue c t Op.CUE) (hkind : s.part.cueKind c t = 0) :
    ∃ u, exec (.cue c t) s = .next u ∧ s.sameBytes u ∧
      (∀ d, u.part.core d = (fun x => if clusterOf d = clusterOf c ∧ bitOf (s.part.wireCfg (clusterOf c) (s.part.cueSel c t)) (d % 16) then
        x.fire (s.part.cueSel c t) else x) (if d = c then (s.part.core c).stepped t else s.part.core d)) ∧
      u.part.flight = s.part.flight ++ s.part.forwards c (s.part.cueSel c t) := by
  have hcue := Part.doCue_fires hkind
  have hfired := (s.part.issued c t).onlyCores_fireWire (clusterOf c) (s.part.cueSel c t)
  obtain ⟨u, hexec, hu⟩ := State.cueOp_onlyRegs h (f := (·.doCue c t)) (by rw [hcue]; exact hfired.stg)
  refine ⟨u, hexec, fun a => ?_, fun d => ?_, ?_⟩
  · rw [hu.byteAt, hcue]
    exact Part.byteAt_congr hfired.mem a
  · have hissued : (s.part.issued c t).core d = if d = c then (s.part.core c).stepped t else s.part.core d := by
      split
      next hd => rw [hd, Part.core_issued_self, Core.stepped]
      next hd => exact Part.core_issued_ne _ _ hd
    rw [hu.core, hcue, ← hissued]
    exact Part.core_fireWire _ _ _ _
  · obtain ⟨r, hr⟩ := hu
    rw [hr, hcue]

theorem exec_cue_adds {s : State} {c t : Nat} (h : s.mayIssue c t Op.CUE) (hkind : s.part.cueKind c t = 1) (hcalm : (s.part.core c).calm)
    (hfits : ((s.part.core c).cnt.getD (s.part.cueSel c t % 16) 0).toNat + s.part.cueValue c t < 2 ^ 32) :
    ∃ u, exec (.cue c t) s = .next u ∧ s.issueFrame u c ∧
      u.part.core c = ((s.part.core c).stepped t).addCnt (s.part.cueSel c t % 16) (s.part.cueValue c t) :=
  State.cueOp_issued_onCore h (f := (·.doCue c t)) (Part.doCue_adds hkind hcalm hfits) fun k => k.unitsIdle_addCnt _ _

theorem exec_cue_sends {s : State} {c t : Nat} (h : s.mayIssue c t Op.CUE) (hkind : 2 ≤ s.part.cueKind c t) :
    ∃ u, exec (.cue c t) s = .next u ∧ s.sameBytes u ∧ u.part.core c = (s.part.core c).stepped t ∧ u.part.flight = s.part.flight ++
      [.add (16 * clusterOf c + fld (s.part.wordAt c t) 46 4) (s.part.cueSel c t % 16) (BitVec.ofNat 16 (s.part.cueValue c t))] := by
  have hcue := Part.doCue_sends hkind
  obtain ⟨u, hexec, hu⟩ := State.cueOp_onlyRegs h (f := (·.doCue c t)) (by rw [hcue]; rfl)
  refine ⟨u, hexec, fun a => ?_, ?_, ?_⟩
  · rw [hu.byteAt, hcue]
    rfl
  · rw [hu.core, hcue]
    exact Part.core_issued_self _ _ _
  · obtain ⟨r, hr⟩ := hu
    rw [hr, hcue]

/-- A CUE always issues. -/
theorem exec_cue {s : State} {c t : Nat} (h : s.mayIssue c t Op.CUE) : ∃ u, exec (.cue c t) s = .next u :=
  ⟨_, State.live_eq h.1 _⟩

/-! ### CURT (07 R235, 11 R341 R342) -/

@[simp] theorem Core.arrival_setArrival_self (k : Core) (cur : Nat) (a : Arrival) : (k.setArrival cur a).arrival cur = a :=
  Tab.get_put_self _ _ _ _

theorem Part.curtNode_onNode_self (p : Part) (cl cur : Nat) (f : CurtState → CurtState) :
    (p.onNode cl cur f).curtNode cl cur = f (p.curtNode cl cur) := by
  simp [Part.curtNode, Part.onNode, Part.onCluster]

theorem Part.curtNode_congr {p q : Part} (h : q.clusters = p.clusters) (cl cur : Nat) : q.curtNode cl cur = p.curtNode cl cur := by
  simp only [Part.curtNode, Part.cluster, h]

theorem CurtState.mem_arrive (n : CurtState) (x : Nat) : x ∈ (n.arrive x).arrived := by
  unfold CurtState.arrive
  split
  next h => exact List.mem_of_elem_eq_true h
  next => simp

@[simp] theorem CurtState.gen_arrive (n : CurtState) (x : Nat) : (n.arrive x).gen = n.gen := by
  unfold CurtState.arrive
  split <;> rfl

/-- The fields of the CURT at thread `t`'s cue pointer. -/
def Part.curtSel (p : Part) (c t : Nat) : Nat := fld (p.wordAt c t) 54 4
def Part.curtWaits (p : Part) (c t : Nat) : Bool := bitOf (p.wordAt c t) 53

theorem Part.arrival_issued (p : Part) (c t cur : Nat) : ((p.issued c t).core c).arrival cur = (p.core c).arrival cur := by
  rw [Part.core_issued_self, Core.arrival, Core.onTh, Core.arrivals_beat]
  rfl

/-- The arrival of the core, marked at the core and at its cluster's node. -/
def Part.arrived (p : Part) (c cur : Nat) (wait : Bool) : Part :=
  (p.onCore c (·.setArrival cur ⟨true, wait⟩)).onNode (clusterOf c) cur (fun n => n.arrive (c % 16))

/-- The thread of an arrival: it waits for the release if it asked to. -/
def Thread.afterArrival (cur : Nat) (wait : Bool) (th : Thread) : Thread :=
  if wait then th.await 7 (.curtain cur) else if th.st = .wait then th.ready else th

theorem Part.doCurt_again {p : Part} {c t : Nat} (h : ((p.core c).arrival (p.curtSel c t)).pending = true) :
    p.doCurt c t = (p.issued c t).onTh c t (·.await 7 (.rearrive (p.curtSel c t) (p.curtWaits c t))) :=
  if_pos ((congrArg Arrival.pending (p.arrival_issued c t _)).trans h)

theorem Part.doCurt_first {p : Part} {c t : Nat} (h : ((p.core c).arrival (p.curtSel c t)).pending = false) : p.doCurt c t =
    ((p.issued c t).arrived c (p.curtSel c t) (p.curtWaits c t)).onTh c t (Thread.afterArrival (p.curtSel c t) (p.curtWaits c t)) :=
  if_neg (Bool.eq_false_iff.mp ((congrArg Arrival.pending (p.arrival_issued c t _)).trans h))

theorem exec_curt_again {s : State} {c t : Nat} (h : s.mayIssue c t Op.CURT)
    (hpending : ((s.part.core c).arrival (s.part.curtSel c t)).pending = true) : ∃ u, exec (.curt c t) s = .next u ∧ s.issueFrame u c ∧
      u.part.core c = ((s.part.core c).beat t).onTh t (fun x => x.advance.await 7 (.rearrive (s.part.curtSel c t) (s.part.curtWaits c t))) := by
  have hcurt := Part.doCurt_again hpending
  obtain ⟨u, hexec, hframe, hcore, -⟩ := State.cueOp_onlyAt h (f := (·.doCurt c t)) (hcurt ▸ (s.part.onlyAt_issued c t).onTh)
  exact ⟨u, hexec, hframe, hcore.trans (hcurt ▸ Part.core_issued_onTh _ _ _ _)⟩

theorem Part.core_arrived_onTh (p : Part) (c t cur : Nat) (wait : Bool) (f : Thread → Thread) :
    (((p.issued c t).arrived c cur wait).onTh c t f).core c = (((p.core c).stepped t).setArrival cur ⟨true, wait⟩).onTh t f := by
  have harrived : ((p.issued c t).arrived c cur wait).core c = ((p.core c).stepped t).setArrival cur ⟨true, wait⟩ :=
    ((p.issued c t).core_onCore_self c (·.setArrival cur ⟨true, wait⟩)).trans
      (congrArg (·.setArrival cur ⟨true, wait⟩) (p.core_issued_self c t))
  rw [Part.core_onTh_self, harrived]

theorem exec_curt_first {s : State} {c t : Nat} (h : s.mayIssue c t Op.CURT)
    (hpending : ((s.part.core c).arrival (s.part.curtSel c t)).pending = false) : ∃ u, exec (.curt c t) s = .next u ∧ s.sameBytes u ∧
      u.part.core c = (((s.part.core c).stepped t).setArrival (s.part.curtSel c t) ⟨true, s.part.curtWaits c t⟩).onTh t
        (Thread.afterArrival (s.part.curtSel c t) (s.part.curtWaits c t)) ∧
      u.part.curtNode (clusterOf c) (s.part.curtSel c t) = (s.part.curtNode (clusterOf c) (s.part.curtSel c t)).arrive (c % 16) := by
  have hcurt := Part.doCurt_first hpending
  obtain ⟨u, hexec, hu⟩ := State.cueOp_onlyRegs h (f := (·.doCurt c t)) (by rw [hcurt]; rfl)
  refine ⟨u, hexec, fun a => ?_, ?_, ?_⟩
  · rw [hu.byteAt, hcurt]
    rfl
  · rw [hu.core, hcurt]
    exact Part.core_arrived_onTh _ _ _ _ _ _
  · have hclusters : u.part.clusters = ((s.part.issued c t).arrived c (s.part.curtSel c t) (s.part.curtWaits c t)).clusters := by
      obtain ⟨r, hr⟩ := hu
      rw [hr, hcurt]
      rfl
    rw [Part.curtNode_congr hclusters]
    exact Part.curtNode_onNode_self _ _ _ _

/-- The thread of a CURT that arrives was READY, so that without `wait` it only moves on. -/
theorem Core.threads_afterArrival {k : Core} {t : Nat} (h : (k.th t).st = .ready) (cur : Nat) (wait : Bool) (a : Arrival) :
    (((k.stepped t).setArrival cur a).onTh t (Thread.afterArrival cur wait)).threads =
      ((k.beat t).onTh t (fun x => if wait then x.advance.await 7 (.curtain cur) else x.advance)).threads := by
  have hcore : (((k.stepped t).setArrival cur a).onTh t (Thread.afterArrival cur wait)).threads =
      ((k.stepped t).onTh t (Thread.afterArrival cur wait)).threads := rfl
  rw [hcore, Core.stepped, Core.onTh_onTh]
  refine congrArg Core.threads (Core.onTh_congr _ _ ?_)
  have hst : ((k.beat t).th t).advance.st ≠ .wait := by
    rw [Core.th_beat]
    exact fun hwait => nomatch h.symm.trans hwait
  rw [Thread.afterArrival, if_neg hst]

/-- Settles O3: a WAIT does what its kind says to its core (`exec_wait`), a CUE fires, adds or sends (`exec_cue_fires`, `exec_cue_adds`,
`exec_cue_sends`), a CURT arrives or waits to arrive again (`exec_curt_first`, `exec_curt_again`). -/
theorem waitsCuesAndCurtainsIssue : Obligations.WaitsCuesAndCurtainsIssue := by
  unfold Obligations.WaitsCuesAndCurtainsIssue
  refine ⟨fun s c t h => ?_, fun s c t h => ?_, fun s c t h => ?_⟩
  · obtain ⟨u, hexec, hframe, hcore⟩ := exec_wait h
    exact ⟨u, hexec, hframe, fun hkind => hcore.trans (Part.core_doWait_wire hkind),
      fun hkind hcalm => ⟨fun hmet hdue => hcore.trans (Part.core_doWait_met h.lt hkind hcalm hmet hdue),
        fun hunmet => hcore.trans (Part.core_doWait_unmet h.lt hkind hcalm hunmet)⟩,
      fun hkind => hcore.trans (Part.core_doWait_queue hkind)⟩
  · by_cases hfires : s.part.cueKind c t = 0
    · obtain ⟨u, hexec, hfired⟩ := exec_cue_fires h hfires
      have hadds : s.part.cueKind c t ≠ 1 := by omega
      have hsends : ¬ 2 ≤ s.part.cueKind c t := by omega
      exact ⟨u, hexec, fun _ => hfired, fun hkind => absurd hkind hadds, fun hkind => absurd hkind hsends⟩
    · by_cases hadds : s.part.cueKind c t = 1
      · have hsends : ¬ 2 ≤ s.part.cueKind c t := by omega
        by_cases hgood : (s.part.core c).calm ∧ ((s.part.core c).cnt.getD (s.part.cueSel c t % 16) 0).toNat + s.part.cueValue c t < 2 ^ 32
        · obtain ⟨u, hexec, hframe, hcore⟩ := exec_cue_adds h hadds hgood.1 hgood.2
          rw [Core.addCnt_stepped] at hcore
          exact ⟨u, hexec, fun hkind => absurd hkind hfires, fun _ _ _ => ⟨hframe, hcore⟩, fun hkind => absurd hkind hsends⟩
        · obtain ⟨u, hexec⟩ := exec_cue h
          exact ⟨u, hexec, fun hkind => absurd hkind hfires, fun _ hcalm hfits => absurd ⟨hcalm, hfits⟩ hgood,
            fun hkind => absurd hkind hsends⟩
      · obtain ⟨u, hexec, hsent⟩ := exec_cue_sends h (by omega)
        exact ⟨u, hexec, fun hkind => absurd hkind hfires, fun hkind => absurd hkind hadds, fun _ => hsent⟩
  · cases hpending : ((s.part.core c).arrival (s.part.curtSel c t)).pending with
    | true =>
      obtain ⟨u, hexec, hframe, hcore⟩ := exec_curt_again h hpending
      have ⟨_, _, _, _, _, hbytes⟩ := hframe
      exact ⟨u, hexec, hbytes, (if_pos hpending).mpr ⟨hframe, hcore⟩⟩
    | false =>
      obtain ⟨u, hexec, hbytes, hcore, hnode⟩ := exec_curt_first h hpending
      refine ⟨u, hexec, hbytes, (if_neg (Bool.eq_false_iff.mp hpending)).mpr ⟨?_, ?_, ?_, ?_⟩⟩
      · rw [hcore]
        exact Core.arrival_setArrival_self _ _ _
      · exact hnode ▸ CurtState.mem_arrive _ _
      · exact (congrArg CurtState.gen hnode).trans (CurtState.gen_arrive _ _)
      · rw [hcore]
        exact Core.threads_afterArrival h.ready _ _ _

end Sys2Proof.Machine

/-! ## A cached load whose name an operation in the queue already has -/

namespace Sys2Proof.Machine
open Sys2Proof

/-- A move of one row that is queued under the name that the next operation of the part takes. -/
def clashMove : MoveOp :=
  { uid := (Tests.ldrS true false).part.uid, thread := 1, what := .mov 0 1 1, done := 0, sync := false, looked := false, data := [], since := none }

/-- The state of the test of a cached load, with that move in the queue. -/
def clashState : State := Tests.st ((Tests.ldrS true false).part.onCore 0 (fun k => { k with moveq := [clashMove] }))

theorem clashState_mayIssue : clashState.mayIssue 0 0 Op.LDR := ⟨rfl, by decide +kernel⟩

/-- The word of the load, and the address that it gives (07 R213). -/
theorem clashState_load : ldrWord (clashState.part.wordAt 0 0) = Tests.ldrW true false ∧
    (Tests.ldrW true false).addr ((clashState.part.core 0).asOf 0) (clashState.part.th 0 0) = 512 * 16 := by decide +kernel

theorem clashState_allowed : Tests.allowedS clashState := by
  unfold Tests.allowedS
  decide +kernel

theorem clashState_moveq : (clashState.part.core 0).moveq.map (·.looked) = [false] ∧ (clashState.part.core 0).invalidating = false := by
  decide +kernel

/-- After the lookup the move is marked in place of the load. -/
theorem clashState_doLdr : (((clashState.part.issue 0 0 Op.LDR (·.doLdr 0 0)).core 0).moveq).map (·.looked) = [true, false] := by
  decide +kernel

theorem clashState_looked {u : State} (h : exec (.ldr 0 0) clashState = .next u) : (u.part.core 0).moveq.map (·.looked) = [true, false] := by
  have hexec : exec (.ldr 0 0) clashState = .next (clashState.act (·.onTheCore 0 (·.issue 0 0 Op.LDR (·.doLdr 0 0)))) := State.live_eq rfl _
  obtain rfl : _ = u := Host.Outcome.next.inj (hexec.symm.trans h)
  rw [State.act_part, (clashState.part.onlyRegs_onTheCore 0 _).core]
  exact clashState_doLdr

/-- Refutes O4: its clause on cached loads does not ask that the name which the load takes is new. In `clashState` a queued move has it already, and
that move, the first of the queue with the name, is shown as looked up instead of the load. -/
theorem not_rowMovesJoinTheQueue : ¬ Obligations.RowMovesJoinTheQueue := by
  unfold Obligations.RowMovesJoinTheQueue
  intro h
  obtain ⟨hloads, -, -⟩ := h
  obtain ⟨hword, haddr⟩ := clashState_load
  obtain ⟨hroom, hplace, hrows⟩ := clashState_allowed
  obtain ⟨hmoveq, hinvalidating⟩ := clashState_moveq
  rw [← hword] at haddr
  have halign : (ldrWord (clashState.part.wordAt 0 0)).addr ((clashState.part.core 0).asOf 0) (clashState.part.th 0 0) % 512 = 0 := by rw [haddr]
  obtain ⟨hldr, -⟩ := hloads clashState 0 0 hroom (hword ▸ hplace) halign fun i hi => by
    have hhome := congrArg (fun a => clashState.part.homeAt (a + 512 * i)) haddr
    dsimp only [LdrWord.addr, Core.ptr] at hhome
    rw [hword] at hi
    rw [hhome, hword]
    exact (hrows i hi).1
  obtain ⟨u, hexec, -, hcached⟩ := hldr clashState_mayIssue
  obtain ⟨-, -, hjoined⟩ := hcached (congrArg LdrWord.cached hword) hinvalidating
  have hlooked := clashState_looked hexec
  rw [hjoined, List.map_append, hmoveq] at hlooked
  exact absurd hlooked (by decide)

end Sys2Proof.Machine

/-! ## Messages, credits and the watchdog of the channels -/

namespace Sys2Proof.Machine
open Sys2Proof

/-! ### A message joins its queue (09 R278 R279) -/

theorem Core.queue_onQueue_ne (k : Core) {q j : Nat} (f : ChQueue → ChQueue) (h : j ≠ q) : (k.onQueue q f).queue j = k.queue j := by
  simp [Core.queue, Core.onQueue, modAt, h.symm]

theorem Part.regN_bump32_self (p : Part) (o n : Nat) : (p.bump32 o n).regN o = (p.regN o + n) % 2 ^ 32 :=
  p.regN_setRegN_self o _ ((Nat.mod_lt _ (Nat.two_pow_pos 32)).trans (by decide))

/-- The message `m` at the tail. -/
def ChQueue.join (m : Msg) (y : ChQueue) : ChQueue := { y with msgs := y.msgs ++ [m] }

/-- Message `m` has left the network for queue `q` of core `c` and is counted; the threads that wait for it are still to be tested. -/
def Part.received (p : Part) (c q : Nat) (m : Msg) : Part :=
  ({ p with flight := dropFirst (isMsgTo c q (p.beatOf (dieOf c))) p.flight }.onCore c (·.onQueue q (ChQueue.join m))).bump32
    (cluReg Reg.CLU_CH_RX (clusterOf c) [16 * (c % 16) + q]) 1

theorem Part.arriveMsg_of_room {p : Part} {c q k i : Nat} {m : Msg} {due : Option Nat}
    (hfind : p.flight.find? (isMsgTo c q (p.beatOf (dieOf c))) = some (.msg k i m due)) (hreader : p.readerState c = 1)
    (hepoch : m.epoch = ((p.core c).queue q).epoch) (hroom : ((p.core c).queue q).msgs.length < 8) :
    p.arriveMsg c q = (p.received c q m).settle (p.issuer c) := by
  have hlive : ¬ 2 ≤ p.readerState c := by omega
  simp only [Part.arriveMsg, hfind, if_neg hlive, if_neg (not_not_intro hepoch), if_neg (Nat.not_le.mpr hroom)]
  rfl

theorem exec_messageArrive_of_room {s : State} (hready : s.part.phase = .ready) {c q k i : Nat} {m : Msg} {due : Option Nat}
    (hfind : s.part.flight.find? (isMsgTo c q (s.part.beatOf (dieOf c))) = some (.msg k i m due)) (hreader : s.part.readerState c = 1)
    (hepoch : m.epoch = ((s.part.core c).queue q).epoch) (hroom : ((s.part.core c).queue q).msgs.length < 8) :
    exec (.messageArrive c q) s = .next (s.rested (s.part.issuer c) ((s.part.received c q m).settle (s.part.issuer c))) := by
  have hexec : exec (.messageArrive c q) s = .next (s.act fun p => p.onTheCore (p.issuer c) (·.arriveMsg c q)) := State.live_eq hready _
  rw [hexec]
  simp only [State.act, State.rested, Part.onTheCore, Part.resting, Part.arriveMsg_of_room hfind hreader hepoch hroom]

theorem Part.core_received_self (p : Part) (c q : Nat) (m : Msg) : (p.received c q m).core c = (p.core c).onQueue q (ChQueue.join m) := by
  rw [Part.received, Part.bump32, Part.setRegN, Part.core_setReg, Part.core_onCore_self]
  rfl

theorem Part.core_received_ne (p : Part) {c d : Nat} (q : Nat) (m : Msg) (h : d ≠ c) : (p.received c q m).core d = p.core d := by
  rw [Part.received, Part.bump32, Part.setRegN, Part.core_setReg, Part.core_onCore_ne _ _ h]
  rfl

/-! ### A credit comes back (09 R278 R281) -/

theorem Core.onRoute_leaves {γ : Type} (g : Route → γ) {f : Route → Route} (hf : ∀ x, g (f x) = g x) (k : Core) (r j : Nat) :
    g ((k.onRoute r f).route j) = g (k.route j) := by
  simp only [Core.route, Core.onRoute, modAt, List.getD_eq_getElem?_getD, List.getElem?_modify]
  cases k.routes[j]? with
  | none => rfl
  | some x => by_cases h : r = j <;> simp [h, hf]

theorem Core.route_onRoute_self (k : Core) {r : Nat} (f : Route → Route) (h : r < k.routes.length) :
    (k.onRoute r f).route r = f (k.route r) := by
  simp [Core.route, Core.onRoute, modAt, h]

/-- One credit more, of at most 8. -/
def Route.credited (x : Route) : Route := { x with credits := min 8 (x.credits + 1) }

/-- A credit has come back to route `r` of core `c`; nothing has gone on with it yet. -/
def Part.credited (p : Part) (c r : Nat) : Part := { p with flight := dropFirst (isCreditOf c r) p.flight }.onRoute c r Route.credited

theorem Part.creditBack_of_credit {p : Part} {c r : Nat} (hcredit : p.flight.any (isCreditOf c r) = true)
    (hdark : p.heldDark (clusterOf c) = false) : p.creditBack c r = (p.credited c r).pumpRoute c r 24 := by
  simp only [Part.creditBack, hcredit, hdark, if_true, Bool.false_eq_true, if_false]
  rfl

theorem exec_creditReturn_of_credit {s : State} (hready : s.part.phase = .ready) {c r : Nat} (hcredit : s.part.flight.any (isCreditOf c r) = true)
    (hdark : s.part.heldDark (clusterOf c) = false) :
    exec (.creditReturn c r) s = .next (s.after c (s.part.credited c r) fun p => (p.pumpRoute c r 24).unstall c) :=
  State.coreCmd_eq_after hready (f := fun q => (q.creditBack c r).unstall c) (by rw [Part.creditBack_of_credit hcredit hdark])

theorem Part.core_credited_self (p : Part) (c r : Nat) : (p.credited c r).core c = (p.core c).onRoute r Route.credited :=
  Part.core_onCore_self _ _ _

/-- A route with an empty ring for which no SEND is held has nothing to send (09 R281). -/
theorem Part.pumpRoute_of_idle {p : Part} {c r : Nat} (hring : ((p.core c).route r).ring = [])
    (hsend : ∀ m ∈ (p.core c).moving, ∀ x y w, m.what ≠ .send x y r w) (n : Nat) : p.pumpRoute c r n = p := by
  cases n with
  | zero => rfl
  | succ n =>
    simp only [Part.pumpRoute, Part.route, hring]
    split
    · rename_i m hfind
      have hr := List.find?_some hfind
      split at hr
      · rename_i x y r' w hwhat
        exact absurd (eq_of_beq hr ▸ hwhat) (hsend m (List.mem_of_find?_eq_some hfind) x y w)
      · exact absurd hr Bool.false_ne_true
    · rfl

/-! ### The watchdog (09 R283, 12 R355) -/

/-- The watchdog of a route has run out. -/
def Route.bitten (x : Route) : Route := { x with wdog := true }

/-- The one SEND for which a thread is blocked names the route whose watchdog has run out. -/
theorem Part.expired_of_blocked {p : Part} {c t r pl sl : Nat} {w : Bool} {m : MoveOp} {b : W64} (hm : m ∈ (p.core c).moving)
    (hwhat : m.what = .send pl sl r w) (hthread : m.thread = t) (hsince : m.since = some b)
    (hone : ∀ x ∈ (p.core c).moving, x.thread = t → x.since.isSome = true → x = m)
    (hlate : watchdogNs (p.routeWord c r) < (p.tim.interval - b).toNat) : p.expired c t = some r := by
  cases h : p.expired c t with
  | none =>
    have hnone := List.findSome?_eq_none_iff.mp h m hm
    simp only [hwhat, hsince, if_pos (And.intro hthread hlate), reduceCtorEq] at hnone
  | some r' =>
    obtain ⟨x, hx, hr⟩ := List.exists_of_findSome?_eq_some h
    split at hr
    · rename_i pl' sl' y w' b' hwhat' hsince'
      obtain ⟨⟨hthread', -⟩, rfl⟩ : (x.thread = t ∧ _) ∧ y = r' := by simpa using hr
      obtain rfl := hone x hx hthread' (by rw [hsince']; rfl)
      obtain ⟨-, -, rfl, -⟩ := Move.send.inj (hwhat'.symm.trans hwhat)
      rfl
    · exact absurd hr (by simp)

theorem exec_channelWatchdog_of_expired {s : State} (hready : s.part.phase = .ready) {c t r : Nat} (h : s.part.expired c t = some r) :
    exec (.channelWatchdog c t) s = .next (s.after c (s.part.onRoute c r Route.bitten) (·.raiseCore c 0x0072 r 0 0 none)) :=
  State.coreCmd_eq_after hready (f := fun q => q.watchdog c t) (by simp only [Part.watchdog, h]; rfl)

/-- Settles O21: each event is said once for its condition, and its effect before the tests and the moves that follow is read field by field. -/
theorem channelEvents : Obligations.ChannelEvents := by
  unfold Obligations.ChannelEvents
  intro s c q hready
  refine ⟨fun m due hfind hreader hepoch hroom hq => ?_, fun hcredit hdark => ?_, fun t m b pl sl w hm hwhat hthread hsince hone hlate hq => ?_⟩
  · have hcore := s.part.core_received_self c q m
    refine ⟨{ s with part := s.part.received c q m }, exec_messageArrive_of_room hready hfind hreader hepoch hroom, rfl, fun _ => rfl,
      fun d hd => ?others, fun o ho => ?regs, Part.regN_bump32_self _ _ _, ?tail, fun j hj => ?queues⟩
    case others => exact s.part.core_received_ne q m (List.ne_of_not_mem_cons hd)
    case regs => exact Part.reg_setReg_ne _ _ (List.ne_of_not_mem_cons ho)
    case tail => rw [hcore, Core.queue_onQueue_self _ _ hq]; rfl
    case queues => rw [hcore, Core.queue_onQueue_ne _ _ hj]
  · have hcore := s.part.core_credited_self c q
    refine ⟨{ s with part := s.part.credited c q }, exec_creditReturn_of_credit hready hcredit hdark, rfl, fun _ => rfl,
      fun d hd => Part.core_onCore_ne _ _ (List.ne_of_not_mem_cons hd), fun _ _ => rfl, hcore, fun hring hsend => ?_⟩
    refine Part.pumpRoute_of_idle ?_ (by rw [hcore]; exact hsend) 24
    rw [hcore, Core.onRoute_leaves Route.ring (f := Route.credited) (fun _ => rfl), hring]
  · have hcore : (s.part.onRoute c q Route.bitten).core c = (s.part.core c).onRoute q Route.bitten := Part.core_onCore_self _ _ _
    refine ⟨{ s with part := s.part.onRoute c q Route.bitten },
      exec_channelWatchdog_of_expired hready (Part.expired_of_blocked hm hwhat hthread hsince hone hlate), fun _ => rfl,
      fun d hd => Part.core_onCore_ne _ _ (List.ne_of_not_mem_cons hd), fun _ _ => rfl, hcore, ?_⟩
    rw [hcore, Core.route_onRoute_self _ _ hq]
    rfl

end Sys2Proof.Machine

/-! ## The beats of the traverse network -/

namespace Sys2Proof.Machine
open Sys2Proof

/-! ### A beat (09 R258 R260) -/

theorem State.beat_of_ready {s : State} (hready : s.part.phase = .ready) {d : Nat} (hd : d < 4) {house : Bool}
    (hhouse : (s.part.beatOf d % 32 == 31) = house) (f : Part → Part) : s.beat d house f = .next (s.beaten d (f s.part)) := by
  have hclocked : s.part.clocked = true := by simp only [Part.clocked, hready]
  simp [State.beat, State.act, State.beaten, hready, hhouse, hclocked, Nat.not_le.mpr hd]

/-- Nothing lands where no movement and no message has come to its beat. -/
theorem Part.landings_of_still {p : Part} {d : Nat} (hnet : ∀ h ∈ p.net, h.die = d → h.due ≠ p.beatOf d) (hmsgs : p.msgsDue d = []) :
    p.landings d = p := by
  have hdue : ∀ h ∈ p.net, (h.die == d && h.due == p.beatOf d) = false := fun h hh => by simpa using hnet h hh
  have hnone : p.net.filter (fun h => h.die == d && h.due == p.beatOf d) = [] :=
    List.filter_eq_nil_iff.mpr fun h hh => by simp [hdue h hh]
  have hall : p.net.filter (fun h => !(h.die == d && h.due == p.beatOf d)) = p.net :=
    List.filter_eq_self.mpr fun h hh => by simp [hdue h hh]
  simp only [Part.landings, hnone, hall, List.filter_nil, List.append_nil, forEach, List.foldl_nil, hmsgs]

/-! ### The entries of a cue sheet slot (09 R263) -/

theorem Part.traverseBeat_of_empty {p : Part} {d : Nat} (hstill : p.landings d = p) (hentries : p.slotEntries d = []) :
    p.traverseBeat d = p := by
  simp [Part.traverseBeat, hstill, hentries, forEach]

/-- One entry that is no merged request is all that the beat carries. -/
theorem Part.traverseBeat_of_single {p : Part} {d cl : Nat} {e : SheetEntry} (hstill : p.landings d = p) (hentry : p.slotEntries d = [(cl, e)])
    (hmerge : (e.kind == 0 && e.merge) = false) : p.traverseBeat d = p.carryEntry cl e := by
  simp [Part.traverseBeat, hstill, hentry, hmerge, forEach]

/-- An entry names one of the 16 cores of its cluster. -/
theorem Part.core_lt_of_slotEntries {p : Part} {d cl : Nat} {e : SheetEntry} (h : (cl, e) ∈ p.slotEntries d) : e.core < 16 := by
  obtain ⟨k, -, hk⟩ := List.mem_flatMap.mp h
  dsimp only at hk
  split at hk
  · exact absurd hk List.not_mem_nil
  · obtain ⟨x, hx, hxe⟩ := List.mem_map.mp hk
    obtain ⟨-, rfl⟩ := Prod.mk.inj hxe
    obtain ⟨i, -, rfl⟩ := List.mem_map.mp (List.mem_filter.mp hx).1
    exact fld_lt _ 16 4

/-! ### Messages leave (09 R265) -/

/-- Messages have left for their queues, so that `fl` is what is under way; one half-row is counted when any has left. -/
def Part.messagesLeft (p : Part) (cl : Nat) (fl : List Flight) : Part := if fl = p.flight then p else { p with flight := fl }.countSent cl 1

theorem Part.carryEntry_messages {p : Part} {cl : Nat} {e : SheetEntry} (hkind : e.kind = 2) (hunit : e.unit = 2) :
    p.carryEntry cl e =
      p.messagesLeft cl (leaveMsgs (16 * cl + e.core) (400 * (cl / 400) + e.peer) (p.beatOf (cl / 400)) 4 p.flight) := by
  simp only [Part.carryEntry, hkind, hunit, Part.messagesLeft]

theorem Part.reg_countSent_self (p : Part) (cl : Nat) :
    (p.countSent cl 1).reg (cluReg Reg.CLU_TRV_SENT cl []) = p.reg (cluReg Reg.CLU_TRV_SENT cl []) + 1 := Part.reg_setReg_self _ _ _

theorem Part.reg_countSent_ne (p : Part) {cl o : Nat} (n : Nat) (h : o ≠ cluReg Reg.CLU_TRV_SENT cl []) : (p.countSent cl n).reg o = p.reg o :=
  Part.reg_setReg_ne _ _ h

theorem Part.messagesLeft_facts (p : Part) (cl : Nat) (fl : List Flight) :
    p.SameStore (p.messagesLeft cl fl) ∧ (∀ o, o ≠ cluReg Reg.CLU_TRV_SENT cl [] → (p.messagesLeft cl fl).reg o = p.reg o) ∧
    (p.messagesLeft cl fl).flight = fl ∧ (p.messagesLeft cl fl).reg (cluReg Reg.CLU_TRV_SENT cl []) =
      if fl = p.flight then p.reg (cluReg Reg.CLU_TRV_SENT cl []) else p.reg (cluReg Reg.CLU_TRV_SENT cl []) + 1 := by
  unfold Part.messagesLeft
  split
  case isTrue h => exact ⟨.refl p, fun _ _ => rfl, h.symm, rfl⟩
  case isFalse => exact ⟨⟨rfl, rfl⟩, fun o ho => Part.reg_countSent_ne _ _ ho, rfl, Part.reg_countSent_self _ _⟩

/-! ### Half-rows leave (09 R260 R264) -/

/-- A half-row of a request has left. -/
def Req.movedOn (x : Req) : Req := { x with moved := x.moved + 1 }

/-- The way from core `core` to cluster `peer` leaves the leaf of its cluster. -/
def isFar (core peer : Nat) : Bool := !sameLeaf (clusterOf core % 400) (peer % 400)

/-- The read of request `r` of core `core` has gone to cluster `peer`. -/
def Part.readSent (p : Part) (core peer : Nat) (r : Req) (a : Nat) : Part :=
  (p.onReq r Req.movedOn).addMove ⟨dieOf core, p.beatOf (dieOf core) + (if isFar core peer then 3 else 2), .serve, r.uid, r.idx, peer,
    isFar core peer, a, r.moved == 1, true, []⟩

/-- A half-row that request `r` of core `core` writes has gone to cluster `peer`, counted at the port of cluster `cl`. -/
def Part.writeSent (p : Part) (cl core peer : Nat) (r : Req) (a : Nat) : Part :=
  ((p.countSent cl 1).onReq r Req.movedOn).addMove ⟨dieOf core, p.beatOf (dieOf core) + (if isFar core peer then 6 else 4), .write, r.uid,
    r.idx, peer, isFar core peer, a, r.moved == 1, false, r.row⟩

theorem Part.core_of_nextRead {p : Part} {core unit peer : Nat} {r : Req} (h : p.nextRead core unit peer = some r) : r.core = core := by
  have hr := List.find?_some h
  simp only [Bool.and_eq_true, beq_iff_eq, and_assoc] at hr
  exact hr.1

theorem Part.core_of_nextWrite {p : Part} {core unit peer : Nat} {r : Req} (h : p.nextWrite core unit peer = some r) : r.core = core := by
  have hr := List.find?_some h
  simp only [Bool.and_eq_true, beq_iff_eq, and_assoc] at hr
  exact hr.1

theorem serveDelay_eq (core peer : Nat) : serveDelay (clusterOf core % 400) (peer % 400) = if isFar core peer then 3 else 2 := by
  unfold serveDelay isFar
  cases sameLeaf (clusterOf core % 400) (peer % 400) <;> rfl

theorem Part.sendRead_eq {p : Part} {r : Req} {peer a : Nat} (hsrc : r.src = some a) :
    p.sendRead r peer true = p.readSent r.core peer r a := by
  simp only [Part.sendRead, hsrc, serveDelay_eq]
  rfl

theorem Part.sendWrite_eq {p : Part} {r : Req} {peer a : Nat} (hdst : r.dst = some a) :
    p.sendWrite r peer = p.writeSent (clusterOf r.core) r.core peer r a := by
  simp only [Part.sendWrite, hdst]
  rfl

theorem Part.carryEntry_read {p : Part} {cl a : Nat} {e : SheetEntry} {r : Req} (hkind : e.kind = 0) (hunit : e.unit < 2)
    (hmerge : e.merge = false) (hnext : p.nextRead (16 * cl + e.core) e.unit (400 * (cl / 400) + e.peer) = some r) (hsrc : r.src = some a) :
    p.carryEntry cl e = p.readSent (16 * cl + e.core) (400 * (cl / 400) + e.peer) r a := by
  rw [← Part.core_of_nextRead hnext, ← Part.sendRead_eq hsrc]
  have hunits : e.unit = 0 ∨ e.unit = 1 := by omega
  rcases hunits with hu | hu <;>
  · rw [hu] at hnext
    simp only [Part.carryEntry, hkind, hu, hmerge, Bool.false_eq_true, if_false, hnext]

theorem Part.carryEntry_write {p : Part} {cl a : Nat} {e : SheetEntry} {r : Req} (hkind : e.kind = 2) (hunit : e.unit < 2)
    (hcore : e.core < 16) (hnext : p.nextWrite (16 * cl + e.core) e.unit (400 * (cl / 400) + e.peer) = some r) (hdst : r.dst = some a) :
    p.carryEntry cl e = p.writeSent cl (16 * cl + e.core) (400 * (cl / 400) + e.peer) r a := by
  have hcl : clusterOf r.core = cl := by rw [Part.core_of_nextWrite hnext, clusterOf]; omega
  have hsend := Part.sendWrite_eq (p := p) (peer := 400 * (cl / 400) + e.peer) hdst
  rw [hcl, Part.core_of_nextWrite hnext] at hsend
  rw [← hsend]
  have hunits : e.unit = 0 ∨ e.unit = 1 := by omega
  rcases hunits with hu | hu <;>
  · rw [hu] at hnext
    simp only [Part.carryEntry, hkind, hu, hnext]

/-! ### The beat as a command (09 R258) -/

theorem exec_cueSheetSlot_of_ready {s : State} (hready : s.part.phase = .ready) {d : Nat} (hd : d < 4) (hbeat : s.part.beatOf d % 32 ≠ 31) :
    exec (.cueSheetSlot d) s = .next (s.beaten d (s.part.traverseBeat d)) :=
  State.beat_of_ready hready hd (beq_eq_false_iff_ne.mpr hbeat) _

theorem exec_houseSlot_of_ready {s : State} (hready : s.part.phase = .ready) {d : Nat} (hd : d < 4) (hbeat : s.part.beatOf d % 32 = 31)
    (x : Scrub) (i : Nat) : exec (.houseSlot d x i) s = .next (s.beaten d (s.part.houseBeat d x i)) :=
  State.beat_of_ready hready hd (beq_iff_eq.mpr hbeat) _

/-! ### The house slot (09 R291, 15 R477) -/

theorem Part.unscheduled_of_none {p : Part} {d : Nat} (h : ∀ r ∈ p.reqs, dieOf r.core = d → p.unitMoves r = false) : p.unscheduled d = p := by
  have hnone : p.reqs.filter (fun r => dieOf r.core == d && p.unitMoves r) = [] :=
    List.filter_eq_nil_iff.mpr fun r hr => by simpa using h r hr
  rw [Part.unscheduled, hnone]
  rfl

/-- The first entry of a sweep of die `d` marks when it began. -/
def Part.sweepFrom (p : Part) (d i : Nat) : Part :=
  if i = 0 then { p with cfg := { p.cfg with sweep := Tab.put 0 p.cfg.sweep d p.tim.interval } } else p

/-- A sweep of die `d` has ended: it is counted, and its length shown. -/
def Part.sweepEnded (p : Part) (d : Nat) : Part :=
  (p.bump (Reg.PRM_SWEEPS.at [d]) 1).setRegN (Reg.PRM_SWEEP_US.at [d]) (((p.tim.interval - Tab.get 0 p.cfg.sweep d).toNat / 1000) % 2 ^ 32)

/-- The part after its entry `i` of die `d` has been found good. -/
def Part.comparedWell (p : Part) (d i : Nat) : Part :=
  if i + 1 = (p.goldenOn d).length then (p.sweepFrom d i).sweepEnded d else p.sweepFrom d i

theorem Part.compareGolden_of_good {p : Part} {d i : Nat} {g : Golden} (hentry : (p.goldenOn d)[i]? = some g)
    (hgood : p.goldenDark g = true ∨ p.goldenMatches g = true) : p.compareGolden d i = p.comparedWell d i := by
  have hpass : (p.goldenDark g || p.goldenMatches g || p.cfg.mismatch.elem g) = true := by simp [hgood]
  simp only [Part.compareGolden, hentry, hpass, if_true]
  rfl

/-- The part with the scrub sweep of die `d` counted on (12 R375). -/
def Part.railSwept (p : Part) (d : Nat) : Part :=
  p.onRail d (Rail.sweep p.tim.interval (p.regFld (Reg.PCE_HOUSE.at []) 0 8 * 10000000))

theorem Part.houseBeat_of_good {p : Part} {d i : Nat} {g : Golden} (hstill : p.landings d = p)
    (hreqs : ∀ r ∈ p.reqs, dieOf r.core = d → p.unitMoves r = false) (hentry : (p.goldenOn d)[i]? = some g)
    (hgood : p.goldenDark g = true ∨ p.goldenMatches g = true) : p.houseBeat d .clean i = (p.railSwept d).comparedWell d i := by
  have hscrub : ∀ q : Part, q.scrub .clean = q := fun _ => rfl
  simp only [Part.houseBeat, hstill, Part.unscheduled_of_none hreqs, hscrub, ite_self]
  exact Part.compareGolden_of_good (p := p.railSwept d) hentry hgood

theorem Reg.prmSweeps_ne_sweepUs (d : Nat) : Reg.PRM_SWEEPS.at [d] ≠ Reg.PRM_SWEEP_US.at [d] := by
  simp [RegRow.at, Reg.PRM_SWEEPS, Reg.PRM_SWEEP_US]

theorem Part.sweepFrom_facts (p : Part) (d i : Nat) : p.SameStore (p.sweepFrom d i) ∧ (p.sweepFrom d i).regs = p.regs ∧
    (p.sweepFrom d i).cfg.mismatch = p.cfg.mismatch := by
  unfold Part.sweepFrom
  split <;> exact ⟨⟨rfl, rfl⟩, rfl, rfl⟩

theorem Part.reg_sweepEnded_sweeps (p : Part) (d : Nat) :
    (p.sweepEnded d).reg (Reg.PRM_SWEEPS.at [d]) = p.reg (Reg.PRM_SWEEPS.at [d]) + 1 :=
  (Part.reg_setReg_ne _ _ (Reg.prmSweeps_ne_sweepUs d)).trans (Part.reg_setReg_self _ _ _)

theorem Part.reg_sweepEnded_ne (p : Part) {d o : Nat} (hn : o ≠ Reg.PRM_SWEEPS.at [d]) (hus : o ≠ Reg.PRM_SWEEP_US.at [d]) :
    (p.sweepEnded d).reg o = p.reg o :=
  (Part.reg_setReg_ne _ _ hus).trans (Part.reg_setReg_ne _ _ hn)

theorem Part.comparedWell_facts (p : Part) (d i : Nat) : p.SameStore (p.comparedWell d i) ∧
    (∀ o, o ≠ Reg.PRM_SWEEPS.at [d] → o ≠ Reg.PRM_SWEEP_US.at [d] → (p.comparedWell d i).reg o = p.reg o) ∧
    (p.comparedWell d i).cfg.mismatch = p.cfg.mismatch ∧ (p.comparedWell d i).reg (Reg.PRM_SWEEPS.at [d]) =
      if i + 1 = (p.goldenOn d).length then p.reg (Reg.PRM_SWEEPS.at [d]) + 1 else p.reg (Reg.PRM_SWEEPS.at [d]) := by
  obtain ⟨hstore, hregs, hmismatch⟩ := p.sweepFrom_facts d i
  have hreg := Part.reg_congr hregs
  unfold Part.comparedWell
  split
  · exact ⟨hstore, fun o hn hus => (Part.reg_sweepEnded_ne _ hn hus).trans (hreg o), hmismatch,
      (Part.reg_sweepEnded_sweeps _ d).trans (congrArg (· + 1) (hreg _))⟩
  · exact ⟨hstore, fun o _ _ => hreg o, hmismatch, hreg _⟩

/-- Settles O22: in a beat in which nothing lands, the part that follows is named once for each kind of entry and for the house slot, and read
field by field. -/
theorem traverseBeats : Obligations.TraverseBeats := by
  unfold Obligations.TraverseBeats
  intro s d hready hd hnet hmsgs
  have hstill := Part.landings_of_still hnet hmsgs
  refine ⟨fun hbeat => ⟨fun hentries => ?_, fun cl e hentry => ?_⟩, fun i g hbeat hreqs hentry hgood => ?_⟩
  · rw [exec_cueSheetSlot_of_ready hready hd hbeat, Part.traverseBeat_of_empty hstill hentries]
  · have hrun (hm : (e.kind == 0 && e.merge) = false) : exec (.cueSheetSlot d) s = .next (s.beaten d (s.part.carryEntry cl e)) := by
      rw [exec_cueSheetSlot_of_ready hready hd hbeat, Part.traverseBeat_of_single hstill hentry hm]
    have hcore : e.core < 16 := Part.core_lt_of_slotEntries (p := s.part) (d := d) (by rw [hentry]; exact List.mem_singleton_self _)
    refine ⟨fun hkind hunit => ?_, fun r a hkind hunit hmerge hnext hsrc => ?_, fun r a hkind hunit hnext hdst => ?_⟩
    · obtain ⟨hstore, hregs, hflight, hcount⟩ := s.part.messagesLeft_facts cl
        (leaveMsgs (16 * cl + e.core) (400 * (cl / 400) + e.peer) (s.part.beatOf (cl / 400)) 4 s.part.flight)
      rw [hrun (by simp [hkind]), Part.carryEntry_messages hkind hunit]
      exact ⟨{ s with part := _ }, rfl, State.sameBytes_of_store hstore, State.sameCores_of_store hstore,
        fun o ho => hregs o (List.ne_of_not_mem_cons ho), hflight, hcount⟩
    · rw [hrun (by simp [hmerge]), Part.carryEntry_read hkind hunit hmerge hnext hsrc]
      exact ⟨{ s with part := _ }, rfl, fun _ => rfl, fun _ _ => rfl, fun _ _ => rfl, rfl, rfl⟩
    · rw [hrun (by simp [hkind]), Part.carryEntry_write hkind hunit hcore hnext hdst]
      exact ⟨{ s with part := _ }, rfl, fun _ => rfl, fun _ _ => rfl,
        fun o ho => Part.reg_countSent_ne s.part 1 (List.ne_of_not_mem_cons ho), Part.reg_countSent_self s.part cl, rfl, rfl⟩
  · rw [exec_houseSlot_of_ready hready hd hbeat, Part.houseBeat_of_good hstill hreqs hentry hgood]
    obtain ⟨hstore, hregs, hmismatch, hsweeps⟩ := (s.part.railSwept d).comparedWell_facts d i
    refine ⟨{ s with part := _ }, rfl, State.sameBytes_of_store hstore, State.sameCores_of_store hstore, fun o ho => ?_, hmismatch, hsweeps⟩
    obtain ⟨hn, hus⟩ : o ≠ Reg.PRM_SWEEPS.at [d] ∧ o ≠ Reg.PRM_SWEEP_US.at [d] := by simpa using ho
    exact hregs o hn hus

end Sys2Proof.Machine

/-! ## A pre-emption request through another die's register is dropped -/

namespace Sys2Proof.Machine
open Sys2Proof

/-- A replica of C-die 1 whose anchor, 450, is also 400 times 0 plus the 9-bit number 450. -/
def farReplica : Replica := { Tests.repRun with die := 1, origin := 50 }

/-- The state of the test of a pre-emption request, its replica on C-die 1. -/
def farPreemptState : State :=
  { Tests.preemptS with part := { Tests.preemptS.part with stg := { Tests.preemptS.part.stg with replicas := [farReplica] } } }

/-- The word that asks for a pre-emption at cluster 450, with `go` set. -/
def farRequest : W32 := 2 ^ 31 + 450

theorem farPreemptState_asks : farPreemptState.mayAccess .house (Reg.STG_PREEMPT_REQ.at [0]) 4 ∧ bitOf farRequest.toNat 31 = true ∧
    farPreemptState.part.replicaOf (400 * 0 + fld farRequest.toNat 0 9) = some farReplica ∧ farReplica.task = some Tests.key0 ∧
    farPreemptState.part.task Tests.key0 = some Tests.taskRun ∧ Tests.taskRun.noPreempt = false ∧ farReplica.preempt = none ∧
    farReplica.st = .running := by
  unfold State.mayAccess
  decide +kernel

/-- No die has a cluster of that number, so that the write asks for nothing (10 R319). -/
theorem farPreemptState_drops :
    (farPreemptState.part.rowWrite .house Reg.STG_PREEMPT_REQ [0] (W32.wide farRequest)).stg.saveq = farPreemptState.part.stg.saveq := by
  decide +kernel

/-- Refutes O27: its clause on pre-emption does not ask that the cluster number of the word be one of the die's 400. In `farPreemptState` number 450
of die 0 gives the anchor of a replica of die 1, for which the write to die 0's register asks nothing. -/
theorem not_seatsAndPreemptionRequests : ¬ Obligations.SeatsAndPreemptionRequests := by
  unfold Obligations.SeatsAndPreemptionRequests
  intro h
  obtain ⟨-, hpreempt⟩ := h farPreemptState .house farRequest
  obtain ⟨haccess, hgo, hreplica, htask, hrunning, hallowed, hnone, hst⟩ := farPreemptState_asks
  obtain ⟨u, hexec, -, -, -, hsaveq, -⟩ := hpreempt 0 _ _ _ (by decide) haccess hgo hreplica htask hrunning hallowed hnone hst
  have hwrite : exec (.stgPreemptReq .house 0 farRequest) farPreemptState =
      .next (farPreemptState.act (·.rowWrite .house Reg.STG_PREEMPT_REQ [0] (W32.wide farRequest))) := rfl
  obtain rfl := Host.Outcome.next.inj (hwrite.symm.trans hexec)
  rw [State.act_part, farPreemptState_drops] at hsaveq
  simp at hsaveq

end Sys2Proof.Machine

/-! ## A share charged past the groups -/

namespace Sys2Proof.Machine
open Sys2Proof

/-- A running task whose share group, past the 64 of the part, has its use counter at the offset of seat 0's configuration. -/
def strayTask : Task := { Tests.taskRun with group := 0x1FEE0, charged := 10 ^ 12 - 1 }

/-- A running task of seat 0. -/
def seatTask : Task := { Tests.taskRun with key := ⟨2, 1, 0xFFFF⟩, flags := 0x20, charged := 10 ^ 12 - 1 }

/-- Two replicas of a cluster each, on the roster, run the two tasks as a tick has ended. -/
def strayState : State :=
  let p := (Tests.staged Tests.repRun [strayTask, seatTask]).setRegN (Reg.STG_ROSTER.at [0, 0]) 3
  Tests.st { p with
    stg := { p.stg with replicas := [Tests.repRun, { Tests.repRun with origin := 1, task := some seatTask.key }] }
    tim := { Time.reset with now := 10 ^ 12 } }

theorem strayState_ticks : strayState.part.phase = .ready ∧ strayState.part.tickOver = true := by decide +kernel

/-- The charge of the first task moves seat 0 to group 8, which the second is charged in. -/
theorem strayState_charges : strayState.part.shareTick.reg (Reg.STG_SHARE_USED.at [0, 8]) = 16 ∧
    strayState.part.reg (Reg.STG_SHARE_USED.at [0, 8]) = 0 ∧
    Reg.STG_SHARE_USED.at [0, 8] ∉ ((List.range 64).map (fun g => Reg.STG_SHARE_BAL.at [0, g])) ++
      strayState.part.stg.tasks.map (fun t => Reg.STG_SHARE_USED.at [0, strayState.part.groupOf t]) := by
  decide +kernel

/-- Refutes O17: it does not ask that the tasks' share groups be below 64. In `strayState` the charge of a task of group 0x1FEE0 falls on the
configuration of seat 0 and changes its group, so that the next charge counts in a register that is not one of those named. -/
theorem not_sharesAreBroughtUpToDate : ¬ Obligations.SharesAreBroughtUpToDate := by
  unfold Obligations.SharesAreBroughtUpToDate
  intro ⟨hticks, _⟩
  obtain ⟨hready, htick⟩ := strayState_ticks
  obtain ⟨hcharged, hbefore, hother⟩ := strayState_charges
  obtain ⟨-, hended⟩ := hticks strayState hready
  obtain ⟨u, hexec, -, -, -, hregs, -⟩ := hended htick
  have hstep : exec .shareTick strayState = .next (strayState.act (·.shareTick)) := State.live_eq hready _
  obtain rfl := Host.Outcome.next.inj (hstep.symm.trans hexec)
  have hsame := hregs _ hother
  rw [State.act_part, hcharged, hbefore] at hsame
  exact absurd hsame (by decide)

end Sys2Proof.Machine

/-! ## The stage manager reads rows -/

namespace Sys2Proof.Machine
open Sys2Proof

/-- The powered bands of a C-die, which a read of a store or of a view marks (19 R564). -/
theorem Part.spares_touch (p : Part) (a : Nat) {K : Nat → Prop} (hK : ∀ d < 4, ¬ K (Reg.PWR_DOM_C.at [d])) : p.Spares K (p.touch a) := by
  have hband : ∀ cl < 1600, p.Spares K (p.touchBand cl) := fun cl hcl =>
    ((Part.Spares.refl p).setReg (hK (cl / 400) (by omega))).frame rfl
  unfold Part.touch
  split
  next cl off hhome => exact hband cl (homeOf_store_lt hhome)
  next c off hhome => exact hband (c / 16) (by have := homeOf_view_lt hhome; omega)
  · exact .refl p

theorem Part.spares_countRead (p : Part) (a : Nat) {K : Nat → Prop} (hK : ∀ d < 4, ¬ K (Reg.PWR_DOM_C.at [d]))
    (hrd : ¬ K (chanReg Reg.MEM_CH_RD a)) : p.Spares K (p.countRead a) :=
  .ite ((Part.Spares.refl p).bump hrd) (p.spares_touch a hK)

theorem mem_readMarks_dom (a n : Nat) {d : Nat} (hd : d < 4) : Reg.PWR_DOM_C.at [d] ∈ readMarks a n :=
  List.mem_append_right _ (List.mem_map_of_mem (List.mem_range.mpr hd))

theorem mem_readMarks_row {a n i : Nat} (hi : i < (a + n - 1) / 512 - a / 512 + 1) :
    chanReg Reg.MEM_CH_RD (512 * (a / 512 + i)) ∈ readMarks a n :=
  List.mem_append_left _ (List.mem_map_of_mem (f := fun i => chanReg Reg.MEM_CH_RD (512 * (a / 512 + i))) (List.mem_range.mpr hi))

/-- Reading bytes changes the registers that such reads count in or mark, and no others. -/
theorem Part.spares_readSpan (p : Part) (a n : Nat) : p.Spares (· ∉ readMarks a n) (p.readSpan a n).1 := by
  unfold Part.readSpan
  refine List.foldlRecOn (motive := fun x : Part × Option RowFault => p.Spares (· ∉ readMarks a n) x.1) _ _ (.refl p) fun x hx i hi => ?_
  have hcount := x.1.spares_countRead (512 * (a / 512 + i)) (K := (· ∉ readMarks a n)) (fun d hd => not_not_intro (mem_readMarks_dom a n hd))
    (not_not_intro (mem_readMarks_row (List.mem_range.mp hi)))
  split
  · exact hx
  · exact .ite hx fun o ho => (hcount o ho).trans (hx o ho)

/-- A register of the stage managers is none of those that reads count in or mark. -/
theorem not_mem_readMarks {o : Nat} (h : 0x1000000 ≤ o) (a n : Nat) : o ∉ readMarks a n := by
  simp only [readMarks, List.mem_append, List.mem_map, List.mem_range, not_or, not_exists, not_and]
  refine ⟨fun i _ heq => ?_, fun d hd heq => ?_⟩
  · have := Tests.channelOf_lt (512 * (a / 512 + i))
    simp [chanReg, RegRow.at, Reg.MEM_CH_RD] at heq
    omega
  · simp [RegRow.at, Reg.PWR_DOM_C] at heq
    omega

/-- The part with the stage managers' state `g`. -/
def Part.staging (p : Part) (g : Stage) : Part := { p with stg := g }

theorem Part.countRead_staging (p : Part) (g : Stage) (a : Nat) : (p.staging g).countRead a = (p.countRead a).staging g := by
  have hhome : (p.staging g).homeAt a = p.homeAt a := rfl
  unfold Part.countRead Part.touch
  rw [hhome]
  split
  · rfl
  · split <;> rfl

theorem Part.readFault_staging (p : Part) {g : Stage} (h : g.replicas = p.stg.replicas) (a : Nat) : (p.staging g).readFault a = p.readFault a :=
  Part.readFault_congr (q := p.staging g) ⟨_, _, _, rfl⟩ ((Part.Spares.refl p).frame rfl)
    (fun cl => by simp only [Part.darkCluster, Part.darkOnes, Part.staging, h]) a

/-- Row `i` of those from the row of `a` on is read, unless one before it could not be. -/
def spanRow (a : Nat) (x : Part × Option RowFault) (i : Nat) : Part × Option RowFault :=
  let row := 512 * (a / 512 + i)
  match x.2 with
  | some _ => x
  | none => (if x.1.lost row then x.1 else x.1.countRead row, x.1.readFault row)

theorem Part.readSpan_eq (p : Part) (a n : Nat) :
    p.readSpan a n = (List.range ((a + n - 1) / 512 - a / 512 + 1)).foldl (spanRow a) (p, none) := rfl

theorem spanRow_staging {a : Nat} {x : Part × Option RowFault} {g : Stage} (h : g.replicas = x.1.stg.replicas) (i : Nat) :
    spanRow a (x.1.staging g, x.2) i = ((spanRow a x i).1.staging g, (spanRow a x i).2) := by
  obtain ⟨p, _ | f⟩ := x
  · simp only [spanRow, Part.countRead_staging, Part.readFault_staging p h, ← apply_ite (Part.staging · g)]
    rfl
  · rfl

theorem stg_spanRow (a : Nat) (x : Part × Option RowFault) (i : Nat) : (spanRow a x i).1.stg = x.1.stg := by
  obtain ⟨p, _ | f⟩ := x
  · exact (Part.OnlyTouched.ite (.refl p) (p.onlyTouched_countRead _)).stg
  · rfl

/-- Reads depend on nothing that the stage managers hold but the replicas, whose regions may be dark. -/
theorem Part.readSpan_staging (p : Part) {g : Stage} (h : g.replicas = p.stg.replicas) (a n : Nat) :
    (p.staging g).readSpan a n = ((p.readSpan a n).1.staging g, (p.readSpan a n).2) := by
  have hfold : ∀ (l : List Nat) (x : Part × Option RowFault), g.replicas = x.1.stg.replicas →
      l.foldl (spanRow a) (x.1.staging g, x.2) = ((l.foldl (spanRow a) x).1.staging g, (l.foldl (spanRow a) x).2) := by
    intro l
    induction l with
    | nil => exact fun _ _ => rfl
    | cons i l ih =>
      intro x hx
      rw [List.foldl_cons, List.foldl_cons, spanRow_staging hx]
      exact ih _ (hx.trans (congrArg (·.replicas) (stg_spanRow a x i).symm))
  rw [Part.readSpan_eq, Part.readSpan_eq]
  exact hfold _ (p, none) h

end Sys2Proof.Machine

/-! ## A descriptor is submitted -/

namespace Sys2Proof.Machine
open Sys2Proof

/-! ### What a descriptor is judged by (10 R297 R298) -/

/-- The code of a refusal does not depend on what else has been submitted. -/
theorem Part.refusalCode_inbox (p : Part) (l : List Submission) (d : TaskDesc) :
    (p.staging { p.stg with inbox := l }).refusalCode d = p.refusalCode d := by
  have hbad : (p.staging { p.stg with inbox := l }).ovfBad d = p.ovfBad d := by
    have hfault := p.readFault_staging (g := { p.stg with inbox := l }) rfl d.ovfPtr
    have hspan := fun n => p.readSpan_staging (g := { p.stg with inbox := l }) rfl d.ovfPtr n
    unfold Part.ovfBad
    simp only [hfault, hspan]
    rfl
  unfold Part.refusalCode
  rw [hbad]
  rfl

/-- House firmware's descriptor that can be decided, with none before it, is judged at once. -/
theorem Part.submit_house {p : Part} {b : List Byte} (hinbox : p.stg.inbox = []) (hlen : b.length = 128)
    (h : p.refusalCode (taskDesc b) ≠ 0 ∨ (p.homeDie (taskDesc b)).isSome = true) : p.submit (some b) = p.judge ⟨.house, b⟩ := by
  have hdecidable : (p.staging { p.stg with inbox := [⟨.house, b⟩] }).decidable ⟨.house, b⟩ = true := by
    have hcode := p.refusalCode_inbox [⟨.house, b⟩] (taskDesc b)
    unfold Part.decidable
    rw [Bool.or_eq_true, bne_iff_ne]
    exact h.imp_left (hcode ▸ ·)
  have hempty : p.staging { p.stg with inbox := [] } = p := by rw [← hinbox]; rfl
  have htaken : (p.staging { p.stg with inbox := [⟨.house, b⟩] }).takeSubmission ⟨.house, b⟩ = p.judge ⟨.house, b⟩ := by
    have hdrop : dropFirst (fun x => decide (x = (⟨.house, b⟩ : Submission))) [⟨.house, b⟩] = [] := by simp [dropFirst]
    unfold Part.takeSubmission
    dsimp only [Part.staging]
    rw [hdrop]
    exact congrArg (Part.judge · _) hempty
  simp only [Part.submit, padTo_of_length hlen, hinbox, List.nil_append, List.find?_cons, decide_true]
  rw [← htaken]
  exact if_pos hdecidable

/-! ### The rows of an overflow list (10 R296 R297) -/

theorem Part.onlyTouched_noteFault (p : Part) (f : Option RowFault) : p.OnlyTouched (p.noteFault f) := by
  have hnote : ∀ a, p.OnlyRegs (p.noteDamaged a) := fun a => by
    unfold Part.noteDamaged
    dsimp only
    split
    · exact ⟨_, rfl⟩
    · exact ⟨_, rfl⟩
    · exact .refl p
  unfold Part.noteFault
  split
  next a => exact .of_onlyRegs (hnote a)
  · exact .refl p

theorem Part.onlyTouched_readOvf (p : Part) (d : TaskDesc) : p.OnlyTouched (p.readOvf d) :=
  .ite ((p.onlyTouched_readSpan _ _).trans (Part.onlyTouched_noteFault _ _)) (.refl p)

/-- The registers that reading a descriptor's overflow list may count in or mark. -/
def Part.ovfMarks (p : Part) (d : TaskDesc) : List Nat := if d.ovf then readMarks d.ovfPtr (8 + 8 * p.ovfCount d) else []

/-- A good overflow list is read whole. -/
theorem Part.spares_readOvf {p : Part} {d : TaskDesc} (h : (d.ovf && p.ovfBad d) = false) : p.Spares (· ∉ p.ovfMarks d) (p.readOvf d) := by
  unfold Part.readOvf Part.ovfMarks
  cases hovf : d.ovf with
  | false => exact .refl p
  | true =>
    simp only [hovf, Bool.true_and, Part.ovfBad, Bool.or_eq_false_iff] at h
    obtain ⟨⟨⟨hfault, -⟩, hcount⟩, hspan⟩ := h
    have hnone : (p.readSpan d.ovfPtr (8 + 8 * p.ovfCount d)).2 = none := Option.isSome_eq_false_iff.mp hspan |> Option.isNone_iff_eq_none.mp
    simp only [if_true, hfault, hcount, Bool.or_false, Bool.false_eq_true, if_false, hnone]
    exact p.spares_readSpan _ _

theorem Part.ovf_good_of_accepted {p : Part} {d : TaskDesc} (h : p.refusalCode d = 0) : (d.ovf && p.ovfBad d) = false := by
  unfold Part.refusalCode at h
  split_ifs at h
  exact Bool.eq_false_iff.mpr ‹_›

theorem Part.refusalCode_le (p : Part) (d : TaskDesc) : p.refusalCode d ≤ 7 := by
  unfold Part.refusalCode
  split_ifs <;> decide

/-! ### The descriptor is judged (10 R297 to R301) -/

/-- A task that waits for predecessors takes its slot. -/
theorem Part.judge_of_accepted {p : Part} {b : List Byte} {h : Nat} (hcode : p.refusalCode (taskDesc b) = 0)
    (hhome : p.homeDie (taskDesc b) = some h) (hpreds : (p.newTask (taskDesc b) .house h).preds ≠ []) :
    p.judge ⟨.house, b⟩ = (p.readOvf (taskDesc b)).addTask (p.newTask (taskDesc b) .house h) := by
  have hwaits : (p.newTask (taskDesc b) .house h).preds.isEmpty = false := by simpa using hpreds
  simp only [Part.judge, hcode, hhome, hwaits]
  rfl

theorem Part.judge_of_refused {p : Part} {b : List Byte} (hcode : p.refusalCode (taskDesc b) ≠ 0) :
    p.judge ⟨.house, b⟩ = (if p.refusalCode (taskDesc b) = 7 then p.readOvf (taskDesc b) else p).refuseTask (taskDesc b) .house
      (p.refusalCode (taskDesc b)) := by
  unfold Part.judge
  dsimp only
  split
  next hzero _ => exact absurd hzero hcode
  next => rfl

/-- What an accepted task's slot and its count for its seat leave. -/
theorem Part.addTask_eq (p : Part) (t : Task) : ∃ r, p.addTask t = { p with regs := r, stg := { p.stg with tasks := p.stg.tasks ++ [t] } } := by
  unfold Part.addTask
  dsimp only
  split <;> exact ⟨_, rfl⟩

theorem Part.reg_addTask_ne (p : Part) {t : Task} {o : Nat} (h : o ∉ if t.seatEn then [Reg.STG_SEAT_INFLIGHT.at [t.seat]] else []) :
    (p.addTask t).reg o = p.reg o := by
  unfold Part.addTask
  dsimp only
  split
  next hseat => exact Part.reg_setReg_ne _ _ (by simpa [hseat] using h)
  next => rfl

theorem Part.reg_addTask_seat (p : Part) {t : Task} (h : t.seatEn = true) :
    (p.addTask t).reg (Reg.STG_SEAT_INFLIGHT.at [t.seat]) = p.reg (Reg.STG_SEAT_INFLIGHT.at [t.seat]) + 1 := by
  unfold Part.addTask
  rw [h]
  exact Part.reg_setReg_self _ _ _

theorem Part.seatEn_newTask (p : Part) (b : List Byte) (src : Source) (h : Nat) : (p.newTask (taskDesc b) src h).seatEn = (taskDesc b).flag 5 := by
  have hlt : (taskDesc b).flags < 2 ^ 16 := by
    have := leNat_lt ((b.drop 14).take 2)
    have hlen : ((b.drop 14).take 2).length ≤ 2 := List.length_take_le _ _
    exact this.trans_le (Nat.pow_le_pow_right (by decide) hlen)
  simp only [Task.seatEn, Task.flag, Part.newTask, TaskDesc.flag, BitVec.toNat_ofNat, Nat.mod_eq_of_lt hlt]

theorem seatInflight_not_mem_readMarks (i a n : Nat) : Reg.STG_SEAT_INFLIGHT.at [i] ∉ readMarks a n :=
  not_mem_readMarks (by simp [RegRow.at, Reg.STG_SEAT_INFLIGHT]; omega) a n

theorem leAt_lt (l : List Byte) (lo n : Nat) : leAt l lo n < 256 ^ n :=
  (leNat_lt _).trans_le (Nat.pow_le_pow_right (by decide) (List.length_take_le _ _))

theorem exec_taskSubmit_of_ready {s : State} (hready : s.part.phase = .ready) (b : List Byte) :
    exec (.taskSubmit (some b)) s = .next (s.act (·.submit (some b))) :=
  State.live_eq hready _

/-- Settles O13: a descriptor is judged at once (`Part.submit_house`); accepted, its overflow list is read and it takes its slot; refused, it is
named in STG_LAST_REFUSE. -/
theorem submissionTakesASlotOrIsRefused : Obligations.SubmissionTakesASlotOrIsRefused := by
  unfold Obligations.SubmissionTakesASlotOrIsRefused
  intro s b hready hinbox hlen d marks seat
  have hread := s.part.onlyTouched_readOvf d
  refine ⟨fun h hcode hhome hpreds => ?_, fun hcode => ?_⟩
  · have hspares : s.part.Spares (· ∉ marks) (s.part.readOvf d) := Part.spares_readOvf (Part.ovf_good_of_accepted hcode)
    have hseatEn : (s.part.newTask d .house h).seatEn = d.flag 5 := s.part.seatEn_newTask b .house h
    obtain ⟨r, hadd⟩ := (s.part.readOvf d).addTask_eq (s.part.newTask d .house h)
    refine ⟨_, exec_taskSubmit_of_ready hready b, ?_⟩
    rw [State.act, Part.submit_house hinbox hlen (.inr (by rw [hhome]; rfl)), Part.judge_of_accepted hcode hhome hpreds]
    have hstore : s.part.SameStore ((s.part.readOvf d).addTask (s.part.newTask d .house h)) := by
      rw [hadd]
      exact ⟨hread.mem, hread.cores⟩
    refine ⟨State.sameBytes_of_store hstore, State.sameCores_of_store hstore, ?_, fun o ho => ?_, fun hflag => ?_⟩
    · rw [hadd, hread.stg]
    · obtain ⟨hmarks, hseat⟩ : o ∉ marks ∧ o ∉ if d.flag 5 then [seat] else [] := by simpa using ho
      exact (Part.reg_addTask_ne _ (by rwa [hseatEn])).trans (hspares o hmarks)
    · have hseat : seat ∉ marks := by
        show seat ∉ if d.ovf then _ else _
        split
        · exact seatInflight_not_mem_readMarks _ _ _
        · exact List.not_mem_nil
      exact (Part.reg_addTask_seat _ (hseatEn.trans hflag)).trans (congrArg (· + 1) (hspares seat hseat))
  · refine ⟨_, exec_taskSubmit_of_ready hready b, ?_⟩
    rw [State.act, Part.submit_house hinbox hlen (.inl hcode), Part.judge_of_refused hcode]
    generalize hq : (if s.part.refusalCode d = 7 then s.part.readOvf d else s.part) = q
    have htouched : s.part.OnlyTouched q := hq ▸ .ite hread (.refl _)
    have hstore : s.part.SameStore (q.refuseTask d .house (s.part.refusalCode d)) := ⟨htouched.mem, htouched.cores⟩
    refine ⟨htouched.stg, State.sameBytes_of_store hstore, State.sameCores_of_store hstore, fun hseven o ho => ?_, ?_⟩
    · rw [if_neg hseven] at hq
      exact hq ▸ Part.reg_setReg_ne _ _ (by simpa using ho)
    · have hid : (taskDesc b).id < 2 ^ 32 := leAt_lt b 0 4
      have hgen : (taskDesc b).gen < 2 ^ 16 := leAt_lt b 4 2
      have hle := s.part.refusalCode_le (taskDesc b)
      exact Part.regN_setRegN_self _ _ _ (by omega)

end Sys2Proof.Machine

/-! ## Ready tasks are placed, each on a replica or not at all -/

namespace Sys2Proof.Machine
open Sys2Proof

/-! ### Lists changed in one place, and lists that agree entry for entry -/

theorem pickMin_mem {α : Type} {lt : α → α → Bool} {l : List α} {x : α} (h : pickMin lt l = some x) : x ∈ l := by
  induction l generalizing x with
  | nil => nomatch h
  | cons y ys ih =>
    rw [pickMin] at h
    split at h
    · exact List.mem_cons.mpr (.inl (Option.some.inj h).symm)
    next z hz =>
      split at h
      · exact List.mem_cons_of_mem _ (ih (hz.trans h))
      · exact List.mem_cons.mpr (.inl (Option.some.inj h).symm)

theorem forall₂_modFirst {α : Type} {R : α → α → Prop} {q : α → Bool} {f : α → α} (hrefl : ∀ x, R x x) (hf : ∀ x, R x (f x)) (l : List α) :
    List.Forall₂ R l (modFirst q f l) := by
  induction l with
  | nil => exact .nil
  | cons x xs ih =>
    rw [modFirst]
    split
    · exact .cons (hf x) (List.forall₂_same.mpr fun y _ => hrefl y)
    · exact .cons (hrefl x) ih

theorem forall₂_trans {α : Type} {R : α → α → Prop} (htrans : ∀ x y z, R x y → R y z → R x z) {l l' l'' : List α} (h : List.Forall₂ R l l')
    (h' : List.Forall₂ R l' l'') : List.Forall₂ R l l'' := by
  induction h generalizing l'' with
  | nil => exact h'
  | cons hx _ ih =>
    cases h' with
    | cons hy h' => exact .cons (htrans _ _ _ hx hy) (ih h')

/-- Entries that agree answer a search for the same of them. -/
theorem find?_forall₂ {α : Type} {R : α → α → Prop} {q : α → Bool} (hq : ∀ x y, R x y → q y = q x) {l l' : List α} {x : α}
    (h : List.Forall₂ R l l') (hx : l.find? q = some x) : ∃ y, l'.find? q = some y ∧ R x y := by
  induction h with
  | nil => nomatch hx
  | @cons a b _ _ hab _ ih =>
    rw [List.find?_cons] at hx ⊢
    rw [hq a b hab]
    split at hx
    · exact ⟨b, rfl, Option.some.inj hx ▸ hab⟩
    · exact ih hx

/-- What agrees with a list and an entry behind it ends in an entry that agrees with that one. -/
theorem forall₂_concat {α : Type} {R : α → α → Prop} {l ts : List α} {x : α} (h : List.Forall₂ R (l ++ [x]) ts) :
    ∃ l' y, ts = l' ++ [y] ∧ List.Forall₂ R l l' ∧ R x y := by
  induction l generalizing ts with
  | nil =>
    obtain _ | ⟨hxy, hnil⟩ := h
    cases hnil
    exact ⟨[], _, rfl, .nil, hxy⟩
  | cons a l ih =>
    obtain _ | ⟨hab, hrest⟩ := h
    obtain ⟨l', y, rfl, hl, hxy⟩ := ih hrest
    exact ⟨_ :: l', y, rfl, .cons hab hl, hxy⟩

theorem modFirst_append {α : Type} {q : α → Bool} {l : List α} {x : α} (h : l.find? q = some x) (f : α → α) (l' : List α) :
    modFirst q f (l ++ l') = modFirst q f l ++ l' := by
  induction l with
  | nil => nomatch h
  | cons y ys ih =>
    rw [List.find?_cons] at h
    rw [List.cons_append, modFirst, modFirst]
    split at h
    next hy => rw [if_pos hy, if_pos hy, List.cons_append]
    next hy => rw [if_neg (by simp [hy]), if_neg (by simp [hy]), ih h, List.cons_append]

/-! ### Placement (10 R309, 15 R475) -/

/-- The task, or the task put on the callboard of one of the replicas `l` whose region is not dark. -/
def Task.PlacedAmong (l : List Replica) (t t' : Task) : Prop :=
  t' = t ∨ ∃ r ∈ l, r.dark = false ∧ t' = { t with st := .placed, anchor := some r.anchor }

theorem Task.PlacedAmong.trans {l : List Replica} (t u v : Task) (h : t.PlacedAmong l u) (h' : u.PlacedAmong l v) : t.PlacedAmong l v := by
  rcases h' with rfl | ⟨r, hr, hdark, rfl⟩
  · exact h
  · refine .inr ⟨r, hr, hdark, ?_⟩
    rcases h with rfl | ⟨_, _, _, rfl⟩ <;> rfl

theorem Task.PlacedAmong.key {l : List Replica} {t t' : Task} (h : t.PlacedAmong l t') : t'.key = t.key := by
  rcases h with rfl | ⟨_, _, _, rfl⟩ <;> rfl

theorem Task.PlacedAmong.moved {l : List Replica} {t t' : Task} (h : t.PlacedAmong l t') :
    ∃ st a, t' = { t with st := st, anchor := a } ∧ (st = t.st ∨ st = .placed) := by
  rcases h with rfl | ⟨_, _, _, rfl⟩
  · exact ⟨_, _, rfl, .inl rfl⟩
  · exact ⟨_, _, rfl, .inr rfl⟩

theorem Part.bestReplica_open {p : Part} {t : Task} {r : Replica} (h : p.bestReplica t = some r) : r ∈ p.stg.replicas ∧ r.dark = false := by
  have hopen := List.mem_filter.mp (pickMin_mem h)
  simp only [Bool.and_eq_true, Bool.not_eq_true'] at hopen
  exact ⟨hopen.1, hopen.2.1.2⟩

/-- The tasks agree, but for those put on the callboard of a replica. -/
def Part.Places (p q : Part) : Prop := List.Forall₂ (Task.PlacedAmong p.stg.replicas) p.stg.tasks q.stg.tasks

theorem Part.places_placeAll (n : Nat) (p : Part) : p.Places (Part.placeAll n p) := by
  have hrefl (p : Part) : p.Places p := List.forall₂_same.mpr fun _ _ => .inl rfl
  induction n generalizing p with
  | zero => exact hrefl p
  | succ n ih =>
    rw [Part.placeAll]
    split
    · exact hrefl p
    next t _ =>
      split
      · exact hrefl p
      next r hbest =>
        obtain ⟨hmem, hdark⟩ := Part.bestReplica_open hbest
        have hone : p.Places (p.placeOn t.key r.anchor) := forall₂_modFirst (fun _ => .inl rfl) (fun _ => .inr ⟨r, hmem, hdark, rfl⟩) _
        exact forall₂_trans Task.PlacedAmong.trans hone (ih (p.placeOn t.key r.anchor))

theorem Part.places_place (p : Part) : p.Places p.place := Part.places_placeAll _ p

theorem Part.Places.task {p q : Part} {k : TaskKey} {t : Task} (h : p.Places q) (ht : p.task k = some t) :
    ∃ t', q.task k = some t' ∧ t.PlacedAmong p.stg.replicas t' :=
  find?_forall₂ (fun _ _ hxy => by rw [hxy.key]) h ht

theorem Part.sameStore_place (p : Part) : p.SameStore p.place := by
  obtain ⟨l, ts, h, -⟩ := p.onlyPlaced_place
  rw [h]
  exact .refl p

theorem Part.regs_place (p : Part) : p.place.regs = p.regs := by
  obtain ⟨l, ts, h, -⟩ := p.onlyPlaced_place
  rw [h]

end Sys2Proof.Machine

/-! ## A fan makes its children -/

namespace Sys2Proof.Machine
open Sys2Proof

/-! ### The fan takes its list (10 R305) -/

theorem Part.fanRead_of_good {p : Part} {k : TaskKey} {t : Task} (ht : p.task k = some t) (hst : t.st = .expanding) (hlist : t.listRead = false)
    (hfault : p.readFault (t.ptrs.getD 7 0) = none) (hspan : (p.readSpan (t.ptrs.getD 7 0) (4 + 4 * p.natAt (t.ptrs.getD 7 0) 4)).2 = none)
    (hsome : p.fanEntries (t.ptrs.getD 7 0) ≠ []) (hmax : (p.fanEntries (t.ptrs.getD 7 0)).length ≤ t.fanMax) :
    p.fanRead k = (p.readSpan (t.ptrs.getD 7 0) (4 + 4 * p.natAt (t.ptrs.getD 7 0) 4)).1.onTask k
      (fun x => { x with listRead := true, list := p.fanEntries (t.ptrs.getD 7 0) }) := by
  have hnonempty : (p.fanEntries (t.ptrs.getD 7 0)).isEmpty = false := by simpa using hsome
  simp only [Part.fanRead, ht, hst, hlist, hfault, hspan, hnonempty, decide_true, Bool.not_false, Bool.and_self, Bool.not_true, Bool.false_eq_true,
    if_false, Option.isSome_none, Bool.false_or, decide_eq_true_eq, Nat.not_lt.mpr hmax]

/-! ### The fan creates a child (10 R306) -/

/-- The fan once the child of its list's first entry is created. -/
def Task.advanced (t : Task) (rest : List (Nat × Nat)) : Task :=
  { t with list := rest, nextChild := t.nextChild + 1, children := t.children + 1 }

/-- The part with the fan at the rest of its list. -/
def Part.advanceFan (p : Part) (k : TaskKey) (t : Task) (rest : List (Nat × Nat)) : Part :=
  p.onTask k (fun y => { y with list := rest, nextChild := t.nextChild + 1, children := t.children + 1 })

/-- The part with the fan moved on and its child in a slot; neither is placed yet. -/
def Part.withChild (p : Part) (k : TaskKey) (t : Task) (j x : Nat) (rest : List (Nat × Nat)) : Part :=
  (p.advanceFan k t rest).addTask (p.childOf t j x)

/-- The fan stands among the tasks, and the child behind all others. -/
def Part.HasChild (p : Part) (k : TaskKey) (f c : Task) : Prop :=
  ∃ l, p.stg.tasks = l ++ [c] ∧ l.find? (fun y => decide (y.key = k)) = some f

theorem Part.HasChild.task {p : Part} {k : TaskKey} {f c : Task} (h : p.HasChild k f c) : p.task k = some f := by
  obtain ⟨l, htasks, hf⟩ := h
  rw [Part.task, htasks, List.find?_append, hf]
  rfl

theorem Part.HasChild.mem {p : Part} {k : TaskKey} {f c : Task} (h : p.HasChild k f c) : c ∈ p.stg.tasks := by
  obtain ⟨l, htasks, -⟩ := h
  exact htasks ▸ List.mem_append_right l (List.mem_singleton_self c)

theorem Part.hasChild_withChild {p : Part} {k : TaskKey} {t : Task} (ht : p.task k = some t) (j x : Nat) (rest : List (Nat × Nat)) :
    (p.withChild k t j x rest).HasChild k (t.advanced rest) (p.childOf t j x) := by
  obtain ⟨r, hadd⟩ := (p.advanceFan k t rest).addTask_eq (p.childOf t j x)
  refine ⟨_, by rw [Part.withChild, hadd], ?_⟩
  exact Part.task_onTask (f := fun y => { y with list := rest, nextChild := t.nextChild + 1, children := t.children + 1 }) ht rfl

theorem Part.HasChild.place {p : Part} {k : TaskKey} {f c : Task} (h : p.HasChild k f c) :
    ∃ f' c', p.place.HasChild k f' c' ∧ f.PlacedAmong p.stg.replicas f' ∧ c.PlacedAmong p.stg.replicas c' := by
  obtain ⟨l, htasks, hf⟩ := h
  have hplaces := p.places_place
  rw [Part.Places, htasks] at hplaces
  obtain ⟨l', c', htasks', hl, hc⟩ := forall₂_concat hplaces
  obtain ⟨f', hf', hff'⟩ := find?_forall₂ (fun _ _ hxy => by rw [hxy.key]) hl hf
  exact ⟨f', c', ⟨l', htasks', hf'⟩, hff', hc⟩

/-- A fan that has children and no further entry is HOLDING. -/
theorem Part.HasChild.fanHold {p : Part} {k : TaskKey} {f c : Task} (h : p.HasChild k f c) (hchildren : f.children ≠ 0) :
    (p.fanHold k).HasChild k { f with st := .holding } c ∧ p.SameStore (p.fanHold k) ∧ (p.fanHold k).regs = p.regs := by
  have heq : p.fanHold k = p.onTask k (fun x => { x with st := .holding }) := by simp only [Part.fanHold, h.task, if_neg hchildren]
  have hkey := Part.key_of_task h.task
  obtain ⟨l, htasks, hf⟩ := h
  refine ⟨⟨modFirst (fun y => decide (y.key = k)) (fun x => { x with st := .holding }) l, ?_, find?_modFirst hf (by simpa using hkey)⟩, ?_⟩
  · rw [heq, Part.onTask]
    exact (congrArg _ htasks).trans (modFirst_append hf _ _)
  · rw [heq]
    exact ⟨.refl p, rfl⟩

theorem Part.fanChild_eq {p : Part} {k : TaskKey} {t : Task} {j x : Nat} {rest : List (Nat × Nat)} (ht : p.task k = some t)
    (hst : t.st = .expanding) (hread : t.listRead = true) (hlist : t.list = (j, x) :: rest) (hfree : p.slotsFree t.home ≠ 0) :
    p.fanChild k = if rest.isEmpty then (p.withChild k t j x rest).place.fanHold k else (p.withChild k t j x rest).place := by
  have hslot : (p.slotsFree t.home == 0) = false := by simpa using hfree
  simp only [Part.fanChild, ht, hlist, hst, hread, hslot, decide_true, Bool.and_self, Bool.not_true, Bool.or_false, Bool.false_eq_true, if_false]
  rfl

theorem Part.sameStore_withChild (p : Part) (k : TaskKey) (t : Task) (j x : Nat) (rest : List (Nat × Nat)) :
    p.SameStore (p.withChild k t j x rest) := by
  obtain ⟨r, hadd⟩ := (p.advanceFan k t rest).addTask_eq (p.childOf t j x)
  rw [Part.withChild, hadd]
  exact .refl p

/-- The outcome of a child's creation: the fan, its child, and what stands as before. -/
structure Part.MakesChild (p q : Part) (k : TaskKey) (t : Task) (j x : Nat) (rest : List (Nat × Nat)) (f c : Task) : Prop where
  store : p.SameStore q
  regs : q.regs = (p.withChild k t j x rest).regs
  tasks : q.HasChild k f c
  fan : ∃ st a, f = { t.advanced rest with st := st, anchor := a } ∧ (rest = [] → st = .holding)
  child : ∃ st a, c = { p.childOf t j x with st := st, anchor := a } ∧ (st = .ready ∨ st = .placed)

theorem Part.fanChild_makesChild {p : Part} {k : TaskKey} {t : Task} {j x : Nat} {rest : List (Nat × Nat)} (ht : p.task k = some t)
    (hst : t.st = .expanding) (hread : t.listRead = true) (hlist : t.list = (j, x) :: rest) (hfree : p.slotsFree t.home ≠ 0) :
    ∃ f c, p.MakesChild (p.fanChild k) k t j x rest f c := by
  rw [Part.fanChild_eq ht hst hread hlist hfree]
  have hstore := (p.sameStore_withChild k t j x rest).trans (Part.sameStore_place _)
  have hregs := (p.withChild k t j x rest).regs_place
  obtain ⟨f, c, hhas, hfan, hchild⟩ := (Part.hasChild_withChild ht j x rest).place
  obtain ⟨st, a, rfl, -⟩ := hfan.moved
  cases rest with
  | nil =>
    obtain ⟨hheld, hstore', hregs'⟩ := hhas.fanHold (Nat.succ_ne_zero _)
    exact ⟨_, c, hstore.trans hstore', hregs'.trans hregs, hheld, ⟨_, _, rfl, fun _ => rfl⟩, hchild.moved⟩
  | cons e es => exact ⟨_, c, hstore, hregs, hhas, ⟨st, a, rfl, fun h => nomatch h⟩, hchild.moved⟩

theorem exec_fanListRead_of_ready {s : State} (hready : s.part.phase = .ready) (k : TaskKey) :
    exec (.fanListRead k) s = .next (s.act (·.fanRead k)) :=
  State.live_eq hready _

theorem exec_fanChildCreate_of_ready {s : State} (hready : s.part.phase = .ready) (k : TaskKey) :
    exec (.fanChildCreate k) s = .next (s.act (·.fanChild k)) :=
  State.live_eq hready _

/-- Settles O16: a fan with a good list takes it (`Part.fanRead_of_good`); a child's creation moves the fan on and puts the child behind the other
tasks, where placement may at most put it on a callboard (`Part.fanChild_makesChild`). -/
theorem fansMakeTheirChildren : Obligations.FansMakeTheirChildren := by
  unfold Obligations.FansMakeTheirChildren
  intro s k t hready ht hst a n
  refine ⟨fun hlist hfault hspan hsome hmax => ?_, fun j x rest hread hlist hfree => ?_⟩
  · refine ⟨_, exec_fanListRead_of_ready hready k, ?_⟩
    have htouched := s.part.onlyTouched_readSpan a n
    have hstore : s.part.SameStore ((s.part.readSpan a n).1.onTask k (fun x => { x with listRead := true, list := s.part.fanEntries a })) :=
      ⟨htouched.mem, htouched.cores⟩
    rw [State.act, Part.fanRead_of_good ht hst hlist hfault hspan hsome hmax]
    refine ⟨State.sameBytes_of_store hstore, State.sameCores_of_store hstore, fun o ho => s.part.spares_readSpan a n o ho, ?_⟩
    exact Part.task_onTask (f := fun x => { x with listRead := true, list := s.part.fanEntries a }) (by rw [Part.task, htouched.stg]; exact ht) rfl
  · obtain ⟨f, c, hmade⟩ := Part.fanChild_makesChild ht hst hread hlist hfree
    obtain ⟨hstore, hregs, htasks, ⟨_, _, rfl, hheld⟩, ⟨_, _, rfl, hplaced⟩⟩ := hmade
    refine ⟨_, _, _, exec_fanChildCreate_of_ready hready k, State.sameBytes_of_store hstore, State.sameCores_of_store hstore, fun o ho => ?_,
      htasks.task, rfl, rfl, rfl, hheld, htasks.mem, rfl, hplaced, rfl, rfl, rfl, rfl, rfl⟩
    exact (Part.reg_congr hregs o).trans (Part.reg_addTask_ne _ ho)

end Sys2Proof.Machine

/-! ## A task goes on, or completes SKIPPED, once its predecessors have resolved -/

namespace Sys2Proof.Machine
open Sys2Proof

/-! ### What a task's completion writes beside its outcome (10 R303 R315 R316, 16 R496 to R498) -/

/-- The registers that records and events of the completion rings write, one of each for a ring. -/
def recordRows : List RegRow := [Reg.HST_CQ_TAIL, Reg.HST_CQ_LOST, Reg.HST_RING_STAT]

/-- The registers of a seat that the completion of one of its tasks writes. -/
def seatBookRows : List RegRow :=
  [Reg.STG_SEAT_DONE, Reg.STG_SEAT_INFLIGHT, Reg.STG_SEAT_CFG, Reg.STG_SEAT_SLACK, Reg.STG_SEAT_MISS, Reg.STG_SEAT_STAT, Reg.STG_SEAT_WORST,
    Reg.STG_SEAT_DEADLINE]

namespace Part.Spares

variable {K : Nat → Prop} {p₀ p : Part}

theorem orReg {o m} (h : p₀.Spares K p) (ho : ¬ K o) : p₀.Spares K (p.orReg o m) := h.setReg ho
theorem bumpSat {o n} (h : p₀.Spares K p) (ho : ¬ K o) : p₀.Spares K (p.bumpSat o n) := h.setReg ho
theorem onRing {i f} (h : p₀.Spares K p) : p₀.Spares K (p.onRing i f) := h.frame rfl
theorem signal {port v} (h : p₀.Spares K p) : p₀.Spares K (p.signal port v) := ite (h.frame rfl) (ite h.emit h)
theorem event {o m} (h : p₀.Spares K p) (ho : ¬ K o) : p₀.Spares K (p.event o m) := (h.orReg ho).signal.signal
theorem signalRing {i} (h : p₀.Spares K p) : p₀.Spares K (p.signalRing i) := h.onRing.signal

section
variable (hring : ∀ r ∈ recordRows, ∀ i, ¬ K (r.at [i]))
include hring

theorem writeRecord {i rec} (h : p₀.Spares K p) : p₀.Spares K (p.writeRecord i rec) := by
  have hwritten {o v f} : p₀.Spares K (((p.emit o).setRegN (Reg.HST_CQ_TAIL.at [i]) v).onRing i f) :=
    (h.emit.setRegN (hring _ (by decide) i)).onRing
  exact ite hwritten.signalRing hwritten

theorem loseRecord {i} (h : p₀.Spares K p) : p₀.Spares K (p.loseRecord i) :=
  (h.bumpSat (hring _ (by decide) i)).event (hring _ (by decide) i)

theorem putRecord {i rec} (h : p₀.Spares K p) : p₀.Spares K (p.putRecord i rec) :=
  ite (h.loseRecord hring) (ite (h.writeRecord hring) (ite h.onRing (h.loseRecord hring)))

theorem putEvent {rec} (h : p₀.Spares K p) : p₀.Spares K (p.putEvent rec) := ite (h.putRecord hring) h

theorem notifyDone {t : Task} {code cause} (h : p₀.Spares K p) : p₀.Spares K (p.notifyDone t code cause) := by
  refine ite ?_ h
  split
  · exact h.putRecord hring
  · exact h

theorem seatDeadline {t : Task} (h : p₀.Spares K p) (hseat : ∀ r ∈ seatBookRows, ¬ K (r.at [t.seat])) : p₀.Spares K (p.seatDeadline t) := by
  have hslack {v} : p₀.Spares K (p.setRegN (Reg.STG_SEAT_SLACK.at [t.seat]) v) := h.setRegN (hseat _ (by decide))
  unfold Part.seatDeadline
  dsimp only
  refine ite h (setRegN (ite (putEvent hring (setRegN (orReg (hslack.bumpSat ?_) ?_) ?_)) hslack) ?_) <;> exact hseat _ (by decide)

end

theorem seatDone {t : Task} (h : p₀.Spares K p) (hseat : ∀ r ∈ seatBookRows, ¬ K (r.at [t.seat])) : p₀.Spares K (p.seatDone t) := by
  have hcounted {n} : p₀.Spares K ((p.bump (Reg.STG_SEAT_DONE.at [t.seat]) 1).setRegN (Reg.STG_SEAT_INFLIGHT.at [t.seat]) n) :=
    (h.bump (hseat _ (by decide))).setRegN (hseat _ (by decide))
  have hcleared {n v} := (hcounted (n := n)).setFld (o := Reg.STG_SEAT_CFG.at [t.seat]) (lo := 0) (len := 1) (v := v) (hseat _ (by decide))
  exact ite h (ite (hcleared.frame rfl) hcounted)

end Part.Spares

/-! ### A task completes SKIPPED (10 R302 R304) -/

/-- A ring's registers lie at another place of their block of 64 bytes than the counters of SKIPPED tasks do. -/
theorem recordRows_ne_skipped (d : Nat) : ∀ r ∈ recordRows, ∀ i, ¬ r.at [i] = Reg.STG_SKIPPED.at [d] := by
  intro r hr i
  have hblock : ∀ r ∈ recordRows, r.dims = [(0x40, 1024)] ∧ r.base % 0x40 ≠ 0x18 := by decide
  obtain ⟨hdims, hbase⟩ := hblock r hr
  simp [RegRow.at, hdims, Reg.STG_SKIPPED]
  omega

theorem seatBookRows_ne_skipped {d i : Nat} (hi : i < 4096) : ∀ r ∈ seatBookRows, ¬ r.at [i] = Reg.STG_SKIPPED.at [d] := by
  simp [seatBookRows, RegRow.at, Reg.STG_SEAT_DONE, Reg.STG_SEAT_INFLIGHT, Reg.STG_SEAT_CFG, Reg.STG_SEAT_SLACK, Reg.STG_SEAT_MISS, Reg.STG_SEAT_STAT,
    Reg.STG_SEAT_WORST, Reg.STG_SEAT_DEADLINE, Reg.STG_SKIPPED]
  omega

/-- A task that completes SKIPPED leaves its slot and is counted at its home die. -/
theorem Part.finishOne_skipped {p : Part} {t x : Task} (hx : p.task t.key = some x) (hseat : t.seat < 4096) (cause : Nat) :
    (p.finishOne t 1 cause).stg.tasks.length + 1 = p.stg.tasks.length ∧
      (p.finishOne t 1 cause).reg (Reg.STG_SKIPPED.at [t.home]) = p.reg (Reg.STG_SKIPPED.at [t.home]) + 1 := by
  obtain ⟨-, hregs, hlen, hfound⟩ := p.freeSave_frame t.key
  have htasks : (p.booked t 1 cause).stg.tasks = (p.freeSave t.key).stg.tasks :=
    (p.books_booked (K := fun _ => False) (t := t) (fun _ h => h.elim) id 1 cause).tasks
  have hspares : ((p.freeSave t.key).bump (Reg.STG_SKIPPED.at [t.home]) 1).Spares (· = Reg.STG_SKIPPED.at [t.home]) (p.booked t 1 cause) :=
    (((Part.Spares.refl _).seatDone (seatBookRows_ne_skipped hseat)).seatDeadline (recordRows_ne_skipped _)
      (seatBookRows_ne_skipped hseat)).notifyDone (recordRows_ne_skipped _)
  obtain ⟨l, e, hfinish⟩ := p.finishOne_eq t 1 cause
  rw [hfinish]
  constructor
  · obtain ⟨x', hx'⟩ := hfound x hx
    have hbooked : (p.booked t 1 cause).task t.key = some x' := by rw [Part.task, htasks]; exact hx'
    exact (Task.length_resolved hbooked 1).trans (htasks ▸ hlen)
  · calc (p.booked t 1 cause).reg (Reg.STG_SKIPPED.at [t.home])
      _ = ((p.freeSave t.key).bump (Reg.STG_SKIPPED.at [t.home]) 1).reg (Reg.STG_SKIPPED.at [t.home]) := hspares _ rfl
      _ = (p.freeSave t.key).reg (Reg.STG_SKIPPED.at [t.home]) + 1 := by rw [Part.reg_bump, if_pos rfl]; rfl
      _ = p.reg (Reg.STG_SKIPPED.at [t.home]) + 1 := by rw [Part.reg_congr hregs]

/-! ### A task goes on (10 R301 R305 R309) -/

/-- The task that goes on: a fan is EXPANDING, any other READY with the time as its stamp, and placed where a replica takes it. -/
def Part.GoesOn (p : Part) (t t' : Task) : Prop :=
  if t.kind = 1 then t' = { t with st := .expanding } else Task.PlacedAmong p.stg.replicas { t with st := .ready, stamp := p.tim.now } t'

theorem Part.letRun_goesOn {p : Part} {k : TaskKey} {t : Task} (ht : p.task k = some t) (hkind : t.kind ≠ 2) :
    p.SameStore (p.letRun k) ∧ (p.letRun k).regs = p.regs ∧ ∃ t', (p.letRun k).task k = some t' ∧ p.GoesOn t t' := by
  unfold Part.GoesOn
  simp only [Part.letRun, ht]
  split
  next hfan =>
    exact ⟨.refl p, rfl, _, Part.task_onTask (f := fun x => { x with st := .expanding }) ht rfl, by rw [if_pos hfan]⟩
  next hbarrier => exact absurd hbarrier hkind
  next hfan _ =>
    have hready : (p.onTask k (fun x => { x with st := .ready, stamp := p.tim.now })).task k = some { t with st := .ready, stamp := p.tim.now } :=
      Part.task_onTask (f := fun x => { x with st := .ready, stamp := p.tim.now }) ht rfl
    obtain ⟨t', ht', hplaced⟩ := (Part.places_place _).task hready
    exact ⟨Part.sameStore_place _, Part.regs_place _, t', ht', by rw [if_neg hfan]; exact hplaced⟩

theorem Part.predResolve_of_waiting {p : Part} {k : TaskKey} {t : Task} (ht : p.task k = some t) (hst : t.st = .waiting) (hpreds : t.preds = [])
    (hask : t.askPred = false) (hfailed : t.predFailed = false) (hskipped : t.predSkipped = false) :
    p.predResolve k = if predCond t.pred.toNat = 0 then p.letRun k else p.onTask k (fun x => { x with askPred := true }) := by
  simp [Part.predResolve, Part.resolved, ht, hst, hpreds, hask, hfailed, hskipped]

/-! ### The predicate's word is read (10 R302) -/

/-- The part once a task's predicate has been read at `a`, what it says still to be done. -/
def Part.predDone (p : Part) (k : TaskKey) (a : Nat) : Part :=
  (p.readSpan a 8).1.onTask k (fun x => { x with askPred := false })

theorem Part.predRead_of_good {p : Part} {k : TaskKey} {t : Task} (ht : p.task k = some t) (hst : t.st = .waiting) (hask : t.askPred = true)
    (hspan : (p.readSpan (predAddr t.pred.toNat) 8).2 = none) :
    p.predRead k = if predHolds t.pred.toNat (p.natAt (predAddr t.pred.toNat) 8) then (p.predDone k (predAddr t.pred.toNat)).letRun k
      else (p.predDone k (predAddr t.pred.toNat)).finish k 1 0 := by
  have hread : (p.onTask k (fun x => { x with askPred := false })).readSpan (predAddr t.pred.toNat) 8 =
      (p.predDone k (predAddr t.pred.toNat), none) := by
    have hstg := (p.onlyTouched_readSpan (predAddr t.pred.toNat) 8).stg
    refine (p.readSpan_staging (g := (p.onTask k (fun x => { x with askPred := false })).stg) rfl _ _).trans ?_
    rw [hspan, Part.predDone, Part.onTask, Part.onTask, hstg]
    rfl
  simp only [Part.predRead, ht, hst, hask, decide_true, Bool.and_self, Bool.not_true, Bool.false_eq_true, if_false, hread]

theorem skipped_not_mem_readMarks (d a n : Nat) : Reg.STG_SKIPPED.at [d] ∉ readMarks a n :=
  not_mem_readMarks (by simp [RegRow.at, Reg.STG_SKIPPED]; omega) a n

theorem exec_predecessorResolve_of_ready {s : State} (hready : s.part.phase = .ready) (k : TaskKey) :
    exec (.predecessorResolve k) s = .next (s.act (·.predResolve k)) :=
  State.live_eq hready _

theorem exec_predicateRead_of_ready {s : State} (hready : s.part.phase = .ready) (k : TaskKey) :
    exec (.predicateRead k) s = .next (s.act (·.predRead k)) :=
  State.live_eq hready _

/-- Settles O14: a task goes on at once or asks for its predicate (`Part.predResolve_of_waiting`); what the predicate says sends it on
(`Part.letRun_goesOn`) or completes it SKIPPED (`Part.finishOne_skipped`). -/
theorem resolvedTasksGoOn : Obligations.ResolvedTasksGoOn := by
  unfold Obligations.ResolvedTasksGoOn
  intro s k t hready ht hst on
  refine ⟨fun hpreds hask hfailed hskipped hkind => ?_, fun hask => ?_⟩
  · refine ⟨_, exec_predecessorResolve_of_ready hready k, ?_⟩
    rw [State.act, Part.predResolve_of_waiting ht hst hpreds hask hfailed hskipped]
    by_cases hpred : predCond t.pred.toNat = 0
    · obtain ⟨hstore, hregs, hon⟩ := Part.letRun_goesOn ht hkind
      rw [if_pos hpred, if_neg (not_not_intro hpred)]
      exact ⟨State.sameBytes_of_store hstore, State.sameCores_of_store hstore, fun o _ => Part.reg_congr hregs o, hon⟩
    · rw [if_neg hpred, if_pos hpred]
      exact ⟨fun _ => rfl, fun _ _ => rfl, fun _ _ => rfl, Part.task_onTask (f := fun x => { x with askPred := true }) ht rfl⟩
  · intro a hspan
    have htouched := s.part.onlyTouched_readSpan a 8
    have hspares := s.part.spares_readSpan a 8
    have hstored : s.part.SameStore (s.part.predDone k a) := ⟨htouched.mem, htouched.cores⟩
    have hdone : (s.part.predDone k a).task k = some { t with askPred := false } :=
      Part.task_onTask (f := fun x => { x with askPred := false }) (by rw [Part.task, htouched.stg]; exact ht) rfl
    refine ⟨fun hholds hkind => ?_, fun hholds => ?_⟩
    · obtain ⟨hstore, hregs, t', ht', hon⟩ := Part.letRun_goesOn hdone hkind
      refine ⟨_, exec_predicateRead_of_ready hready k, ?_⟩
      rw [State.act, Part.predRead_of_good ht hst hask hspan, if_pos hholds]
      refine ⟨State.sameBytes_of_store (hstored.trans hstore), State.sameCores_of_store (hstored.trans hstore),
        fun o ho => (Part.reg_congr hregs o).trans (hspares o ho), t', ht', ?_⟩
      unfold Part.GoesOn at hon
      obtain ⟨r, w, htouch⟩ := htouched
      simpa only [State.placedOr, Task.PlacedAmong, Part.predDone, Part.onTask, htouch] using hon
    · have hstore := hstored.trans (Part.sameReplicas_finish (s.part.predDone k a) k 1 0).1
      refine ⟨_, exec_predicateRead_of_ready hready k, ?_⟩
      rw [State.act, Part.predRead_of_good ht hst hask hspan, if_neg (by simpa using hholds)]
      refine ⟨State.sameBytes_of_store hstore, State.sameCores_of_store hstore, fun hfits hroot => ?_⟩
      obtain ⟨-, hseat, -⟩ := hfits
      obtain rfl := Part.key_of_task ht
      obtain ⟨hcount, hreg⟩ := Part.finishOne_skipped (t := { t with askPred := false }) hdone hseat 0
      rw [← Part.finish_of_root hdone hroot] at hcount hreg
      have hlen : (s.part.predDone t.key a).stg.tasks.length = s.part.stg.tasks.length := (length_modFirst _ _ _).trans (by rw [htouched.stg])
      exact ⟨hcount.trans hlen, hreg.trans (congrArg (· + 1) (hspares _ (skipped_not_mem_readMarks _ _ _)))⟩

end Sys2Proof.Machine

/-! ## What row accesses, records and completions leave of the replicas and the cores -/

namespace Sys2Proof.Machine
open Sys2Proof

/-- What a release of a curtain meets at a core: its threads, its counters and its arrivals. -/
def Core.sync (k : Core) : List Thread × List W32 × Tab Arrival := (k.threads, k.cnt, k.arrivals)

theorem Core.sync_onSide (k : Core) (t : Nat) (f : Side → Side) : (k.onSide t f).sync = k.sync := rfl

/-! ### Accesses, records and the log -/

/-- The stage manager, the waiting view accesses, the phase and each core's threads, counters and arrivals are as before. -/
structure Part.Still (p q : Part) : Prop where
  stg : q.stg = p.stg
  views : q.views = p.views
  phase : q.phase = p.phase
  sync : ∀ c, (q.core c).sync = (p.core c).sync

namespace Part.Still

variable {p₀ p q : Part}

theorem refl (p : Part) : p.Still p := ⟨rfl, rfl, rfl, fun _ => rfl⟩

theorem trans (h : p₀.Still p) (h' : p.Still q) : p₀.Still q :=
  ⟨h'.stg.trans h.stg, h'.views.trans h.views, h'.phase.trans h.phase, fun c => (h'.sync c).trans (h.sync c)⟩

theorem ite {c : Prop} [Decidable c] (h : p₀.Still p) (h' : p₀.Still q) : p₀.Still (if c then p else q) := by
  split
  · exact h
  · exact h'

theorem forEach {α : Type} {l : List α} {f : α → Part → Part} (h : p₀.Still p) (hf : ∀ a ∈ l, ∀ q : Part, q.Still (f a q)) :
    p₀.Still (Machine.forEach l f p) :=
  forEach_keeps h fun a ha q hq => hq.trans (hf a ha q)

theorem of_onlyRegs (h : p₀.Still p) (hq : p.OnlyRegs q) : p₀.Still q := by
  obtain ⟨r, rfl⟩ := hq
  exact ⟨h.stg, h.views, h.phase, h.sync⟩

theorem of_touched (h : p₀.Still p) (hq : p.OnlyTouched q) : p₀.Still q := by
  obtain ⟨r, w, rfl⟩ := hq
  exact ⟨h.stg, h.views, h.phase, h.sync⟩

theorem setReg {o v} (h : p₀.Still p) : p₀.Still (p.setReg o v) := ⟨h.stg, h.views, h.phase, h.sync⟩
theorem setRegN {o v} (h : p₀.Still p) : p₀.Still (p.setRegN o v) := h.setReg
theorem setFld {o lo len v} (h : p₀.Still p) : p₀.Still (p.setFld o lo len v) := h.setReg
theorem orReg {o m} (h : p₀.Still p) : p₀.Still (p.orReg o m) := h.setReg
theorem andNotReg {o m} (h : p₀.Still p) : p₀.Still (p.andNotReg o m) := h.setReg
theorem bump {o n} (h : p₀.Still p) : p₀.Still (p.bump o n) := h.setReg
theorem bump32 {o n} (h : p₀.Still p) : p₀.Still (p.bump32 o n) := h.setReg
theorem bumpSat {o n} (h : p₀.Still p) : p₀.Still (p.bumpSat o n) := h.setReg
theorem emit {o} (h : p₀.Still p) : p₀.Still (p.emit o) := ⟨h.stg, h.views, h.phase, h.sync⟩
theorem onRing {i f} (h : p₀.Still p) : p₀.Still (p.onRing i f) := ⟨h.stg, h.views, h.phase, h.sync⟩
theorem onCluster {cl f} (h : p₀.Still p) : p₀.Still (p.onCluster cl f) := ⟨h.stg, h.views, h.phase, h.sync⟩

theorem onCore {c : Nat} {f : Core → Core} (h : p₀.Still p) (hf : ∀ k, (f k).sync = k.sync) : p₀.Still (p.onCore c f) := by
  refine ⟨h.stg, h.views, h.phase, fun d => ?_⟩
  by_cases hd : d = c
  · subst hd
    rw [Part.core_onCore_self, hf, h.sync]
  · rw [Part.core_onCore_ne _ _ hd, h.sync]

/-! #### Records and events (16 R496 to R499), the error log (18 R549) -/

theorem signal {port v} (h : p₀.Still p) : p₀.Still (p.signal port v) := ite ⟨h.stg, h.views, h.phase, h.sync⟩ (ite h.emit h)
theorem event {o m} (h : p₀.Still p) : p₀.Still (p.event o m) := h.orReg.signal.signal
theorem refuse {bit addr port} (h : p₀.Still p) : p₀.Still (p.refuse bit addr port) := h.setRegN.event
theorem signalRing {i} (h : p₀.Still p) : p₀.Still (p.signalRing i) := h.onRing.signal
theorem writeRecord {i rec} (h : p₀.Still p) : p₀.Still (p.writeRecord i rec) := ite h.emit.setRegN.onRing.signalRing h.emit.setRegN.onRing
theorem loseRecord {i} (h : p₀.Still p) : p₀.Still (p.loseRecord i) := h.bumpSat.event
theorem putRecord {i rec} (h : p₀.Still p) : p₀.Still (p.putRecord i rec) := ite h.loseRecord (ite h.writeRecord (ite h.onRing h.loseRecord))
theorem putEvent {rec} (h : p₀.Still p) : p₀.Still (p.putEvent rec) := ite h.putRecord h

theorem logEntry {e handled detected program escalated depth parent} (h : p₀.Still p) :
    p₀.Still (p.logEntry e handled detected program escalated depth parent) := by
  have hlog {v : Nat → Nat} : p₀.Still (Machine.forEach (List.range 8)
      (fun i x => x.setRegN (Reg.ERR_LOG.at [(p.reg (Reg.ERR_SEQ.at [])).toNat % 4096, i]) (v i)) p) :=
    h.forEach fun _ _ q => (refl q).setRegN
  exact (ite hlog.bump.bumpSat.event hlog).setReg.bump.event.putEvent

/-! #### Rows (13, 06 R194) and queues (09 R283) -/

theorem noteDamaged {a} (h : p₀.Still p) : p₀.Still (p.noteDamaged a) := h.of_touched (p.onlyTouched_noteFault (some (.damaged a)))
theorem touch {a} (h : p₀.Still p) : p₀.Still (p.touch a) := h.of_touched (p.onlyTouched_touch a)
theorem countRead {a} (h : p₀.Still p) : p₀.Still (p.countRead a) := h.of_touched (p.onlyTouched_countRead a)
theorem countWrite {a} (h : p₀.Still p) : p₀.Still (p.countWrite a) := ite h.bump h.touch
theorem fixResid {c off n} (h : p₀.Still p) : p₀.Still (p.fixResid c off n) := by
  unfold Part.fixResid
  dsimp only
  split
  · exact h
  · exact h.onCore fun k => k.sync_onSide _ _

theorem spoilCache {c off} (h : p₀.Still p) : p₀.Still (p.spoilCache c off) := by
  unfold Part.spoilCache
  exact (h.onCore (f := fun x => x.spoil _ _) fun _ => rfl).orReg

theorem setRow {a row diff} (h : p₀.Still p) : p₀.Still (p.setRow a row diff) := ⟨h.stg, h.views, h.phase, h.sync⟩
theorem mergeRow {a l} (h : p₀.Still p) : p₀.Still (p.mergeRow a l) := ite ⟨h.stg, h.views, h.phase, h.sync⟩ ⟨h.stg, h.views, h.phase, h.sync⟩

theorem writePart {a l} (h : p₀.Still p) : p₀.Still (p.writePart a l) := by
  unfold Part.writePart
  dsimp only
  split
  next c off _ =>
    obtain ⟨hstg, hviews, hphase, hsync⟩ := h.touch.fixResid (c := c) (off := off) (n := l.length)
    exact ite (ite h.touch.spoilCache h.touch.mergeRow) ⟨hstg, hviews, hphase, hsync⟩
  · exact h.touch.mergeRow.countWrite

theorem writeRow {a row diff} (h : p₀.Still p) : p₀.Still (p.writeRow a row diff) := by
  unfold Part.writeRow
  dsimp only
  split
  next c off _ =>
    obtain ⟨hstg, hviews, hphase, hsync⟩ := h.touch.fixResid (c := c) (off := off) (n := 512)
    exact ite (ite h.touch.spoilCache h.touch.setRow) ⟨hstg, hviews, hphase, hsync⟩
  · exact h.touch.setRow.countWrite

theorem resetQueue {c i} (h : p₀.Still p) : p₀.Still (p.resetQueue c i) := by
  have hset {f} : p₀.Still (p.setCore c ((p.core c).onQueue i f)) := h.onCore (f := fun k => k.onQueue i f) fun _ => rfl
  exact (ite hset hset.bump32).forEach fun _ _ q => (refl q).onCore fun _ => rfl

theorem resetQueues {c} (h : p₀.Still p) : p₀.Still (p.resetQueues c) := h.forEach fun _ _ q => (refl q).resetQueue

end Part.Still

/-! ### Tasks (10) -/

/-- The replicas, the waiting view accesses and each core's threads, counters and arrivals are as before. -/
structure Part.Undisturbed (p q : Part) : Prop where
  replicas : q.stg.replicas = p.stg.replicas
  views : q.views = p.views
  sync : ∀ c, (q.core c).sync = (p.core c).sync

namespace Part.Undisturbed

variable {p₀ p q : Part}

theorem refl (p : Part) : p.Undisturbed p := ⟨rfl, rfl, fun _ => rfl⟩

theorem trans (h : p₀.Undisturbed p) (h' : p.Undisturbed q) : p₀.Undisturbed q :=
  ⟨h'.replicas.trans h.replicas, h'.views.trans h.views, fun c => (h'.sync c).trans (h.sync c)⟩

theorem ite {c : Prop} [Decidable c] (h : p₀.Undisturbed p) (h' : p₀.Undisturbed q) : p₀.Undisturbed (if c then p else q) := by
  split
  · exact h
  · exact h'

theorem still (h : p₀.Undisturbed p) (hq : p.Still q) : p₀.Undisturbed q :=
  h.trans ⟨congrArg (·.replicas) hq.stg, hq.views, hq.sync⟩

theorem forEach {α : Type} {l : List α} {f : α → Part → Part} (h : p₀.Undisturbed p) (hf : ∀ a ∈ l, ∀ q : Part, q.Undisturbed (f a q)) :
    p₀.Undisturbed (Machine.forEach l f p) :=
  forEach_keeps h fun a ha q hq => hq.trans (hf a ha q)

theorem onTask {k f} (h : p₀.Undisturbed p) : p₀.Undisturbed (p.onTask k f) := ⟨h.replicas, h.views, h.sync⟩

theorem place (h : p₀.Undisturbed p) : p₀.Undisturbed p.place := by
  obtain ⟨l, ts, hplace, -⟩ := p.onlyPlaced_place
  rw [hplace]
  exact ⟨h.replicas, h.views, h.sync⟩

theorem accrue {r} (h : p₀.Undisturbed p) : p₀.Undisturbed (p.accrue r) := by
  unfold Part.accrue
  dsimp only
  split
  · exact h
  · split
    · exact h
    · exact ⟨h.replicas, h.views, h.sync⟩

theorem freeSave {k} (h : p₀.Undisturbed p) : p₀.Undisturbed (p.freeSave k) := by
  unfold Part.freeSave
  split
  · split
    · exact ⟨h.replicas, h.views, h.sync⟩
    · exact h
  · exact h

theorem seatDone {t} (h : p₀.Undisturbed p) : p₀.Undisturbed (p.seatDone t) := by
  unfold Part.seatDone
  dsimp only
  split
  · exact h
  · split <;> exact ⟨h.replicas, h.views, h.sync⟩

theorem seatDeadline {t} (h : p₀.Undisturbed p) : p₀.Undisturbed (p.seatDeadline t) := by
  have hp := Still.refl p
  exact h.still (.ite hp (Still.ite hp.setRegN.bumpSat.orReg.setRegN.putEvent hp.setRegN).setRegN)

theorem notifyDone {t code cause} (h : p₀.Undisturbed p) : p₀.Undisturbed (p.notifyDone t code cause) := by
  refine ite ?_ h
  split
  · exact h.still (.putRecord (.refl p))
  · exact h

theorem finishOne {t code cause} (h : p₀.Undisturbed p) : p₀.Undisturbed (p.finishOne t code cause) := by
  obtain ⟨l, e, hfinish⟩ := p.finishOne_eq t code cause
  have hp := Still.refl (p.freeSave t.key)
  have hbooked : p₀.Undisturbed (p.booked t code cause) :=
    (h.freeSave.still (.ite hp.bump.setRegN hp.bump)).seatDone.seatDeadline.notifyDone
  rw [hfinish]
  exact ⟨hbooked.replicas, hbooked.views, hbooked.sync⟩

theorem finish {k code cause} (h : p₀.Undisturbed p) : p₀.Undisturbed (p.finish k code cause) := by
  unfold Part.finish
  dsimp only
  split
  · exact h
  · refine ite h.finishOne ?_
    split
    · exact h.finishOne
    · exact ite (ite h.finishOne.onTask.finishOne h.finishOne.onTask.finishOne) h.finishOne.onTask

end Part.Undisturbed

/-! ### A replica stops (10 R324) -/

/-- The replica once its task has been taken from it. -/
def Replica.stopped (r : Replica) : Replica := { r with st := .free, task := none, preempt := none, curts := [] }

/-- What the stop of replica `r` leaves of replicas, waiting view accesses and cores. -/
structure Part.Stops (p q : Part) (r : Replica) : Prop where
  replicas : q.stg.replicas = (p.onReplica r.anchor Replica.stopped).stg.replicas
  views : q.views = p.views
  sync : ∀ c, (q.core c).sync = if c ∈ r.cores then Core.reset.stop.sync else (p.core c).sync

theorem Part.Stops.keep {p q q' : Part} {r : Replica} (h : p.Stops q r) (hq : q.Undisturbed q') : p.Stops q' r :=
  ⟨hq.replicas.trans h.replicas, hq.views.trans h.views, fun c => (hq.sync c).trans (h.sync c)⟩

/-- The cores of `l` stopped, their queues reset. -/
def Part.stopCores (p : Part) (l : List Nat) : Part := forEach l (fun c x => ((x.vecIdle c).onCore c Core.stop).resetQueues c) p

theorem Part.stopCores_frame (l : List Nat) (p : Part) : (p.stopCores l).stg = p.stg ∧ (p.stopCores l).views = p.views ∧
    ∀ c, ((p.stopCores l).core c).sync = if c ∈ l then Core.reset.stop.sync else (p.core c).sync := by
  induction l generalizing p with
  | nil => exact ⟨rfl, rfl, fun c => by simp [Part.stopCores, forEach]⟩
  | cons a l ih =>
    have hcons : p.stopCores (a :: l) = (((p.vecIdle a).onCore a Core.stop).resetQueues a).stopCores l := by
      simp only [Part.stopCores, forEach, List.foldl_cons]
    have hreset := (Still.refl ((p.vecIdle a).onCore a Core.stop)).resetQueues (c := a)
    obtain ⟨hstg, hviews, hsync⟩ := ih (((p.vecIdle a).onCore a Core.stop).resetQueues a)
    rw [hcons]
    refine ⟨hstg.trans hreset.stg, hviews.trans hreset.views, fun c => (hsync c).trans ?_⟩
    rw [hreset.sync]
    by_cases hc : c = a
    · subst hc
      rw [Part.core_onCore_self, if_pos List.mem_cons_self]
      exact ite_self _
    · simp only [Part.core_onCore_ne _ _ hc, List.mem_cons, hc, false_or]
      rfl

/-- The entries into quiescence that the stop of the cores of `l` brings. -/
def Part.sleepCores (p : Part) (l : List Nat) : Part := forEach l (fun c x => if p.quiet c then x else x.bump (coreReg Reg.CORE_SLEEPS c []) 1) p

theorem Part.replicas_onReplica_congr {p q : Part} (h : q.stg.replicas = p.stg.replicas) (a : Nat) (f : Replica → Replica) :
    (q.onReplica a f).stg.replicas = (p.onReplica a f).stg.replicas :=
  congrArg (modFirst (fun x : Replica => x.anchor == a) f) h

theorem Part.stops_stopReplica (p : Part) (r : Replica) : p.Stops (p.stopReplica r) r := by
  have hslept : p.Still (p.sleepCores r.cores) := (Still.refl p).forEach fun _ _ q => .ite (.refl q) (.bump (.refl q))
  obtain ⟨hstg, hviews, hsync⟩ := Part.stopCores_frame r.cores (p.sleepCores r.cores)
  have hcleared := (Still.refl ((p.sleepCores r.cores).stopCores r.cores)).forEach (l := r.clusters)
    (f := fun cl x => x.onCluster cl (fun k => { k with curts := [] })) fun _ _ q => (Still.refl q).onCluster
  have hstg' := hcleared.stg.trans (hstg.trans hslept.stg)
  exact ⟨Part.replicas_onReplica_congr (congrArg (·.replicas) hstg') _ _, hcleared.views.trans (hviews.trans hslept.views),
    fun c => (hcleared.sync c).trans ((hsync c).trans (by rw [hslept.sync]))⟩

theorem Part.stops_sendBack (p : Part) (r : Replica) (k : TaskKey) : p.Stops (p.sendBack r k) r := by
  have hp := (Undisturbed.refl p).accrue (r := r)
  obtain ⟨hreplicas, hviews, hsync⟩ := (p.accrue r).stops_stopReplica r
  have hdropped : p.Stops (((p.accrue r).stopReplica r).dropDescs k) r :=
    ⟨hreplicas.trans (Part.replicas_onReplica_congr hp.replicas _ _), hviews.trans hp.views, fun c => (hsync c).trans (by rw [hp.sync])⟩
  exact hdropped.keep (((Undisturbed.refl _).freeSave.still (.bump (.refl _))).onTask)

/-- An abort of a task that is in flight stops its replica. -/
theorem Part.stops_abortOn {p : Part} {k : TaskKey} {t : Task} (ht : p.task k = some t) (r : Replica) (fate : Option Nat) :
    p.Stops (p.abortOn r k fate) r := by
  have hsent := p.stops_sendBack r k
  unfold Part.abortOn
  rw [ht]
  cases fate with
  | some c => exact hsent.keep (.finish (.refl _))
  | none => exact hsent.keep (.ite (.finish (.refl _)) (.place (.refl _)))

end Sys2Proof.Machine

/-! ## A replica that runs has its task while views are served -/

namespace Sys2Proof.Machine
open Sys2Proof

/-! ### A replica that runs has its task (10 R303 R324) -/

theorem find?_modFirst_cases {α : Type} {q g : α → Bool} {f : α → α} (hg : ∀ x, g (f x) = g x) {l : List α} {y : α}
    (h : (modFirst q f l).find? g = some y) : ∃ x, l.find? g = some x ∧ (y = x ∨ y = f x) := by
  induction l with
  | nil => nomatch h
  | cons z zs ih =>
    rw [modFirst] at h
    split at h
    · rw [List.find?_cons, hg] at h
      rw [List.find?_cons]
      split at h
      · exact ⟨z, rfl, .inr (Option.some.inj h).symm⟩
      · exact ⟨y, h, .inl rfl⟩
    · rw [List.find?_cons] at h ⊢
      split at h
      · exact ⟨z, rfl, .inl (Option.some.inj h).symm⟩
      · exact ih h

/-- The replica at `a`, if there is one and it runs, has a task. -/
def Part.Occupied (a : Nat) (p : Part) : Prop := ∀ r, p.replicaOf a = some r → r.st = .running → r.task ≠ none

namespace Part.Occupied

variable {a : Nat} {p q : Part}

theorem keep (h : p.Occupied a) (hq : q.stg.replicas = p.stg.replicas) : q.Occupied a := fun r hr => h r ((Part.replicaOf_congr hq a).symm.trans hr)

theorem still (h : p.Occupied a) (hq : p.Still q) : q.Occupied a := h.keep (congrArg (·.replicas) hq.stg)

theorem of_empty (h : p.stg.replicas = []) : p.Occupied a := fun r hr => by simp [Part.replicaOf, h] at hr

theorem ite {c : Prop} [Decidable c] (h : p.Occupied a) (h' : q.Occupied a) : Part.Occupied a (if c then p else q) := by
  split
  · exact h
  · exact h'

theorem forEach {α : Type} {l : List α} {f : α → Part → Part} (h : p.Occupied a) (hf : ∀ b ∈ l, ∀ q : Part, q.Occupied a → (f b q).Occupied a) :
    (Machine.forEach l f p).Occupied a :=
  forEach_keeps h hf

theorem onReplica {b : Nat} {f : Replica → Replica} (h : p.Occupied a) (hanchor : ∀ r, (f r).anchor = r.anchor)
    (hf : ∀ r : Replica, (r.st = .running → r.task ≠ none) → (f r).st = .running → (f r).task ≠ none) : (p.onReplica b f).Occupied a := by
  intro r hr
  obtain ⟨x, hx, hrx⟩ := find?_modFirst_cases (fun y => by rw [hanchor]) hr
  rcases hrx with rfl | rfl
  · exact h r hx
  · exact hf x (h x hx)

/-! #### Aborts (10 R324) -/

theorem abortOn {r k fate} (h : p.Occupied a) : (p.abortOn r k fate).Occupied a := by
  cases ht : p.task k with
  | none => simpa only [Part.abortOn, ht] using h
  | some t =>
    have hstopped : (p.onReplica r.anchor Replica.stopped).Occupied a := h.onReplica (fun _ => rfl) fun _ _ hrun => nomatch hrun
    exact hstopped.keep (Part.stops_abortOn ht r fate).replicas

theorem abort {k fate} (h : p.Occupied a) : (p.abort k fate).Occupied a := by
  unfold Part.abort
  split
  · exact h.abortOn
  · split
    · exact h.keep (Part.Undisturbed.place (.finish (.refl p))).replicas
    · exact h

/-! #### Errors (18) -/

theorem blackout {cause named} (h : p.Occupied a) : (p.blackout cause named).Occupied a := by
  refine ite h (of_empty ?_)
  rw [Part.ibi_eq]
  rfl

theorem fatal {seq} (h : p.Occupied a) : (p.fatal seq).Occupied a := by
  refine blackout ?_
  rw [Part.ibi_eq]
  exact h

theorem retireCluster {cl parent depth} (h : p.Occupied a) : (p.retireCluster cl parent depth).Occupied a := by
  have hclear : p.Undisturbed (match p.replicaAt cl with | some r => p.clearBoard r.anchor | none => p) := by
    split
    · unfold Part.clearBoard
      refine Part.Undisturbed.still (.forEach (.refl p) fun _ _ q => ?_) (.onCluster (.refl _))
      exact .onTask (.refl q)
    · exact .refl p
  exact ite h ((h.keep hclear.replicas).still (.logEntry (.setFld (.setFld (.andNotReg (.refl _))))))

theorem beginScene {e seq depth fate} (h : p.Occupied a) : (p.beginScene e seq depth fate).Occupied a := by
  unfold Part.beginScene
  dsimp only
  split
  next r hr =>
    have hdark : (p.onReplica r.anchor (fun x => { x with dark := true })).Occupied a := h.onReplica (fun _ => rfl) fun _ hx => hx
    show Part.Occupied a (match e.task with | some k => _ | none => _)
    split
    case' h_1 => refine ite ?_ (abort ?_)
    all_goals
      split
      · exact hdark.abortOn
      · exact hdark
  next =>
    split
    · exact (ite h.retireCluster h).abort
    · exact ite h.retireCluster h

theorem raise {e fate} (h : p.Occupied a) : (p.raise e fate).Occupied a := by
  have hlog {e handled detected program escalated depth parent} : (p.logEntry e handled detected program escalated depth parent).Occupied a :=
    h.still (.logEntry (.refl p))
  unfold Part.raise
  dsimp only
  refine ite h ?_
  split
  · exact h
  · split
    · exact hlog
    · refine ite ?_ (ite ?_ ?_)
      all_goals
        split
        · exact hlog.abort
        · exact hlog
    · exact hlog.beginScene
    · exact hlog.fatal

end Part.Occupied

/-! ### Rows and views (13, 06 R194) -/

namespace Part.Occupied

variable {a : Nat} {p q : Part}

theorem rmw {b l} (h : p.Occupied a) : (p.rmw b l).Occupied a := by
  have hread : p.Still (p.countRead b) := .countRead (.refl p)
  exact still (ite (h.still hread.noteDamaged).raise (h.still hread)) (.writePart (.refl _))

theorem viewGet {x : Part × List Byte × Bool} {y} (h : x.1.Occupied a) : (Part.viewGet x y).1.Occupied a := by
  have hread := h.still (.countRead (a := y.1) (.refl x.1))
  unfold Part.viewGet
  dsimp only
  split
  · exact hread.raise
  · exact hread

theorem viewAccess {port b acc} (h : p.Occupied a) : (p.viewAccess port b acc).Occupied a := by
  cases acc with
  | read n =>
    have hread : ((piecesOf b n).foldl Part.viewGet (p, [], false)).1.Occupied a :=
      List.foldlRecOn (motive := fun x => x.1.Occupied a) _ Part.viewGet h fun _ hx _ _ => hx.viewGet
    exact hread
  | write l => exact h.forEach fun x _ q hq => ite (hq.still (.writeRow (.refl q))) hq.rmw

theorem resting {cs f} (h : p.Occupied a) (hf : ∀ q : Part, q.Occupied a → (f q).Occupied a) : (p.resting cs f).Occupied a :=
  (hf p h).forEach fun _ _ q hq => ite (hq.still (.bump (.refl q))) hq

theorem pumpViewsF {n} (h : p.Occupied a) : (Part.pumpViewsF n p).Occupied a := by
  induction n generalizing p with
  | zero => exact h
  | succ n ih =>
    unfold Part.pumpViewsF
    split
    · exact h
    next v _ =>
      refine ih (h.resting fun q hq => ?_)
      have hleft : Part.Occupied a { q with views := q.views.filter (fun x => x.uid ≠ v.uid) } := hq
      refine ite ?_ hleft.viewAccess
      dsimp only
      split
      · exact hleft.still (.emit (.refuse (.refl _)))
      · exact hleft.still (.refuse (.refl _))

theorem pumpViews (h : p.Occupied a) : p.pumpViews.Occupied a := h.pumpViewsF

end Part.Occupied

end Sys2Proof.Machine

/-! ## A restore whose missed releases take a counter past 2^32 -/

namespace Sys2Proof.Machine
open Sys2Proof

/-! ### A restore that none should abort (10 R321, 11 R330)

The clusters of a replica's rectangle are not bound by its die: rows of 481 clusters, 20 apart, overlap, and cluster 480 lies in each of 25 rows.
A curtain's release visits core 0 of it 25 times. Thread 0 there asks to arrive again and does not leave that state, so that each visit counts. -/

/-- A thread that arrives again at curtain 0 whenever the curtain is released. -/
def rearriver : Thread := { Thread.reset with st := .ready, on := .rearrive 0 false }

/-- Core 0 of cluster 480: it has arrived at curtain 0, and its counter 0 is 25 short of 2^32. -/
def nearCore : Core := { Core.reset with threads := [rearriver], cnt := [0xFFFFFFE7], arrivals := [(0, ⟨true, false⟩)] }

/-- A replica of 25 rows of 481 clusters, being restored. -/
def wideReplica : Replica := { Tests.rep0 with w := 481, h := 25, st := .restoring, task := some Tests.key0 }
def wideTask : Task := { Tests.taskRun with save := some (0, 0, 1) }
/-- Curtain 0 is package curtain 0 and counts its releases in counter 0. -/
def wideScene : Scene := { Tests.scene0 with r := 0, decl := [(3, 0, 0)] }

/-- Package curtain 0 was released once while the task was switched out. -/
def wideState : State :=
  Tests.st ({ Part.reset with
    phase := .ready
    cores := [(7680, nearCore)]
    stg := { Stage.reset with
      scenes := [wideScene], replicas := [wideReplica], tasks := [wideTask], saved := [⟨Tests.key0, 0, [], [], []⟩]
      pcurts := [(0, { PCurt.reset with gen := 1 })] } }.setRegN (Reg.MEM_CAPACITY.at [0]) (2 ^ 40))

theorem wideState_restores : wideState.part.phase = .ready ∧ wideState.part.replicaOf 0 = some wideReplica ∧
    wideState.part.task Tests.key0 = some wideTask ∧ 0 ∉ wideState.part.stg.saveq ∧
    wideState.part.stg.saved.find? (fun x => decide (x.key = Tests.key0)) = some ⟨Tests.key0, 0, [], [], []⟩ ∧
    wideState.part.areaBase 0 0 = 0 ∧ wideState.part.saveRows wideReplica = 0 := by decide +kernel

theorem wideState_core (c : Nat) : wideState.part.core c = if c = 7680 then nearCore else Core.reset := by
  by_cases hc : c = 7680
  · subst hc
    rfl
  · rw [if_neg hc]
    simp [wideState, Tests.st, Part.core, Part.setRegN, Part.setReg, Tab.get, Ne.symm hc]

/-- No counter of the replica is within 24 of 2^32. -/
theorem wideState_counters : ∀ x ∈ ([] : List Core) ++ wideReplica.cores.map wideState.part.core, ∀ y ∈ x.cnt, y.toNat + 24 < 2 ^ 32 := by
  have hnear : ∀ y ∈ nearCore.cnt, y.toNat + 24 < 2 ^ 32 := by simp [nearCore]
  have hreset : ∀ y ∈ Core.reset.cnt, y.toNat + 24 < 2 ^ 32 := by simp [Core.reset]
  intro x hx
  rw [List.nil_append] at hx
  obtain ⟨c, -, rfl⟩ := List.mem_map.mp hx
  rw [wideState_core]
  split
  · exact hnear
  · exact hreset

/-- Every row below 2^40 is good and on a working channel. -/
theorem wideState_rows {a : Nat} (h : a < 2 ^ 40) : wideState.part.readFault a = none ∧ wideState.part.lost a = false := by
  have hcap : wideState.part.cap = 2 ^ 40 := by decide +kernel
  have hhome : wideState.part.homeAt a = .lpddr := by
    unfold Part.homeAt homeOf
    rw [hcap, if_pos (by omega), if_pos h]
  have hgood : wideState.part.rowGood a = true := by
    have htags : wideState.part.tagErr = [] := rfl
    have hpoison : wideState.part.poison = [] := rfl
    simp [Part.rowGood, htags, hpoison]
  have hchannels : ∀ n < 128, bitOf (wideState.part.regN (Reg.MEM_CH_STAT.at [n / 64, n % 64])) 1 = false := by decide +kernel
  have hfailed : wideState.part.chFailed a = false := hchannels _ (Tests.channelOf_lt a)
  constructor
  · simp [Part.readFault, hhome, hfailed, hgood]
  · simp [Part.lost, hfailed]

/-- The area of a replica whose scene saves no store rows has a section of 0x12C000 bytes for each cluster. -/
theorem Part.areaRows_lt (p : Part) (r : Replica) : ∀ o ∈ p.areaRows r 0, o < 0x1000 + r.clusters.length * 0x12C000 := by
  have hsection : sectionSize 0 = 0x12C000 := by decide
  have hindex : ∀ x ∈ r.clusters.zipIdx, x.2 * 0x12C000 + 0x12C000 ≤ r.clusters.length * 0x12C000 := fun x hx => by
    have := List.snd_lt_of_mem_zipIdx hx
    omega
  have hscratch : ∀ c, scratchRows (p.partition c) ≤ 96 := fun c => by
    unfold scratchRows
    split <;> decide
  intro o ho
  simp only [Part.areaRows, Part.restoreRows, viewRows, hsection, List.range_zero, List.map_nil, List.append_nil, List.map_flatMap, List.map_map,
    List.map_append, List.mem_append, List.mem_flatMap, List.mem_map, List.mem_range, Function.comp] at ho
  rcases ho with (⟨j, hj, rfl⟩ | ⟨x, hx, k, hk, (⟨j, hj, rfl⟩ | ⟨j, hj, rfl⟩) | ⟨j, hj, rfl⟩⟩) |
    ⟨x, hx, ⟨k, hk, ⟨j, hj, rfl⟩ | ⟨j, hj, rfl⟩⟩ | ⟨j, hj, rfl⟩⟩
  case inl.inl => omega
  case inl.inr.inl.inl =>
    have := hscratch (16 * x.1 + k)
    have := hindex x hx
    omega
  all_goals
    have := hindex x hx
    omega

theorem wideReplica_length : wideReplica.clusters.length = 12025 := by
  simp [wideReplica, Replica.clusters, rectClusters, List.length_flatMap, Tests.rep0]

/-- Each row of the rectangle holds cluster 480. -/
theorem wideReplica_visits : 25 ≤ wideReplica.cores.count 7680 := by
  have hrows : wideReplica.cores = (List.range 25).flatMap (fun r =>
      ((List.range 481).map (fun c => 20 * r + c)).flatMap (fun cl => (List.range 16).map (fun k => 16 * cl + k))) := by
    simp [wideReplica, Replica.cores, Replica.clusters, rectClusters, Tests.rep0, List.flatMap_assoc]
  have hvisit : ∀ n ∈ (List.range 25).map (fun r => List.count 7680
      (((List.range 481).map (fun c => 20 * r + c)).flatMap (fun cl => (List.range 16).map (fun k => 16 * cl + k)))), 1 ≤ n := by
    intro n hn
    obtain ⟨r, hr, rfl⟩ := List.mem_map.mp hn
    have := List.mem_range.mp hr
    refine List.one_le_count_iff.mpr (List.mem_flatMap.mpr ⟨480, List.mem_map.mpr ⟨480 - 20 * r, List.mem_range.mpr (by omega), by omega⟩, ?_⟩)
    exact List.mem_map.mpr ⟨0, by decide, rfl⟩
  have hsum := List.length_le_sum_of_one_le _ hvisit
  rw [List.length_map, List.length_range] at hsum
  rw [hrows, List.count_flatMap]
  exact hsum

theorem wideReplica_holds (gens : Tab CurtState) : Replica.holds { wideReplica with curts := gens } (clusterOf 7680) = true := by
  unfold Replica.holds Replica.clusters
  exact List.elem_eq_true_of_mem (mem_rectClusters (die := 0) (origin := 0) (w := 481) (h := 25) (row := 0) (col := 480) (by decide) (by decide))

/-! ### One visit of the release (11 R341 R342) -/

theorem Core.arrival_of_sync {k k' : Core} (h : k.sync = k'.sync) (cur : Nat) : k.arrival cur = k'.arrival cur := by
  have harrivals : k.arrivals = k'.arrivals := congrArg (·.2.2) h
  rw [Core.arrival, harrivals, Core.arrival]

theorem Part.releaseCore_of_absent {p : Part} {c cur : Nat} (h : ((p.core c).arrival cur).pending = false) (notify : Nat) :
    p.releaseCore c cur notify = p := by
  simp [Part.releaseCore, h]

/-- Threads that wait for the release of the core's arrival at curtain `cur` arrive again. -/
def Part.rearrive (c cur t : Nat) (p : Part) : Part := match (p.th c t).on with
  | .rearrive cu w => if cu = cur then p.arrive c t cur w else p
  | _ => p

theorem Part.releaseCore_of_counted {p : Part} {c cur : Nat} (h : (p.core c).arrival cur = ⟨true, false⟩) (notify : Nat) :
    p.releaseCore c cur notify =
      forEach (List.range 8) (Part.rearrive c cur) ((p.onCore c (fun k => k.setArrival cur Arrival.none)).addCounter c notify 1) := by
  simp only [Part.releaseCore, h, Bool.not_true, Bool.false_eq_true, if_false]
  rfl

theorem Part.rearrive_of_nothing {p : Part} {c t : Nat} (h : (p.th c t).on = .nothing) (cur : Nat) : p.rearrive c cur t = p := by
  simp only [Part.rearrive, h]

section
variable {p : Part} (h : (p.core 7680).threads = [rearriver])
include h

theorem Part.th_of_rearriver {t : Nat} (ht : t ≠ 0) : (p.th 7680 t).on = .nothing := by
  obtain ⟨n, rfl⟩ := Nat.exists_eq_succ_of_ne_zero ht
  rw [Part.th, Core.th, h]
  rfl

theorem Part.th_rearriver : p.th 7680 0 = rearriver := by
  rw [Part.th, Core.th, h]
  rfl

/-- The thread waits for no counter. -/
theorem Part.settle_of_rearriver : p.settle 7680 = p := by
  have htest : ∀ t ∈ List.range 8, Part.testThread 7680 t p = p := fun t _ => by
    by_cases ht : t = 0
    · subst ht
      simp only [Part.testThread, Part.th_rearriver h, rearriver]
    · exact Part.testThread_of_nothing (Part.th_of_rearriver h ht)
  have hplain : ∀ t ∈ List.range 8, Part.testPlain 7680 t p = p := fun t _ => by
    by_cases ht : t = 0
    · subst ht
      simp only [Part.testPlain, Part.th_rearriver h, rearriver]
    · exact Part.testPlain_of_nothing (Part.th_of_rearriver h ht)
  rw [Part.settle, forEach_eq_self htest, forEach_eq_self hplain]

end

/-- The arrival of a thread that arrives again, and stays in that state. -/
theorem Part.arrive_of_rearriver {p : Part} (h : (p.core 7680).threads = [rearriver]) (habsent : ((p.core 7680).arrival 0).pending = false) :
    (p.arrive 7680 0 0 false).stg = p.stg ∧ (p.arrive 7680 0 0 false).views = p.views ∧ (p.arrive 7680 0 0 false).phase = p.phase ∧
      (∀ c ≠ 7680, (p.arrive 7680 0 0 false).core c = p.core c) ∧
      (p.arrive 7680 0 0 false).core 7680 = (p.core 7680).setArrival 0 ⟨true, false⟩ := by
  have hstays {f : Thread → Thread} (hf : f rearriver = rearriver) : ((p.core 7680).setArrival 0 ⟨true, false⟩).onTh 0 f =
      (p.core 7680).setArrival 0 ⟨true, false⟩ := by
    have hthreads : modAt ((p.core 7680).setArrival 0 ⟨true, false⟩).threads 0 f = ((p.core 7680).setArrival 0 ⟨true, false⟩).threads := by
      rw [show ((p.core 7680).setArrival 0 ⟨true, false⟩).threads = [rearriver] from h]
      simp [modAt, hf]
    rw [Core.onTh, hthreads]
  simp only [Part.arrive, habsent, Bool.false_eq_true, if_false]
  refine ⟨rfl, rfl, rfl, fun c hc => ?_, ?_⟩
  · exact (Part.core_onTh_ne _ _ _ hc).trans (Part.core_setCore_ne _ _ hc)
  · rw [Part.core_onTh_self]
    exact (congrArg (Core.onTh · 0 _) (Part.core_setCore_self _ _ _)).trans (hstays rfl)

theorem Part.raise_program {p : Part} {e : Report} {k : TaskKey} (hphase : p.phase = .ready) (hsource : sourceClass e.source = some (1, true))
    (htask : e.task = some k) : p.raise e none = (p.logEntry e 1 1 true false 0 noParent).abort k none := by
  simp [Part.raise, hphase, hsource, htask]

/-- A counter past 2^32 is a program error: it aborts the task of the core, here the only one that runs (10 R324, 11 R330, 18 R551). -/
theorem Part.stops_raiseCore {p : Part} {c : Nat} {r : Replica} {k : TaskKey} {t : Task} (hphase : p.phase = .ready)
    (hreplicas : p.stg.replicas = [r]) (hk : r.task = some k) (hheld : r.holds (clusterOf c) = true) (ht : p.task k = some t)
    (unit addr : Nat) (detail : W64) : p.Stops (p.raiseCore c 0x0071 unit addr detail none) r := by
  have htask : p.taskOf c = some k := by simp [Part.taskOf, Part.replicaAt, hreplicas, hheld, hk]
  have hraise : p.raise ⟨0x0071, 0, dieOf c, (c / 16) % 400, c % 16, unit, p.taskOf c, addr, detail⟩ none = _ :=
    Part.raise_program hphase rfl htask
  obtain ⟨e, heq⟩ : ∃ e, p.raiseCore c 0x0071 unit addr detail none = (p.logEntry e 1 1 true false 0 noParent).abort k none := ⟨_, hraise⟩
  have hlogged : p.Still (p.logEntry e 1 1 true false 0 noParent) := .logEntry (.refl p)
  have ht' : (p.logEntry e 1 1 true false 0 noParent).task k = some t := by rw [Part.task, hlogged.stg]; exact ht
  have hfound : (p.logEntry e 1 1 true false 0 noParent).stg.replicas.find? (fun x => x.task == some k) = some r := by
    simp [hlogged.stg, hreplicas, hk]
  obtain ⟨hstopped, hviews, hsync⟩ := Part.stops_abortOn ht' r none
  rw [heq, Part.abort, hfound]
  exact ⟨hstopped.trans (Part.replicas_onReplica_congr (congrArg (·.replicas) hlogged.stg) _ _), hviews.trans hlogged.views,
    fun c => (hsync c).trans (by rw [hlogged.sync])⟩

/-- The curtain has been released `n` times at core 7680, whose task is still there; no other arrival is pending. -/
structure Part.Nearing (n : Nat) (p : Part) : Prop where
  phase : p.phase = .ready
  views : p.views = []
  replicas : ∃ gens, p.stg.replicas = [{ wideReplica with curts := gens }]
  task : ∃ t, p.task Tests.key0 = some t
  threads : (p.core 7680).threads = [rearriver]
  cnt : (p.core 7680).cnt = [BitVec.ofNat 32 (0xFFFFFFE7 + n)]
  arrived : (p.core 7680).arrival 0 = ⟨true, false⟩
  others : ∀ c cur, c ≠ 7680 ∨ cur ≠ 0 → ((p.core c).arrival cur).pending = false

/-- No view access waits, and the replica at 0 has no task. -/
def Part.Vacant (p : Part) : Prop := p.views = [] ∧ ∃ r, p.replicaOf 0 = some r ∧ r.task = none

/-- The replica has lost its task, and no arrival is pending. -/
def Part.Fallen (p : Part) : Prop := p.Vacant ∧ ∀ c cur, ((p.core c).arrival cur).pending = false

section
variable {p : Part} {n : Nat} (h : p.Nearing n)
include h

theorem Part.Nearing.threads_over : ((p.onCore 7680 (fun k => k.setArrival 0 Arrival.none)).core 7680).threads = [rearriver] := by
  rw [Part.core_onCore_self]
  exact h.threads

theorem Part.Nearing.cnt_over (hn : n < 25) :
    (((p.onCore 7680 (fun k => k.setArrival 0 Arrival.none)).core 7680).cnt.getD 0 0).toNat = 0xFFFFFFE7 + n := by
  rw [Part.core_onCore_self]
  show ((p.core 7680).cnt.getD 0 0).toNat = _
  rw [h.cnt]
  simp
  omega

/-- The release counts, and the thread arrives again. -/
theorem Part.Nearing.next (hn : n < 24) : (p.releaseCore 7680 0 0).Nearing (n + 1) := by
  have hcnt := h.cnt_over (by omega)
  have hbelow : ¬ 2 ^ 32 ≤ 0xFFFFFFE7 + n + 1 := by omega
  rw [Part.releaseCore_of_counted h.arrived, Part.addCounter, Part.countUp, hcnt, if_neg hbelow, if_neg hbelow]
  generalize hq : Part.onCore (p.onCore 7680 (fun k => k.setArrival 0 Arrival.none)) 7680 _ = q
  have hcore : q.core 7680 = { (p.core 7680).setArrival 0 Arrival.none with cnt := [BitVec.ofNat 32 (0xFFFFFFE7 + (n + 1))] } := by
    have hset : ((p.core 7680).setArrival 0 Arrival.none).cnt.set 0 (BitVec.ofNat 32 (0xFFFFFFE7 + n + 1)) =
        [BitVec.ofNat 32 (0xFFFFFFE7 + (n + 1))] := by
      rw [show ((p.core 7680).setArrival 0 Arrival.none).cnt = _ from h.cnt]
      rfl
    rw [← hq, Part.core_onCore_self, Part.core_onCore_self, hset]
  have hothers : ∀ c ≠ 7680, q.core c = p.core c := fun c hc => by rw [← hq, Part.core_onCore_ne _ _ hc, Part.core_onCore_ne _ _ hc]
  have hthreads : (q.core 7680).threads = [rearriver] := by rw [hcore]; exact h.threads
  have habsent : ((q.core 7680).arrival 0).pending = false := by
    have harrival : (q.core 7680).arrival 0 = Arrival.none := by rw [hcore]; exact Core.arrival_setArrival_self _ _ _
    rw [harrival]
    rfl
  obtain ⟨hstg, hviews, hphase, hne, hself⟩ := Part.arrive_of_rearriver hthreads habsent
  have hagain : Part.rearrive 7680 0 0 q = q.arrive 7680 0 0 false := by simp [Part.rearrive, Part.th_rearriver hthreads, rearriver]
  have hthreads' : ((q.arrive 7680 0 0 false).core 7680).threads = [rearriver] := by rw [hself]; exact hthreads
  rw [Part.settle_of_rearriver hthreads, forEach_only List.nodup_range (show 0 ∈ List.range 8 by decide)
    (fun t _ ht => Part.rearrive_of_nothing (Part.th_of_rearriver hthreads ht) 0)
    (fun t _ ht => by rw [hagain]; exact Part.rearrive_of_nothing (Part.th_of_rearriver hthreads' ht) 0), hagain]
  have hstg' : q.stg = p.stg := by rw [← hq]; rfl
  constructor
  case phase => rw [hphase, ← hq]; exact h.phase
  case views => rw [hviews, ← hq]; exact h.views
  case replicas => rw [hstg, hstg']; exact h.replicas
  case task => rw [Part.task, hstg, hstg']; exact h.task
  case threads => exact hthreads'
  case cnt => rw [hself, hcore]; rfl
  case arrived => rw [hself]; exact Core.arrival_setArrival_self _ _ _
  case others =>
    intro c cur hother
    by_cases hc : c = 7680
    · subst hc
      have hcur : cur ≠ 0 := hother.resolve_left (not_not_intro rfl)
      have harrival : ((q.arrive 7680 0 0 false).core 7680).arrival cur = (p.core 7680).arrival cur := by
        rw [hself, hcore]
        exact (Tab.get_put_ne _ _ _ hcur).trans (Tab.get_put_ne _ _ _ hcur)
      rw [harrival]
      exact h.others _ _ (.inr hcur)
    · rw [hne c hc, hothers c hc]
      exact h.others _ _ (.inl hc)

/-- The release takes the counter past 2^32, and the task is aborted (11 R330, 10 R324). -/
theorem Part.Nearing.falls (hn : n = 24) : (p.releaseCore 7680 0 0).Fallen := by
  have hcnt := h.cnt_over (by omega)
  have hpast : 2 ^ 32 ≤ 0xFFFFFFE7 + n + 1 := by omega
  rw [Part.releaseCore_of_counted h.arrived, Part.addCounter, Part.countUp, hcnt, if_pos hpast, if_pos hpast]
  generalize hq : Part.orReg (Part.onCore (p.onCore 7680 (fun k => k.setArrival 0 Arrival.none)) 7680 _) _ _ = q
  have hothers : ∀ c ≠ 7680, q.core c = p.core c := fun c hc => by
    rw [← hq, Part.orReg, Part.core_setReg, Part.core_onCore_ne _ _ hc, Part.core_onCore_ne _ _ hc]
  have hstg : q.stg = p.stg := by rw [← hq]; rfl
  have hviews : q.views = p.views := by rw [← hq]; rfl
  have hphase : q.phase = p.phase := by rw [← hq]; rfl
  obtain ⟨gens, hreplicas⟩ := h.replicas
  obtain ⟨t, ht⟩ := h.task
  have hmem : 7680 ∈ wideReplica.cores := List.one_le_count_iff.mp (le_trans (by decide) wideReplica_visits)
  have ht' : q.task Tests.key0 = some t := by rw [Part.task, hstg]; exact ht
  obtain ⟨hstopped, hviews', hsync⟩ := Part.stops_raiseCore (hphase.trans h.phase) (hstg ▸ hreplicas) rfl (wideReplica_holds gens) ht' 0 0 0
  generalize q.raiseCore 7680 0x0071 0 0 0 none = u at hstopped hviews' hsync
  have hsync' : ∀ c, (u.core c).sync = if c ∈ wideReplica.cores then Core.reset.stop.sync else (q.core c).sync := hsync
  have hthreads : (u.core 7680).threads = List.replicate 8 Thread.reset := by
    have hself := hsync' 7680
    rw [if_pos hmem] at hself
    exact congrArg (·.1) hself
  have hidle : ∀ j ∈ List.range 8, Part.rearrive 7680 0 j u = u := fun j hj => by
    refine Part.rearrive_of_nothing ?_ 0
    rw [Part.th, Core.th, hthreads, List.getD_replicate _ (List.mem_range.mp hj)]
    rfl
  rw [forEach_eq_self hidle]
  refine ⟨⟨hviews'.trans (hviews.trans h.views), Replica.stopped { wideReplica with curts := gens }, ?_, rfl⟩, fun c cur => ?_⟩
  · rw [Part.replicaOf, hstopped, Part.onReplica, hstg, hreplicas]
    rfl
  · have hcore := hsync' c
    split at hcore
    · rw [Core.arrival_of_sync hcore]
      rfl
    next hc =>
      have hne : c ≠ 7680 := fun heq => hc (heq ▸ hmem)
      rw [Core.arrival_of_sync hcore, hothers c hne]
      exact h.others c cur (.inl hne)

end

/-! ### The visits of a release -/

theorem Part.Nearing.of_onlyRegs {p q : Part} {n : Nat} (h : p.Nearing n) (hq : p.OnlyRegs q) : q.Nearing n := by
  obtain ⟨r, rfl⟩ := hq
  exact ⟨h.phase, h.views, h.replicas, h.task, h.threads, h.cnt, h.arrived, h.others⟩

theorem Part.Fallen.of_onlyRegs {p q : Part} (h : p.Fallen) (hq : p.OnlyRegs q) : q.Fallen := by
  obtain ⟨r, rfl⟩ := hq
  exact h

theorem Part.Fallen.visited {p : Part} (h : p.Fallen) (c cur notify : Nat) : (p.onTheCore c (·.releaseCore c cur notify)).Fallen := by
  refine Fallen.of_onlyRegs ?_ (p.onlyRegs_onTheCore c _)
  rw [Part.releaseCore_of_absent (h.2 c cur)]
  exact h

/-- The curtain's release visits the cores of `l`: with enough visits of core 7680 among them the task is lost. -/
theorem Part.fallen_of_visits (l : List Nat) {p : Part} (h : p.Fallen ∨ ∃ n < 25, p.Nearing n ∧ 25 ≤ n + l.count 7680) :
    (forEach l (fun c x => x.onTheCore c (·.releaseCore c 0 0)) p).Fallen := by
  induction l generalizing p with
  | nil =>
    obtain hfallen | ⟨n, hn, -, hcount⟩ := h
    · exact hfallen
    · rw [List.count_nil] at hcount
      omega
  | cons c l ih =>
    refine ih (p := p.onTheCore c (·.releaseCore c 0 0)) ?_
    have hregs := p.onlyRegs_onTheCore c (·.releaseCore c 0 0)
    obtain hfallen | ⟨n, hn, hnear, hcount⟩ := h
    · exact .inl (hfallen.visited c 0 0)
    · by_cases hc : c = 7680
      · subst hc
        rw [List.count_cons_self] at hcount
        obtain hlt | heq : n < 24 ∨ n = 24 := by omega
        · exact .inr ⟨n + 1, by omega, (hnear.next hlt).of_onlyRegs hregs, by omega⟩
        · exact .inl ((hnear.falls heq).of_onlyRegs hregs)
      · rw [List.count_cons_of_ne hc] at hcount
        rw [Part.releaseCore_of_absent (hnear.others c 0 (.inl hc))] at hregs
        exact .inr ⟨n, hn, hnear.of_onlyRegs hregs, hcount⟩

/-! ### The releases that the replica missed (11 R348, log 24) -/

theorem Part.Nearing.onNode {p : Part} {n : Nat} (h : p.Nearing n) (cl cur : Nat) (f : CurtState → CurtState) : (p.onNode cl cur f).Nearing n :=
  ⟨h.phase, h.views, h.replicas, h.task, h.threads, h.cnt, h.arrived, h.others⟩

theorem Part.Nearing.onRNode {p : Part} {n : Nat} (h : p.Nearing n) (cur : Nat) (f : CurtState → CurtState) : (p.onRNode 0 cur f).Nearing n := by
  obtain ⟨gens, hreplicas⟩ := h.replicas
  refine ⟨h.phase, h.views, ⟨Tab.put CurtState.reset gens cur (f (Tab.get CurtState.reset gens cur)), ?_⟩, h.task, h.threads, h.cnt, h.arrived,
    h.others⟩
  rw [Part.onRNode, Part.onReplica, hreplicas]
  rfl

theorem Part.Fallen.onNode {p : Part} (h : p.Fallen) (cl cur : Nat) (f : CurtState → CurtState) : (p.onNode cl cur f).Fallen := h

theorem Part.Vacant.onReplica {p : Part} (h : p.Vacant) {f : Replica → Replica} (hanchor : ∀ r, (f r).anchor = r.anchor)
    (htask : ∀ r, (f r).task = r.task) : (p.onReplica 0 f).Vacant := by
  obtain ⟨hviews, r, hr, hnone⟩ := h
  exact ⟨hviews, f r, Part.replicaOf_onReplica hr (hanchor r), (htask r).trans hnone⟩

theorem Part.Fallen.onRNode {p : Part} (h : p.Fallen) (cur : Nat) (f : CurtState → CurtState) : (p.onRNode 0 cur f).Fallen :=
  ⟨h.1.onReplica (fun _ => rfl) fun _ => rfl, h.2⟩

/-- The release of one curtain that the replica missed. -/
def Part.missedRelease (r : Replica) (sv : Saved) (cur : Nat) (p : Part) : Part :=
  let d := p.curtDecl r cur
  if decide (3 ≤ d.1) && decide ((Tab.get CurtState.reset sv.scene cur).gen ≠ (p.pcurt d.2.2).gen) then
    let set_ := fun (n : CurtState) => { n with gen := (p.pcurt d.2.2).gen - 1 }
    (forEach r.clusters (fun cl y => y.onNode cl cur set_) (p.onRNode r.anchor cur set_)).releaseReplica r cur d.2.1
  else p

theorem Part.Fallen.missedRelease {p : Part} (h : p.Fallen) (sv : Saved) (cur : Nat) : (Part.missedRelease wideReplica sv cur p).Fallen := by
  have hnodes {x : Part} (hx : x.Fallen) (f : CurtState → CurtState) :
      (forEach wideReplica.clusters (fun cl y => y.onNode cl cur f) (x.onRNode 0 cur f)).Fallen :=
    forEach_keeps (hx.onRNode cur f) fun cl _ y hy => hy.onNode cl cur f
  unfold Part.missedRelease
  dsimp only
  split
  · exact forEach_keeps (hnodes (hnodes h _) _) fun c _ x hx => hx.visited c cur _
  · exact h

theorem Part.Nearing.missedRelease {p : Part} {sv : Saved} (h : p.Nearing 0) (hscenes : p.stg.scenes = [wideScene])
    (hpcurts : p.stg.pcurts = [(0, { PCurt.reset with gen := 1 })]) (hgens : Tab.get CurtState.reset sv.scene 0 = CurtState.reset) :
    (Part.missedRelease wideReplica sv 0 p).Fallen := by
  have hnodes {x : Part} (hx : x.Nearing 0) (f : CurtState → CurtState) :
      (forEach wideReplica.clusters (fun cl y => y.onNode cl 0 f) (x.onRNode 0 0 f)).Nearing 0 :=
    forEach_keeps (hx.onRNode 0 f) fun cl _ y hy => hy.onNode cl 0 f
  have hdecl : p.curtDecl wideReplica 0 = (3, 0, 0) := by
    rw [Part.curtDecl, Part.sceneOf, hscenes]
    rfl
  have hgen : (p.pcurt 0).gen = 1 := by
    rw [Part.pcurt, hpcurts]
    rfl
  unfold Part.missedRelease
  rw [hdecl]
  dsimp only
  rw [hgens, hgen, if_pos (by decide)]
  exact Part.fallen_of_visits _ (.inr ⟨0, by decide, hnodes (hnodes h _) _, by rw [Nat.zero_add]; exact wideReplica_visits⟩)

/-! ### The restore (10 R321 R323) -/

theorem Part.Vacant.keep {p q : Part} (h : p.Vacant) (hreplicas : q.stg.replicas = p.stg.replicas) (hviews : q.views = p.views) : q.Vacant := by
  obtain ⟨hnone, r, hr, htask⟩ := h
  exact ⟨hviews.trans hnone, r, (Part.replicaOf_congr hreplicas 0).trans hr, htask⟩

/-- The part with the rows of the area counted as read. -/
def Part.areaRead (p : Part) (r : Replica) (base rows : Nat) : Part := forEach (p.areaRows r rows) (fun o x => x.countRead (base + o)) p

/-- The threads that the restored cores' state lets go on are tested, and waiting messages start their handlers. -/
def Part.goOn (p : Part) (l : List Nat) : Part := forEach l (fun c x => (x.settle c).dispatch c) p

theorem Part.restoreComplete_of_good {p : Part} {a : Nat} {r : Replica} {k : TaskKey} {t : Task} {d g n : Nat} {v : Saved}
    (hr : p.replicaOf a = some r) (hst : r.st = .restoring) (hqueue : a ∉ p.stg.saveq) (hk : r.task = some k) (ht : p.task k = some t)
    (hsave : t.save = some (d, g, n)) (hsaved : p.stg.saved.find? (fun x => decide (x.key = k)) = some v)
    (hrows : ∀ o ∈ p.areaRows r (p.saveRows r), p.readFault (p.areaBase d g + o) = none ∧ p.lost (p.areaBase d g + o) = false) :
    p.restoreComplete a = (((((p.areaRead r (p.areaBase d g) (p.saveRows r)).restoreAll r t v (p.areaBase d g) (p.saveRows r)).onReplica a
      (fun x => { x with st := .running })).freeSave t.key).goOn r.cores) := by
  have hlost : (p.areaRows r (p.saveRows r)).find? (fun o => p.lost (p.areaBase d g + o)) = none :=
    List.find?_eq_none.mpr fun o ho => by simp [(hrows o ho).2]
  have hfault : (p.areaRows r (p.saveRows r)).find? (fun o => (p.readFault (p.areaBase d g + o)).isSome) = none :=
    List.find?_eq_none.mpr fun o ho => by simp [(hrows o ho).1]
  have hbind : r.task.bind p.task = some t := by rw [hk]; exact ht
  have helem : p.stg.saveq.elem a = false := by simpa using hqueue
  rw [← Part.key_of_task ht] at hsaved
  -- Opened as a function over unknown tests of rows: applied to `p`, the kernel would compute the rows' addresses out.
  generalize hcomplete : Part.restoreComplete = complete
  obtain ⟨lost, hl⟩ : ∃ l, l = Part.lost := ⟨_, rfl⟩
  obtain ⟨fault, hf⟩ : ∃ f, f = Part.readFault := ⟨_, rfl⟩
  delta Part.restoreComplete at hcomplete
  rw [← hl, ← hf] at hcomplete
  rw [← hl] at hlost
  rw [← hf] at hfault
  subst hcomplete
  simp only [hr, hst, ne_eq, not_true_eq_false, decide_false, helem, Bool.or_self, Bool.false_eq_true, if_false, hbind, hsave, hsaved, hlost, hfault]
  rfl

theorem Part.onlyCores_goOn (p : Part) (l : List Nat) : p.OnlyCores (p.goOn l) :=
  forEach_keeps (P := p.OnlyCores) (.refl p) fun c _ q hq => by
    have hsettled := hq.trans (Part.OnlyAt.settle (c := c) (.refl q)).cores
    unfold Part.dispatch
    dsimp only
    split
    · exact hsettled.trans (Part.onlyCores_dispatchFrom _ _ _)
    · exact hsettled

/-- Once the rows are back, the releases that the replica missed find the arrival at core 7680 pending. -/
theorem Part.restored_nearing {q : Part} (h : wideState.part.Still q) : (q.onReplica 0 (fun x => { x with curts := [] })).Nearing 0 := by
  have hcore (c : Nat) : ((q.onReplica 0 (fun x => { x with curts := [] })).core c).sync = (if c = 7680 then nearCore else Core.reset).sync := by
    rw [← wideState_core c]
    exact h.sync c
  have hself : ((q.onReplica 0 (fun x => { x with curts := [] })).core 7680).sync = nearCore.sync := (hcore 7680).trans (by rw [if_pos rfl])
  constructor
  case phase => exact h.phase
  case views => exact h.views
  case replicas => exact ⟨[], by rw [Part.onReplica, h.stg]; rfl⟩
  case task => exact ⟨wideTask, by rw [Part.task, Part.onReplica, h.stg]; rfl⟩
  case threads => exact congrArg (·.1) hself
  case cnt => exact congrArg (·.2.1) hself
  case arrived => rw [Core.arrival_of_sync hself]; rfl
  case others =>
    intro c cur hother
    rw [Core.arrival_of_sync (hcore c)]
    split
    next hc =>
      have hcur : cur ≠ 0 := hother.resolve_left (not_not_intro hc)
      simp [Core.arrival, nearCore, Tab.get, Ne.symm hcur, Arrival.none]
    · rfl

theorem forEach_nil {α β : Type} (f : α → β → β) (b : β) : forEach [] f b = b := rfl
theorem forEach_cons {α β : Type} (a : α) (l : List α) (f : α → β → β) (b : β) : forEach (a :: l) f b = forEach l f (f a b) := rfl

/-- The part with the rows of the area written back. -/
def Part.rowsRestored (p : Part) (r : Replica) (base rows : Nat) : Part :=
  forEach (p.restoreRows r rows) (fun (o, a) x => x.writeRow a (p.bytesAt (base + o) 512) 0) p

/-- A save area that holds no core's and no cluster's state gives back its rows alone. -/
theorem Part.restoreAll_of_empty (p : Part) (r : Replica) {t : Task} (ht : t.psingo = false) (k : TaskKey) (uid base rows : Nat) :
    p.restoreAll r t ⟨k, uid, [], [], []⟩ base rows = forEach r.cores (fun c x => x.resumeCore c false)
      (forEach (List.range 16) (Part.missedRelease r ⟨k, uid, [], [], []⟩)
        ((p.rowsRestored r base rows).onReplica r.anchor (fun x => { x with curts := [] }))) := by
  unfold Part.restoreAll
  dsimp only
  rw [List.zip_nil_right, List.zip_nil_right, List.zipIdx_nil, forEach_nil, forEach_nil, ht]
  rfl

/-- The releases that the replica missed take its task from it. -/
theorem Part.restoreAll_vacant {q : Part} (h : wideState.part.Still q) (base rows : Nat) :
    (q.restoreAll wideReplica wideTask ⟨Tests.key0, 0, [], [], []⟩ base rows).Vacant := by
  have hstill : wideState.part.Still (q.rowsRestored wideReplica base rows) := h.forEach fun _ _ x => .writeRow (.refl x)
  have hfirst := (Part.restored_nearing hstill).missedRelease (sv := ⟨Tests.key0, 0, [], [], []⟩)
    (by rw [Part.onReplica, hstill.stg]; rfl) (by rw [Part.onReplica, hstill.stg]; rfl) rfl
  have hfallen := forEach_keeps (P := Part.Fallen) (l := List.range' 1 15) hfirst
    fun cur _ x hx => hx.missedRelease ⟨Tests.key0, 0, [], [], []⟩ cur
  rw [← forEach_cons] at hfallen
  rw [Part.restoreAll_of_empty _ _ (by decide)]
  exact forEach_keeps hfallen.1 fun c _ x hx => hx.keep rfl rfl

/-- At the end the replica runs, without a task. -/
theorem Part.runs_vacant {p : Part} (h : p.Vacant) (k : TaskKey) (l : List Nat) :
    (((p.onReplica 0 (fun x => { x with st := .running })).freeSave k).goOn l).views = [] ∧
      ∃ r, (((p.onReplica 0 (fun x => { x with st := .running })).freeSave k).goOn l).replicaOf 0 = some r ∧ r.st = .running ∧ r.task = none := by
  obtain ⟨hviews, r, hr, htask⟩ := h
  have hrun : (p.onReplica 0 (fun x => { x with st := .running })).replicaOf 0 = some { r with st := .running } := Part.replicaOf_onReplica hr rfl
  have hfreed := (Undisturbed.refl (p.onReplica 0 (fun x => { x with st := .running }))).freeSave (k := k)
  have hgone := ((p.onReplica 0 (fun x => { x with st := .running })).freeSave k).onlyCores_goOn l
  exact ⟨hgone.views.trans (hfreed.views.trans hviews), _,
    (Part.replicaOf_congr (congrArg (·.replicas) hgone.stg) 0).trans ((Part.replicaOf_congr hfreed.replicas 0).trans hrun), rfl, htask⟩

theorem wideState_area : ∀ o ∈ wideState.part.areaRows wideReplica (wideState.part.saveRows wideReplica),
    wideState.part.readFault (wideState.part.areaBase 0 0 + o) = none ∧ wideState.part.lost (wideState.part.areaBase 0 0 + o) = false := by
  obtain ⟨-, -, -, -, -, hbase, hrows⟩ := wideState_restores
  rw [hrows, hbase]
  intro o ho
  have hlt := wideState.part.areaRows_lt wideReplica o ho
  rw [wideReplica_length] at hlt
  exact wideState_rows (by omega)

theorem wideState_loses : (wideState.part.restoreComplete 0).views = [] ∧
    ∃ r, (wideState.part.restoreComplete 0).replicaOf 0 = some r ∧ r.st = .running ∧ r.task = none := by
  obtain ⟨-, hr, ht, hqueue, hsaved, -, -⟩ := wideState_restores
  rw [Part.restoreComplete_of_good hr rfl hqueue rfl ht rfl hsaved wideState_area]
  have hstill (base rows : Nat) : wideState.part.Still (wideState.part.areaRead wideReplica base rows) :=
    (Part.Still.refl wideState.part).forEach fun _ _ x => .countRead (.refl x)
  exact Part.runs_vacant (Part.restoreAll_vacant (hstill _ _) _ _) _ _

/-- Refutes O18: its clause on a restore's end does not ask that the rows of the replica's rectangle lie apart. In `wideState` the release that the
replica missed visits core 7680, whose counter is 25 short of 2^32, once for each of 25 rows, and the task is aborted. -/
theorem not_preemptionSavesAndRestores : ¬ Obligations.PreemptionSavesAndRestores := by
  unfold Obligations.PreemptionSavesAndRestores
  intro ⟨_, hsaves⟩
  obtain ⟨hready, hr, ht, hqueue, hsaved, -, -⟩ := wideState_restores
  obtain ⟨-, -, hrestores⟩ := hsaves wideState 0 wideReplica Tests.key0 wideTask 0 0 1 hready hr rfl ht rfl
  obtain ⟨u, r', t', hexec, hr', -, htask, -⟩ := hrestores _ rfl hqueue hsaved wideState_counters fun o ho => (wideState_area o ho).1
  have hstep : exec (.restoreComplete 0) wideState = .next (wideState.act (fun p => (p.restoreComplete 0).pumpViews)) := State.live_eq hready _
  have hserved : u.served = wideState.act (fun p => (p.restoreComplete 0).pumpViews) := Host.Outcome.next.inj (hexec.symm.trans hstep)
  have hoccupied : u.part.Occupied 0 := fun r hr _ => by
    obtain rfl := Option.some.inj (hr'.symm.trans hr)
    rw [htask]
    exact Option.some_ne_none _
  have hafter : (wideState.part.restoreComplete 0).pumpViews.Occupied 0 := by
    rw [← State.act_part wideState (fun p => (p.restoreComplete 0).pumpViews), ← hserved]
    exact hoccupied.pumpViews
  obtain ⟨hviews, r, hreplica, hrun, hnone⟩ := wideState_loses
  rw [Part.pumpViews, hviews] at hafter
  exact hafter r hreplica hrun hnone

end Sys2Proof.Machine

/-! ## Remote additions, forwarded firings and external edges -/

namespace Sys2Proof.Machine
open Sys2Proof

/-- An event of the running part leaves the part that its effect leaves. -/
theorem State.live_eq_of {s : State} (hready : s.part.phase = .ready) {f : Part → Part} {q : Part} (h : f s.part = q) :
    s.live f = .next { s with part := q } := by
  rw [State.live_eq hready, State.act, h]

theorem State.sameBytes_of_mem {s : State} {q : Part} (h : q.mem = s.part.mem) : s.sameBytes { s with part := q } :=
  fun _ => Part.byteAt_congr h _

/-! ### A remote addition (11 R330 R333) -/

/-- An addition that stays below 2^32, and the tests after it. -/
theorem Part.addCounter_of_fits {p : Part} {c i v : Nat} (h : ((p.core c).cnt.getD i 0).toNat + v < 2 ^ 32) :
    p.addCounter c i v = (p.onCore c (Core.addCnt i v)).settle c := by
  rw [Part.addCounter]
  exact (if_neg (Nat.not_le.mpr h)).trans (congrArg (Part.settle · c) (Part.countUp_of_fits h))

/-- An addition to a counter of core `c`, on its way. -/
def isAddTo (c : Nat) : Flight → Bool
  | .add k _ _ => k == c
  | _ => false

/-- The addition of `v` to counter `i` of core `c` has left the network and is made; the waiting threads are still to be tested. -/
def Part.added (p : Part) (c i v : Nat) : Part := { p with flight := dropFirst (isAddTo c) p.flight }.onCore c (Core.addCnt i v)

theorem Part.remoteAdd_of_fits {p : Part} {c k i : Nat} {v : W16} (hfind : p.flight.find? (isAddTo c) = some (.add k i v))
    (hfits : ((p.core c).cnt.getD i 0).toNat + v.toNat < 2 ^ 32) : p.remoteAdd c = (p.added c i v.toNat).settle c := by
  have hadd : p.remoteAdd c = ({ p with flight := dropFirst (isAddTo c) p.flight } : Part).addCounter c i v.toNat := by
    unfold Part.remoteAdd
    dsimp only
    split
    next h =>
      obtain ⟨-, rfl, rfl⟩ := Flight.add.inj (Option.some.inj (h.symm.trans hfind))
      rfl
    next h => exact absurd hfind (h _ _ _)
  rw [hadd]
  exact Part.addCounter_of_fits hfits

theorem exec_cueRemoteAdd_of_fits {s : State} (hready : s.part.phase = .ready) {c k i : Nat} {v : W16}
    (hfind : s.part.flight.find? (isAddTo c) = some (.add k i v)) (hfits : ((s.part.core c).cnt.getD i 0).toNat + v.toNat < 2 ^ 32) :
    exec (.cueRemoteAdd c) s = .next (s.rested c ((s.part.added c i v.toNat).settle c)) := by
  have hexec : exec (.cueRemoteAdd c) s = .next (s.act (·.onTheCore c (·.remoteAdd c))) := State.live_eq hready _
  rw [hexec]
  simp only [State.act, State.rested, Part.onTheCore, Part.resting, Part.remoteAdd_of_fits hfind hfits]

/-! ### A forwarded firing (11 R334 R336) -/

/-- A firing for cluster `cl`, on its way. -/
def isFireAt (cl : Nat) : Flight → Bool
  | .fire k _ => k == cl
  | _ => false

/-- The firing has left the network; no core knows of it yet. -/
def Part.unforwarded (p : Part) (cl : Nat) : Part := { p with flight := dropFirst (isFireAt cl) p.flight }

theorem Part.forwarded_of_fire {p : Part} {cl k w : Nat} (hfind : p.flight.find? (isFireAt cl) = some (.fire k w)) :
    p.forwarded cl = (p.unforwarded cl).fireWire cl w := by
  unfold Part.forwarded
  dsimp only
  split
  next h =>
    obtain ⟨-, rfl⟩ := Flight.fire.inj (Option.some.inj (h.symm.trans hfind))
    rfl
  next h => exact absurd hfind (h _ _)

theorem exec_wireForward_of_fire {s : State} (hready : s.part.phase = .ready) {cl k w : Nat}
    (hfind : s.part.flight.find? (isFireAt cl) = some (.fire k w)) :
    exec (.wireForward cl) s = .next { s with part := (s.part.unforwarded cl).fireWire cl w } :=
  State.live_eq_of hready (Part.forwarded_of_fire hfind)

/-! ### An edge of an external input (11 R338 R339) -/

/-- The edge of input `i` at time `t` is taken, stamped and counted; no core knows of it yet. -/
def Part.stamped (p : Part) (i : Nat) (t : W64) : Part :=
  ({ p with pwr := { p.pwr with ins := modAt p.pwr.ins i (fun x => { x with edge := none }) } }.setReg (Reg.TIM_CUE_STAMP.at [i]) t).bump
    (Reg.TIM_CUE_COUNT.at [i]) 1

/-- The cores of every cluster of the roster. -/
def Part.rosterCores (p : Part) : List Nat := p.rosterClusters.flatMap clusterCores

theorem mem_clusterCores {cl c : Nat} : c ∈ clusterCores cl ↔ clusterOf c = cl := by
  simp only [clusterCores, List.mem_map, List.mem_range, clusterOf]
  constructor
  · rintro ⟨k, hk, rfl⟩
    omega
  · rintro rfl
    exact ⟨c % 16, by omega, by omega⟩

theorem nodup_clusterCores (cl : Nat) : (clusterCores cl).Nodup :=
  List.nodup_range.map fun a b (hab : 16 * cl + a = 16 * cl + b) => by omega

theorem Part.mem_rosterCores {p : Part} {c : Nat} : c ∈ p.rosterCores ↔ c < 25600 ∧ p.onRoster (c / 16) = true := by
  simp only [Part.rosterCores, Part.rosterClusters, List.mem_flatMap, List.mem_filter, List.mem_range, mem_clusterCores, clusterOf]
  constructor
  · rintro ⟨cl, ⟨hcl, hon⟩, rfl⟩
    exact ⟨by omega, hon⟩
  · rintro ⟨hc, hon⟩
    exact ⟨c / 16, ⟨by omega, hon⟩, rfl⟩

theorem Part.nodup_rosterCores (p : Part) : p.rosterCores.Nodup := by
  refine List.nodup_flatMap.mpr ⟨fun cl _ => nodup_clusterCores cl, (List.nodup_range.filter _).imp fun {a b} hab c ha hb => hab ?_⟩
  exact (mem_clusterCores.mp ha).symm.trans (mem_clusterCores.mp hb)

/-- Every core of `l` receives a firing of `sel`. -/
def Part.fireAll (p : Part) (l : List Nat) (sel : Nat) : Part := forEach l (fun c x => x.onCore c (·.fire sel)) p

theorem Part.onlyCores_fireAll (p : Part) (l : List Nat) (sel : Nat) : p.OnlyCores (p.fireAll l sel) :=
  (OnlyCores.refl p).forEach fun _ _ _ hq => hq.onCore

theorem Part.core_fireAll (p : Part) {l : List Nat} (hl : l.Nodup) (sel d : Nat) :
    (p.fireAll l sel).core d = if d ∈ l then (p.core d).fire sel else p.core d := by
  split
  next hd =>
    exact forEach_once (fun q : Part => q.core d) (·.fire sel) hl hd (fun q => Part.core_onCore_self _ _ _)
      (fun c _ hc q => Part.core_onCore_ne _ _ (Ne.symm hc)) p
  next hd => exact forEach_leaves (fun q : Part => q.core d) (fun c hc q => Part.core_onCore_ne _ _ (ne_of_mem_of_not_mem hc hd).symm) p

theorem Part.cueEdge_of_edge {p : Part} {i : Nat} {t : W64} (hi : i < 8) (hedge : (p.pwr.ins.getD i Input.reset).edge = some t) :
    p.cueEdge i = (p.stamped i t).fireAll p.rosterCores (64 + i) := by
  unfold Part.cueEdge
  rw [hedge]
  exact if_neg (Nat.not_le.mpr hi)

theorem exec_cueInEdge_of_edge {s : State} {i : Nat} {t : W64} (hi : i < 8) (hedge : (s.part.pwr.ins.getD i Input.reset).edge = some t) :
    exec (.cueInEdge i) s = .next { s with part := (s.part.stamped i t).fireAll s.part.rosterCores (64 + i) } := by
  have hexec : exec (.cueInEdge i) s = .next (s.act (·.cueEdge i)) := rfl
  rw [hexec, State.act, Part.cueEdge_of_edge hi hedge]

theorem cueStamp_ne_cueCount {i : Nat} (h : i < 8) : Reg.TIM_CUE_STAMP.at [i] ≠ Reg.TIM_CUE_COUNT.at [i] := by
  decide +revert

/-- Settles O19: each event is said once for its condition (`exec_cueRemoteAdd_of_fits`, `Part.forwarded_of_fire`, `Part.cueEdge_of_edge`), and a
firing that reaches several cores reaches each of them once. -/
theorem wireAndCounterEventsArrive : Obligations.WireAndCounterEventsArrive := by
  unfold Obligations.WireAndCounterEventsArrive
  refine fun s => ⟨fun c i v hready hfind hfits => ?add, fun cl w hready hfind => ?fire, fun i t hi hedge => ?edge⟩
  case add =>
    refine ⟨{ s with part := s.part.added c i v.toNat }, exec_cueRemoteAdd_of_fits hready hfind hfits, rfl, fun _ => rfl,
      fun d hd => Part.core_onCore_ne _ _ (List.ne_of_not_mem_cons hd), fun _ _ => rfl, ?_⟩
    refine (Part.core_onCore_self _ _ _).trans ?_
    rw [Core.addCnt, BitVec.ofNat_toNat]
    rfl
  case fire =>
    have hfired := (s.part.unforwarded cl).onlyCores_fireWire cl w
    refine ⟨_, exec_wireForward_of_fire hready hfind, ?_, State.sameBytes_of_mem hfired.mem, fun o _ => Part.reg_congr hfired.regs o,
      Part.core_fireWire _ cl w⟩
    obtain ⟨l, hl⟩ := hfired
    rw [hl]
    rfl
  case edge =>
    have hexec := exec_cueInEdge_of_edge hi hedge
    have hfired := (s.part.stamped i t).onlyCores_fireAll s.part.rosterCores (64 + i)
    have hcores := (s.part.stamped i t).core_fireAll s.part.nodup_rosterCores (64 + i)
    generalize (s.part.stamped i t).fireAll s.part.rosterCores (64 + i) = q at hexec hfired hcores
    have hreg : ∀ o, q.reg o = (s.part.stamped i t).reg o := Part.reg_congr hfired.regs
    have hne := cueStamp_ne_cueCount hi
    refine ⟨_, hexec, State.sameBytes_of_mem hfired.mem, fun o ho => (hreg o).trans ?others, (hreg _).trans ?stamp, (hreg _).trans ?count,
      fun d => (hcores d).trans ?cores⟩
    case others =>
      obtain ⟨hstamp, hcount⟩ : o ≠ Reg.TIM_CUE_STAMP.at [i] ∧ o ≠ Reg.TIM_CUE_COUNT.at [i] := by simpa using ho
      exact (Part.reg_setReg_ne _ _ hcount).trans (Part.reg_setReg_ne _ _ hstamp)
    case stamp => exact (Part.reg_setReg_ne _ _ hne).trans (Part.reg_setReg_self _ _ _)
    case count =>
      rw [Part.stamped, Part.reg_bump, if_pos rfl, Part.reg_setReg_ne _ _ hne.symm]
      rfl
    case cores =>
      have hcore : (s.part.stamped i t).core d = s.part.core d := rfl
      simp only [Part.mem_rosterCores, hcore]

end Sys2Proof.Machine

/-! ## What a release of a curtain leaves, whatever it leads to -/

namespace Sys2Proof.Machine
open Sys2Proof

/-- Bytes, package nodes and the curtain packets that ports have received: not even the abort of a task whose counter runs over touches them. -/
def Part.standing (p : Part) : List Host.Cell × Tab PCurt × List (List Packet) := (p.mem, p.stg.pcurts, p.fab.ports.map (·.curtIn))

theorem Part.mem_of_standing {p q : Part} (h : q.standing = p.standing) : q.mem = p.mem := congrArg (·.1) h

theorem Part.pcurt_of_standing {p q : Part} (h : q.standing = p.standing) (k : Nat) : q.pcurt k = p.pcurt k :=
  congrArg (Tab.get PCurt.reset · k) (congrArg (·.2.1) h)

theorem Part.curtIn_eq (p : Part) (n : Nat) : (p.port n).curtIn = (p.fab.ports.map (·.curtIn)).getD n [] := by
  simp only [Part.port, List.getD_eq_getElem?_getD, List.getElem?_map]
  cases p.fab.ports[n]? <;> rfl

theorem Part.curtIn_of_standing {p q : Part} (h : q.standing = p.standing) (n : Nat) : (q.port n).curtIn = (p.port n).curtIn := by
  rw [Part.curtIn_eq, Part.curtIn_eq]
  exact congrArg (List.getD · n []) (congrArg (·.2.2) h)

theorem Part.standing_ite {c : Prop} [Decidable c] {p q r : Part} (hp : p.standing = r.standing) (hq : q.standing = r.standing) :
    (if c then p else q).standing = r.standing := by
  split
  · exact hp
  · exact hq

theorem Part.standing_forEach {α : Type} {l : List α} {f : α → Part → Part} (hf : ∀ a ∈ l, ∀ q, (f a q).standing = q.standing) (p : Part) :
    (forEach l f p).standing = p.standing := forEach_leaves Part.standing hf p

/-! ### Registers, records and events (16 R496 to R499), the error log (18 R549) -/

section
variable (p : Part)

@[simp] theorem Part.standing_setReg (o : Nat) (v : W64) : (p.setReg o v).standing = p.standing := rfl
@[simp] theorem Part.standing_setRegN (o v : Nat) : (p.setRegN o v).standing = p.standing := rfl
@[simp] theorem Part.standing_setFld (o lo len v : Nat) : (p.setFld o lo len v).standing = p.standing := rfl
@[simp] theorem Part.standing_orReg (o m : Nat) : (p.orReg o m).standing = p.standing := rfl
@[simp] theorem Part.standing_bump (o n : Nat) : (p.bump o n).standing = p.standing := rfl
@[simp] theorem Part.standing_bump32 (o n : Nat) : (p.bump32 o n).standing = p.standing := rfl
@[simp] theorem Part.standing_bump48 (o n : Nat) : (p.bump48 o n).standing = p.standing := rfl
@[simp] theorem Part.standing_bumpSat (o n : Nat) : (p.bumpSat o n).standing = p.standing := rfl
@[simp] theorem Part.standing_emit (o : Output) : (p.emit o).standing = p.standing := rfl
@[simp] theorem Part.standing_onRing (i : Nat) (f : Ring → Ring) : (p.onRing i f).standing = p.standing := rfl
@[simp] theorem Part.standing_setCore (c : Nat) (k : Core) : (p.setCore c k).standing = p.standing := rfl
@[simp] theorem Part.standing_onCore (c : Nat) (f : Core → Core) : (p.onCore c f).standing = p.standing := rfl
@[simp] theorem Part.standing_onTh (c t : Nat) (f : Thread → Thread) : (p.onTh c t f).standing = p.standing := rfl
@[simp] theorem Part.standing_onTask (k : TaskKey) (f : Task → Task) : (p.onTask k f).standing = p.standing := rfl
@[simp] theorem Part.standing_onCluster (cl : Nat) (f : Cluster → Cluster) : (p.onCluster cl f).standing = p.standing := rfl
@[simp] theorem Part.standing_onNode (cl cur : Nat) (f : CurtState → CurtState) : (p.onNode cl cur f).standing = p.standing := rfl
@[simp] theorem Part.standing_onRNode (a cur : Nat) (f : CurtState → CurtState) : (p.onRNode a cur f).standing = p.standing := rfl
@[simp] theorem Part.standing_dropDescs (k : TaskKey) : (p.dropDescs k).standing = p.standing := rfl

theorem Part.standing_onlyRegs {p q : Part} (h : p.OnlyRegs q) : q.standing = p.standing := by
  obtain ⟨r, rfl⟩ := h
  rfl

theorem Part.standing_onlyCores {p q : Part} (h : p.OnlyCores q) : q.standing = p.standing := by
  obtain ⟨l, rfl⟩ := h
  rfl

@[simp] theorem Part.standing_signal (port v : Nat) : (p.signal port v).standing = p.standing :=
  Part.standing_ite rfl (Part.standing_ite rfl rfl)

@[simp] theorem Part.standing_event (o m : Nat) : (p.event o m).standing = p.standing := by
  simp [Part.event, Part.signalBoth]

@[simp] theorem Part.standing_writeRecord (i : Nat) (rec : List Byte) : (p.writeRecord i rec).standing = p.standing :=
  Part.standing_ite (by simp [Part.signalRing]) (by simp)

@[simp] theorem Part.standing_putRecord (i : Nat) (rec : List Byte) : (p.putRecord i rec).standing = p.standing := by
  have hlost : (p.loseRecord i).standing = p.standing := by simp [Part.loseRecord]
  exact Part.standing_ite hlost (Part.standing_ite (p.standing_writeRecord i rec) (Part.standing_ite rfl hlost))

@[simp] theorem Part.standing_putEvent (rec : List Byte) : (p.putEvent rec).standing = p.standing :=
  Part.standing_ite (p.standing_putRecord _ rec) rfl

theorem Part.standing_logEntry (e : Report) (handled detected : Nat) (program escalated : Bool) (depth : Nat) (parent : W64) :
    (p.logEntry e handled detected program escalated depth parent).standing = p.standing := by
  refine (Part.standing_putEvent _ _).trans ((Part.standing_event _ _ _).trans ((Part.standing_bump _ _ _).trans
    ((Part.standing_setReg _ _ _).trans ?_)))
  split
  · refine (Part.standing_event _ _ _).trans ((Part.standing_bumpSat _ _ _).trans ((Part.standing_bump _ _ _).trans ?_))
    exact Part.standing_forEach (fun _ _ q => q.standing_setRegN _ _) p
  · exact Part.standing_forEach (fun _ _ q => q.standing_setRegN _ _) p

/-! ### Tasks that complete or go back (10) -/

theorem Part.standing_place : p.place.standing = p.standing := by
  obtain ⟨l, ts, hplace, -⟩ := p.onlyPlaced_place
  rw [hplace]
  rfl

theorem Part.standing_accrue (r : Replica) : (p.accrue r).standing = p.standing := by
  unfold Part.accrue
  split
  · rfl
  · exact Part.standing_ite rfl rfl

@[simp] theorem Part.standing_freeSave (k : TaskKey) : (p.freeSave k).standing = p.standing := by
  unfold Part.freeSave
  split
  · split <;> rfl
  · rfl

theorem Part.standing_seatDone (t : Task) : (p.seatDone t).standing = p.standing :=
  Part.standing_ite rfl (Part.standing_ite rfl rfl)

theorem Part.standing_seatDeadline (t : Task) : (p.seatDeadline t).standing = p.standing :=
  Part.standing_ite rfl ((Part.standing_setRegN _ _ _).trans (Part.standing_ite (by simp) rfl))

theorem Part.standing_notifyDone (t : Task) (code cause : Nat) : (p.notifyDone t code cause).standing = p.standing := by
  refine Part.standing_ite ?_ rfl
  split
  · exact p.standing_putRecord _ _
  · rfl

@[simp] theorem Part.standing_finishOne (t : Task) (code cause : Nat) : (p.finishOne t code cause).standing = p.standing := by
  obtain ⟨l, e, hfinish⟩ := p.finishOne_eq t code cause
  have hbooked : (p.booked t code cause).standing = p.standing := by
    rw [Part.booked, Part.standing_notifyDone, Part.standing_seatDeadline, Part.standing_seatDone]
    exact Part.standing_ite (by simp) (by simp)
  rw [hfinish]
  exact hbooked

theorem Part.standing_finish (k : TaskKey) (code cause : Nat) : (p.finish k code cause).standing = p.standing := by
  unfold Part.finish
  dsimp only
  split
  · rfl
  next t _ =>
    refine Part.standing_ite (p.standing_finishOne t code cause) ?_
    split
    · exact p.standing_finishOne t code cause
    · exact Part.standing_ite (Part.standing_ite (by simp) (by simp)) (by simp)

/-! ### A replica stops (10 R324) -/

theorem Part.standing_resetQueue (c q : Nat) : (p.resetQueue c q).standing = p.standing := by
  unfold Part.resetQueue
  refine (Part.standing_forEach (fun _ _ x => x.standing_onCore _ _) _).trans ?_
  split
  · exact p.standing_setCore _ _
  · exact (Part.standing_bump32 _ _ _).trans (p.standing_setCore _ _)

theorem Part.standing_stopReplica (r : Replica) : (p.stopReplica r).standing = p.standing := by
  have hslept : (p.sleepCores r.cores).standing = p.standing :=
    Part.standing_forEach (fun _ _ q => Part.standing_ite rfl (q.standing_bump _ _)) p
  have hqueues (c : Nat) (q : Part) : (q.resetQueues c).standing = q.standing :=
    Part.standing_forEach (fun i _ x => x.standing_resetQueue c i) q
  have hstopped (q : Part) : (q.stopCores r.cores).standing = q.standing :=
    Part.standing_forEach (fun c _ x => (hqueues c _).trans ((Part.standing_onCore _ _ _).trans (x.standing_setReg _ _))) q
  have hcleared (q : Part) : (forEach r.clusters (fun cl x => x.onCluster cl (fun k => { k with curts := [] })) q).standing = q.standing :=
    Part.standing_forEach (fun _ _ x => x.standing_onCluster _ _) q
  exact (hcleared _).trans ((hstopped _).trans hslept)

theorem Part.standing_sendBack (r : Replica) (k : TaskKey) : (p.sendBack r k).standing = p.standing := by
  simp [Part.sendBack, Part.standing_stopReplica, Part.standing_accrue]

theorem Part.standing_abort (k : TaskKey) (fate : Option Nat) : (p.abort k fate).standing = p.standing := by
  have hsent (r : Replica) : (p.sendBack r k).standing = p.standing := p.standing_sendBack r k
  unfold Part.abort
  split
  next r _ =>
    unfold Part.abortOn
    split
    · rfl
    · split
      · exact (Part.standing_finish _ _ _ _).trans (hsent r)
      · exact Part.standing_ite ((Part.standing_finish _ _ _ _).trans (hsent r)) ((Part.standing_place _).trans (hsent r))
  · split
    · exact (Part.standing_place _).trans (p.standing_finish _ _ _)
    · rfl

/-- A program error is logged and aborts its task, no more (18 R538 R551). -/
theorem Part.standing_raise {e : Report} (h : sourceClass e.source = some (1, true)) (fate : Option Nat) :
    (p.raise e fate).standing = p.standing := by
  have hlogged := p.standing_logEntry e 1 1 true false 0 noParent
  unfold Part.raise
  refine Part.standing_ite rfl ?_
  simp only [h, Bool.true_or, if_true, Nat.le_zero_eq, OfNat.ofNat_ne_zero, if_false, Option.isSome_none]
  split
  · exact (Part.standing_abort _ _ _).trans hlogged
  · exact hlogged

/-! ### A release at a core (11 R330 R341 R342) -/

theorem Part.standing_addCounter (c i v : Nat) : (p.addCounter c i v).standing = p.standing := by
  have hcount : (p.countUp c i v).standing = p.standing := Part.standing_ite (Part.standing_raise _ rfl _) (p.standing_onCore _ _)
  exact Part.standing_ite hcount ((Part.standing_onlyCores (Part.OnlyAt.settle (.refl _)).cores).trans hcount)

theorem Part.standing_arrive (c t cur : Nat) (wait : Bool) : (p.arrive c t cur wait).standing = p.standing :=
  Part.standing_ite (p.standing_onTh _ _ _) rfl

theorem Part.standing_rearrive (c cur t : Nat) : (p.rearrive c cur t).standing = p.standing := by
  unfold Part.rearrive
  split
  · exact Part.standing_ite (p.standing_arrive _ _ _ _) rfl
  · rfl

/-- The threads that wait for the release of curtain `cur` go on. -/
def Core.wake (cur : Nat) (k : Core) : Core := { k with threads := k.threads.map (fun t => if t.on = .curtain cur then t.ready else t) }

/-- The core's arrival at curtain `cur` is over: its waiting threads go on, or its notify counter counts. -/
def Part.letGo (p : Part) (c cur notify : Nat) : Part :=
  if ((p.core c).arrival cur).waits then (p.onCore c (·.setArrival cur Arrival.none)).onCore c (Core.wake cur)
  else (p.onCore c (·.setArrival cur Arrival.none)).addCounter c notify 1

theorem Part.releaseCore_of_pending {p : Part} {c cur : Nat} (h : ((p.core c).arrival cur).pending = true) (notify : Nat) :
    p.releaseCore c cur notify = forEach (List.range 8) (Part.rearrive c cur) (p.letGo c cur notify) := by
  simp only [Part.releaseCore, h, Bool.not_true, Bool.false_eq_true, if_false]
  rfl

theorem Part.standing_releaseCore (c cur notify : Nat) : (p.releaseCore c cur notify).standing = p.standing := by
  cases h : ((p.core c).arrival cur).pending with
  | false => rw [Part.releaseCore_of_absent h]
  | true =>
    rw [Part.releaseCore_of_pending h, Part.standing_forEach fun t _ q => q.standing_rearrive c cur t]
    exact Part.standing_ite rfl ((Part.standing_addCounter _ _ _ _).trans (p.standing_onCore _ _))

theorem Part.standing_releaseAll (l : List Nat) (cur notify : Nat) :
    (forEach l (fun c x => x.onTheCore c (fun q => q.releaseCore c cur notify)) p).standing = p.standing := by
  refine Part.standing_forEach (fun c _ q => ?_) p
  exact (Part.standing_onlyRegs (q.onlyRegs_onTheCore c (·.releaseCore c cur notify))).trans (q.standing_releaseCore c cur notify)

theorem Part.standing_releaseReplica (r : Replica) (cur notify : Nat) : (p.releaseReplica r cur notify).standing = p.standing :=
  (Part.standing_releaseAll _ _ _ _).trans
    ((Part.standing_forEach (fun _ _ q => q.standing_onNode _ _ _) _).trans (p.standing_onRNode _ _ _))

/-! ### Curtain packets that leave (14 R411 R422 R447) -/

theorem map_modAt_of_leaves {α β : Type} {g : α → β} {f : α → α} (hf : ∀ x, g (f x) = g x) (l : List α) (i : Nat) :
    (modAt l i f).map g = l.map g := by
  refine List.ext_getElem? fun j => ?_
  simp only [modAt, List.getElem?_map, List.getElem?_modify]
  cases l[j]? with
  | none => rfl
  | some x => by_cases h : i = j <;> simp [h, hf]

theorem Part.standing_onPort (n : Nat) (f : Port → Port) (hf : ∀ q, (f q).curtIn = q.curtIn := by exact fun _ => rfl) :
    (p.onPort n f).standing = p.standing :=
  congrArg (fun l => (p.mem, p.stg.pcurts, l)) (map_modAt_of_leaves hf _ _)

theorem Part.standing_sendFlit (n kind seq fvc : Nat) (payload : List Byte) : (p.sendFlit n kind seq fvc payload).standing = p.standing :=
  (Part.standing_emit _ _).trans (p.standing_onPort n _)

theorem Part.standing_freed (k : Packet) : (p.freed k).standing = p.standing := by
  unfold Part.freed
  split
  · rfl
  next n v f _ =>
    have howed := p.standing_onPort n fun x => { x with owe := x.owe.set v (x.owe.getD v 0 + f) }
    exact Part.standing_ite ((Part.standing_sendFlit _ _ _ _ _ _).trans howed) howed

theorem Part.standing_pumpPort (n m : Nat) : (Part.pumpPort n m p).standing = p.standing := by
  induction m generalizing p with
  | zero => rfl
  | succ m ih =>
    unfold Part.pumpPort
    dsimp only
    split
    · rfl
    · split
      · rfl
      · refine (ih _).trans ((Part.standing_bump _ _ _).trans ((Part.standing_bump48 _ _ _).trans ((Part.standing_sendFlit _ _ _ _ _ _).trans ?_)))
        exact p.standing_onPort n _

theorem Part.standing_sendCurt (n type c gen : Nat) : (p.sendCurt n type c gen).standing = p.standing :=
  (Part.standing_pumpPort _ _ _).trans ((Part.standing_ite (Part.standing_setFld _ _ _ _ _) rfl).trans (p.standing_onPort n _))

end

end Sys2Proof.Machine

/-! ## Curtain packets -/

namespace Sys2Proof.Machine
open Sys2Proof

/-! ### A package curtain's release (11 R344, 14 R443) -/

@[simp] theorem Part.pcurt_onPCurt_self (p : Part) (k : Nat) (f : PCurt → PCurt) : (p.onPCurt k f).pcurt k = f (p.pcurt k) :=
  Tab.get_put_self _ _ _ _

/-- The node once it has released its generation. -/
def PCurt.next (x : PCurt) : PCurt := { gen := x.gen + 1, tasks := [], kids := 0, sentUp := false, first := none }

theorem Part.standing_releasePackage (p : Part) (k : Nat) : (p.releasePackage k).standing = (p.onPCurt k PCurt.next).standing := by
  unfold Part.releasePackage
  refine (Part.standing_forEach (fun r _ x => Part.standing_forEach (fun cur _ y => y.standing_releaseReplica r cur _) x) _).trans ?_
  exact Part.standing_ite (Part.standing_forEach (fun n _ x => x.standing_sendCurt n _ _ _) _) rfl

/-! ### A received packet is taken (14 R411 R444) -/

theorem Part.port_onPort_self {p : Part} {n : Nat} (h : n < p.fab.ports.length) (f : Port → Port) : (p.onPort n f).port n = f (p.port n) := by
  simp [Part.port, Part.onPort, modAt, h]

theorem Part.freed_frame (p : Part) (k : Packet) : ∃ f o, p.freed k = { p with fab := f, out := o } := by
  unfold Part.freed
  split
  · exact ⟨_, _, rfl⟩
  · dsimp only
    split <;> exact ⟨_, _, rfl⟩

/-- A packet of type `ty`. -/
def isCurt (ty : Nat) (k : Packet) : Bool := k.hdr.type == ty

/-- The first curtain packet of type `ty` has been taken. -/
def Port.curtTaken (ty : Nat) (q : Port) : Port := { q with curtIn := dropFirst (isCurt ty) q.curtIn }

theorem Part.takeCurt_eq_some {p v : Part} {n ty c g : Nat} (h : p.takeCurt n ty = some (c, g, v)) :
    ∃ k, v = (p.onPort n (Port.curtTaken ty)).freed k := by
  obtain ⟨k, -, hk⟩ := Option.map_eq_some_iff.mp h
  obtain ⟨-, -, rfl⟩ : _ ∧ _ ∧ _ = v := by simpa using hk
  exact ⟨k, rfl⟩

/-- Only the links and what leaves the part differ once a packet is taken. -/
theorem Part.takeCurt_frame {p v : Part} {n ty c g : Nat} (h : p.takeCurt n ty = some (c, g, v)) : ∃ f o, v = { p with fab := f, out := o } := by
  obtain ⟨k, rfl⟩ := Part.takeCurt_eq_some h
  obtain ⟨f, o, hfreed⟩ := (p.onPort n (Port.curtTaken ty)).freed_frame k
  exact ⟨f, o, hfreed⟩

theorem Part.curtIn_takeCurt {p v : Part} {n ty c g : Nat} (h : p.takeCurt n ty = some (c, g, v)) (hn : n < p.fab.ports.length) :
    (v.port n).curtIn = dropFirst (isCurt ty) (p.port n).curtIn := by
  obtain ⟨k, rfl⟩ := Part.takeCurt_eq_some h
  rw [Part.curtIn_of_standing (Part.standing_freed _ k), Part.port_onPort_self hn]
  rfl

/-! ### What the packet does (11 R345 R346, 14 R443 R444) -/

/-- A child's arrival through port `n` at time `now`. -/
def PCurt.arriveKid (n : Nat) (now : W64) (x : PCurt) : PCurt :=
  { x with kids := x.kids ||| BitVec.ofNat 16 (2 ^ n), first := x.first.orElse (fun _ => some now) }

theorem PCurt.arriveKid_eq (n : Nat) (now : W64) (x : PCurt) :
    x.arriveKid n now = { x with kids := x.kids ||| BitVec.ofNat 16 (2 ^ n), first := some (x.first.getD now) } := by
  unfold PCurt.arriveKid
  cases x.first <;> rfl

section
variable {s : State} {n c g : Nat} {v : Part} (hready : s.part.phase = .ready)
include hready

theorem exec_curtPacket_of_mismatch {i : Instr} {ty : Nat}
    (hi : (i, ty) ∈ [(Instr.curtArrive n, Pkt.CURT_ARRIVE), (Instr.curtRelease n, Pkt.CURT_RELEASE)])
    (htake : s.part.takeCurt n ty = some (c, g, v)) (hgen : g ≠ (s.part.pcurt c).gen.toNat) :
    exec i s = .next { s with part := v.mismatch c } := by
  obtain ⟨rfl, rfl⟩ | ⟨rfl, rfl⟩ : (i = .curtArrive n ∧ ty = Pkt.CURT_ARRIVE) ∨ (i = .curtRelease n ∧ ty = Pkt.CURT_RELEASE) := by
    simpa using hi
  · exact State.live_eq_of hready (by simp only [Part.curtArrived, htake, if_pos hgen])
  · exact State.live_eq_of hready (by simp only [Part.curtReleased, htake, if_pos hgen])

theorem exec_curtArrive_of_kid (htake : s.part.takeCurt n Pkt.CURT_ARRIVE = some (c, g, v)) (hgen : g = (s.part.pcurt c).gen.toNat)
    (htree : bitOf (s.part.pcurtCfg c) 13 = true) (hkid : n ∈ s.part.curtKids c) :
    exec (.curtArrive n) s = .next { s with part := v.onPCurt c (PCurt.arriveKid n s.part.tim.interval) } := by
  refine State.live_eq_of hready ?_
  have hhere : (bitOf (s.part.pcurtCfg c) 13 && (s.part.curtKids c).elem n) = true := by simp [htree, hkid]
  simp only [Part.curtArrived, htake, if_neg (not_not_intro hgen), if_pos hhere]
  rfl

theorem exec_curtRelease_of_parent (htake : s.part.takeCurt n Pkt.CURT_RELEASE = some (c, g, v)) (hgen : g = (s.part.pcurt c).gen.toNat)
    (htree : bitOf (s.part.pcurtCfg c) 13 = true) (hup : bitOf (s.part.fabCurt c) 4 = true) (hport : fld (s.part.fabCurt c) 0 4 = n) :
    exec (.curtRelease n) s = .next { s with part := v.releasePackage c } := by
  refine State.live_eq_of hready ?_
  have hhere : (bitOf (s.part.pcurtCfg c) 13 && bitOf (s.part.fabCurt c) 4 && fld (s.part.fabCurt c) 0 4 == n) = true := by simp [htree, hup, hport]
  simp only [Part.curtReleased, htake, if_neg (not_not_intro hgen), if_pos hhere]

end

/-- Settles O36: a packet of another generation is counted (`exec_curtPacket_of_mismatch`), a child's arrival is noted
(`exec_curtArrive_of_kid`) and the parent's release advances the node, whatever the release leads to (`Part.standing_releasePackage`). -/
theorem curtainPacketsCountOrRelease : Obligations.CurtainPacketsCountOrRelease := by
  unfold Obligations.CurtainPacketsCountOrRelease
  intro s n c g v i ty hready _ hn hi htake
  have htaken := Part.curtIn_takeCurt htake hn
  have hframe := Part.takeCurt_frame htake
  refine ⟨⟨htaken, ?_⟩, fun hgen => ?mismatch, fun hgen htree => ⟨fun hty hkid => ?arrive, fun hty hup hport => ?release⟩⟩
  · obtain ⟨f, o, rfl⟩ := hframe
    exact ⟨rfl, rfl, rfl, rfl⟩
  case mismatch =>
    refine ⟨_, exec_curtPacket_of_mismatch hready hi htake hgen, rfl, ?_⟩
    obtain ⟨f, o, rfl⟩ := hframe
    exact ⟨fun r hr => Part.reg_setReg_ne _ _ (List.ne_of_not_mem_cons hr), Part.reg_setReg_self _ _ _⟩
  case arrive =>
    subst hty
    obtain rfl : i = .curtArrive n := by simpa [Pkt.CURT_ARRIVE, Pkt.CURT_RELEASE] using hi
    refine ⟨_, exec_curtArrive_of_kid hready htake hgen htree hkid, ?_⟩
    obtain ⟨f, o, rfl⟩ := hframe
    exact ⟨fun _ => rfl, fun _ _ => rfl, fun _ _ => rfl, rfl, (Part.pcurt_onPCurt_self _ _ _).trans (PCurt.arriveKid_eq _ _ _)⟩
  case release =>
    subst hty
    obtain rfl : i = .curtRelease n := by simpa [Pkt.CURT_ARRIVE, Pkt.CURT_RELEASE] using hi
    have hstanding := v.standing_releasePackage c
    have hexec := exec_curtRelease_of_parent hready htake hgen htree hup hport
    generalize v.releasePackage c = q at hstanding hexec
    obtain ⟨f, o, rfl⟩ := hframe
    exact ⟨_, hexec, State.sameBytes_of_mem ((Part.mem_of_standing hstanding).trans rfl), Part.curtIn_of_standing hstanding n,
      (Part.pcurt_of_standing hstanding c).trans (Part.pcurt_onPCurt_self _ _ _)⟩

end Sys2Proof.Machine

/-! ## Curtains release, pass up, and time out -/

namespace Sys2Proof.Machine
open Sys2Proof

/-! ### What the tests of waiting threads leave of arrivals (11 R332 R342) -/

/-- What the thread waits to arrive at again. -/
def Thread.rearrival (th : Thread) : Option (Nat × Bool) := match th.on with
  | .rearrive cur w => some (cur, w)
  | _ => none

/-- The arrivals of a core, and what its threads wait to arrive at again. -/
def Core.arriving (k : Core) : Tab Arrival × List (Option (Nat × Bool)) := (k.arrivals, k.threads.map Thread.rearrival)

/-- A thread waits to arrive again at curtain `cur`. -/
def Core.asks (k : Core) (cur : Nat) : Prop := ∃ th ∈ k.threads, ∃ w, th.on = .rearrive cur w

theorem Thread.rearrival_eq_some {th : Thread} {cur : Nat} {w : Bool} : th.rearrival = some (cur, w) ↔ th.on = .rearrive cur w := by
  unfold Thread.rearrival
  split
  next h => simp [h]
  next h => simpa using fun hon => h _ _ hon

theorem Core.asks_iff {k : Core} {cur : Nat} : k.asks cur ↔ ∃ w, some (cur, w) ∈ k.arriving.2 := by
  simp only [Core.asks, Core.arriving, List.mem_map, Thread.rearrival_eq_some]
  exact ⟨fun ⟨th, hth, w, hw⟩ => ⟨w, th, hth, hw⟩, fun ⟨w, th, hth, hw⟩ => ⟨th, hth, w, hw⟩⟩

theorem Core.asks_congr {k k' : Core} (h : k'.arriving = k.arriving) (cur : Nat) : k'.asks cur ↔ k.asks cur := by
  rw [Core.asks_iff, Core.asks_iff, h]

theorem Core.arrival_congr {k k' : Core} (h : k'.arriving = k.arriving) (cur : Nat) : k'.arrival cur = k.arrival cur :=
  congrArg (Tab.get Arrival.none · cur) (congrArg (·.1) h)

theorem Core.arriving_onTh {k : Core} {t : Nat} {f : Thread → Thread} (h : (f (k.th t)).rearrival = (k.th t).rearrival) :
    (k.onTh t f).arriving = k.arriving := by
  refine congrArg (k.arrivals, ·) (List.ext_getElem? fun j => ?_)
  simp only [Core.onTh, modAt, List.getElem?_map, List.getElem?_modify]
  cases hj : k.threads[j]? with
  | none => rfl
  | some x =>
    by_cases htj : t = j
    · have hx : k.th t = x := by simp [Core.th, htj, hj]
      rw [hx] at h
      simp [htj, h]
    · simp [htj]

theorem Part.arriving_onTh {p : Part} {c t : Nat} {f : Thread → Thread} (h : (f (p.th c t)).rearrival = (p.th c t).rearrival) :
    ((p.onTh c t f).core c).arriving = (p.core c).arriving := by
  rw [Part.core_onTh_self]
  exact Core.arriving_onTh h

/-- The test of a thread that waits to arrive again does nothing, and that of another makes none wait so. -/
theorem Part.arriving_testThread (c t : Nat) (p : Part) : ((Part.testThread c t p).core c).arriving = (p.core c).arriving := by
  have hite {b : Prop} [Decidable b] {q q' : Part} (h : (q.core c).arriving = (p.core c).arriving)
      (h' : (q'.core c).arriving = (p.core c).arriving) : ((if b then q else q').core c).arriving = (p.core c).arriving := by
    split
    · exact h
    · exact h'
  cases hth : (p.th c t).rearrival with
  | some x => simp only [Part.testThread, Thread.rearrival_eq_some.mp hth]
  | none =>
    have hcore {k : Core} {f : Thread → Thread} (hk : k.threads = (p.core c).threads) (ha : k.arrivals = (p.core c).arrivals)
        (hf : (f (p.th c t)).rearrival = none) : ((p.setCore c (k.onTh t f)).core c).arriving = (p.core c).arriving := by
      have hkt : k.th t = p.th c t := congrArg (List.getD · t Thread.reset) hk
      rw [Part.core_setCore_self, Core.arriving_onTh (by rw [hkt, hf, hth]), Core.arriving, hk, ha, Core.arriving]
    unfold Part.testThread
    dsimp only
    split
    · exact hite (hcore rfl rfl rfl) rfl
    · exact hite rfl (hcore rfl rfl rfl)
    · exact hite rfl (hcore rfl rfl rfl)
    · exact hite (hcore rfl rfl rfl) rfl
    · exact hite (hcore rfl rfl rfl) rfl
    · refine hite ?_ (hcore rfl rfl rfl)
      split
      · exact hite (hcore rfl rfl rfl) (hcore rfl rfl rfl)
      · exact hcore rfl rfl rfl
    · exact hite rfl (hite (hcore rfl rfl hth) (hcore rfl rfl rfl))
    · rfl

theorem Part.arriving_testPlain (c t : Nat) (p : Part) : ((Part.testPlain c t p).core c).arriving = (p.core c).arriving := by
  unfold Part.testPlain
  split
  next i v hon =>
    have hth : (p.th c t).rearrival = none := by rw [Thread.rearrival, hon]
    split
    · rw [Part.core_onTh_self]
      exact Core.arriving_onTh (Eq.trans rfl hth.symm)
    · rfl
  · rfl

theorem Part.arriving_settle (p : Part) (c : Nat) : ((p.settle c).core c).arriving = (p.core c).arriving :=
  (forEach_leaves (fun q : Part => (q.core c).arriving) (fun t _ q => q.arriving_testPlain c t) _).trans
    (forEach_leaves (fun q : Part => (q.core c).arriving) (fun t _ q => q.arriving_testThread c t) p)

/-! ### Threads that arrive again (11 R342) -/

theorem Part.gen_onNode {f : CurtState → CurtState} (hf : ∀ n, (f n).gen = n.gen) (p : Part) (cl cur : Nat) :
    ((p.onNode cl cur f).curtNode cl cur).gen = (p.curtNode cl cur).gen := by
  rw [Part.curtNode_onNode_self, hf]

/-- What an arrival of thread `t` of core `c` leaves: other cores, the core's other threads, the generation of the node. -/
structure Part.Arrives (c cur t : Nat) (p q : Part) : Prop where
  others : ∀ d, d ≠ c → q.core d = p.core d
  threads : ∀ j, j ≠ t → q.th c j = p.th c j
  gen : (q.curtNode (clusterOf c) cur).gen = (p.curtNode (clusterOf c) cur).gen

theorem Part.arrives_arrive (p : Part) (c t cur : Nat) (wait : Bool) : p.Arrives c cur t (p.arrive c t cur wait) := by
  unfold Part.arrive
  dsimp only
  split
  · exact ⟨fun d hd => Part.core_onTh_ne _ _ _ hd, fun j hj => by rw [Part.th, Part.core_onTh_self, Core.th_onTh_ne _ _ hj, Part.th], rfl⟩
  · have hcore : ((p.setCore c ((p.core c).setArrival cur ⟨true, wait⟩)).onNode (clusterOf c) cur (fun n => n.arrive (c % 16))).core c =
        (p.core c).setArrival cur ⟨true, wait⟩ := Part.core_setCore_self _ _ _
    refine ⟨fun d hd => (Part.core_onTh_ne _ _ _ hd).trans (Part.core_setCore_ne _ _ hd), fun j hj => ?_, ?_⟩
    · rw [Part.th, Part.core_onTh_self, Core.th_onTh_ne _ _ hj, hcore]
      rfl
    · exact Part.gen_onNode (fun n => n.gen_arrive _) (p.setCore c _) _ _

theorem Part.arrives_rearrive (p : Part) (c cur t : Nat) : p.Arrives c cur t (p.rearrive c cur t) := by
  have hrefl : p.Arrives c cur t p := ⟨fun _ _ => rfl, fun _ _ => rfl, rfl⟩
  unfold Part.rearrive
  split
  · split
    · exact p.arrives_arrive c t cur _
    · exact hrefl
  · exact hrefl

theorem Core.th_mem {k : Core} {t : Nat} (h : (k.th t).on ≠ .nothing) : k.th t ∈ k.threads := by
  have ht : t < k.threads.length := by
    refine Nat.lt_of_not_le fun hle => h ?_
    rw [Core.th, List.getD_eq_default _ _ hle]
    rfl
  rw [Core.th, List.getD_eq_getElem _ _ ht]
  exact List.getElem_mem ht

theorem Part.rearrive_of_not_asks {p : Part} {c cur : Nat} (h : ¬ (p.core c).asks cur) (t : Nat) : p.rearrive c cur t = p := by
  unfold Part.rearrive
  split
  next cu w hon =>
    refine if_neg fun hcu => h ⟨_, Core.th_mem ?_, w, hcu ▸ hon⟩
    rw [← Part.th, hon]
    exact Waiting.noConfusion
  next => rfl

/-! ### A release at one core (11 R341 R342) -/

theorem Core.arriving_wake (cur : Nat) (k : Core) : (k.wake cur).arriving = k.arriving := by
  refine congrArg (k.arrivals, ·) ?_
  rw [Core.wake, List.map_map]
  refine List.map_congr_left fun th _ => ?_
  rw [Function.comp]
  split
  next hon => simp [Thread.rearrival, hon, Thread.ready]
  next => rfl

/-- The core can count a release of curtain `cur` in counter `notify`. -/
def Core.mayCount (cur notify : Nat) (k : Core) : Prop :=
  (k.arrival cur).pending = true → (k.arrival cur).waits = false → (k.cnt.getD notify 0).toNat + 1 < 2 ^ 32

/-- The core's arrival is over; nobody has learned of it yet. -/
def Part.leave (p : Part) (c cur : Nat) : Part := p.onCore c (·.setArrival cur Arrival.none)

section
variable {p : Part} {c cur notify : Nat}

@[simp] theorem Part.core_leave_self : (p.leave c cur).core c = (p.core c).setArrival cur Arrival.none := Part.core_onCore_self _ _ _

theorem Part.letGo_of_waits (h : ((p.core c).arrival cur).waits = true) : p.letGo c cur notify = (p.leave c cur).onCore c (Core.wake cur) :=
  if_pos h

theorem Part.letGo_of_counts (h : ((p.core c).arrival cur).waits = false) (hfits : ((p.core c).cnt.getD notify 0).toNat + 1 < 2 ^ 32) :
    p.letGo c cur notify = ((p.leave c cur).onCore c (Core.addCnt notify 1)).settle c := by
  have hfits' : (((p.leave c cur).core c).cnt.getD notify 0).toNat + 1 < 2 ^ 32 := by
    rw [Part.core_leave_self]
    exact hfits
  exact (if_neg (Bool.eq_false_iff.mp h)).trans (Part.addCounter_of_fits hfits')

variable (hpending : ((p.core c).arrival cur).pending = true) (hcount : (p.core c).mayCount cur notify)
include hpending hcount

theorem Part.onlyAt_letGo : p.OnlyAt c (p.letGo c cur notify) := by
  have hleft : p.OnlyAt c (p.leave c cur) := (OnlyAt.refl p).onCore id
  cases hwaits : ((p.core c).arrival cur).waits with
  | true =>
    rw [Part.letGo_of_waits hwaits]
    exact hleft.onCore id
  | false =>
    rw [Part.letGo_of_counts hwaits (hcount hpending hwaits)]
    exact (hleft.onCore fun h => by rwa [Core.unitsIdle_addCnt] at h).settle

theorem Part.arriving_letGo : ((p.letGo c cur notify).core c).arriving = ((p.core c).setArrival cur Arrival.none).arriving := by
  cases hwaits : ((p.core c).arrival cur).waits with
  | true => rw [Part.letGo_of_waits hwaits, Part.core_onCore_self, Core.arriving_wake, Part.core_leave_self]
  | false =>
    rw [Part.letGo_of_counts hwaits (hcount hpending hwaits), Part.arriving_settle, Part.core_onCore_self, Part.core_leave_self]
    rfl

end

/-- What a release of curtain `cur` leaves of a core that has arrived at it. -/
structure Core.Released (cur notify : Nat) (k k' : Core) : Prop where
  ended : ¬ k.asks cur → (k'.arrival cur).pending = false
  woken : (k.arrival cur).waits = true → ∀ t < k.threads.length, (k.th t).on = .curtain cur → (k'.th t).st = .ready ∧ (k'.th t).on = .nothing
  counted : (k.arrival cur).waits = false → k.calm → k'.cnt = k.cnt.set notify (k.cnt.getD notify 0 + 1)

/-- What a release of curtain `cur` at the cores of `l`, which lie in cluster `cl`, leaves of the cores and of the cluster's node. -/
structure Part.Releases (cl cur notify : Nat) (l : List Nat) (p q : Part) : Prop where
  others : ∀ d, d ∉ l → q.core d = p.core d
  gen : (q.curtNode cl cur).gen = (p.curtNode cl cur).gen
  node : (∀ c ∈ l, ¬ (p.core c).asks cur) → q.curtNode cl cur = p.curtNode cl cur
  released : ∀ c ∈ l, ((p.core c).arrival cur).pending = true → (p.core c).Released cur notify (q.core c)

namespace Part.Releases

variable {cl cur notify c : Nat} {l : List Nat} {p q r : Part}

theorem of_onlyRegs (h : p.Releases cl cur notify l q) (hr : q.OnlyRegs r) : p.Releases cl cur notify l r := by
  obtain ⟨g, rfl⟩ := hr
  exact ⟨h.others, h.gen, h.node, h.released⟩

/-- Releases at a core and then at others are one at all of them. -/
theorem cons (h : p.Releases cl cur notify [c] q) (h' : q.Releases cl cur notify l r) (hc : c ∉ l) : p.Releases cl cur notify (c :: l) r := by
  have hq {d : Nat} (hd : d ∈ l) : q.core d = p.core d := h.others d fun hmem => hc (List.mem_singleton.mp hmem ▸ hd)
  refine ⟨fun d hd => ?_, h'.gen.trans h.gen, fun hasks => ?_, fun d hd hpending => ?_⟩
  · obtain ⟨hdc, hdl⟩ : d ≠ c ∧ d ∉ l := by simpa using hd
    exact (h'.others d hdl).trans (h.others d (by simpa using hdc))
  · have hrest : ∀ d ∈ l, ¬ (q.core d).asks cur := fun d hd => by
      rw [hq hd]
      exact hasks d (List.mem_cons_of_mem _ hd)
    exact (h'.node hrest).trans (h.node fun d hd => hasks d (List.mem_singleton.mp hd ▸ List.mem_cons_self))
  · obtain rfl | hdl := List.mem_cons.mp hd
    · rw [h'.others d hc]
      exact h.released d List.mem_cons_self hpending
    · rw [← hq hdl] at hpending ⊢
      exact h'.released d hdl hpending

end Part.Releases

theorem Core.calm.not_asks {k : Core} (h : k.calm) (cur : Nat) : ¬ k.asks cur := by
  rintro ⟨th, hth, w, hw⟩
  exact Waiting.noConfusion (hw.symm.trans (h.2 th hth))

theorem Core.th_wake {k : Core} {cur t : Nat} (ht : t < k.threads.length) (hon : (k.th t).on = .curtain cur) :
    (k.wake cur).th t = (k.th t).ready := by
  rw [Core.th, List.getD_eq_getElem _ _ ht] at hon
  simp [Core.th, Core.wake, ht, hon]

section
variable {p : Part} {c cur notify : Nat}

/-- A thread that has been woken is woken still once the others have arrived again. -/
theorem Part.woken_rearrive {t : Nat} (h : (p.th c t).st = .ready ∧ (p.th c t).on = .nothing) (j : Nat) :
    ((p.rearrive c cur j).th c t).st = .ready ∧ ((p.rearrive c cur j).th c t).on = .nothing := by
  by_cases hjt : t = j
  · subst hjt
    rwa [Part.rearrive_of_nothing h.2]
  · rwa [(p.arrives_rearrive c cur j).threads t hjt]

theorem Part.cnt_letGo_of_calm (hcalm : (p.core c).calm) (hwaits : ((p.core c).arrival cur).waits = false)
    (hfits : ((p.core c).cnt.getD notify 0).toNat + 1 < 2 ^ 32) :
    ((p.letGo c cur notify).core c).cnt = (p.core c).cnt.set notify ((p.core c).cnt.getD notify 0 + 1) := by
  have hcore : ((p.leave c cur).onCore c (Core.addCnt notify 1)).core c = ((p.core c).setArrival cur Arrival.none).addCnt notify 1 := by
    rw [Part.core_onCore_self, Part.core_leave_self]
  rw [Part.letGo_of_counts hwaits hfits, Part.settle_of_calm (by rw [hcore]; exact hcalm), hcore]
  rfl

/-- A release at one core: its arrival is over, then the threads that wait to arrive again do so. -/
theorem Part.releases_releaseCore (hcount : (p.core c).mayCount cur notify) :
    p.Releases (clusterOf c) cur notify [c] (p.releaseCore c cur notify) := by
  cases hpending : ((p.core c).arrival cur).pending with
  | false =>
    rw [Part.releaseCore_of_absent hpending]
    refine ⟨fun _ _ => rfl, rfl, fun _ => rfl, fun d hd h => ?_⟩
    rw [List.mem_singleton.mp hd, hpending] at h
    exact absurd h Bool.false_ne_true
  | true =>
    have hlet := Part.onlyAt_letGo hpending hcount
    have harriving := Part.arriving_letGo hpending hcount
    have hnode : (p.letGo c cur notify).curtNode (clusterOf c) cur = p.curtNode (clusterOf c) cur := by
      obtain ⟨⟨l, hl⟩, -, -⟩ := hlet
      rw [hl]
      rfl
    have hsame (h : ¬ (p.core c).asks cur) : forEach (List.range 8) (Part.rearrive c cur) (p.letGo c cur notify) = p.letGo c cur notify :=
      forEach_eq_self fun t _ => Part.rearrive_of_not_asks (fun h' => h ((Core.asks_congr harriving cur).mp h')) t
    rw [Part.releaseCore_of_pending hpending]
    refine ⟨fun d hd => ?_, ?_, fun h => ?_, fun d hd _ => ?_⟩
    · have hdc : d ≠ c := by simpa using hd
      exact (forEach_leaves (fun q : Part => q.core d) (fun t _ q => (q.arrives_rearrive c cur t).others d hdc) _).trans (hlet.others d hdc)
    · exact (forEach_leaves (fun q : Part => (q.curtNode (clusterOf c) cur).gen) (fun t _ q => (q.arrives_rearrive c cur t).gen) _).trans
        (congrArg CurtState.gen hnode)
    · rw [hsame (h c List.mem_cons_self), hnode]
    · obtain rfl := List.mem_singleton.mp hd
      refine ⟨fun h => ?_, fun hwaits t ht hon => ?_, fun hwaits hcalm => ?_⟩
      · rw [hsame h, Core.arrival_congr harriving, Core.arrival_setArrival_self]
        rfl
      · refine forEach_keeps (P := fun q : Part => (q.th d t).st = .ready ∧ (q.th d t).on = .nothing) ?_ fun j _ q hq => Part.woken_rearrive hq j
        rw [Part.letGo_of_waits hwaits, Part.th, Part.core_onCore_self, Part.core_leave_self,
          Core.th_wake (k := (p.core d).setArrival cur Arrival.none) ht hon]
        exact ⟨rfl, rfl⟩
      · rw [hsame (hcalm.not_asks cur)]
        exact Part.cnt_letGo_of_calm hcalm hwaits (hcount hpending hwaits)

end

/-- A release at each core of a list. -/
def Part.releaseCores (p : Part) (l : List Nat) (cur notify : Nat) : Part := forEach l (fun c x => x.onTheCore c (·.releaseCore c cur notify)) p

theorem Part.releases_releaseCores {cl cur notify : Nat} {l : List Nat} (hl : l.Nodup) (hcl : ∀ c ∈ l, clusterOf c = cl) {p : Part}
    (hcount : ∀ c ∈ l, (p.core c).mayCount cur notify) : p.Releases cl cur notify l (p.releaseCores l cur notify) := by
  induction l generalizing p with
  | nil => exact ⟨fun _ _ => rfl, rfl, fun _ => rfl, fun _ hc => nomatch hc⟩
  | cons c l ih =>
    obtain ⟨hc, hl⟩ := List.nodup_cons.mp hl
    have hfirst : p.Releases cl cur notify [c] (p.onTheCore c (·.releaseCore c cur notify)) := by
      rw [← hcl c List.mem_cons_self]
      exact (Part.releases_releaseCore (hcount c List.mem_cons_self)).of_onlyRegs (p.onlyRegs_onTheCore c _)
    refine hfirst.cons (ih hl (fun d hd => hcl d (List.mem_cons_of_mem _ hd)) fun d hd => ?_) hc
    rw [hfirst.others d fun hmem => hc (List.mem_singleton.mp hmem ▸ hd)]
    exact hcount d (List.mem_cons_of_mem _ hd)

/-! ### A cluster's release (11 R341 R342) -/

theorem Part.standing_releaseCluster (p : Part) (cl cur notify : Nat) : (p.releaseCluster cl cur notify).standing = p.standing :=
  (Part.standing_releaseAll _ _ _ _).trans (p.standing_onNode _ _ _)

theorem Part.releases_releaseCluster {p : Part} {cl cur notify : Nat} (hcount : ∀ c ∈ clusterCores cl, (p.core c).mayCount cur notify) :
    (p.onNode cl cur CurtState.next).Releases cl cur notify (clusterCores cl) (p.releaseCluster cl cur notify) :=
  Part.releases_releaseCores (nodup_clusterCores cl) (fun _ hc => mem_clusterCores.mp hc) hcount

theorem exec_curtainRelease_of_cluster {s : State} (hready : s.part.phase = .ready) {cl cur : Nat} {r : Replica} (hr : s.part.replicaAt cl = some r)
    (hcomplete : (s.part.curtNode cl cur).complete (s.part.participants cl cur) = true) (hscope : (s.part.curtDecl r cur).1 = 1) :
    exec (.curtainRelease (.cluster cl cur)) s = .next { s with part := s.part.releaseCluster cl cur (s.part.curtDecl r cur).2.1 } :=
  State.live_eq_of hready (by simp only [Part.curtainStep, hr, hcomplete, Bool.not_true, Bool.false_eq_true, if_false, if_pos hscope])

/-! ### A complete node passes its arrival up (11 R341 R344) -/

theorem exec_curtainRelease_to_replica {s : State} (hready : s.part.phase = .ready) {cl cur : Nat} {r : Replica} (hr : s.part.replicaAt cl = some r)
    (hcomplete : (s.part.curtNode cl cur).complete (s.part.participants cl cur) = true) (hscope : (s.part.curtDecl r cur).1 ≠ 1) :
    exec (.curtainRelease (.cluster cl cur)) s = .next { s with part := s.part.onRNode r.anchor cur (fun n => n.arrive cl) } :=
  State.live_eq_of hready (by simp only [Part.curtainStep, hr, hcomplete, Bool.not_true, Bool.false_eq_true, if_false, if_neg hscope])

theorem exec_curtainRelease_to_package {s : State} (hready : s.part.phase = .ready) {a cur : Nat} {r : Replica} {k : TaskKey}
    (hr : s.part.replicaOf a = some r) (hk : r.task = some k) (hcomplete : (r.node cur).complete (s.part.partClusters r cur) = true)
    (hscope : 3 ≤ (s.part.curtDecl r cur).1) : exec (.curtainRelease (.scene a cur)) s =
      .next { s with part := s.part.onPCurt (s.part.curtDecl r cur).2.2 (fun n => n.arrive k s.part.tim.interval) } := by
  have hscene : (s.part.curtDecl r cur).1 ≠ 2 := by omega
  have hcluster : ¬ ((s.part.curtDecl r cur).1 = 0 ∨ (s.part.curtDecl r cur).1 = 1) := by omega
  exact State.live_eq_of hready
    (by simp only [Part.curtainStep, hr, hcomplete, Bool.not_true, Bool.false_eq_true, if_false, if_neg hscene, if_neg hcluster, hk])

theorem Replica.node_put (r : Replica) (cur : Nat) (n : CurtState) :
    Replica.node { r with curts := Tab.put CurtState.reset r.curts cur n } cur = n := Tab.get_put_self _ _ _ _

/-- The replica's node has the arrival. -/
theorem Part.arrived_onRNode {p : Part} {cl : Nat} {r : Replica} (h : p.replicaAt cl = some r) (cur : Nat) :
    ∃ r', (p.onRNode r.anchor cur (fun n => n.arrive cl)).replicaOf r.anchor = some r' ∧ cl ∈ (r'.node cur).arrived := by
  have hmem := List.mem_of_find?_eq_some h
  obtain ⟨x, hx⟩ : ∃ x, p.replicaOf r.anchor = some x := Option.isSome_iff_exists.mp (List.find?_isSome.mpr ⟨r, hmem, beq_self_eq_true _⟩)
  refine ⟨_, Part.replicaOf_onReplica hx rfl, ?_⟩
  rw [Replica.node_put]
  exact CurtState.mem_arrive _ _

/-! ### A package curtain times out (11 R345, log 24) -/

/-- The timeout of package curtain `k` is counted, and the next one counts from now; no task has been aborted yet. -/
def Part.timedOut (p : Part) (k : Nat) : Part :=
  (p.bumpSat (Reg.STG_PCURT_TIMEOUTS.at [0, k]) 1).onPCurt k (fun x => { x with first := some p.tim.interval })

/-- The running tasks of `p` that wait at package curtain `k` are aborted, in the part as it has become. -/
def Part.abortWaiters (p : Part) (k : Nat) : Part → Part :=
  forEach (p.stg.replicas.filter (fun r => p.taskRuns r && p.waitsOn r k))
    (fun r x => x.raise ⟨0x0075, 2, r.die, r.origin, 0xFF, 0, r.task, 0, 0⟩ none)

theorem Part.curtTimeout_of_late {p : Part} {k : Nat} {f : W64} (hfirst : (p.pcurt k).first = some f) (hon : fld (p.pcurtCfg k) 14 4 ≠ 0)
    (hlate : 2 ^ (fld (p.pcurtCfg k) 14 4 - 1) * 100000 < (p.tim.interval - f).toNat) : p.curtTimeout k = p.abortWaiters k (p.timedOut k) := by
  have hdue : ¬ (fld (p.pcurtCfg k) 14 4 = 0 ∨ (p.tim.interval - f).toNat ≤ 2 ^ (fld (p.pcurtCfg k) 14 4 - 1) * 100000) := by omega
  simp only [Part.curtTimeout, hfirst, if_neg hdue]
  rfl

theorem exec_packageCurtainTimeout_of_late {s : State} (hready : s.part.phase = .ready) {k : Nat} {f : W64} (hfirst : (s.part.pcurt k).first = some f)
    (hon : fld (s.part.pcurtCfg k) 14 4 ≠ 0) (hlate : 2 ^ (fld (s.part.pcurtCfg k) 14 4 - 1) * 100000 < (s.part.tim.interval - f).toNat) :
    exec (.packageCurtainTimeout k) s = .next { s with part := (s.part.abortWaiters k (s.part.timedOut k)).pumpViews } :=
  State.live_eq_of hready (congrArg Part.pumpViews (Part.curtTimeout_of_late hfirst hon hlate))

/-- Settles O20: a cluster's release is a release at each of its cores, of which each is visited once (`Part.releases_releaseCluster`); a wider
curtain's complete node arrives one level up (`Part.arrived_onRNode`); a late package curtain times out (`Part.curtTimeout_of_late`). -/
theorem curtainsReleaseOrPassUp : Obligations.CurtainsReleaseOrPassUp := by
  unfold Obligations.CurtainsReleaseOrPassUp
  refine ⟨fun s cl cur r hready hr hcomplete => ⟨fun hscope hfits => ?release, fun hscope => ?up⟩,
    fun s a cur r k hready hr hk hcomplete hscope => ?package, fun s k f hready hfirst hon hlate => ?late⟩
  case release =>
    have hcount : ∀ c ∈ clusterCores cl, (s.part.core c).mayCount cur (s.part.curtDecl r cur).2.1 := fun c hc => by
      obtain ⟨k, hk, rfl⟩ := List.mem_map.mp hc
      exact hfits k (List.mem_range.mp hk)
    have hnode := s.part.curtNode_onNode_self cl cur CurtState.next
    have hexec := exec_curtainRelease_of_cluster hready hr hcomplete hscope
    have hstanding := s.part.standing_releaseCluster cl cur (s.part.curtDecl r cur).2.1
    have hreleases := Part.releases_releaseCluster hcount
    generalize s.part.releaseCluster cl cur (s.part.curtDecl r cur).2.1 = q at hexec hstanding hreleases
    refine ⟨_, hexec, State.sameBytes_of_mem (Part.mem_of_standing hstanding), ?gen, fun hasks => ?arrived, fun k hk hpending => ?core⟩
    case gen => exact hreleases.gen.trans (congrArg CurtState.gen hnode)
    case arrived =>
      refine (congrArg CurtState.arrived (hreleases.node fun c hc => ?_)).trans (congrArg CurtState.arrived hnode)
      obtain ⟨k, hk, rfl⟩ := List.mem_map.mp hc
      exact hasks k (List.mem_range.mp hk)
    case core =>
      have hmem : 16 * cl + k ∈ clusterCores cl := List.mem_map_of_mem (List.mem_range.mpr hk)
      obtain ⟨hended, hwoken, hcounted⟩ := hreleases.released _ hmem hpending
      exact ⟨hended, hwoken, fun hwaits hcalm _ => hcounted hwaits hcalm⟩
  case up =>
    obtain ⟨r', hr', harrived⟩ := Part.arrived_onRNode hr cur
    exact ⟨_, r', exec_curtainRelease_to_replica hready hr hcomplete hscope, fun _ => rfl, fun _ _ => rfl, fun _ _ => rfl, hr', harrived⟩
  case package =>
    exact ⟨_, exec_curtainRelease_to_package hready hr hk hcomplete hscope, fun _ => rfl, fun _ _ => rfl, fun _ _ => rfl,
      Part.pcurt_onPCurt_self _ _ _⟩
  case late =>
    exact ⟨{ s with part := s.part.timedOut k }, exec_packageCurtainTimeout_of_late hready hfirst hon hlate, rfl, fun _ => rfl, fun _ _ => rfl,
      fun o ho => Part.reg_setReg_ne _ _ (List.ne_of_not_mem_cons ho), Part.reg_setReg_self _ _ _, Part.pcurt_onPCurt_self _ _ _⟩

end Sys2Proof.Machine


/-! ## Fields, bits and offsets of the pace and time registers -/

namespace Sys2Proof.Machine
open Sys2Proof

/-! ### Fields and bits of a register -/

theorem bitOf_eq_testBit (w i : Nat) : bitOf w i = w.testBit i := by
  rw [bitOf, fld, Nat.pow_one, Nat.testBit_eq_decide_div_mod_eq, Nat.shiftRight_eq_div_pow]
  rfl

theorem Part.regN_setFld (p : Part) (o v : Nat) {lo len : Nat} (hl : lo + len ≤ 64) :
    (p.setFld o lo len v).regN o =
      p.regN o / 2 ^ (lo + len) * 2 ^ (lo + len) + v % 2 ^ len * 2 ^ lo + p.regN o % 2 ^ lo := by
  have hsplit := fld_split (p.regN o) lo len
  have hlow : p.regN o % 2 ^ lo < 2 ^ lo := Nat.mod_lt _ (Nat.two_pow_pos lo)
  have hfield : v % 2 ^ len < 2 ^ len := Nat.mod_lt _ (Nat.two_pow_pos len)
  have hhigh : p.regN o / 2 ^ (lo + len) < 2 ^ (64 - (lo + len)) :=
    Nat.div_lt_of_lt_mul (by rw [← Nat.pow_add, Nat.add_sub_cancel' hl]; exact p.regN_lt o)
  have hbound : p.regN o / 2 ^ (lo + len) * 2 ^ (lo + len) + v % 2 ^ len * 2 ^ lo + p.regN o % 2 ^ lo < 2 ^ 64 := by
    calc _ < p.regN o / 2 ^ (lo + len) * 2 ^ (lo + len) + (v % 2 ^ len + 1) * 2 ^ lo := by rw [Nat.succ_mul]; omega
      _ ≤ p.regN o / 2 ^ (lo + len) * 2 ^ (lo + len) + 2 ^ len * 2 ^ lo := Nat.add_le_add_left (Nat.mul_le_mul_right _ hfield) _
      _ = (p.regN o / 2 ^ (lo + len) + 1) * 2 ^ (lo + len) := by rw [Nat.succ_mul, Nat.pow_add 2 lo, Nat.mul_comm (2 ^ len)]
      _ ≤ 2 ^ (64 - (lo + len)) * 2 ^ (lo + len) := Nat.mul_le_mul_right _ hhigh
      _ = 2 ^ 64 := by rw [← Nat.pow_add, Nat.sub_add_cancel hl]
  have hnew : p.regN o - fld (p.regN o) lo len * 2 ^ lo + v % 2 ^ len * 2 ^ lo =
      p.regN o / 2 ^ (lo + len) * 2 ^ (lo + len) + v % 2 ^ len * 2 ^ lo + p.regN o % 2 ^ lo := by omega
  rw [Part.setFld, hnew, Part.regN_setRegN_self _ _ _ hbound]

/-- A field takes the low bits of what is written to it. -/
theorem Part.regFld_setFld_mod (p : Part) (o v : Nat) {lo len : Nat} (hl : lo + len ≤ 64) :
    (p.setFld o lo len v).regFld o lo len = v % 2 ^ len := by
  rw [Part.regFld, Part.regN_setFld _ _ _ hl, fld_of_parts (Nat.mod_lt _ (Nat.two_pow_pos len)) (Nat.mod_lt _ (Nat.two_pow_pos lo))]

/-- What lies below a field reads without it. -/
theorem fld_add_below {m lo len r : Nat} (h : m ≤ lo) (hr : r < 2 ^ m) (a : Nat) : fld (a * 2 ^ m + r) lo len = fld a (lo - m) len := by
  obtain ⟨d, rfl⟩ := Nat.exists_eq_add_of_le h
  rw [fld, fld, Nat.shiftRight_eq_div_pow, Nat.shiftRight_eq_div_pow, Nat.pow_add, ← Nat.div_div_eq_div_mul, Nat.mul_comm,
    Nat.mul_add_div (Nat.two_pow_pos m), Nat.div_eq_of_lt hr, Nat.add_zero, Nat.add_sub_cancel_left]

/-- A field that the written one does not meet reads as before. -/
theorem Part.regFld_setFld_apart (p : Part) (o v : Nat) {lo len lo' len' : Nat} (hl : lo + len ≤ 64) (h : lo' + len' ≤ lo ∨ lo + len ≤ lo') :
    (p.setFld o lo len v).regFld o lo' len' = p.regFld o lo' len' := by
  have hold := fld_split (p.regN o) lo len
  have hlow : p.regN o % 2 ^ lo < 2 ^ lo := Nat.mod_lt _ (Nat.two_pow_pos lo)
  have hmod : v % 2 ^ len < 2 ^ len := Nat.mod_lt _ (Nat.two_pow_pos len)
  have hfld := fld_lt (p.regN o) lo len
  rw [Part.regFld, Part.regFld, Part.regN_setFld _ _ _ hl]
  generalize p.regN o / 2 ^ (lo + len) = a at *
  generalize p.regN o % 2 ^ lo = b at *
  generalize v % 2 ^ len = c at *
  generalize fld (p.regN o) lo len = f at *
  rw [hold]
  rcases h with h | h
  · have hassoc : ∀ x, a * 2 ^ (lo + len) + x * 2 ^ lo + b = (a * 2 ^ len + x) * 2 ^ lo + b := fun x => by ring
    rw [hassoc, hassoc, fld_add_above h, fld_add_above h]
  · have hunder : ∀ x < 2 ^ len, x * 2 ^ lo + b < 2 ^ (lo + len) := fun x hx => by
      have := Nat.mul_le_mul_right (2 ^ lo) (Nat.succ_le_of_lt hx)
      rw [Nat.succ_mul, ← Nat.pow_add, Nat.add_comm len] at this
      omega
    rw [Nat.add_assoc, Nat.add_assoc, fld_add_below h (hunder c hmod), fld_add_below h (hunder f hfld)]

theorem Part.bitOf_orReg_self (p : Part) (o : Nat) {m i : Nat} (hi : i < 64) (hm : m.testBit i = true) :
    bitOf ((p.orReg o m).regN o) i = true := by
  rw [bitOf_eq_testBit, Part.regN, Part.reg_orReg, if_pos rfl, BitVec.toNat_or, Nat.testBit_or, BitVec.toNat_ofNat, Nat.testBit_mod_two_pow,
    hm, decide_eq_true hi, Bool.and_self, Bool.or_true]

theorem Part.bitOf_andNotReg_self (p : Part) (o : Nat) {m i : Nat} (hi : i < 64) (hm : m.testBit i = true) :
    bitOf ((p.andNotReg o m).regN o) i = false := by
  have hbit : ((p.reg o &&& ~~~ BitVec.ofNat 64 m).getLsbD i) = false := by
    rw [BitVec.getLsbD_and, BitVec.getLsbD_not, BitVec.getLsbD_ofNat, hm, decide_eq_true hi, Bool.and_self, Bool.not_true, Bool.and_false, Bool.and_false]
  rw [bitOf_eq_testBit, Part.regN, Part.reg_andNotReg, if_pos rfl]
  exact hbit

theorem Part.regFld_of_reg {p q : Part} {o : Nat} (h : q.reg o = p.reg o) (lo len : Nat) : q.regFld o lo len = p.regFld o lo len := by
  rw [Part.regFld, Part.regFld, Part.regN, Part.regN, h]

theorem Part.regFld_setReg_ne (p : Part) {o j : Nat} (v : W64) (h : j ≠ o) (lo len : Nat) : (p.setReg o v).regFld j lo len = p.regFld j lo len :=
  Part.regFld_of_reg (p.reg_setReg_ne v h) lo len

theorem Part.regN_setReg_ne (p : Part) {o j : Nat} (v : W64) (h : j ≠ o) : (p.setReg o v).regN j = p.regN j :=
  congrArg BitVec.toNat (p.reg_setReg_ne v h)

end Sys2Proof.Machine

/-! ## The timebase -/

namespace Sys2Proof.Machine
open Sys2Proof

/-- A command that the phase does not hold up leaves the part that its effect leaves. -/
theorem State.next_act_of {s : State} {f : Part → Part} {q : Part} (h : f s.part = q) :
    (Host.Outcome.next (s.act f) : Host.Outcome State Fault Refusal) = .next { s with part := q } := by
  rw [State.act, h]

/-! ### A tick and a correction (12 R352 to R354) -/

theorem Part.tick_of_steady {p : Part} (hready : p.phase = .ready) (hslew : p.tim.slew = 0) (hfrac : p.tim.frac = 0) :
    p.tick = { p with tim := { p.tim with now := p.tim.now + 1, interval := p.tim.interval + 1, copies := p.tim.copies.map (· + 1) } } := by
  have hstep : slewStep 0 = 0 := rfl
  simp [Part.tick, hready, hslew, hfrac, hstep]

/-- Whatever the offset, a correction changes registers, the count with its copies and the offset to absorb. -/
theorem Part.correct_frame (p : Part) (e : Int) :
    ∃ r n w l, p.correct e = { p with regs := r, tim := { p.tim with now := n, slew := w, copies := l } } := by
  unfold Part.correct
  dsimp only
  split <;> exact ⟨_, _, _, _, rfl⟩

theorem Part.reg_correct (p : Part) (e : Int) {o : Nat} (ho : o ∉ [Reg.TIM_OFFSET.at [], Reg.TIM_RATE.at [], Reg.TIM_STAT.at []]) :
    (p.correct e).reg o = p.reg o := by
  obtain ⟨hoffset, hrate, hstat⟩ : o ≠ Reg.TIM_OFFSET.at [] ∧ o ≠ Reg.TIM_RATE.at [] ∧ o ≠ Reg.TIM_STAT.at [] := by simpa using ho
  unfold Part.correct
  dsimp only
  split
  · exact (Part.reg_setReg_ne _ _ hstat).trans ((Part.reg_setReg_ne _ _ hrate).trans (Part.reg_setReg_ne _ _ hoffset))
  · exact (Part.reg_setReg_ne _ _ hrate).trans (Part.reg_setReg_ne _ _ hoffset)

/-- The part shows the offset `e` and has `w` to absorb. -/
def Part.slewing (p : Part) (e w : Int) : Part :=
  Part.setRegN { p.setRegN (Reg.TIM_OFFSET.at []) (wrapInt 32 (clampInt (-2147483648) 2147483647 e)) with tim := { p.tim with slew := w } }
    (Reg.TIM_RATE.at []) (slewRate w)

theorem Part.reg_slewing (p : Part) (e w : Int) {o : Nat} (ho : o ∉ [Reg.TIM_OFFSET.at [], Reg.TIM_RATE.at []]) :
    (p.slewing e w).reg o = p.reg o := by
  obtain ⟨hoffset, hrate⟩ : o ≠ Reg.TIM_OFFSET.at [] ∧ o ≠ Reg.TIM_RATE.at [] := by simpa using ho
  exact (Part.reg_setReg_ne _ _ hrate).trans (Part.reg_setReg_ne _ _ hoffset)

theorem Part.regN_slewing_offset (p : Part) (w : Int) {e : Int} (h : 0 ≤ e) (hlt : e < 2 ^ 31) :
    (p.slewing e w).regN (Reg.TIM_OFFSET.at []) = e.toNat := by
  have hcode : wrapInt 32 (clampInt (-2147483648) 2147483647 e) = e.toNat := by
    rw [wrapInt, clampInt, if_neg (by omega), if_neg (by omega), Int.emod_eq_of_lt h (by omega)]
  rw [Part.slewing, hcode]
  exact (Part.regN_setReg_ne _ _ (by decide)).trans (Part.regN_setRegN_self _ _ _ (by omega))

/-- What is ahead is slewed. -/
theorem Part.correct_of_ahead (p : Part) {e : Int} (h : 0 ≤ e) : p.correct e = p.slewing e (e * 2 ^ 32) := by
  have hstay : decide (e < 0) = false := decide_eq_false (Int.not_lt.mpr h)
  simp only [Part.correct, hstay, Bool.false_and, Bool.false_eq_true, if_false]
  rfl

/-- What is far enough behind steps, where steps are allowed. -/
theorem Part.correct_of_behind {p : Part} {e : Int} (hneg : e < 0) (hfar : p.regN (Reg.TIM_STEP_MAX.at []) < e.natAbs)
    (hmay : bitOf (p.regN (Reg.TIM_CFG.at [])) 6 = true) :
    p.correct e = ((p.slewing e 0).setNow (p.tim.now + BitVec.ofNat 64 e.natAbs)).orReg (Reg.TIM_STAT.at []) 2 := by
  simp only [Part.correct, hfar, hmay, decide_eq_true hneg, decide_true, Bool.and_self, if_true]
  rfl

/-! ### An edge of PPS_IN (12 R353) -/

/-- The edge taken at `e` is stamped. -/
def Part.ppsStamped (p : Part) (e : W64) : Part :=
  Part.setReg
    { p with
      pwr := { p.pwr with ins := modAt p.pwr.ins 8 (fun x => { x with edge := none }) }
      tim := { p.tim with ppsLast := p.tim.interval } }
    (Reg.TIM_PPS_STAMP.at []) e

/-- The edge as source: a holdover is over. -/
def Part.ppsHeard (p : Part) (e : W64) : Part := (p.ppsStamped e).andNotReg (Reg.TIM_STAT.at []) 1

theorem Part.reg_ppsHeard (p : Part) (e : W64) {o : Nat} (ho : o ∉ [Reg.TIM_STAT.at [], Reg.TIM_PPS_STAMP.at []]) : (p.ppsHeard e).reg o = p.reg o := by
  obtain ⟨hstat, hstamp⟩ : o ≠ Reg.TIM_STAT.at [] ∧ o ≠ Reg.TIM_PPS_STAMP.at [] := by simpa using ho
  exact (Part.reg_setReg_ne _ _ hstat).trans (Part.reg_setReg_ne _ _ hstamp)

theorem Part.reg_ppsHeard_stamp (p : Part) (e : W64) : (p.ppsHeard e).reg (Reg.TIM_PPS_STAMP.at []) = e :=
  (Part.reg_setReg_ne _ _ (by decide)).trans (Part.reg_setReg_self _ _ _)

theorem ppsOffset_lt (t : Nat) : ppsOffset t < 2 ^ 31 := by
  unfold ppsOffset
  split <;> omega

section
variable {p : Part} {e : W64} (hedge : (p.pwr.ins.getD 8 Input.reset).edge = some e)
include hedge

theorem Part.pps_of_source (hsrc : p.timSrc = 1) : p.pps = (p.ppsHeard e).correct (ppsOffset e.toNat) := by
  simp only [Part.pps, hedge, if_pos hsrc]
  rfl

theorem Part.pps_of_other (hsrc : p.timSrc ≠ 1) : p.pps = p.ppsStamped e := by
  simp only [Part.pps, hedge, if_neg hsrc]
  rfl

/-- Whatever the source, the edge is taken and stamped, and nothing but registers and time changes else. -/
theorem Part.pps_frame : ∃ r n w l, p.pps = { p.ppsStamped e with regs := r, tim := { (p.ppsStamped e).tim with now := n, slew := w, copies := l } } := by
  by_cases hsrc : p.timSrc = 1
  · obtain ⟨r, n, w, l, hcorrect⟩ := (p.ppsHeard e).correct_frame (ppsOffset e.toNat)
    exact ⟨r, n, w, l, (Part.pps_of_source hedge hsrc).trans hcorrect⟩
  · exact ⟨_, _, _, _, Part.pps_of_other hedge hsrc⟩

theorem Part.reg_pps_stamp : p.pps.reg (Reg.TIM_PPS_STAMP.at []) = e := by
  by_cases hsrc : p.timSrc = 1
  · rw [Part.pps_of_source hedge hsrc, Part.reg_correct _ _ (by decide), Part.reg_ppsHeard_stamp]
  · rw [Part.pps_of_other hedge hsrc]
    exact Part.reg_setReg_self _ _ _

end

/-! ### Holdover (12 R353 R373) -/

theorem State.onlyRegs_orReg (s : State) (o m : Nat) : s.onlyRegs { s with part := s.part.orReg o m } [o] :=
  ⟨rfl, fun _ hj => Part.reg_setReg_ne _ _ (List.ne_of_not_mem_cons hj), fun _ => rfl, fun _ _ => rfl⟩

theorem Part.holdOver_of_pps {p : Part} (hsrc : p.timSrc = 1) (hlate : 1500000000 ≤ (p.tim.interval - p.tim.ppsLast).toNat) :
    p.holdOver = p.orReg (Reg.TIM_STAT.at []) 1 := if_pos ⟨hsrc, hlate⟩

theorem Part.holdOver_of_parent {p : Part} (hsrc : p.timSrc = 2) (hlate : 10000000 ≤ (p.tim.interval - p.tim.parentLast).toNat) :
    p.holdOver = p.orReg (Reg.TIM_STAT.at []) 9 :=
  (if_neg fun h => absurd (hsrc.symm.trans h.1) (by decide)).trans (if_pos ⟨hsrc, hlate⟩)

/-- Settles O54: a tick with nothing to correct is said once (`Part.tick_of_steady`); an edge is stamped whatever the source (`Part.pps_frame`), and as
source corrects by `Part.correct_of_ahead` or `Part.correct_of_behind`. -/
theorem timebaseKeepsTime : Obligations.TimebaseKeepsTime := by
  unfold Obligations.TimebaseKeepsTime
  intro s
  refine ⟨fun hidle hready hslew hfrac => ?tick, ⟨_, rfl, rfl⟩, fun e hedge hins => ?edge, fun hsrc hlate => ?pps, fun hsrc hlate => ?parent⟩
  case tick =>
    have hstep : step s = .next (s.act Part.tick) := by simp only [step, hidle]
    exact ⟨_, hstep.trans (State.next_act_of (Part.tick_of_steady hready hslew hfrac)), rfl⟩
  case edge =>
    obtain ⟨r, n, w, l, hframe⟩ := Part.pps_frame hedge
    have hmem : s.part.pps.mem = s.part.mem := by rw [hframe]; rfl
    have hcores : s.part.pps.cores = s.part.cores := by rw [hframe]; rfl
    have htaken : (s.part.pps.pwr.ins.getD 8 Input.reset).edge = none := by
      rw [hframe]
      simp [Part.ppsStamped, modAt, hins]
    have hlast : s.part.pps.tim.ppsLast = s.part.tim.interval := by rw [hframe]; rfl
    refine ⟨{ s with part := s.part.pps }, rfl, State.sameBytes_of_mem hmem, fun c _ => Part.core_congr hcores c, Part.reg_pps_stamp hedge, htaken, hlast,
      fun hother => ?other, fun hsrc hahead => ?ahead, fun hsrc hbehind hfar hmay => ?behind⟩
    case other =>
      rw [Part.pps_of_other hedge hother]
      exact ⟨fun o ho => Part.reg_setReg_ne _ _ (List.ne_of_not_mem_cons ho), rfl, rfl⟩
    case ahead =>
      rw [Part.pps_of_source hedge hsrc, Part.correct_of_ahead _ hahead]
      refine ⟨?_, rfl, rfl, Part.regN_slewing_offset _ _ hahead (ppsOffset_lt _)⟩
      have hkept := (s.part.ppsHeard e).reg_slewing (ppsOffset e.toNat) (ppsOffset e.toNat * 2 ^ 32) (o := Reg.TIM_STAT.at []) (by decide)
      rw [Part.regN, hkept]
      exact Part.bitOf_andNotReg_self _ _ (by decide) rfl
    case behind =>
      have hmax : (s.part.ppsHeard e).regN (Reg.TIM_STEP_MAX.at []) = s.part.regN (Reg.TIM_STEP_MAX.at []) :=
        congrArg BitVec.toNat (s.part.reg_ppsHeard e (by decide))
      have hcfg : (s.part.ppsHeard e).regN (Reg.TIM_CFG.at []) = s.part.regN (Reg.TIM_CFG.at []) :=
        congrArg BitVec.toNat (s.part.reg_ppsHeard e (by decide))
      rw [Part.pps_of_source hedge hsrc, Part.correct_of_behind hbehind (hmax.symm ▸ hfar) (hcfg.symm ▸ hmay)]
      exact ⟨rfl, rfl, Part.bitOf_orReg_self _ _ (by decide) rfl⟩
  case pps =>
    exact ⟨{ s with part := s.part.orReg (Reg.TIM_STAT.at []) 1 },
      State.next_act_of (Part.holdOver_of_pps hsrc hlate), s.onlyRegs_orReg _ _, Part.reg_setReg_self _ _ _⟩
  case parent =>
    exact ⟨{ s with part := s.part.orReg (Reg.TIM_STAT.at []) 9 },
      State.next_act_of (Part.holdOver_of_parent hsrc hlate), s.onlyRegs_orReg _ _, Part.reg_setReg_self _ _ _⟩

end Sys2Proof.Machine

/-! ## Flits received -/

namespace Sys2Proof.Machine
open Sys2Proof

/-! ### What a port's own operations leave (14 R408 R411) -/

/-- Port `n`, the registers of `l` and what goes out are all that changes. -/
structure Part.OnlyPort (n : Nat) (l : List Nat) (p q : Part) : Prop where
  frame : ∃ f r o, q = { p with fab := { p.fab with ports := f }, regs := r, out := o }
  length : q.fab.ports.length = p.fab.ports.length
  others : ∀ m, m ≠ n → q.port m = p.port m
  regs : ∀ o, o ∉ l → q.reg o = p.reg o

theorem Part.port_onPort_ne (p : Part) {n m : Nat} (f : Port → Port) (h : m ≠ n) : (p.onPort n f).port m = p.port m := by
  simp [Part.port, Part.onPort, modAt, h.symm]

namespace Part.OnlyPort

variable {n : Nat} {l : List Nat} {p₀ p q : Part}

theorem refl (p : Part) : p.OnlyPort n l p := ⟨⟨_, _, _, rfl⟩, rfl, fun _ _ => rfl, fun _ _ => rfl⟩

theorem trans (h : p₀.OnlyPort n l p) (h' : p.OnlyPort n l q) : p₀.OnlyPort n l q := by
  refine ⟨?_, h'.length.trans h.length, fun m hm => (h'.others m hm).trans (h.others m hm), fun o ho => (h'.regs o ho).trans (h.regs o ho)⟩
  obtain ⟨f, r, o, rfl⟩ := h.frame
  obtain ⟨f', r', o', rfl⟩ := h'.frame
  exact ⟨f', r', o', rfl⟩

theorem mono {l' : List Nat} (h : p₀.OnlyPort n l p) (hl : l ⊆ l') : p₀.OnlyPort n l' p :=
  ⟨h.frame, h.length, h.others, fun o ho => h.regs o fun hmem => ho (hl hmem)⟩

theorem onPort {f : Port → Port} (h : p₀.OnlyPort n l p) : p₀.OnlyPort n l (p.onPort n f) :=
  h.trans ⟨⟨_, _, _, rfl⟩, modAt_length _ _ _, fun _ hm => Part.port_onPort_ne _ _ hm, fun _ _ => rfl⟩

theorem emit {x : Output} (h : p₀.OnlyPort n l p) : p₀.OnlyPort n l (p.emit x) :=
  h.trans ⟨⟨_, _, _, rfl⟩, rfl, fun _ _ => rfl, fun _ _ => rfl⟩

theorem bump {o k : Nat} (h : p₀.OnlyPort n l p) (ho : o ∈ l) : p₀.OnlyPort n l (p.bump o k) :=
  h.trans ⟨⟨_, _, _, rfl⟩, rfl, fun _ _ => rfl, fun _ hj => Part.reg_setReg_ne _ _ (ne_of_mem_of_not_mem ho hj).symm⟩

theorem sendFlit {kind seq fvc : Nat} {payload : List Byte} (h : p₀.OnlyPort n l p) : p₀.OnlyPort n l (p.sendFlit n kind seq fvc payload) :=
  h.onPort.emit

theorem state {s : State} (h : s.part.OnlyPort n l q) : s.onlyPort { s with part := q } n l := by
  refine ⟨?_, h.others, h.regs⟩
  obtain ⟨f, r, o, rfl⟩ := h.frame
  rfl

end Part.OnlyPort

/-- The port once a flit has left it: the slot is over and the credits that the flit returns are no longer owed. -/
def Port.flitSent (q : Port) : Port :=
  { q with owe := q.owe.set q.oweVc (q.owe.getD q.oweVc 0 - min 32 (q.owe.getD q.oweVc 0)), slot := (q.slot + 1) % 64 }

/-- The flit of a kind that port `n` sends in the state `q`. -/
def Port.flitOut (q : Port) (n kind seq fvc : Nat) (payload : List Byte) : Output :=
  .flit n (flitBytes seq (q.rxSeq + 4095) kind fvc q.oweVc (min 32 (q.owe.getD q.oweVc 0)) payload)

theorem Part.port_sendFlit {p : Part} {n : Nat} (hn : n < p.fab.ports.length) (kind seq fvc : Nat) (payload : List Byte) :
    (p.sendFlit n kind seq fvc payload).port n = (p.port n).flitSent := Part.port_onPort_self hn _

theorem Part.out_sendFlit (p : Part) (n kind seq fvc : Nat) (payload : List Byte) :
    (p.sendFlit n kind seq fvc payload).out = p.out ++ [(p.port n).flitOut n kind seq fvc payload] := rfl

/-- Two counters of one port lie at different offsets. -/
theorem portReg_ne {r r' : RegRow} (n : Nat) (hdims : r.dims = r'.dims) (hbase : r.base ≠ r'.base) : portReg r n ≠ portReg r' n := by
  rw [portReg, portReg, RegRow.at_eq, RegRow.at_eq, hdims]
  omega

/-! ### A flit brings its acknowledgement and credits, or is dropped (14 R408 R410 R411) -/

/-- The port once flit `f` has come: its acknowledgement is taken and its credits are returned. -/
def Port.brought (now : W64) (f : Flit) (q : Port) : Port := (q.acked f.ack now).credit f.cvc f.credits

/-- What has come in, and what is owed for it, stands as before. -/
theorem Port.brought_frame (now : W64) (f : Flit) (q : Port) :
    ∃ r t c, q.brought now f = { q with replay := r, ackAt := t, credits := c } := by
  unfold Port.brought Port.acked
  dsimp only
  split <;> exact ⟨_, _, _, rfl⟩

section
variable (now : W64) (f : Flit) (q : Port)

@[simp] theorem Port.rxSeq_brought : (q.brought now f).rxSeq = q.rxSeq := by obtain ⟨r, t, c, h⟩ := q.brought_frame now f; rw [h]
@[simp] theorem Port.rx_brought : (q.brought now f).rx = q.rx := by obtain ⟨r, t, c, h⟩ := q.brought_frame now f; rw [h]
@[simp] theorem Port.rxFlits_brought : (q.brought now f).rxFlits = q.rxFlits := by obtain ⟨r, t, c, h⟩ := q.brought_frame now f; rw [h]
@[simp] theorem Port.owe_brought : (q.brought now f).owe = q.owe := by obtain ⟨r, t, c, h⟩ := q.brought_frame now f; rw [h]

end

/-- The good flit `b`, with `k` symbols corrected, has come to port `n`; what its kind says is still to be done. -/
def Part.flitTaken (p : Part) (n : Nat) (b : List Byte) (k : Nat) : Part :=
  (p.bump (portReg Reg.FAB_PORT_FEC_CORR n) k).onPort n (Port.brought p.tim.interval (flitOf b))

section
variable {p : Part} {n : Nat} (b : List Byte)

theorem Part.receive_damaged (hup : (p.port n).st = 2) (kind : Nat) (f : Flit → Part → Part) :
    p.receive n b none kind f = (p.bump (portReg Reg.FAB_PORT_FEC_UNCORR n) 1).sendNak n := by
  simp [Part.receive, Part.portUp', hup, Part.fecCount]

theorem Part.receive_good {b : List Byte} (hup : (p.port n).st = 2) (hgood : flitGood b = true) {kind : Nat} (hkind : (flitOf b).kind = kind) (k : Nat)
    (f : Flit → Part → Part) : p.receive n b (some k) kind f = f (flitOf b) (p.flitTaken n b k) := by
  simp only [Part.receive, Part.portUp', hup, hgood, hkind, decide_true, Bool.not_true, Bool.false_eq_true, if_false, Option.isNone_some, Bool.or_self,
    ne_eq, not_true_eq_false]
  rfl

theorem Part.onlyPort_flitTaken (p : Part) (n : Nat) (k : Nat) :
    p.OnlyPort n [portReg Reg.FAB_PORT_FEC_CORR n] (p.flitTaken n b k) := ((OnlyPort.refl p).bump List.mem_cons_self).onPort

theorem Part.port_flitTaken (hn : n < p.fab.ports.length) (k : Nat) :
    (p.flitTaken n b k).port n = (p.port n).brought p.tim.interval (flitOf b) := Part.port_onPort_self hn _

theorem Part.reg_flitTaken (p : Part) (n k : Nat) :
    (p.flitTaken n b k).reg (portReg Reg.FAB_PORT_FEC_CORR n) = p.reg (portReg Reg.FAB_PORT_FEC_CORR n) + BitVec.ofNat 64 k :=
  Part.reg_setReg_self _ _ _

end

/-! ### DATA flits (14 R409 R410) -/

theorem Part.dataIn_of_disorder {p : Part} {n : Nat} {f : Flit} (h : f.seq ≠ (p.port n).rxSeq) : p.dataIn n f = p.pump n := if_pos h

/-- The port once a DATA flit has completed one packet and left `rest` of the next. -/
def Port.completed (f : Flit) (rest : List Byte) (q : Port) : Port :=
  { q with
    rxSeq := (q.rxSeq + 1) % 4096
    rx := q.rx.set f.fvc rest
    rxFlits := q.rxFlits.set f.fvc (if rest.isEmpty then 0 else 1)
    owe := q.owe.set f.fvc (q.owe.getD f.fvc 0) }

/-- The packet with the flit buffers that it takes up. -/
def Packet.heldAt (k : Packet) (n v f : Nat) : Packet := { k with held := some (n, v, f) }

/-- Packet `k` has come to port `n` on channel `v` and waits in the router of the port's E-die. -/
def Part.inRouter (p : Part) (n v : Nat) (k : Packet) : Part :=
  let c := (p.bump48 (portReg Reg.FAB_PORT_PKT_RX n) 1).bump (portReg Reg.FAB_PORT_BYTE_RX n) k.bytes.length
  { c with fab := { c.fab with transit := c.fab.transit ++ [⟨k, n / 8, v, p.tim.interval, false⟩] } }

theorem Part.packetIn_of_ok {p : Part} {n v : Nat} {k : Packet} (hok : packetOk k v = true) (hv : v ≠ 0) (hvalid : p.fabValid = true) :
    p.packetIn n v k = p.inRouter n v k := by
  simp only [Part.packetIn, hok, hvalid, Bool.not_true, Bool.false_eq_true, if_false, if_neg hv]
  rfl

/-- The DATA flit `f` has brought port `n` the packet `k`, with `rest` behind it; its acknowledgement is still to be sent. -/
def Part.accepted (p : Part) (n : Nat) (f : Flit) (k : Packet) (rest : List Byte) : Part :=
  (p.onPort n (Port.completed f rest)).inRouter n f.fvc
    (k.heldAt n f.fvc ((p.port n).rxFlits.getD f.fvc 0 + if rest = [] then 1 else 0))

theorem Part.dataIn_of_packet {p : Part} {n : Nat} {f : Flit} {k : Packet} {rest : List Byte} (hseq : f.seq = (p.port n).rxSeq) (hvc : f.fvc ≠ 0)
    (htake : takePackets 64 ((p.port n).rx.getD f.fvc [] ++ f.payload) = ([k], rest)) (hok : packetOk k f.fvc = true)
    (hvalid : p.fabValid = true) : p.dataIn n f = (p.accepted n f k rest).ackFlit n := by
  have hheld : holdFlits n f.fvc ((p.port n).rxFlits.getD f.fvc 0) rest.isEmpty [k] =
      [k.heldAt n f.fvc ((p.port n).rxFlits.getD f.fvc 0 + if rest = [] then 1 else 0)] := by
    cases rest <;> rfl
  have hin : (p.onPort n (Port.completed f rest)).packetIn n f.fvc
      (k.heldAt n f.fvc ((p.port n).rxFlits.getD f.fvc 0 + if rest = [] then 1 else 0)) = p.accepted n f k rest := Part.packetIn_of_ok hok hvc hvalid
  rw [← hin]
  simp only [Part.dataIn, if_neg (not_not_intro hseq), htake, hheld, forEach_cons, forEach_nil, List.isEmpty_cons, Bool.and_false,
    Bool.false_eq_true, if_false, Nat.add_zero]
  rfl

section
variable {p : Part} {n : Nat} (f : Flit) (k : Packet) (rest : List Byte)

theorem Part.port_accepted (hn : n < p.fab.ports.length) : (p.accepted n f k rest).port n = (p.port n).completed f rest := Part.port_onPort_self hn _

theorem Part.reg_accepted_ne {o : Nat} (hpkt : o ≠ portReg Reg.FAB_PORT_PKT_RX n) (hbyte : o ≠ portReg Reg.FAB_PORT_BYTE_RX n) :
    (p.accepted n f k rest).reg o = p.reg o := (Part.reg_setReg_ne _ _ hbyte).trans (Part.reg_setReg_ne _ _ hpkt)

theorem Part.regN_accepted_pkt :
    (p.accepted n f k rest).regN (portReg Reg.FAB_PORT_PKT_RX n) = (p.regN (portReg Reg.FAB_PORT_PKT_RX n) + 1) % 2 ^ 48 := by
  have hne : portReg Reg.FAB_PORT_PKT_RX n ≠ portReg Reg.FAB_PORT_BYTE_RX n := portReg_ne n rfl (by decide)
  have hfits : (p.regN (portReg Reg.FAB_PORT_PKT_RX n) + 1) % 2 ^ 48 < 2 ^ 64 := (Nat.mod_lt _ (Nat.two_pow_pos 48)).trans (by decide)
  calc (p.accepted n f k rest).regN (portReg Reg.FAB_PORT_PKT_RX n)
      = ((p.bump48 (portReg Reg.FAB_PORT_PKT_RX n) 1).bump (portReg Reg.FAB_PORT_BYTE_RX n)
          (k.heldAt n f.fvc ((p.port n).rxFlits.getD f.fvc 0 + if rest = [] then 1 else 0)).bytes.length).regN (portReg Reg.FAB_PORT_PKT_RX n) := rfl
    _ = (p.bump48 (portReg Reg.FAB_PORT_PKT_RX n) 1).regN (portReg Reg.FAB_PORT_PKT_RX n) := Part.regN_setReg_ne _ _ hne
    _ = _ := Part.regN_setRegN_self _ _ _ hfits

end

/-! ### A NAK (14 R410) -/

/-- The flits of `l` leave port `n` again. -/
def Part.sentAgain (p : Part) (n : Nat) (l : List SentFlit) : Part := forEach l (fun x y => y.sendFlit n 0 x.seq x.vc x.payload) p

theorem Part.onlyPort_sentAgain (p : Part) (n : Nat) (ro : List Nat) (l : List SentFlit) : p.OnlyPort n ro (p.sentAgain n l) :=
  forEach_keeps (.refl p) fun _ _ _ h => h.sendFlit

/-- The port returns credits for no channel. -/
def Port.owesNone (q : Port) : Prop := ∀ v, q.owe.getD v 0 = 0

theorem Port.owesNone.flitSent {q : Port} (h : q.owesNone) : q.flitSent.owesNone := by
  intro v
  have hv := h v
  have hset : q.owe.getD q.oweVc 0 - min 32 (q.owe.getD q.oweVc 0) = 0 := by rw [h, Nat.zero_sub]
  rw [List.getD_eq_getElem?_getD] at hv ⊢
  simp only [Port.flitSent, hset, List.getElem?_set]
  split
  · split <;> rfl
  · exact hv

theorem Port.owesNone.flitOut {q : Port} (h : q.owesNone) (n kind seq fvc : Nat) (payload : List Byte) :
    q.flitOut n kind seq fvc payload = .flit n (flitBytes seq (q.rxSeq + 4095) kind fvc 0 0 payload) := by
  have hfind : (List.range 8).find? (fun v => decide (q.owe.getD v 0 ≠ 0)) = none := by simp [h _, -List.getD_eq_getElem?_getD]
  have hvc : q.oweVc = 0 := by rw [Port.oweVc, hfind]; rfl
  rw [Port.flitOut, hvc, h 0]
  rfl

theorem Part.port_sentAgain {p : Part} {n : Nat} (hn : n < p.fab.ports.length) (l : List SentFlit) :
    ((p.sentAgain n l).port n).replay = (p.port n).replay := by
  induction l generalizing p with
  | nil => rfl
  | cons x l ih =>
    have hlen : n < (p.sendFlit n 0 x.seq x.vc x.payload).fab.ports.length := by
      rw [(OnlyPort.refl (n := n) (l := []) p).sendFlit.length]
      exact hn
    refine (ih hlen).trans ?_
    rw [Part.port_sendFlit hn]
    rfl

theorem Part.out_sentAgain {p : Part} {n : Nat} (hn : n < p.fab.ports.length) (l : List SentFlit) :
    ∃ outs, (p.sentAgain n l).out = p.out ++ outs ∧ outs.length = l.length ∧
      ((p.port n).owesNone → outs = l.map (fun x => .flit n (flitBytes x.seq ((p.port n).rxSeq + 4095) 0 x.vc 0 0 x.payload))) := by
  induction l generalizing p with
  | nil => exact ⟨[], (List.append_nil _).symm, rfl, fun _ => rfl⟩
  | cons x l ih =>
    have hlen : n < (p.sendFlit n 0 x.seq x.vc x.payload).fab.ports.length := by
      rw [(OnlyPort.refl (n := n) (l := []) p).sendFlit.length]
      exact hn
    obtain ⟨outs, hout, hcount, howes⟩ := ih hlen
    rw [Part.port_sendFlit hn] at howes
    refine ⟨(p.port n).flitOut n 0 x.seq x.vc x.payload :: outs, ?_, congrArg Nat.succ hcount, fun hnone => ?_⟩
    · refine hout.trans ?_
      rw [Part.out_sendFlit, List.append_assoc, List.singleton_append]
    · rw [howes hnone.flitSent, hnone.flitOut]
      rfl

/-- Every flit that stays unacknowledged has been sent once more. -/
def Port.triedAgain (q : Port) : Port := { q with replay := q.replay.map (fun y => { y with tries := y.tries + 1 }) }

/-- What a NAK leads to before the port sends what it may. -/
def Part.replayed (p : Part) (n : Nat) : Part :=
  if (p.port n).replay = [] then p
  else ((p.sentAgain n (p.port n).replay).bump (portReg Reg.FAB_PORT_REPLAY n) 1).onPort n Port.triedAgain

theorem Part.replayAll_eq (p : Part) (n : Nat) : p.replayAll n = (p.replayed n).pump n := by
  unfold Part.replayAll Part.replayed
  dsimp only
  by_cases h : (p.port n).replay = []
  · rw [if_pos h, if_pos (List.isEmpty_iff.mpr h)]
  · rw [if_neg h, if_neg (mt List.isEmpty_iff.mp h)]
    rfl

section
variable {p : Part} {n : Nat}

theorem Part.onlyPort_replayed : p.OnlyPort n [portReg Reg.FAB_PORT_REPLAY n] (p.replayed n) := by
  unfold Part.replayed
  split
  · exact .refl p
  · exact ((p.onlyPort_sentAgain n _ _).bump List.mem_cons_self).onPort

theorem Part.reg_replayed : (p.replayed n).reg (portReg Reg.FAB_PORT_REPLAY n) =
    if (p.port n).replay = [] then p.reg (portReg Reg.FAB_PORT_REPLAY n) else p.reg (portReg Reg.FAB_PORT_REPLAY n) + 1 := by
  unfold Part.replayed
  split
  · rfl
  · refine (Part.reg_setReg_self _ _ _).trans ?_
    rw [(p.onlyPort_sentAgain n [] _).regs _ List.not_mem_nil]
    rfl

variable (hn : n < p.fab.ports.length)
include hn

theorem Part.replay_replayed :
    ((p.replayed n).port n).replay = (p.port n).replay.map (fun x => { x with tries := x.tries + 1 }) := by
  unfold Part.replayed
  split
  next h => rw [h]; rfl
  · have hlen : n < ((p.sentAgain n (p.port n).replay).bump (portReg Reg.FAB_PORT_REPLAY n) 1).fab.ports.length := by
      rw [Part.bump_fab, (p.onlyPort_sentAgain n [] _).length]
      exact hn
    rw [Part.port_onPort_self hlen]
    exact congrArg (List.map _) (Part.port_sentAgain hn _)

theorem Part.out_replayed : ∃ outs, (p.replayed n).out = p.out ++ outs ∧ outs.length = (p.port n).replay.length ∧
    ((p.port n).owesNone →
      outs = (p.port n).replay.map (fun x => .flit n (flitBytes x.seq ((p.port n).rxSeq + 4095) 0 x.vc 0 0 x.payload))) := by
  unfold Part.replayed
  split
  next h => exact ⟨[], (List.append_nil _).symm, by rw [h]; rfl, fun _ => by rw [h]; rfl⟩
  · exact Part.out_sentAgain hn _

end

/-! ### TIME flits (12 R353, 14 R412) -/

/-- The times that a TIME flit carries have come to the port. -/
def Port.timed (f : Flit) (now : W64) (q : Port) : Port := { q with peerSent := BitVec.ofNat 64 (leAt f.payload 0 8), peerAt := now }

/-- The offset of the exchange of times of a TIME flit that came at `now`. -/
def Flit.offset (f : Flit) (now : W64) : Int :=
  ((now.toNat : Int) - leAt f.payload 0 8 - ((leAt f.payload 16 8 : Int) - leAt f.payload 8 8)) / 2

/-- Port `n` leads to the source of time. -/
def Part.hearsParent (p : Part) (n : Nat) : Prop := p.timSrc = 2 ∧ p.regFld (Reg.TIM_CFG.at []) 2 4 = n

/-- The exchange of times has been taken; the port has yet to send what it may. -/
def Part.exchanged (p : Part) (n : Nat) (f : Flit) : Part :=
  if p.timSrc = 2 ∧ p.regFld (Reg.TIM_CFG.at []) 2 4 = n then
    (p.onPort n (Port.timed f p.tim.now)).parentTime (if leAt f.payload 8 8 = 0 then none else some (f.offset p.tim.now))
  else p.onPort n (Port.timed f p.tim.now)

theorem Part.timeIn_eq (p : Part) (n : Nat) (f : Flit) : p.timeIn n f = (p.exchanged n f).pump n := rfl

theorem Part.parentTime_frame (p : Part) (e : Option Int) : ∃ r t, p.parentTime e = { p with regs := r, tim := t } := by
  cases e with
  | none => exact ⟨_, _, rfl⟩
  | some e =>
    obtain ⟨r, n, w, l, h⟩ := (Part.andNotReg { p with tim := { p.tim with parentLast := p.tim.interval } } (Reg.TIM_STAT.at []) 1).correct_frame e
    exact ⟨_, _, h⟩

section
variable {p : Part} {n : Nat} {f : Flit}

theorem Part.exchanged_frame : ∃ r t, p.exchanged n f = { p.onPort n (Port.timed f p.tim.now) with regs := r, tim := t } := by
  unfold Part.exchanged
  split
  · exact Part.parentTime_frame _ _
  · exact ⟨_, _, rfl⟩

theorem Part.exchanged_of_other (h : ¬ p.hearsParent n) : p.exchanged n f = p.onPort n (Port.timed f p.tim.now) := if_neg h

/-- The part as a correction by the parent's times begins: the parent was heard, a holdover is over. -/
def Part.parentHeard (p : Part) (n : Nat) (f : Flit) : Part :=
  Part.andNotReg { p.onPort n (Port.timed f p.tim.now) with tim := { p.tim with parentLast := p.tim.interval } } (Reg.TIM_STAT.at []) 1

/-- Times of the parent that put this part ahead are slewed. -/
theorem Part.exchanged_of_ahead (h : p.hearsParent n) (ht : leAt f.payload 8 8 ≠ 0) (he : 0 ≤ f.offset p.tim.now) :
    p.exchanged n f = (p.parentHeard n f).slewing (f.offset p.tim.now) (f.offset p.tim.now * 2 ^ 32) := by
  rw [← Part.correct_of_ahead _ he]
  refine (if_pos h).trans ?_
  rw [if_neg ht]
  rfl

end

theorem portReg_above (r : RegRow) {o : Nat} (h : o < r.base) (n : Nat) : o ≠ portReg r n := by
  rw [portReg, RegRow.at_eq]
  omega

theorem Part.hearsParent_flitTaken (p : Part) (n : Nat) (b : List Byte) (k : Nat) : (p.flitTaken n b k).hearsParent n ↔ p.hearsParent n := by
  have hcfg : (p.flitTaken n b k).regN (Reg.TIM_CFG.at []) = p.regN (Reg.TIM_CFG.at []) := 
    Part.regN_setReg_ne _ _ (portReg_above _ (by decide) n)
  simp only [Part.hearsParent, Part.timSrc, Part.regFld, hcfg]

theorem Part.timeOut_of_up {p : Part} {n : Nat} (hup : (p.port n).st = 2) :
    p.timeOut n =
      p.sendFlit n 3 0 0 (leBytes 8 p.tim.now.toNat ++ leBytes 8 (p.port n).peerSent.toNat ++ leBytes 8 (p.port n).peerAt.toNat) :=
  if_pos (decide_eq_true hup)

/-! ### The flit commands -/

section
variable {s : State} {n : Nat} {b : List Byte} (hready : s.part.phase = .ready) (hup : (s.part.port n).st = 2)
include hready hup

theorem exec_flit_of_damaged {i : Instr} (hi : i ∈ [Instr.dataFlit n b none, Instr.idleFlit n b none, Instr.nak n b none, Instr.timeFlit n b none]) :
    exec i s = .next { s with part := (s.part.bump (portReg Reg.FAB_PORT_FEC_UNCORR n) 1).sendNak n } := by
  simp only [List.mem_cons, List.not_mem_nil, or_false] at hi
  rcases hi with rfl | rfl | rfl | rfl <;> exact State.live_eq_of hready (Part.receive_damaged b hup _ _)

variable (hgood : flitGood b = true)
include hgood

theorem exec_idleFlit_of_good (hkind : (flitOf b).kind = 1) (k : Nat) :
    exec (.idleFlit n b (some k)) s = .next { s with part := (s.part.flitTaken n b k).pump n } :=
  State.live_eq_of hready (Part.receive_good hup hgood hkind k _)

theorem exec_dataFlit_of_good (hkind : (flitOf b).kind = 0) (k : Nat) :
    exec (.dataFlit n b (some k)) s = .next { s with part := (s.part.flitTaken n b k).dataIn n (flitOf b) } :=
  State.live_eq_of hready (Part.receive_good hup hgood hkind k _)

theorem exec_nak_of_good (hkind : (flitOf b).kind = 2) (k : Nat) :
    exec (.nak n b (some k)) s = .next { s with part := ((s.part.flitTaken n b k).replayed n).pump n } := by
  rw [← Part.replayAll_eq]
  exact State.live_eq_of hready (Part.receive_good hup hgood hkind k _)

theorem exec_timeFlit_of_good (hkind : (flitOf b).kind = 3) (k : Nat) :
    exec (.timeFlit n b (some k)) s = .next { s with part := ((s.part.flitTaken n b k).exchanged n (flitOf b)).pump n } :=
  State.live_eq_of hready (Part.receive_good hup hgood hkind k _)

end

/-- Settles O31: a damaged flit is answered at once (`exec_flit_of_damaged`); a good one is taken (`Part.flitTaken`), and then does what its kind says:
`Part.dataIn_of_packet`, `Part.replayed` and `Part.exchanged` name the part before the port sends what it may. -/
theorem flitsAreTakenOrRefused : Obligations.FlitsAreTakenOrRefused := by
  unfold Obligations.FlitsAreTakenOrRefused
  intro s n b k hready _ hn hup
  have htaken := s.part.onlyPort_flitTaken b n k
  have hport := Part.port_flitTaken b hn k
  have hlen : n < (s.part.flitTaken n b k).fab.ports.length := htaken.length.symm ▸ hn
  refine ⟨fun i hi => ?damaged, fun hgood => ⟨fun x hx hkind hdisorder => ?plain, fun pk rest hkind hseq hvc htake hok hvalid => ?data,
    fun hkind => ?nak, fun hkind => ?time⟩, ?send⟩
  case damaged =>
    have hsent : ((s.part.bump (portReg Reg.FAB_PORT_FEC_UNCORR n) 1).sendNak n).port n = (s.part.port n).flitSent :=
      Part.port_sendFlit (p := s.part.bump _ 1) hn 2 0 0 []
    refine ⟨_, exec_flit_of_damaged hready hup hi, (((Part.OnlyPort.refl s.part).bump List.mem_cons_self).sendFlit).state,
      Part.reg_setReg_self _ _ _, rfl, ?_, ?_, ?_⟩
    all_goals
      rw [hsent]
      rfl
  case plain =>
    refine ⟨{ s with part := s.part.flitTaken n b k }, ?_, htaken.state, rfl, hport, Part.reg_flitTaken b s.part n k⟩
    obtain rfl | rfl : x = (.idleFlit n b (some k), 1) ∨ x = (.dataFlit n b (some k), 0) := by simpa using hx
    · exact exec_idleFlit_of_good hready hup hgood hkind k
    · have hlate : (flitOf b).seq ≠ ((s.part.flitTaken n b k).port n).rxSeq := by
        rw [hport, Port.rxSeq_brought]
        exact hdisorder rfl
      rw [State.act, ← Part.dataIn_of_disorder hlate]
      exact exec_dataFlit_of_good hready hup hgood hkind k
  case data =>
    have hvalid' : (s.part.flitTaken n b k).fabValid = true := by
      rw [← hvalid]
      exact congrArg (bitOf · 14) (Part.regN_setReg_ne _ _ (portReg_above _ (by decide) n))
    have haccept : (s.part.flitTaken n b k).dataIn n (flitOf b) = _ :=
      Part.dataIn_of_packet (by rw [hport, Port.rxSeq_brought, hseq]) hvc (by rw [hport, Port.rx_brought, htake]) hok hvalid'
    have hself := Part.port_accepted (flitOf b) pk rest hlen
    rw [hport] at hself
    refine ⟨{ s with part := (s.part.flitTaken n b k).accepted n (flitOf b) pk rest }, ?exec, ?transit, ?seq, ?credits, ?replay, ?owe, rfl,
      fun _ => rfl, fun _ _ => rfl, fun o ho => ?regs, ?count⟩
    case exec =>
      rw [State.act, ← haccept]
      exact exec_dataFlit_of_good hready hup hgood hkind k
    case transit =>
      have hbuffers : ((s.part.flitTaken n b k).port n).rxFlits = (s.part.port n).rxFlits := by rw [hport, Port.rxFlits_brought]
      rw [← hbuffers]
      rfl
    case seq =>
      rw [hself, Port.completed, Port.rxSeq_brought]
    case credits | replay | owe =>
      rw [hself]
      rfl
    case regs =>
      simp only [List.mem_cons, List.not_mem_nil, or_false, not_or] at ho
      obtain ⟨hfec, hpkt, hbyte⟩ := ho
      exact (Part.reg_accepted_ne _ _ _ hpkt hbyte).trans (htaken.regs o (by simpa using hfec))
    case count =>
      have hpkt : (s.part.flitTaken n b k).regN (portReg Reg.FAB_PORT_PKT_RX n) = s.part.regN (portReg Reg.FAB_PORT_PKT_RX n) :=
        congrArg BitVec.toNat (htaken.regs _ 
          (by simpa using portReg_ne (r := Reg.FAB_PORT_PKT_RX) (r' := Reg.FAB_PORT_FEC_CORR) n rfl (by decide)))
      rw [Part.regN_accepted_pkt, hpkt]
  case nak =>
    have honly := (htaken.mono (List.cons_subset_cons _ (List.nil_subset [portReg Reg.FAB_PORT_REPLAY n]))).trans
      (Part.onlyPort_replayed.mono (List.subset_cons_self _ _))
    have hreg : (s.part.flitTaken n b k).reg (portReg Reg.FAB_PORT_REPLAY n) = s.part.reg (portReg Reg.FAB_PORT_REPLAY n) :=
      Part.reg_setReg_ne _ _ (portReg_ne n rfl (by decide))
    have hcounted := Part.reg_replayed (p := s.part.flitTaken n b k) (n := n)
    have hreplay := Part.replay_replayed hlen
    obtain ⟨l, hout, hcount, howes⟩ := Part.out_replayed hlen
    rw [hport] at hcounted hreplay hcount howes
    rw [hreg] at hcounted
    refine ⟨{ s with part := (s.part.flitTaken n b k).replayed n }, l, exec_nak_of_good hready hup hgood hkind k, honly.state, hout, hcount, hreplay,
      fun hnone => ?_, hcounted⟩
    have hnone' : (Port.brought s.part.tim.interval (flitOf b) (s.part.port n)).owesNone := by
      rw [Port.owesNone, Port.owe_brought]
      exact hnone
    have hl := howes hnone'
    rw [Port.rxSeq_brought] at hl
    exact hl
  case time =>
    obtain ⟨g, w, hframe⟩ := Part.exchanged_frame (p := s.part.flitTaken n b k) (n := n) (f := flitOf b)
    refine ⟨{ s with part := (s.part.flitTaken n b k).exchanged n (flitOf b) }, exec_timeFlit_of_good hready hup hgood hkind k, ?_, ?_, fun hother => ?_,
      fun hparent hsent hahead hfits => ?_⟩
    · rw [hframe]
      rfl
    · rw [hframe]
      refine (Part.port_onPort_self hlen _).trans ?_
      rw [hport]
      rfl
    · rw [Part.exchanged_of_other (mt (s.part.hearsParent_flitTaken n b k).mp hother)]
      exact htaken.onPort.state
    · rw [Part.exchanged_of_ahead ((s.part.hearsParent_flitTaken n b k).mpr hparent) hsent hahead]
      refine ⟨Part.regN_slewing_offset _ _ hahead hfits, rfl, rfl, ?_⟩
      rw [Part.regN, Part.reg_slewing _ _ _ (by decide)]
      exact Part.bitOf_andNotReg_self _ _ (by decide) rfl
  case send =>
    exact ⟨_, State.live_eq_of hready (Part.timeOut_of_up hup), (Part.OnlyPort.refl s.part).sendFlit.state, rfl⟩

end Sys2Proof.Machine

/-! ## Beat monitors, calibration and the rate table -/

namespace Sys2Proof.Machine
open Sys2Proof

/-! ### Where the registers of pace lie (12 R359 R372, 09 R291) -/

theorem bmon_eq (d i : Nat) : bmon d i = 0x1002100 + 0x400000 * d + 8 * i := by simp [bmon, RegRow.at, Reg.TRV_BMON, Nat.add_assoc]
theorem Reg.at_pceDemand (d : Nat) : Reg.PCE_DEMAND.at [d] = 0x401108 + 0x20 * d := by simp [RegRow.at, Reg.PCE_DEMAND]
theorem Reg.at_pceTemp (d : Nat) : Reg.PCE_TEMP.at [d] = 0x40110C + 0x20 * d := by simp [RegRow.at, Reg.PCE_TEMP]

/-! ### A loop of which one round matters -/

/-- Where the rounds of all but `a` lead only to what stands in `R`, so do the loop up to the round of `a` and the loop from there on. -/
theorem forEach_round {α β : Type} {l : List α} {f : α → β → β} {R : β → β → Prop} {a : α} (hrefl : ∀ q, R q q)
    (htrans : ∀ {x y z}, R x y → R y z → R x z) (hl : l.Nodup) (ha : a ∈ l) (hk : ∀ b ∈ l, b ≠ a → ∀ q, R q (f b q)) (q : β) :
    ∃ q', R q q' ∧ R (f a q') (forEach l f q) := by
  induction l generalizing q with
  | nil => nomatch ha
  | cons b l ih =>
    obtain ⟨hb, hl⟩ := List.nodup_cons.mp hl
    rw [forEach_cons]
    by_cases hba : b = a
    · subst hba
      exact ⟨q, hrefl q, forEach_keeps (hrefl _) fun c hc x hx => htrans hx (hk c (List.mem_cons_of_mem _ hc) (ne_of_mem_of_not_mem hc hb) x)⟩
    · obtain ⟨q', hq', hround⟩ := ih hl ((List.mem_cons.mp ha).resolve_left (Ne.symm hba)) (fun c hc => hk c (List.mem_cons_of_mem _ hc)) (f b q)
      exact ⟨q', htrans (hk b List.mem_cons_self hba q) hq', hround⟩

/-! ### The least rate and the hottest bay (12 R357 R372) -/

theorem foldl_min_eq {l : List Nat} {a : Nat} : l.foldl min a ∈ a :: l ∧ ∀ x ∈ a :: l, l.foldl min a ≤ x :=
  List.min?_eq_some_iff.mp (List.min?_cons' (x := a) (xs := l))

theorem hottest_concat (l : List Nat) (t : Nat) : hottest (l ++ [t]) = if (hottest l).1 < t then (t, l.length) else hottest l := by
  simp only [hottest, List.zipIdx_append, List.foldl_append, List.zipIdx_singleton, Nat.zero_add, List.foldl_cons, List.foldl_nil]
  rfl

/-- The hottest bay is the first that no bay exceeds. -/
theorem hottest_spec (l : List Nat) : l.getD (hottest l).2 0 = (hottest l).1 ∧ (∀ j, l.getD j 0 ≤ (hottest l).1) ∧
    (∀ j < (hottest l).2, l.getD j 0 < (hottest l).1) ∧ (hottest l).2 ≤ l.length - 1 := by
  induction l using List.reverseRecOn with
  | nil => simp [hottest]
  | append_singleton l t ih =>
    obtain ⟨hat, hmost, hfirst, hlen⟩ := ih
    have hget : ∀ j, (l ++ [t]).getD j 0 = if j = l.length then t else l.getD j 0 := fun j => by
      rcases Nat.lt_trichotomy j l.length with h | h | h
      · rw [if_neg (Nat.ne_of_lt h), List.getD_append _ _ _ _ h]
      · rw [if_pos h, h, List.getD_append_right _ _ _ _ (Nat.le_refl _), Nat.sub_self, List.getD_cons_zero]
      · rw [if_neg (Nat.ne_of_gt h), List.getD_eq_default _ _ (Nat.le_of_lt h), List.getD_eq_default _ _ (by simp; omega)]
    simp only [hottest_concat, hget, List.length_append, List.length_singleton]
    split
    next hlt =>
      refine ⟨if_pos rfl, fun j => ?_, fun j hj => ?_, Nat.le_refl _⟩
      · have := hmost j
        split <;> omega
      · have := hmost j
        rw [if_neg (Nat.ne_of_lt hj)]
        exact Nat.lt_of_le_of_lt this hlt
    next hge =>
      refine ⟨?_, fun j => ?_, fun j hj => ?_, by omega⟩
      · split
        next h =>
          rw [h, List.getD_eq_default _ _ (Nat.le_refl _)] at hat
          omega
        next => exact hat
      · have := hmost j
        split <;> omega
      · rw [if_neg (by omega)]
        exact hfirst j hj

/-! ### One monitor's report (12 R357 R359, 15 R472) -/

theorem monitorRate_lt (ratio loops : Nat) : monitorRate ratio loops < 2 ^ 16 := by
  unfold monitorRate
  split
  · exact (Config.rawRate loops).isLt
  · omega

/-- The rate that bay `i` of die `d` shows for a loop count. -/
def Part.bayRate (p : Part) (d i loops : Nat) : Nat := match p.bayClamp d i with
  | some w => fld w 2 16
  | none => monitorRate (p.regFld (bmon d i) 32 16) loops

/-- The temperature + 40 that bay `i` of die `d` shows. -/
def Part.bayTemp (p : Part) (d i temp : Nat) : Nat := match p.bayClamp d i with
  | some w => fld w 18 8
  | none => temp % 256

theorem Part.bayRate_lt (p : Part) (d i loops : Nat) : p.bayRate d i loops < 2 ^ 16 := by
  unfold Part.bayRate
  split
  · exact fld_lt _ _ _
  · exact monitorRate_lt _ _

theorem Part.bayTemp_lt (p : Part) (d i temp : Nat) : p.bayTemp d i temp < 256 := by
  unfold Part.bayTemp
  split
  · exact fld_lt _ _ _
  · exact Nat.mod_lt _ (by decide)

section
variable (p : Part) (d i loops temp : Nat)

theorem Part.onlyRegs_showBay : p.OnlyRegs (p.showBay d i loops temp) := by
  unfold Part.showBay
  split
  · exact (OnlyRegs.refl p).setFld.setFld
  · exact (OnlyRegs.refl p).setFld.setFld.setFld

theorem Part.reg_showBay_ne {o : Nat} (h : o ≠ bmon d i) : (p.showBay d i loops temp).reg o = p.reg o := by
  have hset {q : Part} {lo len v : Nat} : (q.setFld (bmon d i) lo len v).reg o = q.reg o := Part.reg_setReg_ne _ _ h
  unfold Part.showBay
  split
  · rw [hset, hset]
  · rw [Part.monitor, hset, hset, hset]

theorem Part.regFld_showBay_rate : (p.showBay d i loops temp).regFld (bmon d i) 0 16 = p.bayRate d i loops := by
  cases h : p.bayClamp d i with
  | some w =>
    simp only [Part.showBay, Part.bayRate, h]
    rw [Part.regFld_setFld_apart _ _ _ (by decide) (by decide), Part.regFld_setFld_self _ _ (by decide) (fld_lt _ _ _)]
  | none =>
    simp only [Part.showBay, Part.bayRate, h, Part.monitor]
    rw [Part.regFld_setFld_apart _ _ _ (by decide) (by decide), Part.regFld_setFld_apart _ _ _ (by decide) (by decide),
      Part.regFld_setFld_self _ _ (by decide) (monitorRate_lt _ _)]

theorem Part.regFld_showBay_temp : (p.showBay d i loops temp).regFld (bmon d i) 48 8 = p.bayTemp d i temp := by
  cases h : p.bayClamp d i with
  | some w =>
    simp only [Part.showBay, Part.bayTemp, h]
    exact Part.regFld_setFld_self _ _ (by decide) (fld_lt _ _ _)
  | none =>
    simp only [Part.showBay, Part.bayTemp, h, Part.monitor]
    exact Part.regFld_setFld_mod _ _ _ (by decide)

theorem Part.regFld_showBay_least (h : p.bayClamp d i = none) : (p.showBay d i loops temp).regFld (bmon d i) 16 16 =
    if p.regFld (bmon d i) 16 16 = 0 then p.bayRate d i loops else min (p.regFld (bmon d i) 16 16) (p.bayRate d i loops) := by
  have hlt := monitorRate_lt (p.regFld (bmon d i) 32 16) loops
  simp only [Part.showBay, Part.bayRate, h, Part.monitor]
  rw [Part.regFld_setFld_apart _ _ _ (by decide) (by decide), Part.regFld_setFld_self _ _ (by decide)]
  split <;> omega

end

/-- The monitors of a die have reported. -/
def Part.reported (p : Part) (d : Nat) (loops temps : List Nat) : Part :=
  forEach (List.range 16) (fun i x => x.showBay d i (loops.getD i 0) (temps.getD i 0)) p

section
variable {p : Part} {d : Nat} (loops temps : List Nat)

theorem Part.onlyRegs_reported : p.OnlyRegs (p.reported d loops temps) :=
  forEach_keeps (.refl p) fun i _ q hq => by
    obtain ⟨r, rfl⟩ := hq
    obtain ⟨r', hr⟩ := Part.onlyRegs_showBay { p with regs := r } d i (loops.getD i 0) (temps.getD i 0)
    exact ⟨r', hr⟩

theorem Part.reg_reported_ne {o : Nat} (h : o ∉ (List.range 16).map (bmon d)) : (p.reported d loops temps).reg o = p.reg o :=
  forEach_leaves (·.reg o) (fun _ hi q => q.reg_showBay_ne _ _ _ _ (ne_of_mem_of_not_mem (List.mem_map_of_mem hi) h).symm) p

/-- What monitor `i` shows is what it reported first-hand. -/
theorem Part.reg_reported {i : Nat} (hi : i < 16) : ∃ q : Part, q.reg (bmon d i) = p.reg (bmon d i) ∧ q.stg = p.stg ∧
    (p.reported d loops temps).reg (bmon d i) = (q.showBay d i (loops.getD i 0) (temps.getD i 0)).reg (bmon d i) := by
  obtain ⟨q, ⟨hreg, hstg⟩, hround, -⟩ := forEach_round (R := fun x y : Part => y.reg (bmon d i) = x.reg (bmon d i) ∧ y.stg = x.stg)
    (f := fun i x => Part.showBay x d i (loops.getD i 0) (temps.getD i 0)) (fun _ => ⟨rfl, rfl⟩)
    (fun h h' => ⟨h'.1.trans h.1, h'.2.trans h.2⟩) List.nodup_range (List.mem_range.mpr hi) (fun j _ hji q => by
      obtain ⟨r, hr⟩ := q.onlyRegs_showBay d j (loops.getD j 0) (temps.getD j 0)
      have hne : bmon d i ≠ bmon d j := by
        rw [bmon_eq, bmon_eq]
        omega
      exact ⟨q.reg_showBay_ne d j _ _ hne, by rw [hr]⟩) p
  exact ⟨q, hreg, hstg, hround⟩

/-- What each monitor shows: its rate, its temperature, its least rate. -/
theorem Part.regFld_reported {i : Nat} (hi : i < 16) :
    (p.reported d loops temps).regFld (bmon d i) 0 16 = p.bayRate d i (loops.getD i 0) ∧
    (p.reported d loops temps).regFld (bmon d i) 48 8 = p.bayTemp d i (temps.getD i 0) ∧
    (p.bayClamp d i = none → (p.reported d loops temps).regFld (bmon d i) 16 16 =
      if p.regFld (bmon d i) 16 16 = 0 then p.bayRate d i (loops.getD i 0) else min (p.regFld (bmon d i) 16 16) (p.bayRate d i (loops.getD i 0))) := by
  obtain ⟨q, hreg, hstg, hround⟩ := Part.reg_reported (p := p) loops temps hi
  have hfld {lo len : Nat} : (p.reported d loops temps).regFld (bmon d i) lo len =
      (q.showBay d i (loops.getD i 0) (temps.getD i 0)).regFld (bmon d i) lo len := Part.regFld_of_reg hround lo len
  have hsame {lo len : Nat} : q.regFld (bmon d i) lo len = p.regFld (bmon d i) lo len := Part.regFld_of_reg hreg lo len
  have hclamp : q.bayClamp d i = p.bayClamp d i := by rw [Part.bayClamp, hstg]; rfl
  have hrate : q.bayRate d i (loops.getD i 0) = p.bayRate d i (loops.getD i 0) := by rw [Part.bayRate, hclamp, hsame]; rfl
  have htemp : q.bayTemp d i (temps.getD i 0) = p.bayTemp d i (temps.getD i 0) := by rw [Part.bayTemp, hclamp]; rfl
  refine ⟨?_, ?_, fun hnone => ?_⟩
  · rw [hfld, Part.regFld_showBay_rate, hrate]
  · rw [hfld, Part.regFld_showBay_temp, htemp]
  · rw [hfld, Part.regFld_showBay_least _ _ _ _ _ (hclamp.trans hnone), hrate, hsame]

end

/-! ### A window (12 R357 R372) -/

/-- The least rate that the monitors of a die show. -/
def Part.leastRate (p : Part) (d : Nat) : Nat := ((List.range 16).map (fun i => p.regFld (bmon d i) 0 16)).foldl min 0xFFFF

/-- The hottest bay that the monitors of a die show. -/
def Part.hottestBay (p : Part) (d : Nat) : Nat × Nat := hottest ((List.range 16).map (fun i => p.regFld (bmon d i) 48 8))

theorem Part.leastRate_le (p : Part) (d : Nat) {i : Nat} (hi : i < 16) : p.leastRate d ≤ p.regFld (bmon d i) 0 16 :=
  foldl_min_eq.2 _ (List.mem_cons_of_mem _ (List.mem_map_of_mem (List.mem_range.mpr hi)))

theorem Part.leastRate_lt (p : Part) (d : Nat) : p.leastRate d < 2 ^ 16 :=
  Nat.lt_of_le_of_lt (foldl_min_eq.2 _ List.mem_cons_self) (by decide)

theorem Part.leastRate_eq (p : Part) (d : Nat) : ∃ i < 16, p.leastRate d = p.regFld (bmon d i) 0 16 := by
  rcases List.mem_cons.mp (foldl_min_eq (l := (List.range 16).map (fun i => p.regFld (bmon d i) 0 16)) (a := 0xFFFF)).1 with h | h
  · have hlow := p.leastRate_le d (i := 0) (by decide)
    have hlt : p.regFld (bmon d 0) 0 16 < 2 ^ 16 := fld_lt _ _ _
    have hmost : p.leastRate d = 0xFFFF := h
    exact ⟨0, by decide, by omega⟩
  · obtain ⟨i, hi, heq⟩ := List.mem_map.mp h
    exact ⟨i, List.mem_range.mp hi, heq.symm⟩

theorem Part.hottestBay_spec (p : Part) (d : Nat) : (p.hottestBay d).2 < 16 ∧ p.regFld (bmon d (p.hottestBay d).2) 48 8 = (p.hottestBay d).1 ∧
    (∀ j < 16, p.regFld (bmon d j) 48 8 ≤ (p.hottestBay d).1) ∧ ∀ j < (p.hottestBay d).2, p.regFld (bmon d j) 48 8 < (p.hottestBay d).1 := by
  obtain ⟨hat, hmost, hfirst, hlen⟩ := hottest_spec ((List.range 16).map (fun i => p.regFld (bmon d i) 48 8))
  have hget : ∀ j < 16, ((List.range 16).map (fun i => p.regFld (bmon d i) 48 8)).getD j 0 = p.regFld (bmon d j) 48 8 := fun j hj => by
    rw [List.getD_eq_getElem _ _ (by simpa using hj), List.getElem_map, List.getElem_range]
  have hbay : (p.hottestBay d).2 < 16 := Nat.lt_of_le_of_lt hlen (by simp)
  refine ⟨hbay, (hget _ hbay).symm.trans hat, fun j hj => ?_, fun j hj => ?_⟩
  · rw [← hget j hj]
    exact hmost j
  · rw [← hget j (hj.trans hbay)]
    exact hfirst j hj

@[simp] theorem Part.reg_onRail (p : Part) (d : Nat) (f : Rail → Rail) (o : Nat) : (p.onRail d f).reg o = p.reg o := rfl

/-- Registers and rails are all that changes. -/
def Part.RegsAndRails (p q : Part) : Prop := ∃ r l, q = { p with regs := r, pce := { p.pce with rails := l } }

theorem Part.OnlyRegs.onRail {p q : Part} {d : Nat} {f : Rail → Rail} (h : p.OnlyRegs q) : p.RegsAndRails (q.onRail d f) := by
  obtain ⟨r, rfl⟩ := h
  exact ⟨_, _, rfl⟩

/-- The die shows its least rate and its hottest bay. -/
def Part.dieShown (p : Part) (d : Nat) : Part :=
  (p.setFld (Reg.PCE_DEMAND.at [d]) 16 16 (p.leastRate d)).setRegN (Reg.PCE_TEMP.at [d]) ((p.hottestBay d).1 + (p.hottestBay d).2 * 256)

theorem Part.onlyRegs_dieShown (p : Part) (d : Nat) : p.OnlyRegs (p.dieShown d) := (OnlyRegs.refl p).setFld.setRegN

theorem Part.reg_dieShown_ne (p : Part) {d o : Nat} (hdem : o ≠ Reg.PCE_DEMAND.at [d]) (htmp : o ≠ Reg.PCE_TEMP.at [d]) :
    (p.dieShown d).reg o = p.reg o := (Part.reg_setReg_ne _ _ htmp).trans (Part.reg_setReg_ne _ _ hdem)

theorem Part.regFld_dieShown_rate (p : Part) (d : Nat) : (p.dieShown d).regFld (Reg.PCE_DEMAND.at [d]) 16 16 = p.leastRate d := by
  have hne : Reg.PCE_DEMAND.at [d] ≠ Reg.PCE_TEMP.at [d] := by rw [Reg.at_pceDemand, Reg.at_pceTemp]; omega
  exact (Part.regFld_setReg_ne _ _ hne _ _).trans (Part.regFld_setFld_self _ _ (by decide) (p.leastRate_lt d))

theorem Part.regFld_dieShown_temp (p : Part) (d : Nat) :
    (p.dieShown d).regFld (Reg.PCE_TEMP.at [d]) 0 8 = (p.hottestBay d).1 ∧ (p.dieShown d).regFld (Reg.PCE_TEMP.at [d]) 8 8 = (p.hottestBay d).2 := by
  obtain ⟨hbay, htemp, -, -⟩ := p.hottestBay_spec d
  have hlt : (p.hottestBay d).1 < 256 := htemp ▸ fld_lt _ _ _
  have hword : (p.dieShown d).regN (Reg.PCE_TEMP.at [d]) = (p.hottestBay d).1 + (p.hottestBay d).2 * 256 := Part.regN_setRegN_self _ _ _ (by omega)
  rw [Part.regFld, Part.regFld, hword, fld, fld, Nat.shiftRight_eq_div_pow, Nat.shiftRight_eq_div_pow]
  omega

/-- A window is counted in the period's measurements. -/
def Rail.measured (least : Nat) (r : Rail) : Rail := { r with meas := (r.meas.1 + least, r.meas.2 + 1), fresh := true }

/-- The die once a window has ended. -/
def Part.windowShown (p : Part) (d : Nat) (loops temps : List Nat) : Part :=
  ((p.reported d loops temps).dieShown d).onRail d (Rail.measured ((p.reported d loops temps).leastRate d))

section
variable (p : Part) {d : Nat} (loops temps : List Nat)

theorem Part.monitorWindow_eq (hd : d < 4) : p.monitorWindow d loops temps = p.windowShown d loops temps := if_neg (Nat.not_le.mpr hd)

theorem Part.regsAndRails_windowShown : p.RegsAndRails (p.windowShown d loops temps) := by
  obtain ⟨r, hr⟩ := Part.onlyRegs_reported (p := p) (d := d) loops temps
  obtain ⟨r', hr'⟩ := (p.reported d loops temps).onlyRegs_dieShown d
  have honly : p.OnlyRegs ((p.reported d loops temps).dieShown d) := ⟨r', by rw [hr', hr]⟩
  exact honly.onRail

theorem Part.reg_windowShown (o : Nat) : (p.windowShown d loops temps).reg o = ((p.reported d loops temps).dieShown d).reg o :=
  Part.reg_onRail _ _ _ _

theorem Part.regFld_windowShown_monitor (i lo len : Nat) :
    (p.windowShown d loops temps).regFld (bmon d i) lo len = (p.reported d loops temps).regFld (bmon d i) lo len := by
  refine Part.regFld_of_reg ((p.reg_windowShown loops temps _).trans (Part.reg_dieShown_ne _ ?_ ?_)) lo len
  · rw [Reg.at_pceDemand, bmon_eq]; omega
  · rw [Reg.at_pceTemp, bmon_eq]; omega

theorem Part.regFld_windowShown_rate :
    (p.windowShown d loops temps).regFld (Reg.PCE_DEMAND.at [d]) 16 16 = (p.reported d loops temps).leastRate d :=
  (Part.regFld_of_reg (p.reg_windowShown loops temps _) 16 16).trans ((p.reported d loops temps).regFld_dieShown_rate d)

theorem Part.regFld_windowShown_temp :
    (p.windowShown d loops temps).regFld (Reg.PCE_TEMP.at [d]) 0 8 = ((p.reported d loops temps).hottestBay d).1 ∧
    (p.windowShown d loops temps).regFld (Reg.PCE_TEMP.at [d]) 8 8 = ((p.reported d loops temps).hottestBay d).2 := by
  rw [Part.regFld_of_reg (p.reg_windowShown loops temps _), Part.regFld_of_reg (p.reg_windowShown loops temps _)]
  exact (p.reported d loops temps).regFld_dieShown_temp d

end

/-! ### A calibration (12 R358 R375) -/

theorem Part.rail_onRail_self {p : Part} {d : Nat} (h : d < p.pce.rails.length) (f : Rail → Rail) : (p.onRail d f).rail d = f (p.rail d) := by
  simp [Part.rail, Part.onRail, modAt, h]

theorem Part.rail_onRail_ne (p : Part) {d e : Nat} (h : e ≠ d) (f : Rail → Rail) : (p.onRail d f).rail e = p.rail e := by
  simp [Part.rail, Part.onRail, modAt, h.symm]

/-- The end of a calibration window at time `t`. -/
def Rail.calibrated (t : W64) (r : Rail) : Rail := { r with calAt := t }

/-- The ratios of a calibration window are set. -/
def Part.ratiosSet (p : Part) (d : Nat) (loops : List Nat) : Part :=
  forEach (List.range 16) (fun i x => x.setFld (bmon d i) 32 16 (min 0xFFFF (loops.getD i 0 / 256))) p

theorem Part.onlyRegs_ratiosSet (p : Part) (d : Nat) (loops : List Nat) : p.OnlyRegs (p.ratiosSet d loops) :=
  (OnlyRegs.refl p).forEach fun _ _ hq => hq.setFld

theorem Part.reg_ratiosSet_ne (p : Part) {d o : Nat} (loops : List Nat) (h : o ∉ (List.range 16).map (bmon d)) :
    (p.ratiosSet d loops).reg o = p.reg o :=
  forEach_leaves (·.reg o) (fun _ hi _ => Part.reg_setReg_ne _ _ (ne_of_mem_of_not_mem (List.mem_map_of_mem hi) h).symm) p

theorem Part.regFld_ratiosSet (p : Part) {d i : Nat} (loops : List Nat) (hi : i < 16) :
    (p.ratiosSet d loops).regFld (bmon d i) 32 16 = min 0xFFFF (loops.getD i 0 / 256) := by
  have hlt : min 0xFFFF (loops.getD i 0 / 256) < 2 ^ 16 := Nat.lt_of_le_of_lt (Nat.min_le_left _ _) (by decide)
  have hne : ∀ j, j ≠ i → bmon d i ≠ bmon d j := fun j hji => by
    rw [bmon_eq, bmon_eq]
    omega
  have hself : ∀ q : Part, (q.setFld (bmon d i) 32 16 (min 0xFFFF (loops.getD i 0 / 256))).regFld (bmon d i) 32 16 =
      min 0xFFFF (loops.getD i 0 / 256) := fun q => q.regFld_setFld_self _ (by decide) hlt
  have hother : ∀ j ∈ List.range 16, j ≠ i → ∀ q : Part,
      (q.setFld (bmon d j) 32 16 (min 0xFFFF (loops.getD j 0 / 256))).regFld (bmon d i) 32 16 = q.regFld (bmon d i) 32 16 :=
    fun j _ hji q => Part.regFld_of_reg (Part.reg_setReg_ne _ _ (hne j hji)) 32 16
  have hloop := forEach_decides (f := fun i x => Part.setFld x (bmon d i) 32 16 (min 0xFFFF (loops.getD i 0 / 256)))
    (fun q : Part => q.regFld (bmon d i) 32 16) (List.mem_range.mpr hi) hself hother
  exact hloop p

section
variable {p : Part} {d : Nat} (hd : d < 4) (loops : List Nat)

theorem Part.calibrate_of_early (h : p.calDue d = false) : p.calibrate d loops = p := if_pos (by simp [h])

variable (hdue : p.calDue d = true)
include hd hdue

theorem Part.calibrate_of_clean (hclean : ∀ b, (p.rail d).took = some b → 65536 ≤ (p.reg (Reg.TRV_BEAT.at [d]) - b).toNat) :
    p.calibrate d loops = (p.onRail d (Rail.calibrated p.tim.interval)).ratiosSet d loops := by
  have hnow : (decide (4 ≤ d) || !p.calDue d) = false := by simp [hdue, hd]
  cases htook : (p.rail d).took with
  | none =>
    simp only [Part.calibrate, hnow, htook, Bool.false_eq_true, if_false]
    rfl
  | some b =>
    simp only [Part.calibrate, hnow, htook, Bool.false_eq_true, if_false, Nat.not_lt.mpr (hclean b htook), decide_false]
    rfl

theorem Part.calibrate_of_spoiled {b : W64} (htook : (p.rail d).took = some b) (hspoiled : (p.reg (Reg.TRV_BEAT.at [d]) - b).toNat < 65536) :
    p.calibrate d loops = p.onRail d (Rail.calibrated p.tim.interval) := by
  have hnow : (decide (4 ≤ d) || !p.calDue d) = false := by simp [hdue, hd]
  simp only [Part.calibrate, hnow, htook, Bool.false_eq_true, if_false, hspoiled, decide_true, if_true]
  rfl

end

/-! ### A refresh of the rate table (12 R366) -/

/-- Point `j` of the die's rate table is measured anew. -/
def Part.pointRefreshed (p : Part) (d j : Nat) : Part :=
  (p.setFld (Reg.PCE_TABLE.at [d, j]) 0 16 ((3 * p.regFld (Reg.PCE_TABLE.at [d, j]) 0 16 + p.measured d) / 4)).setFld
    (Reg.PCE_TABLE.at [d, j]) 16 8 (p.hot d)

theorem Part.refreshPoint_of_near {p : Part} {d j : Nat} (hd : d < 4) (hj : j < 15) (hnear : nearPoint (p.ackCode d) = some j)
    (hheld : 10000 ≤ (p.tim.interval - (p.rail d).held).toNat) : p.refreshPoint d j = p.pointRefreshed d j := by
  refine if_neg ?_
  rintro (h | h | h | h)
  · exact absurd hd (Nat.not_lt.mpr h)
  · exact absurd hj (Nat.not_lt.mpr h)
  · exact h hnear
  · exact absurd hheld (Nat.not_le.mpr h)

theorem Part.regFld_pointRefreshed (p : Part) (d j : Nat) :
    (p.pointRefreshed d j).regFld (Reg.PCE_TABLE.at [d, j]) 0 16 = (3 * p.regFld (Reg.PCE_TABLE.at [d, j]) 0 16 + p.measured d) / 4 ∧
    (p.pointRefreshed d j).regFld (Reg.PCE_TABLE.at [d, j]) 16 8 = p.hot d := by
  have hold : p.regFld (Reg.PCE_TABLE.at [d, j]) 0 16 < 2 ^ 16 := fld_lt _ _ _
  have hmeasured : p.measured d < 2 ^ 16 := fld_lt _ _ _
  refine ⟨?_, Part.regFld_setFld_self _ _ (by decide) (fld_lt _ _ _)⟩
  rw [Part.pointRefreshed, Part.regFld_setFld_apart _ _ _ (by decide) (by decide), Part.regFld_setFld_self _ _ (by decide) (by omega)]

/-- Settles O52: a window is what its monitors report (`Part.regFld_reported`) and the least and the hottest of it (`Part.dieShown`); a calibration
that is due is clean or spoiled; a refresh writes one point (`Part.pointRefreshed`). -/
theorem monitorsCalibrateAndReport : Obligations.MonitorsCalibrateAndReport := by
  unfold Obligations.MonitorsCalibrateAndReport
  intro s d loops temps hready hd
  refine ⟨?window, fun hdue hclean => ?clean, fun b htook hspoiled => ?spoiled, fun hearly => ?early, fun j hj hnear hheld => ?refresh⟩
  case window =>
    have hshown := s.part.regFld_windowShown_monitor (d := d) loops temps
    have hrate : ∀ i < 16, (s.part.reported d loops temps).regFld (bmon d i) 0 16 = s.part.bayRate d i (loops.getD i 0) :=
      fun i hi => (Part.regFld_reported loops temps hi).1
    have htemp : ∀ i < 16, (s.part.reported d loops temps).regFld (bmon d i) 48 8 = s.part.bayTemp d i (temps.getD i 0) :=
      fun i hi => (Part.regFld_reported loops temps hi).2.1
    have hleast := s.part.regFld_windowShown_rate (d := d) loops temps
    obtain ⟨hhottest, hwhich⟩ := s.part.regFld_windowShown_temp (d := d) loops temps
    obtain ⟨m, hm, hlow⟩ := (s.part.reported d loops temps).leastRate_eq d
    obtain ⟨hbay, hhot, hmost, hfirst⟩ := (s.part.reported d loops temps).hottestBay_spec d
    obtain ⟨r, l, hframe⟩ := s.part.regsAndRails_windowShown (d := d) loops temps
    refine ⟨{ s with part := s.part.windowShown d loops temps }, State.live_eq_of hready (s.part.monitorWindow_eq loops temps hd),
      ⟨?frame, fun o ho => ?others⟩,
      fun i hi => ⟨(hshown i 0 16).trans (hrate i hi), (hshown i 48 8).trans (htemp i hi), fun hnone => ?least, ?below, ?above⟩,
      ⟨m, hm, hleast.trans (hlow.trans (hrate m hm))⟩, ⟨_, hbay, hwhich, hhottest.trans (hhot.symm.trans (htemp _ hbay)), fun j hj => ?first⟩⟩
    case frame =>
      rw [hframe]
    case others =>
      obtain ⟨hdem, htmp, hmon⟩ : o ≠ Reg.PCE_DEMAND.at [d] ∧ o ≠ Reg.PCE_TEMP.at [d] ∧ o ∉ (List.range 16).map (bmon d) := by
        simpa only [List.mem_cons, not_or] using ho
      exact (s.part.reg_windowShown loops temps o).trans ((Part.reg_dieShown_ne _ hdem htmp).trans (Part.reg_reported_ne loops temps hmon))
    case least => exact (hshown i 16 16).trans ((Part.regFld_reported loops temps hi).2.2 hnone)
    case below =>
      refine Nat.le_trans (Nat.le_of_eq hleast) ?_
      exact (Part.leastRate_le _ d hi).trans (Nat.le_of_eq (hrate i hi))
    case above =>
      refine Nat.le_trans ?_ (Nat.le_of_eq hhottest.symm)
      exact (Nat.le_of_eq (htemp i hi).symm).trans (hmost i hi)
    case first =>
      refine Nat.lt_of_lt_of_le ?_ (Nat.le_of_eq hhottest.symm)
      exact Nat.lt_of_le_of_lt (Nat.le_of_eq (htemp j (hj.trans hbay)).symm) (hfirst j hj)
  case clean =>
    have honly := (s.part.onRail d (Rail.calibrated s.part.tim.interval)).onlyRegs_ratiosSet d loops
    obtain ⟨r, hr⟩ := honly
    refine ⟨{ s with part := (s.part.onRail d (Rail.calibrated s.part.tim.interval)).ratiosSet d loops },
      State.live_eq_of hready (Part.calibrate_of_clean hd loops hdue hclean), ⟨?_, fun o ho => Part.reg_ratiosSet_ne _ _ ho⟩, fun hlen => ?_,
      fun i hi => Part.regFld_ratiosSet _ _ hi⟩
    · rw [hr]
      rfl
    · rw [hr]
      exact congrArg Rail.calAt (Part.rail_onRail_self hlen _)
  case spoiled =>
    cases hdue : s.part.calDue d with
    | false => exact ⟨s, State.live_eq_of hready (Part.calibrate_of_early loops hdue), rfl, fun _ _ => rfl⟩
    | true =>
      exact ⟨{ s with part := s.part.onRail d (Rail.calibrated s.part.tim.interval) },
        State.live_eq_of hready (Part.calibrate_of_spoiled hd loops hdue htook hspoiled), rfl, fun _ _ => rfl⟩
  case early => exact State.live_eq_of hready (Part.calibrate_of_early loops hearly)
  case refresh =>
    have hkeeps {p : Part} {lo len v o : Nat} (ho : o ≠ Reg.PCE_TABLE.at [d, j]) : (p.setFld (Reg.PCE_TABLE.at [d, j]) lo len v).reg o = p.reg o :=
      Part.reg_setReg_ne _ _ ho
    exact ⟨{ s with part := s.part.pointRefreshed d j }, State.live_eq_of hready (Part.refreshPoint_of_near hd hj hnear hheld),
      ⟨rfl, fun o ho => (hkeeps (List.ne_of_not_mem_cons ho)).trans (hkeeps (List.ne_of_not_mem_cons ho)), fun _ => rfl, fun _ _ => rfl⟩,
      s.part.regFld_pointRefreshed d j⟩

end Sys2Proof.Machine

/-! ## The pace controller -/

namespace Sys2Proof.Machine
open Sys2Proof

/-! ### What concerns one die stands (12 R363 to R371) -/

/-- Memories, cores, tasks, the power limit in effect, the part `g` of die `d`'s rail and the registers of `l` are as before. -/
structure Part.KeepsDie {γ : Type} (g : Rail → γ) (l : List Nat) (d : Nat) (p q : Part) : Prop where
  store : p.SameStore q
  stg : q.stg = p.stg
  limit : q.pce.limit = p.pce.limit
  length : q.pce.rails.length = p.pce.rails.length
  rail : g (q.rail d) = g (p.rail d)
  regs : ∀ o ∈ l, q.reg o = p.reg o

namespace Part.KeepsDie

variable {γ : Type} {g : Rail → γ} {l : List Nat} {d e : Nat} {p₀ p q : Part}

theorem refl (p : Part) : p.KeepsDie g l d p := ⟨.refl p, rfl, rfl, rfl, rfl, fun _ _ => rfl⟩

theorem trans (h : p₀.KeepsDie g l d p) (h' : p.KeepsDie g l d q) : p₀.KeepsDie g l d q :=
  ⟨h.store.trans h'.store, h'.stg.trans h.stg, h'.limit.trans h.limit, h'.length.trans h.length, h'.rail.trans h.rail,
    fun o ho => (h'.regs o ho).trans (h.regs o ho)⟩

theorem map {δ : Type} {f : Rail → δ} {l' : List Nat} (h : p₀.KeepsDie id l d p) (hl : l' ⊆ l) : p₀.KeepsDie f l' d p :=
  ⟨h.store, h.stg, h.limit, h.length, congrArg f h.rail, fun o ho => h.regs o (hl ho)⟩

theorem mono {l' : List Nat} (h : p₀.KeepsDie g l d p) (hl : l' ⊆ l) : p₀.KeepsDie g l' d p :=
  ⟨h.store, h.stg, h.limit, h.length, h.rail, fun o ho => h.regs o (hl ho)⟩

theorem ite {c : Prop} [Decidable c] (h : p₀.KeepsDie g l d p) (h' : p₀.KeepsDie g l d q) : p₀.KeepsDie g l d (if c then p else q) := by
  split
  · exact h
  · exact h'

theorem forEach {α : Type} {as : List α} {f : α → Part → Part} (h : p₀.KeepsDie g l d p) (hf : ∀ a ∈ as, ∀ q : Part, q.KeepsDie g l d (f a q)) :
    p₀.KeepsDie g l d (Machine.forEach as f p) :=
  forEach_keeps h fun a ha q hq => hq.trans (hf a ha q)

theorem setReg {o v} (h : p₀.KeepsDie g l d p) (ho : o ∉ l) : p₀.KeepsDie g l d (p.setReg o v) :=
  h.trans ⟨⟨rfl, rfl⟩, rfl, rfl, rfl, rfl, fun _ hj => Part.reg_setReg_ne _ _ (ne_of_mem_of_not_mem hj ho)⟩
theorem setRegN {o v} (h : p₀.KeepsDie g l d p) (ho : o ∉ l) : p₀.KeepsDie g l d (p.setRegN o v) := h.setReg ho
theorem setFld {o lo len v} (h : p₀.KeepsDie g l d p) (ho : o ∉ l) : p₀.KeepsDie g l d (p.setFld o lo len v) := h.setReg ho
theorem orReg {o m} (h : p₀.KeepsDie g l d p) (ho : o ∉ l) : p₀.KeepsDie g l d (p.orReg o m) := h.setReg ho
theorem bump {o n} (h : p₀.KeepsDie g l d p) (ho : o ∉ l) : p₀.KeepsDie g l d (p.bump o n) := h.setReg ho
theorem bumpSat {o n} (h : p₀.KeepsDie g l d p) (ho : o ∉ l) : p₀.KeepsDie g l d (p.bumpSat o n) := h.setReg ho

theorem emit {x} (h : p₀.KeepsDie g l d p) : p₀.KeepsDie g l d (p.emit x) := h.trans ⟨⟨rfl, rfl⟩, rfl, rfl, rfl, rfl, fun _ _ => rfl⟩
theorem onRing {i f} (h : p₀.KeepsDie g l d p) : p₀.KeepsDie g l d (p.onRing i f) := h.trans ⟨⟨rfl, rfl⟩, rfl, rfl, rfl, rfl, fun _ _ => rfl⟩

/-- Another die's rail, or what `g` does not see of this one, may change. -/
theorem onRail {f : Rail → Rail} (h : p₀.KeepsDie g l d p) (hf : e ≠ d ∨ ∀ r, g (f r) = g r) : p₀.KeepsDie g l d (p.onRail e f) := by
  refine h.trans ⟨⟨rfl, rfl⟩, rfl, rfl, modAt_length _ _ _, ?_, fun _ _ => rfl⟩
  rcases hf with hne | hf
  · rw [Part.rail_onRail_ne _ hne.symm]
  · by_cases hed : e = d
    · subst hed
      by_cases hlen : e < p.pce.rails.length
      · rw [Part.rail_onRail_self hlen, hf]
      · simp [Part.rail, Part.onRail, modAt, hlen]
    · rw [Part.rail_onRail_ne _ (Ne.symm hed)]

/-! #### The error log (18 R549) and the records that tell of it (16 R496 to R499) -/

theorem signal {port v} (h : p₀.KeepsDie g l d p) : p₀.KeepsDie g l d (p.signal port v) :=
  ite (h.trans ⟨⟨rfl, rfl⟩, rfl, rfl, rfl, rfl, fun _ _ => rfl⟩) (ite h.emit h)
theorem event {o m} (h : p₀.KeepsDie g l d p) (ho : o ∉ l) : p₀.KeepsDie g l d (p.event o m) := (h.orReg ho).signal.signal
theorem signalRing {i} (h : p₀.KeepsDie g l d p) : p₀.KeepsDie g l d (p.signalRing i) := h.onRing.signal

section
variable (hl : ∀ o ∈ l, 0x400000 ≤ o ∧ o < 0x500000)
include hl

theorem ring_notMem {r : RegRow} (hr : r ∈ recordRows) {i : Nat} (hi : i < 1024) : r.at [i] ∉ l := fun ho => by
  have := hl _ ho
  simp only [recordRows, List.mem_cons, List.not_mem_nil, or_false] at hr
  rcases hr with rfl | rfl | rfl <;> simp [RegRow.at, Reg.HST_CQ_TAIL, Reg.HST_CQ_LOST, Reg.HST_RING_STAT] at this <;> omega

theorem putRecord {i rec} (h : p₀.KeepsDie g l d p) (hi : i < 1024) : p₀.KeepsDie g l d (p.putRecord i rec) := by
  have hring {r : RegRow} (hr : r ∈ recordRows) : r.at [i] ∉ l := ring_notMem hl hr hi
  have hlost : p₀.KeepsDie g l d (p.loseRecord i) := (h.bumpSat (hring (by decide))).event (hring (r := Reg.HST_RING_STAT) (by decide))
  have hwritten {o v f} : p₀.KeepsDie g l d (((p.emit o).setRegN (Reg.HST_CQ_TAIL.at [i]) v).onRing i f) :=
    (h.emit.setRegN (hring (by decide))).onRing
  exact ite hlost (ite (ite hwritten.signalRing hwritten) (ite h.onRing hlost))

theorem putEvent {rec} (h : p₀.KeepsDie g l d p) : p₀.KeepsDie g l d (p.putEvent rec) := ite (h.putRecord hl (fld_lt _ 0 10)) h

theorem log_notMem (r : RegRow) (is : List Nat) (hr : 0x500000 ≤ r.base) : r.at is ∉ l := fun ho => by
  have := hl _ ho
  rw [RegRow.at_eq] at this
  omega

theorem logEntry {x : Report} {handled detected depth : Nat} {program escalated : Bool} {parent : W64} (h : p₀.KeepsDie g l d p) :
    p₀.KeepsDie g l d (p.logEntry x handled detected program escalated depth parent) := by
  have hlog {r : RegRow} {is : List Nat} (hr : 0x500000 ≤ r.base) : r.at is ∉ l := log_notMem hl r is hr
  have hwritten {v : Nat → Nat} : p₀.KeepsDie g l d (Machine.forEach (List.range 8)
      (fun i x => x.setRegN (Reg.ERR_LOG.at [(p.reg (Reg.ERR_SEQ.at [])).toNat % 4096, i]) (v i)) p) :=
    h.forEach fun _ _ q => (refl q).setRegN (hlog (by decide))
  have hroom {v : Nat → Nat} := ((((hwritten (v := v)).bump (n := 1) (hlog (r := Reg.ERR_LOG_RD) (is := []) (by decide))).bumpSat
    (n := 1) (hlog (r := Reg.ERR_LOST) (is := []) (by decide))).event (m := 16) (hlog (r := Reg.ERR_STAT) (is := []) (by decide)))
  exact putEvent hl ((((ite hroom hwritten).setReg (hlog (r := Reg.ERR_SEQ) (by decide))).bump (hlog (r := Reg.ERR_COUNT) (by decide))).event
    (hlog (r := Reg.ERR_STAT) (by decide)))

/-- The controller's own error is CORRECTED: it is logged and does nothing more. -/
theorem paceError (h : p₀.KeepsDie g l d p) : p₀.KeepsDie g l d (p.paceError e) := by
  have hraise : p.paceError e = if p.phase = .blackout then p else p.logEntry ⟨0x0080, 3, e, 0, 0xFF, 0, none, 0, 0⟩ 0 0 false false 0 noParent := by
    simp [Part.paceError, Part.raise, sourceClass]
  rw [hraise]
  exact ite h (h.logEntry hl)

end

end Part.KeepsDie

end Sys2Proof.Machine

/-! ## A snapshot, a control period and the AVSBus transactions (12 R361 to R371) -/

namespace Sys2Proof.Machine
open Sys2Proof

/-! ### Where a rail's registers lie -/

theorem Reg.at_pceRailCfg (d : Nat) : Reg.PCE_RAIL_CFG.at [d] = 0x401100 + 0x20 * d := by simp [RegRow.at, Reg.PCE_RAIL_CFG]
theorem Reg.at_pceEnergy (d : Nat) : Reg.PCE_ENERGY.at [d] = 0x401110 + 0x20 * d := by simp [RegRow.at, Reg.PCE_ENERGY]
theorem Reg.at_pceCmds (d : Nat) : Reg.PCE_CMDS.at [d] = 0x401118 + 0x20 * d := by simp [RegRow.at, Reg.PCE_CMDS]
theorem Reg.at_pceStat : Reg.PCE_STAT.at [] = 0x40100C := rfl
theorem Reg.at_pceTherm : Reg.PCE_THERM.at [] = 0x401008 := rfl
theorem Reg.at_pcePackage : Reg.PCE_PACKAGE_W.at [] = 0x401010 := rfl
theorem Reg.at_pceShort : Reg.PCE_SHORT_COUNT.at [] = 0x401018 := rfl

/-- What the control period of die `d` reads: the package's power and the settings. -/
def paceRegs (d : Nat) : List Nat := [Reg.PCE_PACKAGE_W.at [], Reg.PCE_THERM.at [], Reg.PCE_TEMP.at [d], Reg.PCE_RAIL_CFG.at [d]]

/-- Those and the state of the die's rail. -/
def railRegs (d : Nat) : List Nat := Reg.PCE_RAIL_STAT.at [d] :: paceRegs d

theorem mem_paceRegs {d o : Nat} : o ∈ paceRegs d ↔ o = 0x401010 ∨ o = 0x401008 ∨ o = 0x40110C + 0x20 * d ∨ o = 0x401100 + 0x20 * d := by
  simp only [paceRegs, Reg.at_pcePackage, Reg.at_pceTherm, Reg.at_pceTemp, Reg.at_pceRailCfg, List.mem_cons, List.not_mem_nil, or_false]

theorem mem_railRegs {d o : Nat} : o ∈ railRegs d ↔ o = 0x401104 + 0x20 * d ∨ o ∈ paceRegs d := by
  rw [railRegs, List.mem_cons, Reg.at_pceRailStat]

theorem railRegs_inBlock {d : Nat} (hd : d < 4) : ∀ o ∈ railRegs d, 0x400000 ≤ o ∧ o < 0x500000 := by
  intro o ho
  rw [mem_railRegs, mem_paceRegs] at ho
  omega

theorem paceRegs_subset (d : Nat) : paceRegs d ⊆ railRegs d := List.subset_cons_self _ _

theorem stat_notMem_railRegs (d : Nat) : Reg.PCE_STAT.at [] ∉ railRegs d := by
  rw [mem_railRegs, mem_paceRegs, Reg.at_pceStat]
  omega

theorem short_notMem_railRegs (d : Nat) : Reg.PCE_SHORT_COUNT.at [] ∉ railRegs d := by
  rw [mem_railRegs, mem_paceRegs, Reg.at_pceShort]
  omega

theorem demand_notMem_railRegs (d e : Nat) : Reg.PCE_DEMAND.at [e] ∉ railRegs d := by
  rw [mem_railRegs, mem_paceRegs, Reg.at_pceDemand]
  omega

theorem energy_notMem_railRegs (d e : Nat) : Reg.PCE_ENERGY.at [e] ∉ railRegs d := by
  rw [mem_railRegs, mem_paceRegs, Reg.at_pceEnergy]
  omega

theorem railStat_notMem_paceRegs (d e : Nat) : Reg.PCE_RAIL_STAT.at [e] ∉ paceRegs d := by
  rw [mem_paceRegs, Reg.at_pceRailStat]
  omega

theorem railStat_notMem_railRegs {d e : Nat} (h : e ≠ d) : Reg.PCE_RAIL_STAT.at [e] ∉ railRegs d := by
  rw [mem_railRegs, mem_paceRegs, Reg.at_pceRailStat]
  omega

/-! ### The ceiling and the next code (12 R364 R367) -/

theorem Part.target_le_ceiling (p : Part) (d : Nat) : p.target d ≤ p.ceiling d := by
  unfold Part.target
  split
  · unfold Part.autoTarget
    dsimp only
    generalize hfits : List.find? _ _ = found
    cases found with
    | none => exact Nat.le_refl _
    | some v => exact Nat.le_of_lt_succ (List.mem_range.mp (List.mem_of_find?_eq_some hfits))
  · exact Nat.min_le_right _ _
  · exact Nat.le_refl _

/-- The next code is the acknowledged one or at or below the ceiling. -/
theorem Part.nextCode_le_ceiling (p : Part) (d : Nat) : p.nextCode d = p.ackCode d ∨ p.nextCode d ≤ p.ceiling d := by
  have hkept {v : Nat} (h : v = p.ackCode d ∨ v ≤ p.ceiling d) :
      (if p.slow d v then p.ackCode d else v) = p.ackCode d ∨ (if p.slow d v then p.ackCode d else v) ≤ p.ceiling d := by
    split
    · exact .inl rfl
    · exact h
  refine hkept ?_
  split_ifs with hup hfresh
  · exact .inr ((Nat.min_le_left _ _).trans (p.target_le_ceiling d))
  · exact .inr (Nat.min_le_right _ _)
  · exact .inl rfl

/-! ### What a step leaves of a rail -/

/-- What no command to a rail touches: its ceilings, its failures and its demand. -/
def Rail.judged (r : Rail) : (Nat × Nat) × (Nat × Bool) × (Nat × Nat) × Bool := ((r.therm, r.power), (r.fails, r.bad), r.demand, r.late)

/-- The ceilings of a rail. -/
def Rail.lids (r : Rail) : Nat × Nat := (r.therm, r.power)

/-- The failures of a rail. -/
def Rail.failures (r : Rail) : Nat × Bool := (r.fails, r.bad)

theorem Part.KeepsDie.ceiling {γ : Type} {g : Rail → γ} {l : List Nat} {d : Nat} {p q : Part} (h : p.KeepsDie g l d q)
    (hg : ∀ r r', g r = g r' → r.lids = r'.lids) (hcfg : Reg.PCE_RAIL_CFG.at [d] ∈ l) : q.ceiling d = p.ceiling d := by
  have hlids := hg _ _ h.rail
  simp only [Rail.lids, Prod.mk.injEq] at hlids
  obtain ⟨htherm, hpower⟩ := hlids
  rw [Part.ceiling, Part.ceiling, htherm, hpower, Part.railCfg, Part.railCfg, Part.regFld_of_reg (h.regs _ hcfg)]

/-- Another die, or nothing of this one's rail but what a command may touch. -/
def sparesJudged {γ : Type} (g : Rail → γ) (e d : Nat) : Prop := e ≠ d ∨ ∀ r r', Rail.judged r = Rail.judged r' → g r = g r'

theorem sparesJudged_self (d e : Nat) : sparesJudged Rail.judged e d := .inr fun _ _ h => h

namespace Part.KeepsDie

variable {γ : Type} {g : Rail → γ} {l : List Nat} {d e v : Nat} {p₀ p q : Part}

theorem onCommandedRail {f : Rail → Rail} (h : p₀.KeepsDie g l d p) (hg : sparesJudged g e d) (hf : ∀ r, (f r).judged = r.judged) :
    p₀.KeepsDie g l d (p.onRail e f) := h.onRail (hg.imp_right fun hg r => hg _ _ (hf r))

theorem command (h : p₀.KeepsDie g l d p) (hg : sparesJudged g e d) (hst : Reg.PCE_RAIL_STAT.at [e] ∉ l) : p₀.KeepsDie g l d (p.command e v) :=
  ite h ((h.setFld hst).onCommandedRail (f := fun r => { r with lastCmd := some p.tim.interval, sending := some v, tries := 0 }) hg fun _ => rfl).emit

theorem rise (h : p₀.KeepsDie g l d p) (hg : sparesJudged g e d) (hst : Reg.PCE_RAIL_STAT.at [e] ∉ l) : p₀.KeepsDie g l d (p.rise e v) :=
  ite (h.onCommandedRail hg fun _ => rfl) (ite ((h.command hg hst).onCommandedRail hg fun _ => rfl) (h.onCommandedRail hg fun _ => rfl))

end Part.KeepsDie

/-! ### The code commanded (12 R365 R367) -/

theorem Part.regFld_command (p : Part) (d v : Nat) :
    (p.command d v).regFld (Reg.PCE_RAIL_STAT.at [d]) 0 8 = p.regFld (Reg.PCE_RAIL_STAT.at [d]) 0 8 ∨
    v ≠ p.ackCode d ∧ (p.command d v).regFld (Reg.PCE_RAIL_STAT.at [d]) 0 8 ≤ v := by
  by_cases hstays : v = p.ackCode d ∨ !p.canSend d
  · rw [Part.command, if_pos hstays]
    exact .inl rfl
  · rw [Part.command, if_neg hstays]
    refine .inr ⟨fun h => hstays (.inl h), ?_⟩
    exact (Nat.le_of_eq (p.regFld_setFld_mod _ v (lo := 0) (len := 8) (by decide))).trans (Nat.mod_le _ _)

theorem Part.regFld_rise (p : Part) (d v : Nat) :
    (p.rise d v).regFld (Reg.PCE_RAIL_STAT.at [d]) 0 8 = p.regFld (Reg.PCE_RAIL_STAT.at [d]) 0 8 ∨
    (p.rise d v).regFld (Reg.PCE_RAIL_STAT.at [d]) 0 8 ≤ p.ceiling d := by
  simp only [Part.rise]
  split_ifs with hstays hsend
  · exact .inl rfl
  · exact (p.regFld_command d _).imp_right fun h => h.2.trans (Nat.min_le_right _ _)
  · exact .inl rfl

/-- The demand of the period is shown. -/
def Part.demandShown (p : Part) (d : Nat) : Part :=
  p.setFld (Reg.PCE_DEMAND.at [d]) 0 16 (if (p.rail d).late then 0xFFFF else min 0xFFFF ((p.rail d).demand.1 / max 1 (p.rail d).demand.2))

/-- The next code is commanded. -/
def Part.codeSent (p : Part) (d : Nat) : Part :=
  if p.ackCode d < p.nextCode d then p.rise d (p.nextCode d) else (p.command d (p.nextCode d)).onRail d (fun r => { r with rise := none })

theorem Part.KeepsDie.codeSent {γ : Type} {g : Rail → γ} {l : List Nat} {d e : Nat} {p₀ p : Part} (h : p₀.KeepsDie g l d p) (hg : sparesJudged g e d)
    (hst : Reg.PCE_RAIL_STAT.at [e] ∉ l) : p₀.KeepsDie g l d (p.codeSent e) :=
  ite (h.rise hg hst) ((h.command hg hst).onCommandedRail hg fun _ => rfl)

theorem Part.regFld_codeSent (p : Part) (d : Nat) :
    (p.codeSent d).regFld (Reg.PCE_RAIL_STAT.at [d]) 0 8 = p.regFld (Reg.PCE_RAIL_STAT.at [d]) 0 8 ∨
    (p.codeSent d).regFld (Reg.PCE_RAIL_STAT.at [d]) 0 8 ≤ p.ceiling d := by
  by_cases hup : p.ackCode d < p.nextCode d
  · rw [Part.codeSent, if_pos hup]
    exact p.regFld_rise d _
  · rw [Part.codeSent, if_neg hup]
    exact (p.regFld_command d _).imp_right fun h => h.2.trans ((p.nextCode_le_ceiling d).resolve_left h.1)

/-! ### One rail at the end of a period (12 R358 R371) -/

/-- Beats per microsecond since the last period. -/
def Part.paceRate (p : Part) (d : Nat) : Nat :=
  if (p.tim.interval - p.pce.lastPeriod).toNat = 0 then (p.rail d).beatRate
  else (p.reg (Reg.TRV_BEAT.at [d]) - (p.rail d).beatAt).toNat * 1000 / (p.tim.interval - p.pce.lastPeriod).toNat

/-- The failing periods in a row, this one counted (12 R371). -/
def Part.failedPeriods (p : Part) (d : Nat) : Nat := if (p.rail d).bad then (p.rail d).fails + 1 else 0

/-- The next period of a rail of part `p` begins. -/
def Rail.begun (p : Part) (d : Nat) (r : Rail) : Rail :=
  { r with
    demand := (0, 1), late := false, beatAt := p.reg (Reg.TRV_BEAT.at [d]), beatRate := p.paceRate d, meas := (0, 0), bad := false,
    fails := p.failedPeriods d, tries := 0 }

/-- The demand is shown, the code commanded and the next period begun. -/
def Part.railBegun (p : Part) (d : Nat) : Part :=
  let p2 := (p.demandShown d).codeSent d
  (p2.setFld (Reg.PCE_RAIL_STAT.at [d]) 17 1 (decide (p2.regFld (Reg.PCE_RAIL_STAT.at [d]) 0 8 = p2.ceiling d)).toNat).onRail d (Rail.begun p d)

/-- The rates are compared (12 R358). -/
def Part.ratesCompared (p : Part) (d : Nat) : Part :=
  if (p.tim.interval - p.pce.lastPeriod).toNat ≠ 0 ∧ p.calOff d (p.paceRate d) then ((p.railBegun d).orReg (Reg.PCE_STAT.at []) 16).paceError d
  else p.railBegun d

theorem Part.steer_eq (p : Part) (d : Nat) : p.steer d =
    if p.failedPeriods d = 10 then
      ((p.ratesCompared d).setFld (Reg.PCE_RAIL_STAT.at [d]) 16 1 1).paceError d
    else p.ratesCompared d := rfl

section
variable {d : Nat} (hd : d < 4) (p : Part)
include hd

theorem Part.keepsDie_ratesCompared {γ : Type} {g : Rail → γ} (e : Nat) : (p.railBegun e).KeepsDie g (railRegs d) d (p.ratesCompared e) :=
  .ite (((KeepsDie.refl _).orReg (stat_notMem_railRegs d)).paceError (railRegs_inBlock hd)) (.refl _)

theorem Part.keepsDie_steer_of_ne {e : Nat} (he : e ≠ d) : p.KeepsDie id (railRegs d) d (p.steer e) := by
  have hst := railStat_notMem_railRegs he
  have hbegun : p.KeepsDie id (railRegs d) d (p.railBegun e) :=
    ((((KeepsDie.refl p).setFld (demand_notMem_railRegs d e)).codeSent (.inl he) hst).setFld hst).onRail (.inl he)
  have hcompared := hbegun.trans (Part.keepsDie_ratesCompared hd p e)
  rw [Part.steer_eq]
  exact .ite ((hcompared.setFld hst).paceError (railRegs_inBlock hd)) hcompared

/-- After the next period has begun, a rail's own end of a period changes nothing more of it than a flag. -/
theorem Part.keepsDie_railBegun_steer : (p.railBegun d).KeepsDie id (paceRegs d) d (p.steer d) ∧
    (p.steer d).regFld (Reg.PCE_RAIL_STAT.at [d]) 0 8 = (p.railBegun d).regFld (Reg.PCE_RAIL_STAT.at [d]) 0 8 := by
  have hcompared : (p.railBegun d).KeepsDie id (railRegs d) d (p.ratesCompared d) := Part.keepsDie_ratesCompared hd p d
  have hcode := Part.regFld_of_reg (hcompared.regs _ List.mem_cons_self) 0 8
  rw [Part.steer_eq]
  split
  · have herror : ((p.ratesCompared d).setFld (Reg.PCE_RAIL_STAT.at [d]) 16 1 1).KeepsDie id (railRegs d) d _ :=
      (KeepsDie.refl _).paceError (e := d) (railRegs_inBlock hd)
    have hset := (hcompared.mono (paceRegs_subset d)).setFld (lo := 16) (len := 1) (v := 1) (railStat_notMem_paceRegs d d)
    refine ⟨hset.trans (herror.mono (paceRegs_subset d)), ?_⟩
    rw [Part.regFld_of_reg (herror.regs _ List.mem_cons_self), Part.regFld_setFld_apart _ _ _ (by decide) (by decide), hcode]
  · exact ⟨hcompared.mono (paceRegs_subset d), hcode⟩

theorem Part.keepsDie_steer_self (hlen : p.pce.rails.length = 4) :
    p.KeepsDie Rail.lids (paceRegs d) d (p.steer d) ∧ (p.steer d).rail d = Rail.begun p d (((p.demandShown d).codeSent d).rail d) ∧
    ((p.steer d).regFld (Reg.PCE_RAIL_STAT.at [d]) 0 8 = p.regFld (Reg.PCE_RAIL_STAT.at [d]) 0 8 ∨
      (p.steer d).regFld (Reg.PCE_RAIL_STAT.at [d]) 0 8 ≤ p.ceiling d) := by
  obtain ⟨hafter, hcode⟩ := Part.keepsDie_railBegun_steer hd p
  have hshown : p.KeepsDie id (railRegs d) d (p.demandShown d) := (KeepsDie.refl p).setFld (demand_notMem_railRegs d d)
  have hsent : p.KeepsDie Rail.lids (paceRegs d) d ((p.demandShown d).codeSent d) :=
    (hshown.map (paceRegs_subset d)).codeSent (.inr fun _ _ h => congrArg Prod.fst h) (railStat_notMem_paceRegs d d)
  have hbegun : p.KeepsDie Rail.lids (paceRegs d) d (p.railBegun d) :=
    (hsent.setFld (railStat_notMem_paceRegs d d)).onRail (.inr fun _ => rfl)
  have hrail : (p.railBegun d).rail d = Rail.begun p d (((p.demandShown d).codeSent d).rail d) :=
    Part.rail_onRail_self (by simpa using (hsent.length.trans hlen).symm ▸ hd) _
  have hceiling : (p.demandShown d).ceiling d = p.ceiling d := hshown.ceiling (fun _ _ h => congrArg Rail.lids h) (by simp [railRegs, paceRegs])
  refine ⟨hbegun.trans (hafter.map (List.Subset.refl _)), hafter.rail.trans hrail, ?_⟩
  have hkept : (p.railBegun d).regFld (Reg.PCE_RAIL_STAT.at [d]) 0 8 = ((p.demandShown d).codeSent d).regFld (Reg.PCE_RAIL_STAT.at [d]) 0 8 :=
    Part.regFld_setFld_apart _ _ _ (by decide) (by decide)
  rw [hcode, hkept, ← hceiling, ← Part.regFld_of_reg (hshown.regs _ List.mem_cons_self) 0 8]
  exact (p.demandShown d).regFld_codeSent d

end

/-! ### The ceilings at the end of a period (12 R364) -/

/-- The thermal ceiling after a period, from `t`. -/
def Part.nextTherm (p : Part) (d t : Nat) : Nat :=
  if p.regFld (Reg.PCE_THERM.at []) 0 8 + 40 ≤ p.hot d then t - 1
  else if p.hot d < p.regFld (Reg.PCE_THERM.at []) 8 8 + 40 then min 140 (t + 1) else t

/-- The power ceiling after a period of `w` watts under a limit, from `t`. -/
def nextPower (limit w t : Nat) : Nat := if limit < w then t - 1 else if 100 * w < 98 * limit then min 140 (t + 1) else t

/-- The ceilings of a rail of part `p` move. -/
def Rail.moved (p : Part) (d : Nat) (r : Rail) : Rail :=
  { r with therm := p.nextTherm d r.therm, power := nextPower p.pce.limit (p.regFld (Reg.PCE_PACKAGE_W.at []) 0 16) r.power }

theorem Part.moveCeilings_eq (p : Part) (d : Nat) : ∃ m, p.moveCeilings d = (p.onRail d (Rail.moved p d)).orReg (Reg.PCE_STAT.at []) m := by
  simp only [Part.moveCeilings, decide_eq_true_eq]
  exact ⟨_, rfl⟩

theorem Part.keepsDie_moveCeilings {γ : Type} {g : Rail → γ} {d e : Nat} (p : Part) (hg : e ≠ d ∨ ∀ r, g (Rail.moved p e r) = g r) :
    p.KeepsDie g (railRegs d) d (p.moveCeilings e) := by
  obtain ⟨m, hmove⟩ := p.moveCeilings_eq e
  rw [hmove]
  exact ((KeepsDie.refl p).onRail hg).orReg (stat_notMem_railRegs d)

theorem Part.rail_moveCeilings_self {p : Part} {d : Nat} (h : d < p.pce.rails.length) : (p.moveCeilings d).rail d = Rail.moved p d (p.rail d) := by
  obtain ⟨m, hmove⟩ := p.moveCeilings_eq d
  rw [hmove]
  exact Part.rail_onRail_self h _

theorem Part.KeepsDie.nextTherm {γ : Type} {g : Rail → γ} {l : List Nat} {d : Nat} {p q : Part} (h : p.KeepsDie g l d q)
    (hl : [Reg.PCE_THERM.at [], Reg.PCE_TEMP.at [d]] ⊆ l) (t : Nat) : q.nextTherm d t = p.nextTherm d t := by
  have htherm := Part.regFld_of_reg (h.regs _ (hl List.mem_cons_self))
  have htemp := Part.regFld_of_reg (h.regs _ (hl (List.mem_cons_of_mem _ List.mem_cons_self)))
  rw [Part.nextTherm, Part.nextTherm, Part.hot, Part.hot, htherm, htherm, htemp]

/-! ### The end of a control period (12 R363 to R370) -/

/-- The package's power over the rails read, with the fixed rails'. -/
def Part.packageWatts (p : Part) : Nat := 360 + ((List.range 6).map (fun i => p.railMv i * p.pce.amps.getD i 0)).sum / 1000000

/-- The package's power is shown. -/
def Part.wattsShown (p : Part) : Part := p.setRegN (Reg.PCE_PACKAGE_W.at []) (min 0xFFFF p.packageWatts)

theorem Part.regN_wattsShown (p : Part) : p.wattsShown.regN (Reg.PCE_PACKAGE_W.at []) = min 0xFFFF p.packageWatts :=
  Part.regN_setRegN_self _ _ _ (by omega)

theorem Part.keepsDie_wattsShown {γ : Type} {g : Rail → γ} {l : List Nat} (p : Part) (d : Nat) (h : Reg.PCE_PACKAGE_W.at [] ∉ l) :
    p.KeepsDie g l d p.wattsShown := (KeepsDie.refl p).setRegN h

/-- The energy of a rail is counted. -/
def Rail.metered (n : Nat) (r : Rail) : Rail := { r with energy := n }

/-- The energy of rail `d` with that of the period (12 R370). -/
def Part.energyDrawn (p : Part) (d : Nat) : Nat :=
  (p.rail d).energy + p.railMv d * p.pce.amps.getD d 0 * (p.tim.interval - p.pce.lastPeriod).toNat

theorem Part.meter_eq (p : Part) : p.meter = forEach (List.range 4)
    (fun d x => (x.onRail d (Rail.metered (p.energyDrawn d))).setRegN (Reg.PCE_ENERGY.at [d]) (p.energyDrawn d / 10 ^ 9)) p.wattsShown := rfl

theorem Part.keepsDie_meter (p : Part) (d : Nat) : p.wattsShown.KeepsDie Rail.judged (railRegs d) d p.meter := by
  rw [Part.meter_eq]
  exact (KeepsDie.refl _).forEach fun e _ q => ((KeepsDie.refl q).onRail (f := Rail.metered (p.energyDrawn e)) (.inr fun _ => rfl)).setRegN
    (energy_notMem_railRegs d e)

/-- The package is metered and the ceilings moved. -/
def Part.ceilingsMoved (p : Part) : Part := forEach (List.range 4) (fun d x => x.moveCeilings d) p.meter

/-- A die that cannot reach what it needs is told of. -/
def Part.shortTold (p : Part) : Part :=
  if p.paceMode = 0 ∧ (List.range 4).any (fun d => !p.reaches d (p.ceiling d) (p.needed d)) then
    (p.orReg (Reg.PCE_STAT.at []) 1).bump (Reg.PCE_SHORT_COUNT.at []) 1
  else p

/-- Every rail is steered. -/
def Part.railsSteered (p : Part) : Part := forEach (List.range 4) (fun d x => x.steer d) p.ceilingsMoved.shortTold

/-- The next period begins. -/
def Part.periodEnded (p : Part) (t : W64) (limit : Nat) : Part := Part.readRails { p with pce := { p.pce with lastPeriod := t, limit := limit, reads := [] } }

theorem Part.period_eq (p : Part) : p.period = p.railsSteered.periodEnded p.tim.interval (p.regFld (Reg.PWR_LIMIT.at []) 0 11) := by
  rw [Part.railsSteered, Part.shortTold, Part.ceilingsMoved]
  rfl

/-- Nothing but what leaves the part is new. -/
def Part.OnlySends (p q : Part) : Prop := ∃ o, q = { p with out := o }

theorem Part.OnlySends.emit {p q : Part} {x : Output} (h : p.OnlySends q) : p.OnlySends (q.emit x) := by
  obtain ⟨o, rfl⟩ := h
  exact ⟨o ++ [x], rfl⟩

theorem Part.onlySends_readRails (p : Part) : p.OnlySends p.readRails :=
  forEach_keeps (P := p.OnlySends) ⟨p.out, rfl⟩ fun _ _ _ hq => forEach_keeps (P := p.OnlySends) hq fun _ _ _ hx => hx.emit.emit

/-- Die `d` in a control period: metered, its ceilings moved, its rail steered; between these what concerns it stands. -/
theorem Part.railsSteered_rounds (p : Part) {d : Nat} (hd : d < 4) : ∃ q r, p.wattsShown.KeepsDie Rail.judged (railRegs d) d q ∧
    (q.moveCeilings d).KeepsDie id (railRegs d) d r ∧ (r.steer d).KeepsDie id (railRegs d) d p.railsSteered := by
  have hmem : d ∈ List.range 4 := List.mem_range.mpr hd
  obtain ⟨q, hq, hmoved⟩ := forEach_round (R := Part.KeepsDie id (railRegs d) d) (f := fun d x => x.moveCeilings d) KeepsDie.refl KeepsDie.trans
    List.nodup_range hmem (fun e _ he x => x.keepsDie_moveCeilings (.inl he)) p.meter
  have hshort : p.ceilingsMoved.KeepsDie id (railRegs d) d p.ceilingsMoved.shortTold :=
    .ite (((KeepsDie.refl _).orReg (stat_notMem_railRegs d)).bump (short_notMem_railRegs d)) (.refl _)
  obtain ⟨r, hr, hsteered⟩ := forEach_round (R := Part.KeepsDie id (railRegs d) d) (f := fun d x => x.steer d) KeepsDie.refl KeepsDie.trans
    List.nodup_range hmem (fun e _ he x => x.keepsDie_steer_of_ne hd he) p.ceilingsMoved.shortTold
  exact ⟨q, r, (p.keepsDie_meter d).trans (hq.map (List.Subset.refl _)), (hmoved.trans hshort).trans hr, hsteered⟩

theorem Part.KeepsDie.rail_eq {l : List Nat} {d : Nat} {p q : Part} (h : p.KeepsDie id l d q) : q.rail d = p.rail d := h.rail

theorem Part.KeepsDie.any {γ : Type} {g : Rail → γ} {l : List Nat} {d : Nat} {p q : Part} (h : p.KeepsDie g l d q) : p.KeepsDie (fun _ => ()) [] d q :=
  ⟨h.store, h.stg, h.limit, h.length, rfl, fun _ ho => nomatch ho⟩

section
variable (p : Part) {d : Nat} (hd : d < 4) (hlen : p.pce.rails.length = 4)
include hd hlen

/-- Rail `d` comes to its own steering with its ceilings moved and its failures as they were; what concerns it stands from there on. -/
theorem Part.railsSteered_round : ∃ r, p.wattsShown.KeepsDie Rail.failures (railRegs d) d r ∧
    (r.rail d).lids = (p.nextTherm d (p.rail d).therm, nextPower p.pce.limit (min 0xFFFF p.packageWatts) (p.rail d).power) ∧
    r.pce.rails.length = 4 ∧ (r.steer d).KeepsDie id (railRegs d) d p.railsSteered := by
  obtain ⟨q, r, hq, hr, hsteered⟩ := p.railsSteered_rounds hd
  have hmoved : q.KeepsDie Rail.failures (railRegs d) d (q.moveCeilings d) := q.keepsDie_moveCeilings (.inr fun _ => rfl)
  have hbefore : p.wattsShown.KeepsDie Rail.failures (railRegs d) d q :=
    ⟨hq.store, hq.stg, hq.limit, hq.length, congrArg (·.2.1) hq.rail, hq.regs⟩
  have htherm : q.nextTherm d (q.rail d).therm = p.nextTherm d (p.rail d).therm := by
    have hshown : p.KeepsDie id [Reg.PCE_THERM.at [], Reg.PCE_TEMP.at [d]] d p.wattsShown := p.keepsDie_wattsShown d (by
      rw [List.mem_pair, Reg.at_pcePackage, Reg.at_pceTherm, Reg.at_pceTemp]
      omega)
    have hold : (q.rail d).therm = (p.rail d).therm := congrArg (·.1.1) hq.rail
    rw [hq.nextTherm (by simp [railRegs, paceRegs]), hshown.nextTherm (List.Subset.refl _), hold]
  have hpower : nextPower q.pce.limit (q.regFld (Reg.PCE_PACKAGE_W.at []) 0 16) (q.rail d).power =
      nextPower p.pce.limit (min 0xFFFF p.packageWatts) (p.rail d).power := by
    have hold : (q.rail d).power = (p.rail d).power := congrArg (·.1.2) hq.rail
    have hlimit : q.pce.limit = p.pce.limit := hq.limit
    have hwatts : q.regFld (Reg.PCE_PACKAGE_W.at []) 0 16 = min 0xFFFF p.packageWatts := by
      rw [Part.regFld_of_reg (hq.regs _ (by simp [railRegs, paceRegs])), Part.regFld, p.regN_wattsShown]
      exact Nat.mod_eq_of_lt (by omega)
    rw [hold, hlimit, hwatts]
  refine ⟨r, hbefore.trans (hmoved.trans (hr.map (List.Subset.refl _))), ?_, hr.length.trans (hmoved.length.trans (hq.length.trans hlen)), hsteered⟩
  rw [hr.rail_eq, Part.rail_moveCeilings_self (by rw [hq.length]; exact hlen.symm ▸ hd), ← htherm, ← hpower]
  rfl

theorem Part.keepsDie_railsSteered : p.KeepsDie (fun _ => ()) [] d p.railsSteered := by
  obtain ⟨r, hr, -, hr4, hsteered⟩ := p.railsSteered_round hd hlen
  exact (p.keepsDie_wattsShown d List.not_mem_nil).trans (hr.any.trans ((Part.keepsDie_steer_self hd r hr4).1.any.trans hsteered.any))

theorem Part.regN_railsSteered_package : p.railsSteered.regN (Reg.PCE_PACKAGE_W.at []) = min 0xFFFF p.packageWatts := by
  obtain ⟨r, hr, -, hr4, hsteered⟩ := p.railsSteered_round hd hlen
  have hmem : Reg.PCE_PACKAGE_W.at [] ∈ paceRegs d := List.mem_cons_self
  rw [Part.regN, hsteered.regs _ (paceRegs_subset d hmem), (Part.keepsDie_steer_self hd r hr4).1.regs _ hmem, hr.regs _ (paceRegs_subset d hmem)]
  exact p.regN_wattsShown

/-- The rail after its period: a new period, its failing ones counted, its ceilings moved. -/
theorem Part.rail_railsSteered :
    ((p.railsSteered.rail d).demand = (0, 1) ∧ (p.railsSteered.rail d).late = false ∧ (p.railsSteered.rail d).bad = false ∧
      (p.railsSteered.rail d).tries = 0) ∧
    (p.railsSteered.rail d).fails = p.failedPeriods d ∧
    (p.railsSteered.rail d).therm = p.nextTherm d (p.rail d).therm ∧
    (p.railsSteered.rail d).power = nextPower p.pce.limit (min 0xFFFF p.packageWatts) (p.rail d).power := by
  obtain ⟨r, hr, hlids, hr4, hsteered⟩ := p.railsSteered_round hd hlen
  obtain ⟨hkept, hrail, -⟩ := Part.keepsDie_steer_self hd r hr4
  have hfails : r.failedPeriods d = p.failedPeriods d := by
    have hsame : (r.rail d).failures = (p.rail d).failures := hr.rail
    simp only [Rail.failures, Prod.mk.injEq] at hsame
    rw [Part.failedPeriods, Part.failedPeriods, hsame.1, hsame.2]
  have hlast : p.railsSteered.rail d = (r.steer d).rail d := hsteered.rail_eq
  have hmoved : ((r.steer d).rail d).lids = _ := hkept.rail.trans hlids
  simp only [Rail.lids, Prod.mk.injEq] at hmoved
  rw [hlast]
  refine ⟨?_, ?_, hmoved⟩
  · rw [hrail]
    exact ⟨rfl, rfl, rfl, rfl⟩
  · rw [hrail, ← hfails]
    rfl

theorem Part.regFld_railsSteered_code :
    p.railsSteered.regFld (Reg.PCE_RAIL_STAT.at [d]) 0 8 = p.regFld (Reg.PCE_RAIL_STAT.at [d]) 0 8 ∨
    p.railsSteered.regFld (Reg.PCE_RAIL_STAT.at [d]) 0 8 ≤ p.railsSteered.ceiling d := by
  obtain ⟨r, hr, -, hr4, hsteered⟩ := p.railsSteered_round hd hlen
  obtain ⟨hkept, -, hcode⟩ := Part.keepsDie_steer_self hd r hr4
  have hmem : Reg.PCE_RAIL_STAT.at [d] ∈ railRegs d := List.mem_cons_self
  have hbefore : p.KeepsDie id [Reg.PCE_RAIL_STAT.at [d]] d p.wattsShown := p.keepsDie_wattsShown d (by
    rw [List.mem_singleton, Reg.at_pcePackage, Reg.at_pceRailStat]
    omega)
  have hceiling : p.railsSteered.ceiling d = r.ceiling d :=
    (hsteered.ceiling (fun _ _ h => congrArg Rail.lids h) (by simp [railRegs, paceRegs])).trans (hkept.ceiling (fun _ _ h => h) (by simp [paceRegs]))
  rw [hceiling, Part.regFld_of_reg (hsteered.regs _ hmem), ← Part.regFld_of_reg (hbefore.regs _ List.mem_cons_self),
    ← Part.regFld_of_reg (hr.regs _ hmem)]
  exact hcode

end

/-! ### A demand snapshot (12 R361 R362 R367) -/

/-- A demand is kept when it is the largest of the period. -/
def Rail.raised (m : Nat × Nat) (r : Rail) : Rail := { r with demand := if fracLt r.demand m then m else r.demand }

/-- The snapshot's demand is kept, a late one's with the rate at the ceiling. -/
def Part.demandTaken (p : Part) (d : Nat) : Part := match p.dieDemand d with
  | none => (p.onRail d (fun r => { r.raised (p.codeRate d (p.ceiling d), 10000) with late := true })).orReg (Reg.PCE_STAT.at []) 32
  | some m => p.onRail d (Rail.raised m)

/-- The code that a snapshot calls for. -/
def Part.calledCode (p : Part) (d : Nat) : Nat := max (p.nextCode d) ((p.rail d).rise.getD 0)

/-- A snapshot raises the code it calls for. -/
def Part.raisedEarly (p : Part) (d : Nat) : Part := if p.paceMode = 0 ∧ p.ackCode d < p.calledCode d then p.rise d (p.calledCode d) else p

theorem Part.snapshot_eq (p : Part) {d : Nat} (hd : d < 4) : p.snapshot d = (((p.demandTaken d).overruns d).deadlinePreempts d).raisedEarly d :=
  if_neg (Nat.not_le.mpr hd)

theorem Part.pce_overruns (p : Part) (d : Nat) : (p.overruns d).pce = p.pce := by
  rw [Part.overruns]
  refine forEach_leaves (·.pce) (fun _ _ _ => ?_) p
  rfl

theorem Part.reg_overruns (p : Part) (d : Nat) {o : Nat} (h : o ≠ Reg.PCE_OVERRUN.at []) : (p.overruns d).reg o = p.reg o := by
  rw [Part.overruns]
  refine forEach_leaves (·.reg o) (fun _ _ _ => ?_) p
  exact Part.reg_setReg_ne _ _ h

/-- Registers and the pace controller are as before. -/
def Part.SamePace (p q : Part) : Prop := q.regs = p.regs ∧ q.pce = p.pce

theorem Part.SamePace.ite {c : Prop} [Decidable c] {p q q' : Part} (h : p.SamePace q) (h' : p.SamePace q') : p.SamePace (if c then q else q') := by
  split
  · exact h
  · exact h'

/-- A request for pre-emption is the stage's. -/
theorem Part.samePace_askPreempt (p : Part) (anchor : Nat) (claim : Option TaskKey) : p.SamePace (p.askPreempt anchor claim) := by
  unfold Part.askPreempt
  dsimp only
  split
  · exact ⟨rfl, rfl⟩
  · refine .ite ⟨rfl, rfl⟩ ?_
    cases claim with
    | none => exact ⟨rfl, rfl⟩
    | some k => exact ⟨rfl, rfl⟩

theorem Part.samePace_deadlinePreempts (p : Part) (d : Nat) : p.SamePace (p.deadlinePreempts d) := by
  unfold Part.deadlinePreempts
  dsimp only
  split
  · exact ⟨rfl, rfl⟩
  · refine forEach_keeps (P := p.SamePace) ⟨rfl, rfl⟩ fun t _ q hq => ?_
    split
    · obtain ⟨hregs, hpce⟩ := q.samePace_askPreempt _ (some t.key)
      exact ⟨hregs.trans hq.1, hpce.trans hq.2⟩
    · exact hq

/-- What follows the snapshot's demand leaves that demand and the late flag. -/
theorem Part.snapshot_keeps (p : Part) {d : Nat} (hd : d < 4) : ((p.snapshot d).rail d).judged = ((p.demandTaken d).rail d).judged ∧
    (p.snapshot d).reg (Reg.PCE_STAT.at []) = (p.demandTaken d).reg (Reg.PCE_STAT.at []) := by
  obtain ⟨hregs, hpce⟩ := ((p.demandTaken d).overruns d).samePace_deadlinePreempts d
  have hraised : (((p.demandTaken d).overruns d).deadlinePreempts d).KeepsDie Rail.judged [Reg.PCE_STAT.at []] d (p.snapshot d) := by
    rw [p.snapshot_eq hd]
    refine .ite ((KeepsDie.refl _).rise (sparesJudged_self d d) ?_) (.refl _)
    rw [List.mem_singleton, Reg.at_pceRailStat, Reg.at_pceStat]
    omega
  have hrail : (((p.demandTaken d).overruns d).deadlinePreempts d).rail d = (p.demandTaken d).rail d := by
    rw [Part.rail, Part.rail, hpce, Part.pce_overruns]
  have hflag : (((p.demandTaken d).overruns d).deadlinePreempts d).reg (Reg.PCE_STAT.at []) = (p.demandTaken d).reg (Reg.PCE_STAT.at []) :=
    (Part.reg_congr hregs _).trans (Part.reg_overruns _ d (by decide))
  exact ⟨hraised.rail.trans (congrArg Rail.judged hrail), (hraised.regs _ List.mem_cons_self).trans hflag⟩

section
variable {p : Part} {d : Nat} (hd : d < 4) (hlen : p.pce.rails.length = 4)
include hd hlen

theorem Part.snapshot_of_late (h : p.dieDemand d = none) : ((p.snapshot d).rail d).late = true ∧ bitOf ((p.snapshot d).regN (Reg.PCE_STAT.at [])) 5 = true ∧
    ((p.snapshot d).rail d).demand = ((p.rail d).raised (p.codeRate d (p.ceiling d), 10000)).demand := by
  obtain ⟨hjudged, hflag⟩ := p.snapshot_keeps hd
  have htaken : p.demandTaken d = (p.onRail d (fun r => { r.raised (p.codeRate d (p.ceiling d), 10000) with late := true })).orReg
      (Reg.PCE_STAT.at []) 32 := by
    rw [Part.demandTaken, h]
  have hrail : (p.demandTaken d).rail d = { (p.rail d).raised (p.codeRate d (p.ceiling d), 10000) with late := true } := by
    rw [htaken]
    exact Part.rail_onRail_self (hlen.symm ▸ hd) _
  rw [hrail] at hjudged
  refine ⟨congrArg (·.2.2.2) hjudged, ?_, congrArg (·.2.2.1) hjudged⟩
  rw [Part.regN, hflag, htaken]
  exact Part.bitOf_orReg_self _ _ (by decide) rfl

theorem Part.snapshot_of_demand {m : Nat × Nat} (h : p.dieDemand d = some m) : ((p.snapshot d).rail d).late = (p.rail d).late ∧
    ((p.snapshot d).rail d).demand = ((p.rail d).raised m).demand := by
  obtain ⟨hjudged, -⟩ := p.snapshot_keeps hd
  have hrail : (p.demandTaken d).rail d = (p.rail d).raised m := by
    rw [Part.demandTaken, h]
    exact Part.rail_onRail_self (hlen.symm ▸ hd) _
  rw [hrail] at hjudged
  exact ⟨congrArg (·.2.2.2) hjudged, congrArg (·.2.2.1) hjudged⟩

end

/-! ### The parts of a period's end that the rails do not see -/

theorem Part.periodEnded_frame (p : Part) (t : W64) (limit : Nat) : p.SameStore (p.periodEnded t limit) ∧ (p.periodEnded t limit).stg = p.stg ∧
    (p.periodEnded t limit).regs = p.regs ∧ (p.periodEnded t limit).pce = { p.pce with lastPeriod := t, limit := limit, reads := [] } := by
  obtain ⟨o, hsends⟩ := Part.onlySends_readRails { p with pce := { p.pce with lastPeriod := t, limit := limit, reads := [] } }
  rw [Part.periodEnded, hsends]
  exact ⟨⟨rfl, rfl⟩, rfl, rfl, rfl⟩

theorem Part.rail_periodEnded (p : Part) (t : W64) (limit d : Nat) : (p.periodEnded t limit).rail d = p.rail d := by
  obtain ⟨-, -, -, hpce⟩ := p.periodEnded_frame t limit
  rw [Part.rail, hpce]
  rfl

theorem Part.reg_periodEnded (p : Part) (t : W64) (limit o : Nat) : (p.periodEnded t limit).reg o = p.reg o :=
  Part.reg_congr (p.periodEnded_frame t limit).2.2.1 o

theorem Part.ceiling_periodEnded (p : Part) (t : W64) (limit d : Nat) : (p.periodEnded t limit).ceiling d = p.ceiling d := by
  rw [Part.ceiling, Part.ceiling, Part.rail_periodEnded, Part.railCfg, Part.railCfg, Part.regFld_of_reg (p.reg_periodEnded t limit _)]

/-! ### A voltage write that is acknowledged (12 R370) -/

/-- A rail of part `p` whose code `v` is acknowledged. -/
def Rail.acked (p : Part) (d v : Nat) (r : Rail) : Rail :=
  { r with
    sending := none, bad := false, took := some (p.reg (Reg.TRV_BEAT.at [d])), fresh := r.fresh && decide (p.ackCode d ≤ v)
    held := if decide (nearPoint v = nearPoint (p.ackCode d)) && (nearPoint v).isSome then r.held else p.tim.interval }

/-- The acknowledged code is shown and its command counted. -/
def Part.codeAcked (p : Part) (d v : Nat) : Part :=
  ((p.setFld (Reg.PCE_RAIL_STAT.at [d]) 8 8 v).bump (Reg.PCE_CMDS.at [d]) 1).onRail d (Rail.acked p d v)

theorem railStat_ne_cmds (d : Nat) : Reg.PCE_RAIL_STAT.at [d] ≠ Reg.PCE_CMDS.at [d] := by
  rw [Reg.at_pceRailStat, Reg.at_pceCmds]
  omega

theorem railStat_ne_stat (d : Nat) : Reg.PCE_RAIL_STAT.at [d] ≠ Reg.PCE_STAT.at [] := by
  rw [Reg.at_pceRailStat, Reg.at_pceStat]
  omega

theorem Part.reg_codeAcked_ne (p : Part) {d o : Nat} (v : Nat) (ho : o ∉ [Reg.PCE_RAIL_STAT.at [d], Reg.PCE_CMDS.at [d]]) :
    (p.codeAcked d v).reg o = p.reg o := by
  obtain ⟨hst, hcmds⟩ : o ≠ Reg.PCE_RAIL_STAT.at [d] ∧ o ≠ Reg.PCE_CMDS.at [d] := by simpa using ho
  rw [Part.codeAcked, Part.reg_onRail, Part.reg_bump, if_neg hcmds]
  exact Part.reg_setReg_ne _ _ hst

theorem Part.ackCode_codeAcked (p : Part) (d v : Nat) : (p.codeAcked d v).ackCode d = v % 256 := by
  have hkept : (p.codeAcked d v).reg (Reg.PCE_RAIL_STAT.at [d]) = (p.setFld (Reg.PCE_RAIL_STAT.at [d]) 8 8 v).reg (Reg.PCE_RAIL_STAT.at [d]) := by
    rw [Part.codeAcked, Part.reg_onRail, Part.reg_bump, if_neg (railStat_ne_cmds d)]
  rw [Part.ackCode, Part.regFld_of_reg hkept]
  exact Part.regFld_setFld_mod _ _ _ (by decide)

theorem Part.cmds_codeAcked (p : Part) (d v : Nat) :
    (p.codeAcked d v).reg (Reg.PCE_CMDS.at [d]) = p.reg (Reg.PCE_CMDS.at [d]) + 1 := by
  have hbefore : (p.setFld (Reg.PCE_RAIL_STAT.at [d]) 8 8 v).reg (Reg.PCE_CMDS.at [d]) = p.reg (Reg.PCE_CMDS.at [d]) :=
    Part.reg_setReg_ne _ _ (railStat_ne_cmds d).symm
  rw [Part.codeAcked, Part.reg_onRail, Part.reg_bump, if_pos rfl, hbefore]
  rfl

/-! ### A voltage write that fails (12 R370 R371) -/

/-- A failed write of rail `d` is counted and told of; the acknowledged code and everything else in registers stands. -/
structure Part.CountsMiss (p : Part) (d : Nat) (q : Part) : Prop where
  regs : ∀ o ∉ [Reg.PCE_RAIL_STAT.at [d], Reg.PCE_STAT.at []], q.reg o = p.reg o
  ack : q.ackCode d = p.ackCode d
  count : q.regFld (Reg.PCE_RAIL_STAT.at [d]) 18 8 = min 255 (p.regFld (Reg.PCE_RAIL_STAT.at [d]) 18 8 + 1)
  flag : bitOf (q.regN (Reg.PCE_STAT.at [])) 3 = true
  bad : (q.rail d).bad = true
  length : q.pce.rails.length = p.pce.rails.length

/-- The failed write is counted and the rail's period marked. -/
def Part.writeMissed (p : Part) (d : Nat) : Part := (p.avsFailed d).onRail d (fun r => { r with bad := true })

/-- The code `w` leaves again. -/
def Part.codeRetried (p : Part) (d w : Nat) : Part :=
  (((p.writeMissed d).setFld (Reg.PCE_RAIL_STAT.at [d]) 0 8 w).onRail d (fun r => { r with tries := r.tries + 1, sending := some w })).emit
    (.avs d 0 (codeMv w))

/-- The write is given up. -/
def Part.codeGivenUp (p : Part) (d : Nat) : Part := (p.writeMissed d).onRail d (fun r => { r with sending := none })

/-- The code `w` may leave again in place of `v`. -/
def Part.mayRetry (p : Part) (d v w : Nat) : Bool := decide ((p.rail d).tries < 3) && !(w != v && (w == p.ackCode d || p.slow d w))

theorem Part.mayRetry_of_free {p : Part} {d v w : Nat} (hfew : (p.rail d).tries < 3) (hfree : w = v ∨ (w ≠ p.ackCode d ∧ p.slow d w = false)) :
    p.mayRetry d v w = true := by
  rcases hfree with rfl | ⟨hother, hfast⟩
  · simp [Part.mayRetry, hfew]
  · simp [Part.mayRetry, hfew, hother, hfast]

section
variable {p : Part} {d v : Nat} (hd : d < 4) (hsending : (p.rail d).sending = some v)
include hd hsending

theorem Part.avsDone_of_acked : p.avsDone d .write true = p.codeAcked d v := by
  simp only [Part.avsDone, if_neg (Nat.not_le.mpr hd), Part.avsWrite, hsending]
  rfl

theorem Part.avsDone_of_missed : p.avsDone d .write false =
    if p.mayRetry d v (min v (p.ceiling d)) then p.codeRetried d (min v (p.ceiling d)) else p.codeGivenUp d := by
  simp only [Part.avsDone, if_neg (Nat.not_le.mpr hd), Part.avsWrite, hsending, Part.mayRetry, Bool.and_eq_true, decide_eq_true_eq]
  rfl

end

theorem Part.CountsMiss.onRail {p q : Part} {d : Nat} {f : Rail → Rail} (h : p.CountsMiss d q) (hd : d < q.pce.rails.length)
    (hf : ∀ r, (f r).bad = r.bad) : p.CountsMiss d (q.onRail d f) := by
  refine ⟨h.regs, h.ack, h.count, h.flag, ?_, (modAt_length _ _ _).trans h.length⟩
  rw [Part.rail_onRail_self hd, hf, h.bad]

theorem Part.rail_setFld (p : Part) (o lo len v d : Nat) : (p.setFld o lo len v).rail d = p.rail d := by rw [Part.rail, Part.rail, Part.setFld_pce]

theorem Part.pce_avsFailed (p : Part) (d : Nat) : (p.avsFailed d).pce = p.pce := by rw [Part.avsFailed, Part.orReg_pce, Part.setFld_pce]

theorem Part.rail_writeMissed {p : Part} {d : Nat} (hd : d < p.pce.rails.length) : (p.writeMissed d).rail d = { p.rail d with bad := true } := by
  rw [Part.writeMissed, Part.rail_onRail_self (by rw [Part.pce_avsFailed]; exact hd), Part.rail, Part.pce_avsFailed, ← Part.rail]

theorem Part.length_writeMissed (p : Part) (d : Nat) : (p.writeMissed d).pce.rails.length = p.pce.rails.length := by
  rw [← congrArg (·.rails.length) (p.pce_avsFailed d)]
  exact modAt_length _ _ _

theorem Part.countsMiss_writeMissed {p : Part} {d : Nat} (hd : d < p.pce.rails.length) : p.CountsMiss d (p.writeMissed d) := by
  have hkept : (p.writeMissed d).reg (Reg.PCE_RAIL_STAT.at [d]) =
      (p.setFld (Reg.PCE_RAIL_STAT.at [d]) 18 8 (min 255 (p.regFld (Reg.PCE_RAIL_STAT.at [d]) 18 8 + 1))).reg (Reg.PCE_RAIL_STAT.at [d]) := by
    rw [Part.writeMissed, Part.reg_onRail, Part.avsFailed, Part.reg_orReg, if_neg (railStat_ne_stat d)]
  refine ⟨fun o ho => ?_, ?_, ?_, ?_, ?_, p.length_writeMissed d⟩
  · obtain ⟨hst, hflag⟩ : o ≠ Reg.PCE_RAIL_STAT.at [d] ∧ o ≠ Reg.PCE_STAT.at [] := by simpa using ho
    rw [Part.writeMissed, Part.reg_onRail, Part.avsFailed, Part.reg_orReg, if_neg hflag]
    exact Part.reg_setReg_ne _ _ hst
  · rw [Part.ackCode, Part.regFld_of_reg hkept, Part.regFld_setFld_apart _ _ _ (by decide) (by decide), Part.ackCode]
  · rw [Part.regFld_of_reg hkept, Part.regFld_setFld_self _ _ (by decide) (by omega)]
  · rw [Part.writeMissed, Part.regN, Part.reg_onRail, ← Part.regN, Part.avsFailed]
    exact Part.bitOf_orReg_self _ _ (by decide) rfl
  · rw [Part.rail_writeMissed hd]

theorem Part.CountsMiss.commanded {p q : Part} {d w : Nat} (h : p.CountsMiss d q) :
    p.CountsMiss d (q.setFld (Reg.PCE_RAIL_STAT.at [d]) 0 8 w) := by
  refine ⟨fun o ho => ?_, ?_, ?_, ?_, h.bad, h.length⟩
  · exact (Part.reg_setReg_ne _ _ (List.ne_of_not_mem_cons ho)).trans (h.regs o ho)
  · exact (Part.regFld_setFld_apart _ _ _ (by decide) (by decide)).trans h.ack
  · exact (Part.regFld_setFld_apart _ _ _ (by decide) (by decide)).trans h.count
  · exact (congrArg (bitOf · 3) (Part.regN_setReg_ne _ _ (railStat_ne_stat d).symm)).trans h.flag

theorem Part.CountsMiss.emit {p q : Part} {d : Nat} {x : Output} (h : p.CountsMiss d q) : p.CountsMiss d (q.emit x) :=
  ⟨h.regs, h.ack, h.count, h.flag, h.bad, h.length⟩

section
variable {p : Part} {d : Nat} (hd : d < p.pce.rails.length)
include hd

theorem Part.countsMiss_codeRetried (w : Nat) : p.CountsMiss d (p.codeRetried d w) := by
  have hmissed := Part.countsMiss_writeMissed hd
  exact (hmissed.commanded.onRail (f := fun r => { r with tries := r.tries + 1, sending := some w }) (hmissed.length.symm ▸ hd) fun _ => rfl).emit

theorem Part.countsMiss_codeGivenUp : p.CountsMiss d (p.codeGivenUp d) := by
  have hmissed := Part.countsMiss_writeMissed hd
  exact hmissed.onRail (f := fun r => { r with sending := none }) (hmissed.length.symm ▸ hd) fun _ => rfl

theorem Part.rail_codeRetried (w : Nat) : (p.codeRetried d w).rail d = { p.rail d with bad := true, tries := (p.rail d).tries + 1, sending := some w } := by
  have hlen : d < ((p.writeMissed d).setFld (Reg.PCE_RAIL_STAT.at [d]) 0 8 w).pce.rails.length := by
    rw [Part.setFld_pce, p.length_writeMissed]
    exact hd
  rw [Part.codeRetried, Part.rail, Part.emit_pce, ← Part.rail, Part.rail_onRail_self hlen, Part.rail_setFld, Part.rail_writeMissed hd]

theorem Part.rail_codeGivenUp : (p.codeGivenUp d).rail d = { p.rail d with bad := true, sending := none } := by
  rw [Part.codeGivenUp, Part.rail_onRail_self ((p.length_writeMissed d).symm ▸ hd), Part.rail_writeMissed hd]

end

theorem Part.out_codeRetried (p : Part) (d w : Nat) : (p.codeRetried d w).out = p.out ++ [.avs d 0 (codeMv w)] := rfl
theorem Part.out_codeGivenUp (p : Part) (d : Nat) : (p.codeGivenUp d).out = p.out := rfl

/-- Settles O53: a snapshot's demand outlives what follows it (`Part.snapshot_keeps`); a control period is, for one die, a metering, one move of its
ceilings and one steering of its rail (`Part.railsSteered_round`); a write is acknowledged (`Part.codeAcked`) or counted as missed. -/
theorem paceIsControlled : Obligations.PaceIsControlled := by
  unfold Obligations.PaceIsControlled
  intro s d hready hd hlen
  have hd4 : d < s.part.pce.rails.length := hlen.symm ▸ hd
  refine ⟨⟨{ s with part := s.part.snapshot d }, State.live_eq_of hready rfl, Part.snapshot_of_late hd hlen,
    fun m => Part.snapshot_of_demand hd hlen⟩, ?period, fun v hsending => ⟨?acked, ?missed⟩, fun ma _ => ?current⟩
  case period =>
    obtain ⟨hstore, hstg, -, hpce⟩ := s.part.railsSteered.periodEnded_frame s.part.tim.interval (s.part.regFld (Reg.PWR_LIMIT.at []) 0 11)
    have hkept := s.part.keepsDie_railsSteered hd hlen
    have hrail := s.part.railsSteered.rail_periodEnded s.part.tim.interval (s.part.regFld (Reg.PWR_LIMIT.at []) 0 11) d
    have hreg := s.part.railsSteered.reg_periodEnded s.part.tim.interval (s.part.regFld (Reg.PWR_LIMIT.at []) 0 11)
    have hceiling := s.part.railsSteered.ceiling_periodEnded s.part.tim.interval (s.part.regFld (Reg.PWR_LIMIT.at []) 0 11) d
    obtain ⟨⟨hdemand, hlate, hbad, htries⟩, hfails, htherm, hpower⟩ := s.part.rail_railsSteered hd hlen
    refine ⟨{ s with part := s.part.railsSteered.periodEnded s.part.tim.interval (s.part.regFld (Reg.PWR_LIMIT.at []) 0 11) },
      State.live_eq_of hready s.part.period_eq, State.sameBytes_of_store (hkept.store.trans hstore), State.sameCores_of_store (hkept.store.trans hstore),
      hstg.trans hkept.stg, ?_, ?_, ?_, ?_⟩
    · exact (congrArg BitVec.toNat (hreg _)).trans (s.part.regN_railsSteered_package hd hlen)
    · rw [hpce]
    · rw [hpce]
    · rw [hrail, hceiling, Part.regFld_of_reg (hreg _)]
      exact ⟨hdemand, hlate, hbad, htries, hfails, htherm, hpower, s.part.regFld_railsSteered_code hd hlen⟩
  case acked =>
    have hrail : (s.part.codeAcked d v).rail d = Rail.acked s.part d v (s.part.rail d) := Part.rail_onRail_self (by exact hd4) _
    refine ⟨{ s with part := s.part.codeAcked d v }, State.live_eq_of hready (Part.avsDone_of_acked hd hsending),
      fun o ho => s.part.reg_codeAcked_ne v ho, s.part.ackCode_codeAcked d v, s.part.cmds_codeAcked d v, ?_, ?_,
      State.sameBytes_of_store ⟨rfl, rfl⟩, State.sameCores_of_store ⟨rfl, rfl⟩⟩
    · rw [hrail]
      rfl
    · rw [hrail]
      rfl
  case missed =>
    have hdone := Part.avsDone_of_missed hd hsending
    cases hretry : s.part.mayRetry d v (min v (s.part.ceiling d)) with
    | true =>
      rw [hretry, if_pos rfl] at hdone
      obtain ⟨hregs, hack, hcount, hflag, hbad, -⟩ := Part.countsMiss_codeRetried hd4 (min v (s.part.ceiling d))
      have hfew : (s.part.rail d).tries < 3 := of_decide_eq_true (Bool.and_eq_true_iff.mp hretry).1
      have hrail := Part.rail_codeRetried hd4 (min v (s.part.ceiling d))
      refine ⟨{ s with part := s.part.codeRetried d (min v (s.part.ceiling d)) }, State.live_eq_of hready hdone, hregs, hack, hcount, hflag, hbad,
        fun _ _ => ⟨?_, ?_, s.part.out_codeRetried d _⟩, fun hmany => absurd hfew (Nat.not_lt.mpr hmany)⟩
      · rw [hrail]
      · rw [hrail]
    | false =>
      rw [hretry, if_neg Bool.false_ne_true] at hdone
      obtain ⟨hregs, hack, hcount, hflag, hbad, -⟩ := Part.countsMiss_codeGivenUp hd4
      have hrail := Part.rail_codeGivenUp hd4
      refine ⟨{ s with part := s.part.codeGivenUp d }, State.live_eq_of hready hdone, hregs, hack, hcount, hflag, hbad,
        fun hfew hfree => absurd ((Part.mayRetry_of_free hfew hfree).symm.trans hretry) (by decide), fun _ => ⟨?_, s.part.out_codeGivenUp d⟩⟩
      rw [hrail]
  case current =>
    refine ⟨_, State.live_eq_of hready ?_, rfl⟩
    simp only [Part.avsDone, if_neg (Nat.not_le.mpr hd), true_or, if_true, Part.avsRead]

end Sys2Proof.Machine
